-- ==== Sys2Proof/Syntax.lean ====
section
/-! DEFINITION. The syntax of the Fenestay: one constructor for each row of spec/opcode_table.json.
Operands are the fields of the instruction word (R47). The rows without bits are the device's own
steps (95_what_each_step_holds.md): what steps and what arrives stands in State (a Turn of the agenda),
since a constructor of so large a type can hold fields only among the first 244. -/
namespace Sys2Proof

/-- Every instruction and every device step. -/
inductive Instr where
  /-- JAL (R140). -/
  | jal (link : BitVec 5) (off : BitVec 20)
  /-- J (R140). -/
  | j (off : BitVec 20)
  /-- BEQ (R141). -/
  | beq (a : BitVec 5) (b : BitVec 5) (off : BitVec 12)
  /-- BNE (R141). -/
  | bne (a : BitVec 5) (b : BitVec 5) (off : BitVec 12)
  /-- BLT (R141). -/
  | blt (a : BitVec 5) (b : BitVec 5) (off : BitVec 12)
  /-- BGE (R141). -/
  | bge (a : BitVec 5) (b : BitVec 5) (off : BitVec 12)
  /-- BLTU (R141). -/
  | bltu (a : BitVec 5) (b : BitVec 5) (off : BitVec 12)
  /-- BGEU (R141). -/
  | bgeu (a : BitVec 5) (b : BitVec 5) (off : BitVec 12)
  /-- JALR (R142). -/
  | jalr (d : BitVec 5) (a : BitVec 5) (off : BitVec 13)
  /-- JR (R142). -/
  | jr (a : BitVec 5) (off : BitVec 13)
  /-- LOOP (R142). -/
  | loop (d : BitVec 5) (a : BitVec 5) (off : BitVec 13)
  /-- LD_B (R184). -/
  | ldB (d : BitVec 5) (a : BitVec 5) (imm : BitVec 12)
  /-- LD_BU (R184). -/
  | ldBu (d : BitVec 5) (a : BitVec 5) (imm : BitVec 12)
  /-- LD_H (R184). -/
  | ldH (d : BitVec 5) (a : BitVec 5) (imm : BitVec 12)
  /-- LD_HU (R184). -/
  | ldHu (d : BitVec 5) (a : BitVec 5) (imm : BitVec 12)
  /-- LD_W (R184). -/
  | ldW (d : BitVec 5) (a : BitVec 5) (imm : BitVec 12)
  /-- LD_WU (R184). -/
  | ldWu (d : BitVec 5) (a : BitVec 5) (imm : BitVec 12)
  /-- LD_D (R184). -/
  | ldD (d : BitVec 5) (a : BitVec 5) (imm : BitVec 12)
  /-- ST_B (R184). -/
  | stB (d : BitVec 5) (a : BitVec 5) (imm : BitVec 12)
  /-- ST_H (R184). -/
  | stH (d : BitVec 5) (a : BitVec 5) (imm : BitVec 12)
  /-- ST_W (R184). -/
  | stW (d : BitVec 5) (a : BitVec 5) (imm : BitVec 12)
  /-- ST_D (R184). -/
  | stD (d : BitVec 5) (a : BitVec 5) (imm : BitVec 12)
  /-- LDX_B (R184). -/
  | ldxB (d : BitVec 5) (a : BitVec 5) (b : BitVec 5)
  /-- LDX_BU (R184). -/
  | ldxBu (d : BitVec 5) (a : BitVec 5) (b : BitVec 5)
  /-- LDX_H (R184). -/
  | ldxH (d : BitVec 5) (a : BitVec 5) (b : BitVec 5)
  /-- LDX_HU (R184). -/
  | ldxHu (d : BitVec 5) (a : BitVec 5) (b : BitVec 5)
  /-- LDX_W (R184). -/
  | ldxW (d : BitVec 5) (a : BitVec 5) (b : BitVec 5)
  /-- LDX_WU (R184). -/
  | ldxWu (d : BitVec 5) (a : BitVec 5) (b : BitVec 5)
  /-- LDX_D (R184). -/
  | ldxD (d : BitVec 5) (a : BitVec 5) (b : BitVec 5)
  /-- STX_B (R184). -/
  | stxB (d : BitVec 5) (a : BitVec 5) (b : BitVec 5)
  /-- STX_H (R184). -/
  | stxH (d : BitVec 5) (a : BitVec 5) (b : BitVec 5)
  /-- STX_W (R184). -/
  | stxW (d : BitVec 5) (a : BitVec 5) (b : BitVec 5)
  /-- STX_D (R184). -/
  | stxD (d : BitVec 5) (a : BitVec 5) (b : BitVec 5)
  /-- VLD (R185). -/
  | vld (d : BitVec 5) (a : BitVec 5) (imm : BitVec 12)
  /-- VST (R185). -/
  | vst (d : BitVec 5) (a : BitVec 5) (imm : BitVec 12)
  /-- VLDT (R185). -/
  | vldt (d : BitVec 5) (a : BitVec 5) (imm : BitVec 12)
  /-- TMOV (R186). -/
  | tmov (d : BitVec 5) (a : BitVec 5) (b : BitVec 5)
  /-- AMOADD (R298). -/
  | amoadd (d : BitVec 5) (a : BitVec 5) (b : BitVec 5) (far : BitVec 1) (w64 : BitVec 1)
  /-- AMOFADD (R298). -/
  | amofadd (d : BitVec 5) (a : BitVec 5) (b : BitVec 5) (far : BitVec 1)
  /-- AMOSWP (R298). -/
  | amoswp (d : BitVec 5) (a : BitVec 5) (b : BitVec 5) (far : BitVec 1) (w64 : BitVec 1)
  /-- AMOCAS (R298). -/
  | amocas (d : BitVec 5) (a : BitVec 5) (b : BitVec 5) (c : BitVec 5) (far : BitVec 1) (w64 : BitVec 1)
  /-- AMOMIN (R298). -/
  | amomin (d : BitVec 5) (a : BitVec 5) (b : BitVec 5) (far : BitVec 1) (w64 : BitVec 1)
  /-- AMOMAX (R298). -/
  | amomax (d : BitVec 5) (a : BitVec 5) (b : BitVec 5) (far : BitVec 1) (w64 : BitVec 1)
  /-- FENCE (R297). -/
  | fence (cls : BitVec 7)
  /-- MBINC (R216). -/
  | mbinc (b : BitVec 5) (n : BitVec 6)
  /-- MBINC_IMM (R216). -/
  | mbincImm (imm : BitVec 5) (n : BitVec 6)
  /-- MBINC_GLOBAL (R216). -/
  | mbincGlobal (a : BitVec 5) (b : BitVec 5)
  /-- MBINC_GLOBAL_IMM (R216). -/
  | mbincGlobalImm (a : BitVec 5) (imm : BitVec 5)
  /-- MBWAIT (R217). -/
  | mbwait (d : BitVec 5) (a : BitVec 5) (n : BitVec 6)
  /-- MBRD (R218). -/
  | mbrd (d : BitVec 5) (n : BitVec 6)
  /-- MBSET (R218). -/
  | mbset (a : BitVec 5) (n : BitVec 6)
  /-- MBERR (R218). -/
  | mberr (d : BitVec 5) (n : BitVec 6)
  /-- MBERR_C (R218). -/
  | mberrC (d : BitVec 5) (n : BitVec 6)
  /-- BAR_INIT (R304). -/
  | barInit (a : BitVec 5) (b : BitVec 5)
  /-- BAR_ARV (R304). -/
  | barArv (d : BitVec 5) (a : BitVec 5) (b : BitVec 5)
  /-- BAR_DROP (R304). -/
  | barDrop (d : BitVec 5) (a : BitVec 5) (b : BitVec 5)
  /-- BAR_WAIT (R304). -/
  | barWait (d : BitVec 5) (a : BitVec 5) (b : BitVec 5)
  /-- CPY (R211). -/
  | cpy (d : BitVec 5) (a : BitVec 5) (ch : BitVec 2)
  /-- CPY3 (R211). -/
  | cpy3 (d : BitVec 5) (a : BitVec 5) (ch : BitVec 2)
  /-- CWAIT (R212). -/
  | cwait (d : BitVec 5) (a : BitVec 5) (ch : BitVec 2)
  /-- CSTAT (R213). -/
  | cstat (d : BitVec 5) (ch : BitVec 2)
  /-- CSTAT_C (R213). -/
  | cstatC (d : BitVec 5) (ch : BitVec 2)
  /-- PERM (R214). -/
  | perm (d : BitVec 5) (a : BitVec 5)
  /-- RKSET (R144). -/
  | rkset (k : BitVec 5) (a : BitVec 5)
  /-- RKWF (R145). -/
  | rkwf (k : BitVec 5) (n : BitVec 7)
  /-- RKWS (R145). -/
  | rkws (k : BitVec 5) (n : BitVec 7)
  /-- RKADV (R146). -/
  | rkadv (k : BitVec 5) (n : BitVec 7) (w : BitVec 1)
  /-- RKRD (R147). -/
  | rkrd (d : BitVec 5) (k : BitVec 5) (sel : BitVec 2)
  /-- STBIND (R148). -/
  | stbind (t : BitVec 5) (a : BitVec 5) (vec : BitVec 1)
  /-- STUNB (R148). -/
  | stunb (t : BitVec 5) (vec : BitVec 1)
  /-- PARK (R149). -/
  | park (a : BitVec 5)
  /-- UNPARK (R149). -/
  | unpark (a : BitVec 5)
  /-- MZERO (R239). -/
  | mzero (d : BitVec 5)
  /-- MOWN (R238). -/
  | mown (d : BitVec 5) (a : BitVec 5)
  /-- MFREE (R238). -/
  | mfree (a : BitVec 5)
  /-- MMA (R240). -/
  | mma (d : BitVec 5) (a : BitVec 5) (b : BitVec 5)
  /-- MMAR (R240). -/
  | mmar (d : BitVec 5) (a : BitVec 5) (b : BitVec 5)
  /-- MMAR_AK (R240). -/
  | mmarAk (d : BitVec 5) (a : BitVec 5) (b : BitVec 5)
  /-- MMAG (R240). -/
  | mmag (d : BitVec 5) (a : BitVec 5) (b : BitVec 5) (c : BitVec 5)
  /-- MLDC (R241). -/
  | mldc (d : BitVec 5) (a : BitVec 5)
  /-- MDRAIN (R242). -/
  | mdrain (s : BitVec 5) (a : BitVec 5)
  /-- MDRAIN_REG (R242). -/
  | mdrainReg (s : BitVec 5) (d : BitVec 5) (n : BitVec 4)
  /-- MPAR (R239). -/
  | mpar (d : BitVec 5) (a : BitVec 5)
  /-- MSAVE (R243). -/
  | msave (s : BitVec 5) (a : BitVec 5)
  /-- MREST (R243). -/
  | mrest (d : BitVec 5) (a : BitVec 5)
  /-- MSTAT (R244). -/
  | mstat (d : BitVec 5) (s : BitVec 5)
  /-- MSTAT_C (R244). -/
  | mstatC (d : BitVec 5) (s : BitVec 5)
  /-- MWAIT (R245). -/
  | mwait (d : BitVec 5) (a : BitVec 5)
  /-- GAUGE (R265). -/
  | gauge (a : BitVec 5) (n : BitVec 6) (sel : BitVec 2)
  /-- KMMA (R266). -/
  | kmma (d : BitVec 5) (a : BitVec 5) (m : BitVec 8)
  /-- KVAR (R267). -/
  | kvar (d : BitVec 5) (s : BitVec 5)
  /-- KSTAT (R267). -/
  | kstat (d : BitVec 5) (s : BitVec 5)
  /-- SEEDW (R268). -/
  | seedw (n : BitVec 5) (a : BitVec 5)
  /-- SEEDR (R268). -/
  | seedr (d : BitVec 5) (n : BitVec 5)
  /-- MQDEF (R282). -/
  | mqdef (d : BitVec 5) (a : BitVec 5)
  /-- MQLD (R283). -/
  | mqld (d : BitVec 5) (a : BitVec 5) (c : BitVec 5) (b : BitVec 5)
  /-- MQSC (R284). -/
  | mqsc (d : BitVec 5) (a : BitVec 5) (c : BitVec 5) (b : BitVec 5)
  /-- MQZ (R284). -/
  | mqz (a : BitVec 5) (b : BitVec 5)
  /-- MQSTAT (R285). -/
  | mqstat (d : BitVec 5) (a : BitVec 5) (b : BitVec 5)
  /-- SEND (R114). -/
  | send (a : BitVec 5) (oport : BitVec 4) (eret : BitVec 1) (eport : BitVec 3)
  /-- SENDP (R114). -/
  | sendp (a : BitVec 5) (b : BitVec 5) (c : BitVec 5) (oport : BitVec 4)
  /-- HOP (R115). -/
  | hop (a : BitVec 5) (b : BitVec 5)
  /-- KILNRD (R118). -/
  | kilnrd (d : BitVec 5) (sel : BitVec 5)
  /-- LAUNCH (R94). -/
  | launch (a : BitVec 5) (b : BitVec 5)
  /-- LAUNCHI (R94). -/
  | launchi (a : BitVec 5) (b : BitVec 5) (c : BitVec 5)
  /-- ACTNEW (R96). -/
  | actnew (d : BitVec 5) (a : BitVec 5)
  /-- LCHSTAT (R97). -/
  | lchstat (d : BitVec 5) (a : BitVec 5)
  /-- RKPRED (R320). -/
  | rkpred (k : BitVec 5) (a : BitVec 5)
  /-- DFIT (R321). -/
  | dfit (k : BitVec 5) (a : BitVec 5)
  /-- DFTOL (R321). -/
  | dftol (k : BitVec 5) (a : BitVec 5)
  /-- DFSTAT (R322). -/
  | dfstat (d : BitVec 5) (k : BitVec 5)
  /-- ORDT (R323). -/
  | ordt (a : BitVec 5)
  /-- ORDT_READ_NEXT (R323). -/
  | ordtReadNext (d : BitVec 5)
  /-- ORDT_SET_NEXT (R323). -/
  | ordtSetNext (a : BitVec 5)
  /-- ORDT_READ_T (R323). -/
  | ordtReadT (d : BitVec 5)
  /-- ORDSEND (R324). -/
  | ordsend (a : BitVec 5) (b : BitVec 5) (oport : BitVec 4)
  /-- DVCFG (R343). -/
  | dvcfg (d : BitVec 5) (a : BitVec 5) (grp : BitVec 6)
  /-- DVINJ (R344). -/
  | dvinj (d : BitVec 5) (a : BitVec 5)
  /-- DVEXT (R345). -/
  | dvext (d : BitVec 5)
  /-- DVSTAT (R346). -/
  | dvstat (d : BitVec 5) (grp : BitVec 6)
  /-- DVSTAT_C (R346). -/
  | dvstatC (d : BitVec 5) (grp : BitVec 6)
  /-- XPOST (R347). -/
  | xpost (d : BitVec 5) (a : BitVec 5) (n : BitVec 6)
  /-- XSEND (R348). -/
  | xsend (d : BitVec 5) (a : BitVec 5)
  /-- XCC (R349). -/
  | xcc (d : BitVec 5) (a : BitVec 5)
  /-- TRAP (R370). -/
  | trap (imm : BitVec 16)
  /-- BRK (R370). -/
  | brk (imm : BitVec 16)
  /-- WFI (R372). -/
  | wfi (d : BitVec 5) (a : BitVec 5)
  /-- CSRRD (R373). -/
  | csrrd (g : BitVec 5) (csr : BitVec 12)
  /-- CSRWR (R373). -/
  | csrwr (g : BitVec 5) (csr : BitVec 12)
  /-- CSRSW (R373). -/
  | csrsw (g : BitVec 5) (csr : BitVec 12)
  /-- CTXSAVE (R374). -/
  | ctxsave (d : BitVec 5) (a : BitVec 5) (b : BitVec 5)
  /-- CTXREST (R375). -/
  | ctxrest (d : BitVec 5) (a : BitVec 5) (b : BitVec 5)
  /-- CTXREST_ANY (R375). -/
  | ctxrestAny (d : BitVec 5) (a : BitVec 5) (b : BitVec 5)
  /-- WATCH (R376). -/
  | watch (d : BitVec 5) (a : BitVec 5) (b : BitVec 5)
  /-- WINSET (R187). -/
  | winset (d : BitVec 5) (a : BitVec 5) (b : BitVec 5)
  /-- WINSET_READ (R187). -/
  | winsetRead (d : BitVec 5) (a : BitVec 5)
  /-- PROBE (R188). -/
  | probe (d : BitVec 5) (a : BitVec 5)
  /-- TLBI (R189). -/
  | tlbi (a : BitVec 5) (sel : BitVec 2)
  /-- HNEW (R193). -/
  | hnew (d : BitVec 5) (a : BitVec 5) (b : BitVec 5)
  /-- HREV (R194). -/
  | hrev (d : BitVec 5) (a : BitVec 5)
  /-- HCHK (R195). -/
  | hchk (d : BitVec 5) (a : BitVec 5)
  /-- ADD (R134). -/
  | add (d : BitVec 5) (a : BitVec 5) (b : BitVec 5)
  /-- SUB (R134). -/
  | sub (d : BitVec 5) (a : BitVec 5) (b : BitVec 5)
  /-- AND (R134). -/
  | and (d : BitVec 5) (a : BitVec 5) (b : BitVec 5)
  /-- OR (R134). -/
  | or (d : BitVec 5) (a : BitVec 5) (b : BitVec 5)
  /-- XOR (R134). -/
  | xor (d : BitVec 5) (a : BitVec 5) (b : BitVec 5)
  /-- SLL (R134). -/
  | sll (d : BitVec 5) (a : BitVec 5) (b : BitVec 5)
  /-- SRL (R134). -/
  | srl (d : BitVec 5) (a : BitVec 5) (b : BitVec 5)
  /-- SRA (R134). -/
  | sra (d : BitVec 5) (a : BitVec 5) (b : BitVec 5)
  /-- SLT (R134). -/
  | slt (d : BitVec 5) (a : BitVec 5) (b : BitVec 5)
  /-- SLTU (R134). -/
  | sltu (d : BitVec 5) (a : BitVec 5) (b : BitVec 5)
  /-- MUL (R134). -/
  | mul (d : BitVec 5) (a : BitVec 5) (b : BitVec 5)
  /-- MULH (R134). -/
  | mulh (d : BitVec 5) (a : BitVec 5) (b : BitVec 5)
  /-- MULHU (R134). -/
  | mulhu (d : BitVec 5) (a : BitVec 5) (b : BitVec 5)
  /-- DIV (R134). -/
  | div (d : BitVec 5) (a : BitVec 5) (b : BitVec 5)
  /-- DIVU (R134). -/
  | divu (d : BitVec 5) (a : BitVec 5) (b : BitVec 5)
  /-- REM (R134). -/
  | rem (d : BitVec 5) (a : BitVec 5) (b : BitVec 5)
  /-- REMU (R134). -/
  | remu (d : BitVec 5) (a : BitVec 5) (b : BitVec 5)
  /-- MIN (R134). -/
  | min (d : BitVec 5) (a : BitVec 5) (b : BitVec 5)
  /-- MAX (R134). -/
  | max (d : BitVec 5) (a : BitVec 5) (b : BitVec 5)
  /-- MINU (R134). -/
  | minu (d : BitVec 5) (a : BitVec 5) (b : BitVec 5)
  /-- MAXU (R134). -/
  | maxu (d : BitVec 5) (a : BitVec 5) (b : BitVec 5)
  /-- CLZ (R134). -/
  | clz (d : BitVec 5) (a : BitVec 5)
  /-- CTZ (R134). -/
  | ctz (d : BitVec 5) (a : BitVec 5)
  /-- POPC (R134). -/
  | popc (d : BitVec 5) (a : BitVec 5)
  /-- ANDN (R134). -/
  | andn (d : BitVec 5) (a : BitVec 5) (b : BitVec 5)
  /-- ADDI (R135). -/
  | addi (d : BitVec 5) (a : BitVec 5) (imm : BitVec 15)
  /-- ANDI (R135). -/
  | andi (d : BitVec 5) (a : BitVec 5) (imm : BitVec 15)
  /-- ORI (R135). -/
  | ori (d : BitVec 5) (a : BitVec 5) (imm : BitVec 15)
  /-- XORI (R135). -/
  | xori (d : BitVec 5) (a : BitVec 5) (imm : BitVec 15)
  /-- SLLI (R135). -/
  | slli (d : BitVec 5) (a : BitVec 5) (sh : BitVec 6)
  /-- SRLI (R135). -/
  | srli (d : BitVec 5) (a : BitVec 5) (sh : BitVec 6)
  /-- SRAI (R135). -/
  | srai (d : BitVec 5) (a : BitVec 5) (sh : BitVec 6)
  /-- SLTI (R135). -/
  | slti (d : BitVec 5) (a : BitVec 5) (imm : BitVec 14)
  /-- SLTIU (R135). -/
  | sltiu (d : BitVec 5) (a : BitVec 5) (imm : BitVec 14)
  /-- LI (R136). -/
  | li (d : BitVec 5) (imm : BitVec 20)
  /-- LIH (R136). -/
  | lih (d : BitVec 5) (imm : BitVec 20)
  /-- LEA (R137). -/
  | lea (d : BitVec 5) (a : BitVec 5) (b : BitVec 5) (sh : BitVec 3)
  /-- BFX (R138). -/
  | bfx (d : BitVec 5) (a : BitVec 5) (pos : BitVec 6) (len : BitVec 6)
  /-- BFXU (R138). -/
  | bfxu (d : BitVec 5) (a : BitVec 5) (pos : BitVec 6) (len : BitVec 6)
  /-- BFI (R138). -/
  | bfi (d : BitVec 5) (a : BitVec 5) (pos : BitVec 6) (len : BitVec 6)
  /-- SEL (R139). -/
  | sel (d : BitVec 5) (a : BitVec 5) (b : BitVec 5) (c : BitVec 5)
  /-- FADD (R157). -/
  | fadd (d : BitVec 5) (a : BitVec 5) (b : BitVec 5)
  /-- FSUB (R157). -/
  | fsub (d : BitVec 5) (a : BitVec 5) (b : BitVec 5)
  /-- FMUL (R157). -/
  | fmul (d : BitVec 5) (a : BitVec 5) (b : BitVec 5)
  /-- FDIV (R157). -/
  | fdiv (d : BitVec 5) (a : BitVec 5) (b : BitVec 5)
  /-- FSQRT (R157). -/
  | fsqrt (d : BitVec 5) (a : BitVec 5)
  /-- FMIN (R157). -/
  | fmin (d : BitVec 5) (a : BitVec 5) (b : BitVec 5)
  /-- FMAX (R157). -/
  | fmax (d : BitVec 5) (a : BitVec 5) (b : BitVec 5)
  /-- FEQ (R157). -/
  | feq (d : BitVec 5) (a : BitVec 5) (b : BitVec 5)
  /-- FLT (R157). -/
  | flt (d : BitVec 5) (a : BitVec 5) (b : BitVec 5)
  /-- FLE (R157). -/
  | fle (d : BitVec 5) (a : BitVec 5) (b : BitVec 5)
  /-- FABS (R157). -/
  | fabs (d : BitVec 5) (a : BitVec 5)
  /-- FNEG (R157). -/
  | fneg (d : BitVec 5) (a : BitVec 5)
  /-- FTOI (R158). -/
  | ftoi (d : BitVec 5) (a : BitVec 5)
  /-- FTOIU (R158). -/
  | ftoiu (d : BitVec 5) (a : BitVec 5)
  /-- ITOF (R158). -/
  | itof (d : BitVec 5) (a : BitVec 5)
  /-- ITOFU (R158). -/
  | itofu (d : BitVec 5) (a : BitVec 5)
  /-- FCLASS (R159). -/
  | fclass (d : BitVec 5) (a : BitVec 5)
  /-- FMADD (R160). -/
  | fmadd (d : BitVec 5) (a : BitVec 5) (b : BitVec 5) (c : BitVec 5)
  /-- FMSUB (R160). -/
  | fmsub (d : BitVec 5) (a : BitVec 5) (b : BitVec 5) (c : BitVec 5)
  /-- FNMADD (R160). -/
  | fnmadd (d : BitVec 5) (a : BitVec 5) (b : BitVec 5) (c : BitVec 5)
  /-- FNMSUB (R160). -/
  | fnmsub (d : BitVec 5) (a : BitVec 5) (b : BitVec 5) (c : BitVec 5)
  /-- VADD (R161). -/
  | vadd (d : BitVec 5) (a : BitVec 5) (b : BitVec 5) (fwd : BitVec 1)
  /-- VSUB (R161). -/
  | vsub (d : BitVec 5) (a : BitVec 5) (b : BitVec 5) (fwd : BitVec 1)
  /-- VMUL (R161). -/
  | vmul (d : BitVec 5) (a : BitVec 5) (b : BitVec 5) (fwd : BitVec 1)
  /-- VMIN (R161). -/
  | vmin (d : BitVec 5) (a : BitVec 5) (b : BitVec 5) (fwd : BitVec 1)
  /-- VMAX (R161). -/
  | vmax (d : BitVec 5) (a : BitVec 5) (b : BitVec 5) (fwd : BitVec 1)
  /-- VABS (R161). -/
  | vabs (d : BitVec 5) (a : BitVec 5) (fwd : BitVec 1)
  /-- VNEG (R161). -/
  | vneg (d : BitVec 5) (a : BitVec 5) (fwd : BitVec 1)
  /-- VAND (R161). -/
  | vand (d : BitVec 5) (a : BitVec 5) (b : BitVec 5) (fwd : BitVec 1)
  /-- VOR (R161). -/
  | vor (d : BitVec 5) (a : BitVec 5) (b : BitVec 5) (fwd : BitVec 1)
  /-- VXOR (R161). -/
  | vxor (d : BitVec 5) (a : BitVec 5) (b : BitVec 5) (fwd : BitVec 1)
  /-- VIADD (R161). -/
  | viadd (d : BitVec 5) (a : BitVec 5) (b : BitVec 5) (fwd : BitVec 1)
  /-- VISUB (R161). -/
  | visub (d : BitVec 5) (a : BitVec 5) (b : BitVec 5) (fwd : BitVec 1)
  /-- VIMUL (R161). -/
  | vimul (d : BitVec 5) (a : BitVec 5) (b : BitVec 5) (fwd : BitVec 1)
  /-- VCEQ (R161). -/
  | vceq (d : BitVec 5) (a : BitVec 5) (b : BitVec 5) (fwd : BitVec 1)
  /-- VCLT (R161). -/
  | vclt (d : BitVec 5) (a : BitVec 5) (b : BitVec 5) (fwd : BitVec 1)
  /-- VCLE (R161). -/
  | vcle (d : BitVec 5) (a : BitVec 5) (b : BitVec 5) (fwd : BitVec 1)
  /-- VFMA (R162). -/
  | vfma (d : BitVec 5) (a : BitVec 5) (b : BitVec 5) (c : BitVec 5) (fwd : BitVec 1)
  /-- VFMS (R162). -/
  | vfms (d : BitVec 5) (a : BitVec 5) (b : BitVec 5) (c : BitVec 5) (fwd : BitVec 1)
  /-- VFNMA (R162). -/
  | vfnma (d : BitVec 5) (a : BitVec 5) (b : BitVec 5) (c : BitVec 5) (fwd : BitVec 1)
  /-- VFNMS (R162). -/
  | vfnms (d : BitVec 5) (a : BitVec 5) (b : BitVec 5) (c : BitVec 5) (fwd : BitVec 1)
  /-- VSEL (R162). -/
  | vsel (d : BitVec 5) (a : BitVec 5) (b : BitVec 5) (c : BitVec 5) (fwd : BitVec 1)
  /-- VPACK (R163). -/
  | vpack (d : BitVec 5) (a : BitVec 5) (fmt : BitVec 5) (fwd : BitVec 1)
  /-- VUNPK (R163). -/
  | vunpk (d : BitVec 5) (a : BitVec 5) (fmt : BitVec 5) (fwd : BitVec 1)
  /-- VITOF (R164). -/
  | vitof (d : BitVec 5) (a : BitVec 5) (fwd : BitVec 1)
  /-- VFTOI (R164). -/
  | vftoi (d : BitVec 5) (a : BitVec 5) (fwd : BitVec 1)
  /-- VPERM (R165). -/
  | vperm (d : BitVec 5) (a : BitVec 5) (b : BitVec 5) (fwd : BitVec 1)
  /-- VROT (R165). -/
  | vrot (d : BitVec 5) (a : BitVec 5) (n : BitVec 5) (fwd : BitVec 1)
  /-- VRSUM (R166). -/
  | vrsum (d : BitVec 5) (a : BitVec 5) (fwd : BitVec 1)
  /-- VRMAX (R166). -/
  | vrmax (d : BitVec 5) (a : BitVec 5) (fwd : BitVec 1)
  /-- VRMIN (R166). -/
  | vrmin (d : BitVec 5) (a : BitVec 5) (fwd : BitVec 1)
  /-- VRCPE (R167). -/
  | vrcpe (d : BitVec 5) (a : BitVec 5) (fwd : BitVec 1)
  /-- VRSQE (R167). -/
  | vrsqe (d : BitVec 5) (a : BitVec 5) (fwd : BitVec 1)
  /-- VBCAST (R165). -/
  | vbcast (d : BitVec 5) (a : BitVec 5)
  /-- VINS (R165). -/
  | vins (d : BitVec 5) (a : BitVec 5) (n : BitVec 5)
  /-- VEXT (R165). -/
  | vext (d : BitVec 5) (a : BitVec 5) (n : BitVec 5) (fwd : BitVec 1)
  /-- GCOMP (R350). -/
  | gcomp (d : BitVec 5) (a : BitVec 5) (b : BitVec 5)
  /-- CHEND (R297). -/
  | chend
  /-- DONE (R116). -/
  | done
  /-- MASKON (R112). -/
  | maskon
  /-- MASKOFF (R112). -/
  | maskoff
  /-- STEP (R95). -/
  | step
  /-- ACTEND (R96). -/
  | actend
  /-- XRET (R371). -/
  | xret
  /-- XRET_K (R371). -/
  | xretK
  /-- MESSAGE_DELIVERY (R110). -/
  | messageDelivery
  /-- OVERFLOW_RING_RETRY (R110). -/
  | overflowRingRetry
  /-- OVERFLOW_RING_DELIVERY (R110). -/
  | overflowRingDelivery
  /-- CREDIT_RETURN (R19). -/
  | creditReturn
  /-- ISSUE_CHOICE (R102). -/
  | issueChoice
  /-- PRE_EMPTION (R27). -/
  | preEmption
  /-- CHUNK_COMMIT (R288). -/
  | chunkCommit
  /-- ARBITER_TOKEN_GRANT (R292). -/
  | arbiterTokenGrant
  /-- PKT (R92). -/
  | pkt
  /-- ERRSTAT (R91). -/
  | errstat
  /-- LAUNCH_REQUEST (R86). -/
  | launchRequest
  /-- INDIRECT_LAUNCH (R89). -/
  | indirectLaunch
  /-- INDIRECT_LAUNCH_ELIGIBLE (R89). -/
  | indirectLaunchEligible
  /-- END_REQUEST (R90). -/
  | endRequest
  /-- WAITING_LAUNCH_PROCEEDS (R86). -/
  | waitingLaunchProceeds
  /-- LAUNCH_END (R90). -/
  | launchEnd
  /-- STEP_ADVANCE (R87). -/
  | stepAdvance
  /-- DIE_SET_CHANGE (R87). -/
  | dieSetChange
  /-- PLACEMENT_RUN (R98). -/
  | placementRun
  /-- KILN_REPLENISHMENT (R104). -/
  | kilnReplenishment
  /-- KILN_DRAW (R105). -/
  | kilnDraw
  /-- MAC_COUNT_DRAW (R105). -/
  | macCountDraw
  /-- AGING_LIMIT (R101). -/
  | agingLimit
  /-- THERMAL_LIMIT (R107). -/
  | thermalLimit
  /-- THERMAL_LIMIT_CLEAR (R392). -/
  | thermalLimitClear
  /-- MIGRATION_QUIESCE (R108). -/
  | migrationQuiesce
  /-- MIGRATION_STREAM (R108). -/
  | migrationStream
  /-- MIGRATION_SWITCH (R108). -/
  | migrationSwitch
  /-- PLACEMENT_TABLE_REWRITE (R109). -/
  | placementTableRewrite
  /-- DRAIN_MARKER (R109). -/
  | drainMarker
  /-- DRAIN_MESSAGE (R109). -/
  | drainMessage
  /-- ICACHE_FILL (R121). -/
  | icacheFill
  /-- STREAM_REFILL (R205). -/
  | streamRefill
  /-- PAGE_WALK (R177). -/
  | pageWalk
  /-- COPY_START (R197). -/
  | copyStart
  /-- COPY_RACK_RESERVE (R203). -/
  | copyRackReserve
  /-- COPY_BEAT (R198). -/
  | copyBeat
  /-- COPY_COMPLETION (R199). -/
  | copyCompletion
  /-- COUNTER_INCREMENT (R207). -/
  | counterIncrement
  /-- MATRIX_COMMAND_START (R222). -/
  | matrixCommandStart
  /-- MATRIX_COMMAND_COMPLETION (R223). -/
  | matrixCommandCompletion
  /-- MARQUETRY_ADD (R280). -/
  | marquetryAdd
  /-- MQZ_BEAT (R284). -/
  | mqzBeat
  /-- MARQUETRY_COMPLETION (R279). -/
  | marquetryCompletion
  /-- FAR_ATOMIC (R301). -/
  | farAtomic
  /-- FAR_ATOMIC_REPLY (R301). -/
  | farAtomicReply
  /-- BARRIER_REQUEST (R304). -/
  | barrierRequest
  /-- BARRIER_REPLY (R305). -/
  | barrierReply
  /-- TOLERANCE_COMPARE (R313). -/
  | toleranceCompare
  /-- GLUE_UP (R314). -/
  | glueUp
  /-- DOVETAIL_COMBINE (R331). -/
  | dovetailCombine
  /-- DOVETAIL_COMPLETION (R332). -/
  | dovetailCompletion
  /-- TRANSPORT_PACKET_SEND (R339). -/
  | transportPacketSend
  /-- TRANSPORT_PACKET_ARRIVAL (R339). -/
  | transportPacketArrival
  /-- TRANSPORT_ACK (R339). -/
  | transportAck
  /-- TRANSPORT_RETRANSMIT (R339). -/
  | transportRetransmit
  /-- PRECISE_TRAP (R357). -/
  | preciseTrap
  /-- WFI_DEADLINE (R372). -/
  | wfiDeadline
  /-- SOFT_ERROR_REPAIR (R379). -/
  | softErrorRepair
  /-- SCRUB (R379). -/
  | scrub
  /-- UNIT_DRAINING (R381). -/
  | unitDraining
  /-- UNIT_RETIRE (R381). -/
  | unitRetire
  /-- SPARE_TAKEOVER_COMPLETE (R383). -/
  | spareTakeoverComplete
  /-- PSEUDO_CHANNEL_RETIRE (R386). -/
  | pseudoChannelRetire
  /-- PSEUDO_CHANNEL_REDIRECT (R386). -/
  | pseudoChannelRedirect
  /-- LANE_FAILURE (R387). -/
  | laneFailure
  /-- HUB_FAILOVER (R2). -/
  | hubFailover
  /-- REGULATOR_PHASE_LOSS (R387). -/
  | regulatorPhaseLoss
  /-- CONFIG_RECORD_WRITE (R388). -/
  | configRecordWrite
  /-- UNIT_RETIREMENT_REQUEST (R388). -/
  | unitRetirementRequest
  /-- CONFIG_ERROR_CLEAR (R388). -/
  | configErrorClear
  /-- FIRMWARE_UPDATE (R391). -/
  | firmwareUpdate
  /-- GET_VERSION (R390). -/
  | getVersion
  /-- GET_CAPABILITIES (R390). -/
  | getCapabilities
  /-- NEGOTIATE_ALGORITHMS (R390). -/
  | negotiateAlgorithms
  /-- GET_DIGESTS (R390). -/
  | getDigests
  /-- GET_CERTIFICATE (R390). -/
  | getCertificate
  /-- CHALLENGE (R390). -/
  | challenge
  /-- GET_MEASUREMENTS (R390). -/
  | getMeasurements
  /-- POWER_GOOD (R393). -/
  | powerGood
  /-- HUB_DIE_HANDBACK (R391). -/
  | hubDieHandback
  /-- HUB_LINKS_RESTORED (R2). -/
  | hubLinksRestored
deriving DecidableEq, Repr

end Sys2Proof
end

