-- ==== Sys2Proof/WellFormed.lean ====
section
/-! DEFINITION. Which instructions have an encoding: the field values that R33, R34, R48 and the
entries give a register or a meaning. A value outside raises ILLEGAL_OP (R51 step 1), or, for
reserved fields and for FWD without a link, RESERVED_BITS (R51 step 2). -/
namespace Sys2Proof

/-- A vector field names v0-v15, lw or le (R33). -/
def vecField (x : BitVec 5) : Bool := x.toNat ≤ 17
/-- A vector field that may not name a link (R281, R342). -/
def vecOnly (x : BitVec 5) : Bool := x.toNat ≤ 15
/-- The field names a biscuit link (R33). -/
def isLink (x : BitVec 5) : Bool := x.toNat = 16 || x.toNat = 17
/-- A rack field names k0-k15 (R34). -/
def rackField (x : BitVec 5) : Bool := x.toNat ≤ 15
/-- A seed field names sd0-sd7 (R34). -/
def seedField (x : BitVec 5) : Bool := x.toNat ≤ 7
/-- OPORT is a port 0-7 or the word direct (R113). -/
def oportField (x : BitVec 4) : Bool := x.toNat ≤ 7 || x.toNat = 15
/-- A stream target: g24-g31, or v12-v15 with VEC (R143). -/
def streamField (t : BitVec 5) (vec : BitVec 1) : Bool :=
  if vec = 0#1 then 24 ≤ t.toNat else 12 ≤ t.toNat && t.toNat ≤ 15
/-- The system register numbers of R36. -/
def csrNumber (n : BitVec 12) : Bool :=
  [0x000, 0x001, 0x002, 0x003, 0x004, 0x005, 0x010, 0x011, 0x012, 0x020, 0x021, 0x022, 0x030,
    0x031, 0x040, 0x041, 0x050].contains n.toNat
/-- FWD = 1 needs a link among the operands that are read (R51, R155). -/
def fwdOk (fwd : BitVec 1) (srcs : List (BitVec 5)) : Bool := fwd = 0#1 || srcs.any isLink

/-- The rows of the table that have bits; the others are steps of the device. -/
def Instr.wordOrEvent : Instr → Bool × Bool
  | .jal link _ => (true, link ≠ 0#5)
  | .jalr d _ _ => (true, d ≠ 0#5)
  | .vld d _ _ => (true, vecField d)
  | .vst d _ _ => (true, vecField d)
  | .vldt d _ _ => (true, vecField d)
  | .mbincImm imm _ => (true, imm ≠ 0#5)
  | .mbincGlobalImm _ imm => (true, imm ≠ 0#5)
  | .rkset k _ => (true, rackField k)
  | .rkwf k n => (true, rackField k && n.toNat ≤ 64)
  | .rkws k n => (true, rackField k && n.toNat ≤ 64)
  | .rkadv k n _ => (true, rackField k && 1 ≤ n.toNat && n.toNat ≤ 64)
  | .rkrd _ k _ => (true, rackField k)
  | .stbind t _ vec => (true, streamField t vec)
  | .stunb t vec => (true, streamField t vec)
  | .mmar _ _ b => (true, vecField b)
  | .mmarAk _ a b => (true, vecField a && vecField b)
  | .mmag _ _ b _ => (true, vecField b)
  | .mdrainReg _ d _ => (true, vecField d)
  | .gauge _ _ x => (true, x ≠ 0#2)
  | .kmma _ _ m => (true, m ≠ 0#8)
  | .seedw n _ => (true, seedField n)
  | .seedr _ n => (true, seedField n)
  | .mqld d _ c _ => (true, vecOnly d && vecOnly c)
  | .mqsc d _ c _ => (true, vecOnly d && vecOnly c)
  | .send _ oport eret eport => (true, oportField oport && (eret = 1#1 || eport = 0#3))
  | .sendp _ _ _ oport => (true, oportField oport)
  | .ordsend _ _ oport => (true, oportField oport)
  | .kilnrd _ x => (true, x.toNat ≤ 3)
  | .rkpred k _ => (true, rackField k)
  | .dfit k _ => (true, rackField k)
  | .dftol k _ => (true, rackField k)
  | .dfstat _ k => (true, rackField k)
  | .dvext d => (true, vecOnly d)
  | .csrrd _ csr => (true, csrNumber csr)
  | .csrwr _ csr => (true, csrNumber csr)
  | .csrsw _ csr => (true, csrNumber csr)
  | .tlbi a x => (true, x ≠ 3#2 && (x ≠ 1#2 || a = 0#5))
  | .bfx _ _ pos len => (true, pos.toNat + len.toNat + 1 ≤ 64)
  | .bfxu _ _ pos len => (true, pos.toNat + len.toNat + 1 ≤ 64)
  | .bfi _ _ pos len => (true, pos.toNat + len.toNat + 1 ≤ 64)
  | .vadd d a b w => (true, vecField d && vecField a && vecField b && fwdOk w [a, b])
  | .vsub d a b w => (true, vecField d && vecField a && vecField b && fwdOk w [a, b])
  | .vmul d a b w => (true, vecField d && vecField a && vecField b && fwdOk w [a, b])
  | .vmin d a b w => (true, vecField d && vecField a && vecField b && fwdOk w [a, b])
  | .vmax d a b w => (true, vecField d && vecField a && vecField b && fwdOk w [a, b])
  | .vabs d a w => (true, vecField d && vecField a && fwdOk w [a])
  | .vneg d a w => (true, vecField d && vecField a && fwdOk w [a])
  | .vand d a b w => (true, vecField d && vecField a && vecField b && fwdOk w [a, b])
  | .vor d a b w => (true, vecField d && vecField a && vecField b && fwdOk w [a, b])
  | .vxor d a b w => (true, vecField d && vecField a && vecField b && fwdOk w [a, b])
  | .viadd d a b w => (true, vecField d && vecField a && vecField b && fwdOk w [a, b])
  | .visub d a b w => (true, vecField d && vecField a && vecField b && fwdOk w [a, b])
  | .vimul d a b w => (true, vecField d && vecField a && vecField b && fwdOk w [a, b])
  | .vceq d a b w => (true, vecField d && vecField a && vecField b && fwdOk w [a, b])
  | .vclt d a b w => (true, vecField d && vecField a && vecField b && fwdOk w [a, b])
  | .vcle d a b w => (true, vecField d && vecField a && vecField b && fwdOk w [a, b])
  | .vfma d a b c w => (true, vecField d && vecField a && vecField b && vecField c && fwdOk w [a, b, c])
  | .vfms d a b c w => (true, vecField d && vecField a && vecField b && vecField c && fwdOk w [a, b, c])
  | .vfnma d a b c w => (true, vecField d && vecField a && vecField b && vecField c && fwdOk w [a, b, c])
  | .vfnms d a b c w => (true, vecField d && vecField a && vecField b && vecField c && fwdOk w [a, b, c])
  | .vsel d a b c w => (true, vecField d && vecField a && vecField b && vecField c && fwdOk w [a, b, c])
  | .vpack d a fmt w => (true, vecField d && vecField a && fmt.toNat ≤ 11 && fwdOk w [a])
  | .vunpk d a fmt w => (true, vecField d && vecField a && fmt.toNat ≤ 11 && fwdOk w [a])
  | .vitof d a w => (true, vecField d && vecField a && fwdOk w [a])
  | .vftoi d a w => (true, vecField d && vecField a && fwdOk w [a])
  | .vperm d a b w => (true, vecField d && vecField a && vecField b && fwdOk w [a, b])
  | .vrot d a n w => (true, vecField d && vecField a && vecOnly n && fwdOk w [a])
  | .vrsum _ a w => (true, vecField a && fwdOk w [a])
  | .vrmax _ a w => (true, vecField a && fwdOk w [a])
  | .vrmin _ a w => (true, vecField a && fwdOk w [a])
  | .vrcpe d a w => (true, vecField d && vecField a && fwdOk w [a])
  | .vrsqe d a w => (true, vecField d && vecField a && fwdOk w [a])
  | .vbcast d _ => (true, vecField d)
  | .vins d _ n => (true, vecOnly d && vecOnly n)
  | .vext _ a n w => (true, vecField a && vecOnly n && fwdOk w [a])
  | .gcomp d a b => (true, vecOnly d && vecOnly a && vecOnly b && a.toNat % 2 = 0 && b.toNat % 2 = 0
      && d ≠ b && d.toNat ≠ b.toNat + 1)
  | .j _ => (true, true)
  | .beq _ _ _ => (true, true)
  | .bne _ _ _ => (true, true)
  | .blt _ _ _ => (true, true)
  | .bge _ _ _ => (true, true)
  | .bltu _ _ _ => (true, true)
  | .bgeu _ _ _ => (true, true)
  | .jr _ _ => (true, true)
  | .loop _ _ _ => (true, true)
  | .ldB _ _ _ => (true, true)
  | .ldBu _ _ _ => (true, true)
  | .ldH _ _ _ => (true, true)
  | .ldHu _ _ _ => (true, true)
  | .ldW _ _ _ => (true, true)
  | .ldWu _ _ _ => (true, true)
  | .ldD _ _ _ => (true, true)
  | .stB _ _ _ => (true, true)
  | .stH _ _ _ => (true, true)
  | .stW _ _ _ => (true, true)
  | .stD _ _ _ => (true, true)
  | .ldxB _ _ _ => (true, true)
  | .ldxBu _ _ _ => (true, true)
  | .ldxH _ _ _ => (true, true)
  | .ldxHu _ _ _ => (true, true)
  | .ldxW _ _ _ => (true, true)
  | .ldxWu _ _ _ => (true, true)
  | .ldxD _ _ _ => (true, true)
  | .stxB _ _ _ => (true, true)
  | .stxH _ _ _ => (true, true)
  | .stxW _ _ _ => (true, true)
  | .stxD _ _ _ => (true, true)
  | .tmov _ _ _ => (true, true)
  | .amoadd _ _ _ _ _ => (true, true)
  | .amofadd _ _ _ _ => (true, true)
  | .amoswp _ _ _ _ _ => (true, true)
  | .amocas _ _ _ _ _ _ => (true, true)
  | .amomin _ _ _ _ _ => (true, true)
  | .amomax _ _ _ _ _ => (true, true)
  | .fence _ => (true, true)
  | .chend => (true, true)
  | .mbinc _ _ => (true, true)
  | .mbincGlobal _ _ => (true, true)
  | .mbwait _ _ _ => (true, true)
  | .mbrd _ _ => (true, true)
  | .mbset _ _ => (true, true)
  | .mberr _ _ => (true, true)
  | .mberrC _ _ => (true, true)
  | .barInit _ _ => (true, true)
  | .barArv _ _ _ => (true, true)
  | .barDrop _ _ _ => (true, true)
  | .barWait _ _ _ => (true, true)
  | .cpy _ _ _ => (true, true)
  | .cpy3 _ _ _ => (true, true)
  | .cwait _ _ _ => (true, true)
  | .cstat _ _ => (true, true)
  | .cstatC _ _ => (true, true)
  | .perm _ _ => (true, true)
  | .park _ => (true, true)
  | .unpark _ => (true, true)
  | .mzero _ => (true, true)
  | .mown _ _ => (true, true)
  | .mfree _ => (true, true)
  | .mma _ _ _ => (true, true)
  | .mldc _ _ => (true, true)
  | .mdrain _ _ => (true, true)
  | .mpar _ _ => (true, true)
  | .msave _ _ => (true, true)
  | .mrest _ _ => (true, true)
  | .mstat _ _ => (true, true)
  | .mstatC _ _ => (true, true)
  | .mwait _ _ => (true, true)
  | .kvar _ _ => (true, true)
  | .kstat _ _ => (true, true)
  | .mqdef _ _ => (true, true)
  | .mqz _ _ => (true, true)
  | .mqstat _ _ _ => (true, true)
  | .hop _ _ => (true, true)
  | .done => (true, true)
  | .maskon => (true, true)
  | .maskoff => (true, true)
  | .launch _ _ => (true, true)
  | .launchi _ _ _ => (true, true)
  | .step => (true, true)
  | .actnew _ _ => (true, true)
  | .actend => (true, true)
  | .lchstat _ _ => (true, true)
  | .ordt _ => (true, true)
  | .ordtReadNext _ => (true, true)
  | .ordtSetNext _ => (true, true)
  | .ordtReadT _ => (true, true)
  | .dvcfg _ _ _ => (true, true)
  | .dvinj _ _ => (true, true)
  | .dvstat _ _ => (true, true)
  | .dvstatC _ _ => (true, true)
  | .xpost _ _ _ => (true, true)
  | .xsend _ _ => (true, true)
  | .xcc _ _ => (true, true)
  | .trap _ => (true, true)
  | .xret => (true, true)
  | .xretK => (true, true)
  | .brk _ => (true, true)
  | .wfi _ _ => (true, true)
  | .ctxsave _ _ _ => (true, true)
  | .ctxrest _ _ _ => (true, true)
  | .ctxrestAny _ _ _ => (true, true)
  | .watch _ _ _ => (true, true)
  | .winset _ _ _ => (true, true)
  | .winsetRead _ _ => (true, true)
  | .probe _ _ => (true, true)
  | .hnew _ _ _ => (true, true)
  | .hrev _ _ => (true, true)
  | .hchk _ _ => (true, true)
  | .add _ _ _ => (true, true)
  | .sub _ _ _ => (true, true)
  | .and _ _ _ => (true, true)
  | .or _ _ _ => (true, true)
  | .xor _ _ _ => (true, true)
  | .sll _ _ _ => (true, true)
  | .srl _ _ _ => (true, true)
  | .sra _ _ _ => (true, true)
  | .slt _ _ _ => (true, true)
  | .sltu _ _ _ => (true, true)
  | .mul _ _ _ => (true, true)
  | .mulh _ _ _ => (true, true)
  | .mulhu _ _ _ => (true, true)
  | .div _ _ _ => (true, true)
  | .divu _ _ _ => (true, true)
  | .rem _ _ _ => (true, true)
  | .remu _ _ _ => (true, true)
  | .min _ _ _ => (true, true)
  | .max _ _ _ => (true, true)
  | .minu _ _ _ => (true, true)
  | .maxu _ _ _ => (true, true)
  | .clz _ _ => (true, true)
  | .ctz _ _ => (true, true)
  | .popc _ _ => (true, true)
  | .andn _ _ _ => (true, true)
  | .addi _ _ _ => (true, true)
  | .andi _ _ _ => (true, true)
  | .ori _ _ _ => (true, true)
  | .xori _ _ _ => (true, true)
  | .slli _ _ _ => (true, true)
  | .srli _ _ _ => (true, true)
  | .srai _ _ _ => (true, true)
  | .slti _ _ _ => (true, true)
  | .sltiu _ _ _ => (true, true)
  | .li _ _ => (true, true)
  | .lih _ _ => (true, true)
  | .lea _ _ _ _ => (true, true)
  | .sel _ _ _ _ => (true, true)
  | .fadd _ _ _ => (true, true)
  | .fsub _ _ _ => (true, true)
  | .fmul _ _ _ => (true, true)
  | .fdiv _ _ _ => (true, true)
  | .fsqrt _ _ => (true, true)
  | .fmin _ _ _ => (true, true)
  | .fmax _ _ _ => (true, true)
  | .feq _ _ _ => (true, true)
  | .flt _ _ _ => (true, true)
  | .fle _ _ _ => (true, true)
  | .fabs _ _ => (true, true)
  | .fneg _ _ => (true, true)
  | .ftoi _ _ => (true, true)
  | .ftoiu _ _ => (true, true)
  | .itof _ _ => (true, true)
  | .itofu _ _ => (true, true)
  | .fclass _ _ => (true, true)
  | .fmadd _ _ _ _ => (true, true)
  | .fmsub _ _ _ _ => (true, true)
  | .fnmadd _ _ _ _ => (true, true)
  | .fnmsub _ _ _ _ => (true, true)
  | .messageDelivery => (false, true)
  | .overflowRingRetry => (false, true)
  | .overflowRingDelivery => (false, true)
  | .creditReturn => (false, true)
  | .issueChoice => (false, true)
  | .preEmption => (false, true)
  | .chunkCommit => (false, true)
  | .arbiterTokenGrant => (false, true)
  | .pkt => (false, true)
  | .errstat => (false, true)
  | .launchRequest => (false, true)
  | .indirectLaunch => (false, true)
  | .indirectLaunchEligible => (false, true)
  | .endRequest => (false, true)
  | .waitingLaunchProceeds => (false, true)
  | .launchEnd => (false, true)
  | .stepAdvance => (false, true)
  | .dieSetChange => (false, true)
  | .placementRun => (false, true)
  | .kilnReplenishment => (false, true)
  | .kilnDraw => (false, true)
  | .macCountDraw => (false, true)
  | .agingLimit => (false, true)
  | .thermalLimit => (false, true)
  | .thermalLimitClear => (false, true)
  | .migrationQuiesce => (false, true)
  | .migrationStream => (false, true)
  | .migrationSwitch => (false, true)
  | .placementTableRewrite => (false, true)
  | .drainMarker => (false, true)
  | .drainMessage => (false, true)
  | .icacheFill => (false, true)
  | .streamRefill => (false, true)
  | .pageWalk => (false, true)
  | .copyStart => (false, true)
  | .copyRackReserve => (false, true)
  | .copyBeat => (false, true)
  | .copyCompletion => (false, true)
  | .counterIncrement => (false, true)
  | .matrixCommandStart => (false, true)
  | .matrixCommandCompletion => (false, true)
  | .marquetryAdd => (false, true)
  | .mqzBeat => (false, true)
  | .marquetryCompletion => (false, true)
  | .farAtomic => (false, true)
  | .farAtomicReply => (false, true)
  | .barrierRequest => (false, true)
  | .barrierReply => (false, true)
  | .toleranceCompare => (false, true)
  | .glueUp => (false, true)
  | .dovetailCombine => (false, true)
  | .dovetailCompletion => (false, true)
  | .transportPacketSend => (false, true)
  | .transportPacketArrival => (false, true)
  | .transportAck => (false, true)
  | .transportRetransmit => (false, true)
  | .preciseTrap => (false, true)
  | .wfiDeadline => (false, true)
  | .softErrorRepair => (false, true)
  | .scrub => (false, true)
  | .unitDraining => (false, true)
  | .unitRetire => (false, true)
  | .spareTakeoverComplete => (false, true)
  | .pseudoChannelRetire => (false, true)
  | .pseudoChannelRedirect => (false, true)
  | .laneFailure => (false, true)
  | .hubFailover => (false, true)
  | .regulatorPhaseLoss => (false, true)
  | .configRecordWrite => (false, true)
  | .unitRetirementRequest => (false, true)
  | .configErrorClear => (false, true)
  | .firmwareUpdate => (false, true)
  | .getVersion => (false, true)
  | .getCapabilities => (false, true)
  | .negotiateAlgorithms => (false, true)
  | .getDigests => (false, true)
  | .getCertificate => (false, true)
  | .challenge => (false, true)
  | .getMeasurements => (false, true)
  | .powerGood => (false, true)
  | .hubDieHandback => (false, true)
  | .hubLinksRestored => (false, true)

/-- The row has an encoding in the opcode maps R49 and R50. -/
def Instr.isWord (i : Instr) : Bool := i.wordOrEvent.1
/-- The operands are ones the encoding admits (for a device step: always). -/
def Instr.wellFormed (i : Instr) : Bool := i.wordOrEvent.2

end Sys2Proof
end

