-- ==== Sys2Proof/Decode.lean ====
section
/-! DEFINITION. Decoding of instruction words (R47-R51) and, after it, the encoder. A word is read by
its major opcode and its codes; what the maps do not assign is ILLEGAL_OP, a nonzero reserved field
is RESERVED_BITS. -/
namespace Sys2Proof

/-- Why a word is no instruction (R51 steps 1 and 2). -/
inductive Reject where
  /-- ILLEGAL_OP (1). -/
  | illegalOp
  /-- RESERVED_BITS (4): the instruction whose reserved fields are not zero. -/
  | reservedBits (i : Instr)
deriving DecidableEq, Repr

/-- The major opcode, bits [30:25] (R42). -/
def fMaj (w : BitVec 32) : BitVec 6 := w.extractLsb' 25 6
/-- Bits [24:20]. -/
def fD (w : BitVec 32) : BitVec 5 := w.extractLsb' 20 5
/-- Bits [19:15]. -/
def fA (w : BitVec 32) : BitVec 5 := w.extractLsb' 15 5
/-- Bits [14:10]. -/
def fB (w : BitVec 32) : BitVec 5 := w.extractLsb' 10 5
/-- Bits [9:5]. -/
def fC (w : BitVec 32) : BitVec 5 := w.extractLsb' 5 5
/-- Bits [4:0], SUB5. -/
def fSub (w : BitVec 32) : BitVec 5 := w.extractLsb' 0 5
/-- Bits [9:0], funct of RR. -/
def fFn (w : BitVec 32) : BitVec 10 := w.extractLsb' 0 10

/-- A row: a field value without an instruction, a nonzero reserved field, or the instruction. -/
def row (reservedZero : Bool) (i : Instr) : Except Reject Instr :=
  if reservedZero then .ok i else .error (.reservedBits i)

/-- Step 1 of R51 for the row's field values, then step 2. -/
def rowIf (legal reservedZero : Bool) (i : Instr) : Except Reject Instr :=
  if legal then row reservedZero i else .error .illegalOp

/-- A word with a nonzero reserved field. -/
def isReserved (r : Except Reject Instr) : Bool := match r with | .error (.reservedBits _) => true | _ => false

/-- Major 0x02 (R141). -/
def decBranch (w : BitVec 32) : Except Reject Instr :=
  let a := fD w; let b := fA w; let o := w.extractLsb' 0 12
  match (w.extractLsb' 12 3).toNat with
  | 0 => .ok (.beq a b o)
  | 1 => .ok (.bne a b o)
  | 2 => .ok (.blt a b o)
  | 3 => .ok (.bge a b o)
  | 4 => .ok (.bltu a b o)
  | 5 => .ok (.bgeu a b o)
  | _ => .error .illegalOp

/-- Major 0x03 (R142). -/
def decJumpReg (w : BitVec 32) : Except Reject Instr :=
  let d := fD w; let a := fA w; let o := w.extractLsb' 0 13
  match (w.extractLsb' 13 2).toNat with
  | 0 => if d = 0#5 then .ok (.jr a o) else .ok (.jalr d a o)
  | 1 => .ok (.loop d a o)
  | _ => .error .illegalOp

/-- Major 0x04 (R184). -/
def decLoad (w : BitVec 32) : Except Reject Instr :=
  let d := fD w; let a := fA w; let o := w.extractLsb' 0 12
  match (w.extractLsb' 12 3).toNat with
  | 0 => .ok (.ldB d a o)
  | 1 => .ok (.ldBu d a o)
  | 2 => .ok (.ldH d a o)
  | 3 => .ok (.ldHu d a o)
  | 4 => .ok (.ldW d a o)
  | 5 => .ok (.ldWu d a o)
  | 6 => .ok (.ldD d a o)
  | _ => .error .illegalOp

/-- Major 0x05 (R184). -/
def decStore (w : BitVec 32) : Except Reject Instr :=
  let d := fD w; let a := fA w; let o := w.extractLsb' 0 12
  match (w.extractLsb' 12 3).toNat with
  | 0 => .ok (.stB d a o)
  | 2 => .ok (.stH d a o)
  | 4 => .ok (.stW d a o)
  | 6 => .ok (.stD d a o)
  | _ => .error .illegalOp

/-- Major 0x06 (R184): funct[9:4] chooses load or store, funct[3] is reserved, funct[2:0] the size. -/
def decIndexed (w : BitVec 32) : Except Reject Instr :=
  let d := fD w; let a := fA w; let b := fB w; let z := w.extractLsb' 3 1 = 0#1
  match (w.extractLsb' 4 6).toNat, (w.extractLsb' 0 3).toNat with
  | 0, 0 => row z (.ldxB d a b)
  | 0, 1 => row z (.ldxBu d a b)
  | 0, 2 => row z (.ldxH d a b)
  | 0, 3 => row z (.ldxHu d a b)
  | 0, 4 => row z (.ldxW d a b)
  | 0, 5 => row z (.ldxWu d a b)
  | 0, 6 => row z (.ldxD d a b)
  | 1, 0 => row z (.stxB d a b)
  | 1, 2 => row z (.stxH d a b)
  | 1, 4 => row z (.stxW d a b)
  | 1, 6 => row z (.stxD d a b)
  | _, _ => .error .illegalOp

/-- Major 0x07 (R185). -/
def decVecMem (w : BitVec 32) : Except Reject Instr :=
  let d := fD w; let a := fA w; let o := w.extractLsb' 0 12
  match (w.extractLsb' 12 3).toNat with
  | 0 => rowIf (vecField d) true (.vld d a o)
  | 1 => rowIf (vecField d) true (.vst d a o)
  | 2 => rowIf (vecField d) true (.vldt d a o)
  | _ => .error .illegalOp

/-- Major 0x09 (R298): c is reserved except in AMOCAS; AMOFADD has no 64-bit form. -/
def decAtomic (w : BitVec 32) : Except Reject Instr :=
  let d := fD w; let a := fA w; let b := fB w; let c := fC w
  let f := w.extractLsb' 4 1; let l := w.extractLsb' 3 1; let z := c = 0#5
  match (w.extractLsb' 0 3).toNat with
  | 0 => row z (.amoadd d a b f l)
  | 1 => rowIf (l = 0#1) z (.amofadd d a b f)
  | 2 => row z (.amoswp d a b f l)
  | 3 => .ok (.amocas d a b c f l)
  | 4 => row z (.amomin d a b f l)
  | 5 => row z (.amomax d a b f l)
  | _ => .error .illegalOp

/-- Major 0x0A (R296). -/
def decFence (w : BitVec 32) : Except Reject Instr :=
  match (fSub w).toNat with
  | 0 => row (w.extractLsb' 12 13 = 0#13) (.fence (w.extractLsb' 5 7))
  | 1 => row (w.extractLsb' 5 20 = 0#20) .chend
  | _ => .error .illegalOp

/-- Major 0x0B (R215). -/
def decMailbox (w : BitVec 32) : Except Reject Instr :=
  let d := fD w; let a := fA w; let n := w.extractLsb' 7 6; let m := w.extractLsb' 9 6
  match (fSub w).toNat with
  | 0 =>
    match (w.extractLsb' 13 2).toNat with
    | 0 => row (d = 0#5 && w.extractLsb' 5 2 = 0#2) (.mbinc a n)
    | 1 => rowIf (a ≠ 0#5) (d = 0#5 && w.extractLsb' 5 2 = 0#2) (.mbincImm a n)
    | 2 => row (w.extractLsb' 5 8 = 0#8) (.mbincGlobal d a)
    | _ => rowIf (a ≠ 0#5) (w.extractLsb' 5 8 = 0#8) (.mbincGlobalImm d a)
  | 1 => row (w.extractLsb' 5 4 = 0#4) (.mbwait d a m)
  | 2 => row (a = 0#5 && w.extractLsb' 5 4 = 0#4) (.mbrd d m)
  | 3 => row (d = 0#5 && w.extractLsb' 5 4 = 0#4) (.mbset a m)
  | 4 =>
    if w.extractLsb' 8 1 = 0#1 then row (a = 0#5 && w.extractLsb' 5 3 = 0#3) (.mberr d m)
    else row (a = 0#5 && w.extractLsb' 5 3 = 0#3) (.mberrC d m)
  | _ => .error .illegalOp

/-- Major 0x0C (R303). -/
def decBarrier (w : BitVec 32) : Except Reject Instr :=
  let d := fD w; let a := fA w; let b := fB w; let z := fC w = 0#5
  match (fSub w).toNat with
  | 0 => row (z && d = 0#5) (.barInit a b)
  | 1 => row z (.barArv d a b)
  | 2 => row z (.barDrop d a b)
  | 3 => row z (.barWait d a b)
  | _ => .error .illegalOp

/-- Major 0x0D (R210). -/
def decCopy (w : BitVec 32) : Except Reject Instr :=
  let d := fD w; let a := fA w; let h := w.extractLsb' 13 2
  match (fSub w).toNat with
  | 0 => row (w.extractLsb' 5 8 = 0#8) (.cpy d a h)
  | 1 => row (w.extractLsb' 5 8 = 0#8) (.cpy3 d a h)
  | 2 => row (w.extractLsb' 5 8 = 0#8) (.cwait d a h)
  | 3 =>
    if w.extractLsb' 12 1 = 0#1 then row (a = 0#5 && w.extractLsb' 5 7 = 0#7) (.cstat d h)
    else row (a = 0#5 && w.extractLsb' 5 7 = 0#7) (.cstatC d h)
  | 4 => row (w.extractLsb' 5 10 = 0#10) (.perm d a)
  | _ => .error .illegalOp

/-- Major 0x0E (R143). -/
def decRack (w : BitVec 32) : Except Reject Instr :=
  let k := fD w; let a := fA w; let n := w.extractLsb' 13 7; let v := w.extractLsb' 14 1
  match (fSub w).toNat with
  | 0 => rowIf (rackField k) (w.extractLsb' 5 10 = 0#10) (.rkset k a)
  | 1 => rowIf (rackField k && n.toNat ≤ 64) (w.extractLsb' 5 8 = 0#8) (.rkwf k n)
  | 2 => rowIf (rackField k && n.toNat ≤ 64) (w.extractLsb' 5 8 = 0#8) (.rkws k n)
  | 3 => rowIf (rackField k && 1 ≤ n.toNat && n.toNat ≤ 64) (w.extractLsb' 5 7 = 0#7)
      (.rkadv k n (w.extractLsb' 12 1))
  | 4 => rowIf (rackField a) (w.extractLsb' 5 8 = 0#8) (.rkrd k a (w.extractLsb' 13 2))
  | 5 => rowIf (streamField k v) (w.extractLsb' 5 9 = 0#9) (.stbind k a v)
  | 6 => rowIf (streamField k v) (a = 0#5 && w.extractLsb' 5 9 = 0#9) (.stunb k v)
  | 7 => row (k = 0#5 && w.extractLsb' 5 10 = 0#10) (.park a)
  | 8 => row (k = 0#5 && w.extractLsb' 5 10 = 0#10) (.unpark a)
  | _ => .error .illegalOp

/-- Major 0x0F (R237). -/
def decMatrix (w : BitVec 32) : Except Reject Instr :=
  let d := fD w; let a := fA w; let b := fB w; let c := fC w
  match (fSub w).toNat with
  | 0 => row (w.extractLsb' 5 15 = 0#15) (.mzero d)
  | 1 => row (w.extractLsb' 5 10 = 0#10) (.mown d a)
  | 2 => row (d = 0#5 && w.extractLsb' 5 10 = 0#10) (.mfree a)
  | 3 => row (c = 0#5) (.mma d a b)
  | 4 =>
    if w.extractLsb' 9 1 = 0#1 then rowIf (vecField b) (w.extractLsb' 5 4 = 0#4) (.mmar d a b)
    else rowIf (vecField a && vecField b) (w.extractLsb' 5 4 = 0#4) (.mmarAk d a b)
  | 5 => rowIf (vecField b) true (.mmag d a b c)
  | 6 => row (w.extractLsb' 5 10 = 0#10) (.mldc d a)
  | 7 =>
    if w.extractLsb' 10 1 = 0#1 then row (w.extractLsb' 11 4 = 0#4 && c = 0#5) (.mdrain d a)
    else rowIf (vecField a) (c = 0#5) (.mdrainReg d a (w.extractLsb' 11 4))
  | 8 => row (w.extractLsb' 5 10 = 0#10) (.mpar d a)
  | 9 => row (w.extractLsb' 5 10 = 0#10) (.msave d a)
  | 10 => row (w.extractLsb' 5 10 = 0#10) (.mrest d a)
  | 11 =>
    if w.extractLsb' 14 1 = 0#1 then row (w.extractLsb' 5 9 = 0#9) (.mstat d a)
    else row (w.extractLsb' 5 9 = 0#9) (.mstatC d a)
  | 12 => row (w.extractLsb' 5 10 = 0#10) (.mwait d a)
  | _ => .error .illegalOp

/-- Major 0x10 (R264). -/
def decKerf (w : BitVec 32) : Except Reject Instr :=
  let d := fD w; let a := fA w; let z := w.extractLsb' 5 10 = 0#10
  match (fSub w).toNat with
  | 0 => rowIf (w.extractLsb' 7 2 ≠ 0#2) (d = 0#5 && w.extractLsb' 5 2 = 0#2)
      (.gauge a (w.extractLsb' 9 6) (w.extractLsb' 7 2))
  | 1 => rowIf (w.extractLsb' 7 8 ≠ 0#8) (w.extractLsb' 5 2 = 0#2) (.kmma d a (w.extractLsb' 7 8))
  | 2 => row z (.kvar d a)
  | 3 => row z (.kstat d a)
  | 4 => rowIf (seedField d) z (.seedw d a)
  | 5 => rowIf (seedField a) z (.seedr d a)
  | _ => .error .illegalOp

/-- Major 0x11 (R281). -/
def decMarquetry (w : BitVec 32) : Except Reject Instr :=
  let d := fD w; let a := fA w; let b := fB w; let c := fC w
  match (fSub w).toNat with
  | 0 => row (w.extractLsb' 5 10 = 0#10) (.mqdef d a)
  | 1 => rowIf (vecOnly d && vecOnly b) true (.mqld d a b c)
  | 2 => rowIf (vecOnly d && vecOnly b) true (.mqsc d a b c)
  | 3 => row (d = 0#5 && b = 0#5) (.mqz a c)
  | 4 => row (b = 0#5) (.mqstat d a c)
  | _ => .error .illegalOp

/-- Major 0x12 (R113). -/
def decMessage (w : BitVec 32) : Except Reject Instr :=
  let d := fD w; let a := fA w; let b := fB w
  match (fSub w).toNat with
  | 0 => rowIf (oportField (w.extractLsb' 16 4))
      (w.extractLsb' 5 7 = 0#7 && (w.extractLsb' 15 1 = 1#1 || w.extractLsb' 12 3 = 0#3))
      (.send d (w.extractLsb' 16 4) (w.extractLsb' 15 1) (w.extractLsb' 12 3))
  | 1 => rowIf (oportField (w.extractLsb' 5 4)) (w.extractLsb' 9 1 = 0#1)
      (.sendp d a b (w.extractLsb' 5 4))
  | 2 => row (w.extractLsb' 5 10 = 0#10) (.hop d a)
  | 3 => row (w.extractLsb' 5 20 = 0#20) .done
  | 4 => row (w.extractLsb' 5 20 = 0#20) .maskon
  | 5 => row (w.extractLsb' 5 20 = 0#20) .maskoff
  | 6 => rowIf (a.toNat ≤ 3) (w.extractLsb' 5 10 = 0#10) (.kilnrd d a)
  | _ => .error .illegalOp

/-- Major 0x13 (R93). -/
def decLaunch (w : BitVec 32) : Except Reject Instr :=
  let d := fD w; let a := fA w; let b := fB w; let c := fC w
  match (fSub w).toNat with
  | 0 => row (w.extractLsb' 5 10 = 0#10) (.launch d a)
  | 1 => row (c = 0#5) (.launchi d a b)
  | 2 => row (w.extractLsb' 5 20 = 0#20) .step
  | 3 => row (w.extractLsb' 5 10 = 0#10) (.actnew d a)
  | 4 => row (w.extractLsb' 5 20 = 0#20) .actend
  | 5 => row (w.extractLsb' 5 10 = 0#10) (.lchstat d a)
  | _ => .error .illegalOp

/-- Major 0x14 (R319). -/
def decDryFit (w : BitVec 32) : Except Reject Instr :=
  let d := fD w; let a := fA w; let z := w.extractLsb' 5 10 = 0#10
  match (fSub w).toNat with
  | 0 => rowIf (rackField d) z (.rkpred d a)
  | 1 => rowIf (rackField d) z (.dfit d a)
  | 2 => rowIf (rackField d) z (.dftol d a)
  | 3 => rowIf (rackField a) z (.dfstat d a)
  | 4 =>
    match (w.extractLsb' 13 2).toNat with
    | 0 => row (d = 0#5 && w.extractLsb' 5 8 = 0#8) (.ordt a)
    | 1 => row (a = 0#5 && w.extractLsb' 5 8 = 0#8) (.ordtReadNext d)
    | 2 => row (d = 0#5 && w.extractLsb' 5 8 = 0#8) (.ordtSetNext a)
    | _ => row (a = 0#5 && w.extractLsb' 5 8 = 0#8) (.ordtReadT d)
  | 5 => rowIf (oportField (w.extractLsb' 11 4)) (w.extractLsb' 5 6 = 0#6)
      (.ordsend d a (w.extractLsb' 11 4))
  | _ => .error .illegalOp

/-- Major 0x15 (R342). -/
def decCollective (w : BitVec 32) : Except Reject Instr :=
  let d := fD w; let a := fA w; let n := w.extractLsb' 9 6; let z := w.extractLsb' 5 10 = 0#10
  match (fSub w).toNat with
  | 0 => row (w.extractLsb' 5 4 = 0#4) (.dvcfg d a n)
  | 1 => row z (.dvinj d a)
  | 2 => rowIf (vecOnly d) (w.extractLsb' 5 15 = 0#15) (.dvext d)
  | 3 =>
    if w.extractLsb' 8 1 = 0#1 then row (a = 0#5 && w.extractLsb' 5 3 = 0#3) (.dvstat d n)
    else row (a = 0#5 && w.extractLsb' 5 3 = 0#3) (.dvstatC d n)
  | 4 => row (w.extractLsb' 5 4 = 0#4) (.xpost d a n)
  | 5 => row z (.xsend d a)
  | 6 => row z (.xcc d a)
  | _ => .error .illegalOp

/-- Major 0x16 (R369, R187-R195, R49). -/
def decSystem (w : BitVec 32) : Except Reject Instr :=
  let d := fD w; let a := fA w; let b := fB w; let c := fC w
  let csr := w.extractLsb' 8 12; let z := w.extractLsb' 5 10 = 0#10
  match (fSub w).toNat with
  | 0 => row (w.extractLsb' 21 4 = 0#4) (.trap (w.extractLsb' 5 16))
  | 1 =>
    if w.extractLsb' 5 1 = 0#1 then row (w.extractLsb' 6 19 = 0#19) .xret
    else row (w.extractLsb' 6 19 = 0#19) .xretK
  | 2 => row (w.extractLsb' 21 4 = 0#4) (.brk (w.extractLsb' 5 16))
  | 3 => row z (.wfi d a)
  | 4 => rowIf (csrNumber csr) (w.extractLsb' 5 3 = 0#3) (.csrrd d csr)
  | 5 => rowIf (csrNumber csr) (w.extractLsb' 5 3 = 0#3) (.csrwr d csr)
  | 6 => rowIf (csrNumber csr) (w.extractLsb' 5 3 = 0#3) (.csrsw d csr)
  | 7 => row (c = 0#5) (.ctxsave d a b)
  | 8 =>
    if w.extractLsb' 9 1 = 0#1 then row (w.extractLsb' 5 4 = 0#4) (.ctxrest d a b)
    else row (w.extractLsb' 5 4 = 0#4) (.ctxrestAny d a b)
  | 9 => row (c = 0#5) (.watch d a b)
  | 10 =>
    if w.extractLsb' 9 1 = 0#1 then row (w.extractLsb' 5 4 = 0#4) (.winset d a b)
    else row (b = 0#5 && w.extractLsb' 5 4 = 0#4) (.winsetRead d a)
  | 11 => row z (.probe d a)
  | 12 => rowIf (w.extractLsb' 13 2 ≠ 3#2)
      (d = 0#5 && w.extractLsb' 5 8 = 0#8 && (w.extractLsb' 13 2 ≠ 1#2 || a = 0#5))
      (.tlbi a (w.extractLsb' 13 2))
  | 13 => row (c = 0#5) (.hnew d a b)
  | 14 => row z (.hrev d a)
  | _ =>
    if fSub w = 15#5 then row z (.hchk d a) else .error .illegalOp

/-- Major 0x20 (R134). -/
def decInteger (w : BitVec 32) : Except Reject Instr :=
  let d := fD w; let a := fA w; let b := fB w; let z := b = 0#5
  match (fFn w).toNat with
  | 0x000 => .ok (.add d a b)
  | 0x001 => .ok (.sub d a b)
  | 0x002 => .ok (.and d a b)
  | 0x003 => .ok (.or d a b)
  | 0x004 => .ok (.xor d a b)
  | 0x005 => .ok (.sll d a b)
  | 0x006 => .ok (.srl d a b)
  | 0x007 => .ok (.sra d a b)
  | 0x008 => .ok (.slt d a b)
  | 0x009 => .ok (.sltu d a b)
  | 0x00A => .ok (.mul d a b)
  | 0x00B => .ok (.mulh d a b)
  | 0x00C => .ok (.mulhu d a b)
  | 0x00D => .ok (.div d a b)
  | 0x00E => .ok (.divu d a b)
  | 0x00F => .ok (.rem d a b)
  | 0x010 => .ok (.remu d a b)
  | 0x011 => .ok (.min d a b)
  | 0x012 => .ok (.max d a b)
  | 0x013 => .ok (.minu d a b)
  | 0x014 => .ok (.maxu d a b)
  | 0x015 => row z (.clz d a)
  | 0x016 => row z (.ctz d a)
  | 0x017 => row z (.popc d a)
  | 0x018 => .ok (.andn d a b)
  | _ => .error .illegalOp

/-- Major 0x25 (R135). -/
def decShiftImm (w : BitVec 32) : Except Reject Instr :=
  let d := fD w; let a := fA w; let s := w.extractLsb' 0 6; let z := w.extractLsb' 8 7 = 0#7
  match (w.extractLsb' 6 2).toNat with
  | 0 => row z (.slli d a s)
  | 1 => row z (.srli d a s)
  | 2 => row z (.srai d a s)
  | _ => .error .illegalOp

/-- Major 0x2A (R138): pos + len above 64 is ILLEGAL_OP; the field holds len - 1. -/
def decBitfield (w : BitVec 32) : Except Reject Instr :=
  let d := fD w; let a := fA w; let p := w.extractLsb' 9 6; let l := w.extractLsb' 3 6
  let fits : Bool := p.toNat + l.toNat + 1 ≤ 64
  match (w.extractLsb' 0 3).toNat with
  | 0 => rowIf fits true (.bfx d a p l)
  | 1 => rowIf fits true (.bfxu d a p l)
  | 2 => rowIf fits true (.bfi d a p l)
  | _ => .error .illegalOp

/-- Major 0x2C (R157). -/
def decScalarFp (w : BitVec 32) : Except Reject Instr :=
  let d := fD w; let a := fA w; let b := fB w; let z := b = 0#5
  match (fFn w).toNat with
  | 0x000 => .ok (.fadd d a b)
  | 0x001 => .ok (.fsub d a b)
  | 0x002 => .ok (.fmul d a b)
  | 0x003 => .ok (.fdiv d a b)
  | 0x004 => row z (.fsqrt d a)
  | 0x005 => .ok (.fmin d a b)
  | 0x006 => .ok (.fmax d a b)
  | 0x007 => .ok (.feq d a b)
  | 0x008 => .ok (.flt d a b)
  | 0x009 => .ok (.fle d a b)
  | 0x00A => row z (.fabs d a)
  | 0x00B => row z (.fneg d a)
  | 0x00C => row z (.ftoi d a)
  | 0x00D => row z (.ftoiu d a)
  | 0x00E => row z (.itof d a)
  | 0x00F => row z (.itofu d a)
  | 0x010 => row z (.fclass d a)
  | _ => .error .illegalOp

/-- Major 0x2D (R160). -/
def decScalarFma (w : BitVec 32) : Except Reject Instr :=
  let d := fD w; let a := fA w; let b := fB w; let c := fC w
  match (fSub w).toNat with
  | 0 => .ok (.fmadd d a b c)
  | 1 => .ok (.fmsub d a b c)
  | 2 => .ok (.fnmadd d a b c)
  | 3 => .ok (.fnmsub d a b c)
  | _ => .error .illegalOp

/-- Major 0x2E (R161): funct[9] is FWD. -/
def decVector (w : BitVec 32) : Except Reject Instr :=
  let d := fD w; let a := fA w; let b := fB w; let f := w.extractLsb' 9 1
  let l2 := vecField d && vecField a && vecField b; let r2 := fwdOk f [a, b]
  let l1 := vecField d && vecField a; let r1 := b = 0#5 && fwdOk f [a]
  match (w.extractLsb' 0 9).toNat with
  | 0 => rowIf l2 r2 (.vadd d a b f)
  | 1 => rowIf l2 r2 (.vsub d a b f)
  | 2 => rowIf l2 r2 (.vmul d a b f)
  | 3 => rowIf l2 r2 (.vmin d a b f)
  | 4 => rowIf l2 r2 (.vmax d a b f)
  | 5 => rowIf l1 r1 (.vabs d a f)
  | 6 => rowIf l1 r1 (.vneg d a f)
  | 7 => rowIf l2 r2 (.vand d a b f)
  | 8 => rowIf l2 r2 (.vor d a b f)
  | 9 => rowIf l2 r2 (.vxor d a b f)
  | 10 => rowIf l2 r2 (.viadd d a b f)
  | 11 => rowIf l2 r2 (.visub d a b f)
  | 12 => rowIf l2 r2 (.vimul d a b f)
  | 13 => rowIf l2 r2 (.vceq d a b f)
  | 14 => rowIf l2 r2 (.vclt d a b f)
  | 15 => rowIf l2 r2 (.vcle d a b f)
  | _ => .error .illegalOp

/-- Major 0x2F (R162): funct[4] is FWD. -/
def decVectorFma (w : BitVec 32) : Except Reject Instr :=
  let d := fD w; let a := fA w; let b := fB w; let c := fC w; let f := w.extractLsb' 4 1
  let l := vecField d && vecField a && vecField b && vecField c; let r := fwdOk f [a, b, c]
  match (w.extractLsb' 0 4).toNat with
  | 0 => rowIf l r (.vfma d a b c f)
  | 1 => rowIf l r (.vfms d a b c f)
  | 2 => rowIf l r (.vfnma d a b c f)
  | 3 => rowIf l r (.vfnms d a b c f)
  | 4 => rowIf l r (.vsel d a b c f)
  | _ => .error .illegalOp

/-- Major 0x30 (R163-R167, R350): funct[9] is FWD. -/
def decVectorMove (w : BitVec 32) : Except Reject Instr :=
  let d := fD w; let a := fA w; let b := fB w; let f := w.extractLsb' 9 1
  let l1 := vecField d && vecField a; let r1 := fwdOk f [a]; let z := b = 0#5
  match (w.extractLsb' 0 9).toNat with
  | 0 => rowIf (l1 && b.toNat ≤ 11) r1 (.vpack d a b f)
  | 1 => rowIf (l1 && b.toNat ≤ 11) r1 (.vunpk d a b f)
  | 2 => rowIf l1 (z && r1) (.vitof d a f)
  | 3 => rowIf l1 (z && r1) (.vftoi d a f)
  | 4 => rowIf (l1 && vecField b) (fwdOk f [a, b]) (.vperm d a b f)
  | 5 => rowIf (l1 && vecOnly b) r1 (.vrot d a b f)
  | 6 => rowIf (vecField a) (z && r1) (.vrsum d a f)
  | 7 => rowIf (vecField a) (z && r1) (.vrmax d a f)
  | 8 => rowIf (vecField a) (z && r1) (.vrmin d a f)
  | 9 => rowIf l1 (z && r1) (.vrcpe d a f)
  | 10 => rowIf l1 (z && r1) (.vrsqe d a f)
  | 11 => rowIf (vecField d) (z && f = 0#1) (.vbcast d a)
  | 12 => rowIf (vecOnly d && vecOnly b) (f = 0#1) (.vins d a b)
  | 13 => rowIf (vecField a && vecOnly b) r1 (.vext d a b f)
  | 14 => rowIf (vecOnly d && vecOnly a && vecOnly b && a.toNat % 2 = 0 && b.toNat % 2 = 0
      && d ≠ b && d.toNat ≠ b.toNat + 1) (f = 0#1) (.gcomp d a b)
  | _ => .error .illegalOp

/-- A C-class word by its major opcode (R49). -/
def decClassC (w : BitVec 32) : Except Reject Instr :=
  match (fMaj w).toNat with
  | 0x01 =>
    let l := fD w
    if l = 0#5 then .ok (.j (w.extractLsb' 0 20)) else .ok (.jal l (w.extractLsb' 0 20))
  | 0x02 => decBranch w
  | 0x03 => decJumpReg w
  | 0x04 => decLoad w
  | 0x05 => decStore w
  | 0x06 => decIndexed w
  | 0x07 => decVecMem w
  | 0x08 => if fSub w = 0#5 then row (fC w = 0#5) (.tmov (fD w) (fA w) (fB w)) else .error .illegalOp
  | 0x09 => decAtomic w
  | 0x0A => decFence w
  | 0x0B => decMailbox w
  | 0x0C => decBarrier w
  | 0x0D => decCopy w
  | 0x0E => decRack w
  | 0x0F => decMatrix w
  | 0x10 => decKerf w
  | 0x11 => decMarquetry w
  | 0x12 => decMessage w
  | 0x13 => decLaunch w
  | 0x14 => decDryFit w
  | 0x15 => decCollective w
  | 0x16 => decSystem w
  | _ => .error .illegalOp

/-- An A-class word by its major opcode (R50). -/
def decClassA (w : BitVec 32) : Except Reject Instr :=
  let d := fD w; let a := fA w; let b := fB w; let imm := w.extractLsb' 0 15
  match (fMaj w).toNat with
  | 0x20 => decInteger w
  | 0x21 => .ok (.addi d a imm)
  | 0x22 => .ok (.andi d a imm)
  | 0x23 => .ok (.ori d a imm)
  | 0x24 => .ok (.xori d a imm)
  | 0x25 => decShiftImm w
  | 0x26 =>
    if w.extractLsb' 14 1 = 0#1 then .ok (.slti d a (w.extractLsb' 0 14))
    else .ok (.sltiu d a (w.extractLsb' 0 14))
  | 0x27 => .ok (.li d (w.extractLsb' 0 20))
  | 0x28 => .ok (.lih d (w.extractLsb' 0 20))
  | 0x29 => row (w.extractLsb' 3 7 = 0#7) (.lea d a b (w.extractLsb' 0 3))
  | 0x2A => decBitfield w
  | 0x2B => if fSub w = 0#5 then .ok (.sel d a b (fC w)) else .error .illegalOp
  | 0x2C => decScalarFp w
  | 0x2D => decScalarFma w
  | 0x2E => decVector w
  | 0x2F => decVectorFma w
  | 0x30 => decVectorMove w
  | _ => .error .illegalOp

/-- One instruction word, its bit 31 left to the unit (R42): steps 1 and 2 of R51 for one word. -/
def decodeWord (w : BitVec 32) : Except Reject Instr :=
  if (fMaj w).toNat < 0x20 then decClassC w else decClassA w

/-- The word is class A (R42). -/
def classA (w : BitVec 32) : Bool := w.extractLsb' 30 1 = 1#1

/-- Bytes in memory order to a word (R7, R42); none when there are fewer than four. -/
def wordOfBytes : List (BitVec 8) → Option (BitVec 32 × List (BitVec 8))
  | b0 :: b1 :: b2 :: b3 :: r => some (b3 ++ b2 ++ b1 ++ b0, r)
  | _ => none

/-- Decode the bytes at the program counter: the instruction of the first word, and the rest. -/
def decodeBytes (bs : List (BitVec 8)) : Except Reject (Instr × List (BitVec 8)) :=
  match wordOfBytes bs with
  | none => .error .illegalOp
  | some (w, r) =>
    match decodeWord w with
    | .ok i => .ok (i, r)
    | .error e => .error e

/-- Four bytes of a word, least significant first. -/
def bytesOfWord (w : BitVec 32) : List (BitVec 8) :=
  [w.extractLsb' 0 8, w.extractLsb' 8 8, w.extractLsb' 16 8, w.extractLsb' 24 8]

/-- The host's window on the decoder: the instruction this decoder reads from a word numbered as
spec/opcode_table.json numbers it. An A-class word with bit 31 set is never an instruction (R44, R51). -/
def decodeTableWord (_nbits w : Nat) : Option Instr :=
  let x := BitVec.ofNat 32 w
  if classA x && x.extractLsb' 31 1 = 1#1 then none
  else
    match decodeBytes (bytesOfWord x) with
    | .ok (i, _) => some i
    | .error _ => none

/-- The word of an instruction, from the encoding tables (R47, R49, R50), P = 0. A device step has
no word. -/
def encode : Instr → BitVec 32
  | .jal link off => 0#1 ++ 1#6 ++ link ++ off
  | .j off => 0#1 ++ 1#6 ++ 0#5 ++ off
  | .beq a b off => 0#1 ++ 2#6 ++ a ++ b ++ 0#3 ++ off
  | .bne a b off => 0#1 ++ 2#6 ++ a ++ b ++ 1#3 ++ off
  | .blt a b off => 0#1 ++ 2#6 ++ a ++ b ++ 2#3 ++ off
  | .bge a b off => 0#1 ++ 2#6 ++ a ++ b ++ 3#3 ++ off
  | .bltu a b off => 0#1 ++ 2#6 ++ a ++ b ++ 4#3 ++ off
  | .bgeu a b off => 0#1 ++ 2#6 ++ a ++ b ++ 5#3 ++ off
  | .jalr d a off => 0#1 ++ 3#6 ++ d ++ a ++ 0#2 ++ off
  | .jr a off => 0#1 ++ 3#6 ++ 0#5 ++ a ++ 0#2 ++ off
  | .loop d a off => 0#1 ++ 3#6 ++ d ++ a ++ 1#2 ++ off
  | .ldB d a imm => 0#1 ++ 4#6 ++ d ++ a ++ 0#3 ++ imm
  | .ldBu d a imm => 0#1 ++ 4#6 ++ d ++ a ++ 1#3 ++ imm
  | .ldH d a imm => 0#1 ++ 4#6 ++ d ++ a ++ 2#3 ++ imm
  | .ldHu d a imm => 0#1 ++ 4#6 ++ d ++ a ++ 3#3 ++ imm
  | .ldW d a imm => 0#1 ++ 4#6 ++ d ++ a ++ 4#3 ++ imm
  | .ldWu d a imm => 0#1 ++ 4#6 ++ d ++ a ++ 5#3 ++ imm
  | .ldD d a imm => 0#1 ++ 4#6 ++ d ++ a ++ 6#3 ++ imm
  | .stB d a imm => 0#1 ++ 5#6 ++ d ++ a ++ 0#3 ++ imm
  | .stH d a imm => 0#1 ++ 5#6 ++ d ++ a ++ 2#3 ++ imm
  | .stW d a imm => 0#1 ++ 5#6 ++ d ++ a ++ 4#3 ++ imm
  | .stD d a imm => 0#1 ++ 5#6 ++ d ++ a ++ 6#3 ++ imm
  | .ldxB d a b => 0#1 ++ 6#6 ++ d ++ a ++ b ++ 0#10
  | .ldxBu d a b => 0#1 ++ 6#6 ++ d ++ a ++ b ++ 1#10
  | .ldxH d a b => 0#1 ++ 6#6 ++ d ++ a ++ b ++ 2#10
  | .ldxHu d a b => 0#1 ++ 6#6 ++ d ++ a ++ b ++ 3#10
  | .ldxW d a b => 0#1 ++ 6#6 ++ d ++ a ++ b ++ 4#10
  | .ldxWu d a b => 0#1 ++ 6#6 ++ d ++ a ++ b ++ 5#10
  | .ldxD d a b => 0#1 ++ 6#6 ++ d ++ a ++ b ++ 6#10
  | .stxB d a b => 0#1 ++ 6#6 ++ d ++ a ++ b ++ 16#10
  | .stxH d a b => 0#1 ++ 6#6 ++ d ++ a ++ b ++ 18#10
  | .stxW d a b => 0#1 ++ 6#6 ++ d ++ a ++ b ++ 20#10
  | .stxD d a b => 0#1 ++ 6#6 ++ d ++ a ++ b ++ 22#10
  | .vld d a imm => 0#1 ++ 7#6 ++ d ++ a ++ 0#3 ++ imm
  | .vst d a imm => 0#1 ++ 7#6 ++ d ++ a ++ 1#3 ++ imm
  | .vldt d a imm => 0#1 ++ 7#6 ++ d ++ a ++ 2#3 ++ imm
  | .tmov d a b => 0#1 ++ 8#6 ++ d ++ a ++ b ++ 0#10
  | .amoadd d a b far w64 => 0#1 ++ 9#6 ++ d ++ a ++ b ++ 0#5 ++ far ++ w64 ++ 0#3
  | .amofadd d a b far => 0#1 ++ 9#6 ++ d ++ a ++ b ++ 0#5 ++ far ++ 1#4
  | .amoswp d a b far w64 => 0#1 ++ 9#6 ++ d ++ a ++ b ++ 0#5 ++ far ++ w64 ++ 2#3
  | .amocas d a b c far w64 => 0#1 ++ 9#6 ++ d ++ a ++ b ++ c ++ far ++ w64 ++ 3#3
  | .amomin d a b far w64 => 0#1 ++ 9#6 ++ d ++ a ++ b ++ 0#5 ++ far ++ w64 ++ 4#3
  | .amomax d a b far w64 => 0#1 ++ 9#6 ++ d ++ a ++ b ++ 0#5 ++ far ++ w64 ++ 5#3
  | .fence cls => 0#1 ++ 10#6 ++ 0#13 ++ cls ++ 0#5
  | .chend => 0#1 ++ 10#6 ++ 1#25
  | .mbinc b n => 0#1 ++ 11#6 ++ 0#5 ++ b ++ 0#2 ++ n ++ 0#7
  | .mbincImm imm n => 0#1 ++ 11#6 ++ 0#5 ++ imm ++ 1#2 ++ n ++ 0#7
  | .mbincGlobal a b => 0#1 ++ 11#6 ++ a ++ b ++ 16384#15
  | .mbincGlobalImm a imm => 0#1 ++ 11#6 ++ a ++ imm ++ 24576#15
  | .mbwait d a n => 0#1 ++ 11#6 ++ d ++ a ++ n ++ 1#9
  | .mbrd d n => 0#1 ++ 11#6 ++ d ++ 0#5 ++ n ++ 2#9
  | .mbset a n => 0#1 ++ 11#6 ++ 0#5 ++ a ++ n ++ 3#9
  | .mberr d n => 0#1 ++ 11#6 ++ d ++ 0#5 ++ n ++ 4#9
  | .mberrC d n => 0#1 ++ 11#6 ++ d ++ 0#5 ++ n ++ 260#9
  | .barInit a b => 0#1 ++ 12#6 ++ 0#5 ++ a ++ b ++ 0#10
  | .barArv d a b => 0#1 ++ 12#6 ++ d ++ a ++ b ++ 1#10
  | .barDrop d a b => 0#1 ++ 12#6 ++ d ++ a ++ b ++ 2#10
  | .barWait d a b => 0#1 ++ 12#6 ++ d ++ a ++ b ++ 3#10
  | .cpy d a ch => 0#1 ++ 13#6 ++ d ++ a ++ ch ++ 0#13
  | .cpy3 d a ch => 0#1 ++ 13#6 ++ d ++ a ++ ch ++ 1#13
  | .cwait d a ch => 0#1 ++ 13#6 ++ d ++ a ++ ch ++ 2#13
  | .cstat d ch => 0#1 ++ 13#6 ++ d ++ 0#5 ++ ch ++ 3#13
  | .cstatC d ch => 0#1 ++ 13#6 ++ d ++ 0#5 ++ ch ++ 4099#13
  | .perm d a => 0#1 ++ 13#6 ++ d ++ a ++ 4#15
  | .rkset k a => 0#1 ++ 14#6 ++ k ++ a ++ 0#15
  | .rkwf k n => 0#1 ++ 14#6 ++ k ++ n ++ 1#13
  | .rkws k n => 0#1 ++ 14#6 ++ k ++ n ++ 2#13
  | .rkadv k n w => 0#1 ++ 14#6 ++ k ++ n ++ w ++ 3#12
  | .rkrd d k x => 0#1 ++ 14#6 ++ d ++ k ++ x ++ 4#13
  | .stbind t a vec => 0#1 ++ 14#6 ++ t ++ a ++ vec ++ 5#14
  | .stunb t vec => 0#1 ++ 14#6 ++ t ++ 0#5 ++ vec ++ 6#14
  | .park a => 0#1 ++ 14#6 ++ 0#5 ++ a ++ 7#15
  | .unpark a => 0#1 ++ 14#6 ++ 0#5 ++ a ++ 8#15
  | .mzero d => 0#1 ++ 15#6 ++ d ++ 0#20
  | .mown d a => 0#1 ++ 15#6 ++ d ++ a ++ 1#15
  | .mfree a => 0#1 ++ 15#6 ++ 0#5 ++ a ++ 2#15
  | .mma d a b => 0#1 ++ 15#6 ++ d ++ a ++ b ++ 3#10
  | .mmar d a b => 0#1 ++ 15#6 ++ d ++ a ++ b ++ 4#10
  | .mmarAk d a b => 0#1 ++ 15#6 ++ d ++ a ++ b ++ 516#10
  | .mmag d a b c => 0#1 ++ 15#6 ++ d ++ a ++ b ++ c ++ 5#5
  | .mldc d a => 0#1 ++ 15#6 ++ d ++ a ++ 6#15
  | .mdrain s a => 0#1 ++ 15#6 ++ s ++ a ++ 7#15
  | .mdrainReg s d n => 0#1 ++ 15#6 ++ s ++ d ++ n ++ 1031#11
  | .mpar d a => 0#1 ++ 15#6 ++ d ++ a ++ 8#15
  | .msave s a => 0#1 ++ 15#6 ++ s ++ a ++ 9#15
  | .mrest d a => 0#1 ++ 15#6 ++ d ++ a ++ 10#15
  | .mstat d s => 0#1 ++ 15#6 ++ d ++ s ++ 11#15
  | .mstatC d s => 0#1 ++ 15#6 ++ d ++ s ++ 16395#15
  | .mwait d a => 0#1 ++ 15#6 ++ d ++ a ++ 12#15
  | .gauge a n x => 0#1 ++ 16#6 ++ 0#5 ++ a ++ n ++ x ++ 0#7
  | .kmma d a m => 0#1 ++ 16#6 ++ d ++ a ++ m ++ 1#7
  | .kvar d s => 0#1 ++ 16#6 ++ d ++ s ++ 2#15
  | .kstat d s => 0#1 ++ 16#6 ++ d ++ s ++ 3#15
  | .seedw n a => 0#1 ++ 16#6 ++ n ++ a ++ 4#15
  | .seedr d n => 0#1 ++ 16#6 ++ d ++ n ++ 5#15
  | .mqdef d a => 0#1 ++ 17#6 ++ d ++ a ++ 0#15
  | .mqld d a c b => 0#1 ++ 17#6 ++ d ++ a ++ c ++ b ++ 1#5
  | .mqsc d a c b => 0#1 ++ 17#6 ++ d ++ a ++ c ++ b ++ 2#5
  | .mqz a b => 0#1 ++ 17#6 ++ 0#5 ++ a ++ 0#5 ++ b ++ 3#5
  | .mqstat d a b => 0#1 ++ 17#6 ++ d ++ a ++ 0#5 ++ b ++ 4#5
  | .send a oport eret eport => 0#1 ++ 18#6 ++ a ++ oport ++ eret ++ eport ++ 0#12
  | .sendp a b c oport => 0#1 ++ 18#6 ++ a ++ b ++ c ++ 0#1 ++ oport ++ 1#5
  | .hop a b => 0#1 ++ 18#6 ++ a ++ b ++ 2#15
  | .done => 0#1 ++ 18#6 ++ 3#25
  | .maskon => 0#1 ++ 18#6 ++ 4#25
  | .maskoff => 0#1 ++ 18#6 ++ 5#25
  | .kilnrd d x => 0#1 ++ 18#6 ++ d ++ x ++ 6#15
  | .launch a b => 0#1 ++ 19#6 ++ a ++ b ++ 0#15
  | .launchi a b c => 0#1 ++ 19#6 ++ a ++ b ++ c ++ 1#10
  | .step => 0#1 ++ 19#6 ++ 2#25
  | .actnew d a => 0#1 ++ 19#6 ++ d ++ a ++ 3#15
  | .actend => 0#1 ++ 19#6 ++ 4#25
  | .lchstat d a => 0#1 ++ 19#6 ++ d ++ a ++ 5#15
  | .rkpred k a => 0#1 ++ 20#6 ++ k ++ a ++ 0#15
  | .dfit k a => 0#1 ++ 20#6 ++ k ++ a ++ 1#15
  | .dftol k a => 0#1 ++ 20#6 ++ k ++ a ++ 2#15
  | .dfstat d k => 0#1 ++ 20#6 ++ d ++ k ++ 3#15
  | .ordt a => 0#1 ++ 20#6 ++ 0#5 ++ a ++ 4#15
  | .ordtReadNext d => 0#1 ++ 20#6 ++ d ++ 8196#20
  | .ordtSetNext a => 0#1 ++ 20#6 ++ 0#5 ++ a ++ 16388#15
  | .ordtReadT d => 0#1 ++ 20#6 ++ d ++ 24580#20
  | .ordsend a b oport => 0#1 ++ 20#6 ++ a ++ b ++ oport ++ 5#11
  | .dvcfg d a grp => 0#1 ++ 21#6 ++ d ++ a ++ grp ++ 0#9
  | .dvinj d a => 0#1 ++ 21#6 ++ d ++ a ++ 1#15
  | .dvext d => 0#1 ++ 21#6 ++ d ++ 2#20
  | .dvstat d grp => 0#1 ++ 21#6 ++ d ++ 0#5 ++ grp ++ 3#9
  | .dvstatC d grp => 0#1 ++ 21#6 ++ d ++ 0#5 ++ grp ++ 259#9
  | .xpost d a n => 0#1 ++ 21#6 ++ d ++ a ++ n ++ 4#9
  | .xsend d a => 0#1 ++ 21#6 ++ d ++ a ++ 5#15
  | .xcc d a => 0#1 ++ 21#6 ++ d ++ a ++ 6#15
  | .trap imm => 0#1 ++ 22#6 ++ 0#4 ++ imm ++ 0#5
  | .xret => 0#1 ++ 22#6 ++ 1#25
  | .xretK => 0#1 ++ 22#6 ++ 33#25
  | .brk imm => 0#1 ++ 22#6 ++ 0#4 ++ imm ++ 2#5
  | .wfi d a => 0#1 ++ 22#6 ++ d ++ a ++ 3#15
  | .csrrd g csr => 0#1 ++ 22#6 ++ g ++ csr ++ 4#8
  | .csrwr g csr => 0#1 ++ 22#6 ++ g ++ csr ++ 5#8
  | .csrsw g csr => 0#1 ++ 22#6 ++ g ++ csr ++ 6#8
  | .ctxsave d a b => 0#1 ++ 22#6 ++ d ++ a ++ b ++ 7#10
  | .ctxrest d a b => 0#1 ++ 22#6 ++ d ++ a ++ b ++ 8#10
  | .ctxrestAny d a b => 0#1 ++ 22#6 ++ d ++ a ++ b ++ 520#10
  | .watch d a b => 0#1 ++ 22#6 ++ d ++ a ++ b ++ 9#10
  | .winset d a b => 0#1 ++ 22#6 ++ d ++ a ++ b ++ 10#10
  | .winsetRead d a => 0#1 ++ 22#6 ++ d ++ a ++ 522#15
  | .probe d a => 0#1 ++ 22#6 ++ d ++ a ++ 11#15
  | .tlbi a x => 0#1 ++ 22#6 ++ 0#5 ++ a ++ x ++ 12#13
  | .hnew d a b => 0#1 ++ 22#6 ++ d ++ a ++ b ++ 13#10
  | .hrev d a => 0#1 ++ 22#6 ++ d ++ a ++ 14#15
  | .hchk d a => 0#1 ++ 22#6 ++ d ++ a ++ 15#15
  | .add d a b => 0#1 ++ 32#6 ++ d ++ a ++ b ++ 0#10
  | .sub d a b => 0#1 ++ 32#6 ++ d ++ a ++ b ++ 1#10
  | .and d a b => 0#1 ++ 32#6 ++ d ++ a ++ b ++ 2#10
  | .or d a b => 0#1 ++ 32#6 ++ d ++ a ++ b ++ 3#10
  | .xor d a b => 0#1 ++ 32#6 ++ d ++ a ++ b ++ 4#10
  | .sll d a b => 0#1 ++ 32#6 ++ d ++ a ++ b ++ 5#10
  | .srl d a b => 0#1 ++ 32#6 ++ d ++ a ++ b ++ 6#10
  | .sra d a b => 0#1 ++ 32#6 ++ d ++ a ++ b ++ 7#10
  | .slt d a b => 0#1 ++ 32#6 ++ d ++ a ++ b ++ 8#10
  | .sltu d a b => 0#1 ++ 32#6 ++ d ++ a ++ b ++ 9#10
  | .mul d a b => 0#1 ++ 32#6 ++ d ++ a ++ b ++ 10#10
  | .mulh d a b => 0#1 ++ 32#6 ++ d ++ a ++ b ++ 11#10
  | .mulhu d a b => 0#1 ++ 32#6 ++ d ++ a ++ b ++ 12#10
  | .div d a b => 0#1 ++ 32#6 ++ d ++ a ++ b ++ 13#10
  | .divu d a b => 0#1 ++ 32#6 ++ d ++ a ++ b ++ 14#10
  | .rem d a b => 0#1 ++ 32#6 ++ d ++ a ++ b ++ 15#10
  | .remu d a b => 0#1 ++ 32#6 ++ d ++ a ++ b ++ 16#10
  | .min d a b => 0#1 ++ 32#6 ++ d ++ a ++ b ++ 17#10
  | .max d a b => 0#1 ++ 32#6 ++ d ++ a ++ b ++ 18#10
  | .minu d a b => 0#1 ++ 32#6 ++ d ++ a ++ b ++ 19#10
  | .maxu d a b => 0#1 ++ 32#6 ++ d ++ a ++ b ++ 20#10
  | .clz d a => 0#1 ++ 32#6 ++ d ++ a ++ 21#15
  | .ctz d a => 0#1 ++ 32#6 ++ d ++ a ++ 22#15
  | .popc d a => 0#1 ++ 32#6 ++ d ++ a ++ 23#15
  | .andn d a b => 0#1 ++ 32#6 ++ d ++ a ++ b ++ 24#10
  | .addi d a imm => 0#1 ++ 33#6 ++ d ++ a ++ imm
  | .andi d a imm => 0#1 ++ 34#6 ++ d ++ a ++ imm
  | .ori d a imm => 0#1 ++ 35#6 ++ d ++ a ++ imm
  | .xori d a imm => 0#1 ++ 36#6 ++ d ++ a ++ imm
  | .slli d a sh => 0#1 ++ 37#6 ++ d ++ a ++ 0#9 ++ sh
  | .srli d a sh => 0#1 ++ 37#6 ++ d ++ a ++ 1#9 ++ sh
  | .srai d a sh => 0#1 ++ 37#6 ++ d ++ a ++ 2#9 ++ sh
  | .slti d a imm => 0#1 ++ 38#6 ++ d ++ a ++ 0#1 ++ imm
  | .sltiu d a imm => 0#1 ++ 38#6 ++ d ++ a ++ 1#1 ++ imm
  | .li d imm => 0#1 ++ 39#6 ++ d ++ imm
  | .lih d imm => 0#1 ++ 40#6 ++ d ++ imm
  | .lea d a b sh => 0#1 ++ 41#6 ++ d ++ a ++ b ++ 0#7 ++ sh
  | .bfx d a pos len => 0#1 ++ 42#6 ++ d ++ a ++ pos ++ len ++ 0#3
  | .bfxu d a pos len => 0#1 ++ 42#6 ++ d ++ a ++ pos ++ len ++ 1#3
  | .bfi d a pos len => 0#1 ++ 42#6 ++ d ++ a ++ pos ++ len ++ 2#3
  | .sel d a b c => 0#1 ++ 43#6 ++ d ++ a ++ b ++ c ++ 0#5
  | .fadd d a b => 0#1 ++ 44#6 ++ d ++ a ++ b ++ 0#10
  | .fsub d a b => 0#1 ++ 44#6 ++ d ++ a ++ b ++ 1#10
  | .fmul d a b => 0#1 ++ 44#6 ++ d ++ a ++ b ++ 2#10
  | .fdiv d a b => 0#1 ++ 44#6 ++ d ++ a ++ b ++ 3#10
  | .fsqrt d a => 0#1 ++ 44#6 ++ d ++ a ++ 4#15
  | .fmin d a b => 0#1 ++ 44#6 ++ d ++ a ++ b ++ 5#10
  | .fmax d a b => 0#1 ++ 44#6 ++ d ++ a ++ b ++ 6#10
  | .feq d a b => 0#1 ++ 44#6 ++ d ++ a ++ b ++ 7#10
  | .flt d a b => 0#1 ++ 44#6 ++ d ++ a ++ b ++ 8#10
  | .fle d a b => 0#1 ++ 44#6 ++ d ++ a ++ b ++ 9#10
  | .fabs d a => 0#1 ++ 44#6 ++ d ++ a ++ 10#15
  | .fneg d a => 0#1 ++ 44#6 ++ d ++ a ++ 11#15
  | .ftoi d a => 0#1 ++ 44#6 ++ d ++ a ++ 12#15
  | .ftoiu d a => 0#1 ++ 44#6 ++ d ++ a ++ 13#15
  | .itof d a => 0#1 ++ 44#6 ++ d ++ a ++ 14#15
  | .itofu d a => 0#1 ++ 44#6 ++ d ++ a ++ 15#15
  | .fclass d a => 0#1 ++ 44#6 ++ d ++ a ++ 16#15
  | .fmadd d a b c => 0#1 ++ 45#6 ++ d ++ a ++ b ++ c ++ 0#5
  | .fmsub d a b c => 0#1 ++ 45#6 ++ d ++ a ++ b ++ c ++ 1#5
  | .fnmadd d a b c => 0#1 ++ 45#6 ++ d ++ a ++ b ++ c ++ 2#5
  | .fnmsub d a b c => 0#1 ++ 45#6 ++ d ++ a ++ b ++ c ++ 3#5
  | .vadd d a b fwd => 0#1 ++ 46#6 ++ d ++ a ++ b ++ fwd ++ 0#9
  | .vsub d a b fwd => 0#1 ++ 46#6 ++ d ++ a ++ b ++ fwd ++ 1#9
  | .vmul d a b fwd => 0#1 ++ 46#6 ++ d ++ a ++ b ++ fwd ++ 2#9
  | .vmin d a b fwd => 0#1 ++ 46#6 ++ d ++ a ++ b ++ fwd ++ 3#9
  | .vmax d a b fwd => 0#1 ++ 46#6 ++ d ++ a ++ b ++ fwd ++ 4#9
  | .vabs d a fwd => 0#1 ++ 46#6 ++ d ++ a ++ 0#5 ++ fwd ++ 5#9
  | .vneg d a fwd => 0#1 ++ 46#6 ++ d ++ a ++ 0#5 ++ fwd ++ 6#9
  | .vand d a b fwd => 0#1 ++ 46#6 ++ d ++ a ++ b ++ fwd ++ 7#9
  | .vor d a b fwd => 0#1 ++ 46#6 ++ d ++ a ++ b ++ fwd ++ 8#9
  | .vxor d a b fwd => 0#1 ++ 46#6 ++ d ++ a ++ b ++ fwd ++ 9#9
  | .viadd d a b fwd => 0#1 ++ 46#6 ++ d ++ a ++ b ++ fwd ++ 10#9
  | .visub d a b fwd => 0#1 ++ 46#6 ++ d ++ a ++ b ++ fwd ++ 11#9
  | .vimul d a b fwd => 0#1 ++ 46#6 ++ d ++ a ++ b ++ fwd ++ 12#9
  | .vceq d a b fwd => 0#1 ++ 46#6 ++ d ++ a ++ b ++ fwd ++ 13#9
  | .vclt d a b fwd => 0#1 ++ 46#6 ++ d ++ a ++ b ++ fwd ++ 14#9
  | .vcle d a b fwd => 0#1 ++ 46#6 ++ d ++ a ++ b ++ fwd ++ 15#9
  | .vfma d a b c fwd => 0#1 ++ 47#6 ++ d ++ a ++ b ++ c ++ fwd ++ 0#4
  | .vfms d a b c fwd => 0#1 ++ 47#6 ++ d ++ a ++ b ++ c ++ fwd ++ 1#4
  | .vfnma d a b c fwd => 0#1 ++ 47#6 ++ d ++ a ++ b ++ c ++ fwd ++ 2#4
  | .vfnms d a b c fwd => 0#1 ++ 47#6 ++ d ++ a ++ b ++ c ++ fwd ++ 3#4
  | .vsel d a b c fwd => 0#1 ++ 47#6 ++ d ++ a ++ b ++ c ++ fwd ++ 4#4
  | .vpack d a fmt fwd => 0#1 ++ 48#6 ++ d ++ a ++ fmt ++ fwd ++ 0#9
  | .vunpk d a fmt fwd => 0#1 ++ 48#6 ++ d ++ a ++ fmt ++ fwd ++ 1#9
  | .vitof d a fwd => 0#1 ++ 48#6 ++ d ++ a ++ 0#5 ++ fwd ++ 2#9
  | .vftoi d a fwd => 0#1 ++ 48#6 ++ d ++ a ++ 0#5 ++ fwd ++ 3#9
  | .vperm d a b fwd => 0#1 ++ 48#6 ++ d ++ a ++ b ++ fwd ++ 4#9
  | .vrot d a n fwd => 0#1 ++ 48#6 ++ d ++ a ++ n ++ fwd ++ 5#9
  | .vrsum d a fwd => 0#1 ++ 48#6 ++ d ++ a ++ 0#5 ++ fwd ++ 6#9
  | .vrmax d a fwd => 0#1 ++ 48#6 ++ d ++ a ++ 0#5 ++ fwd ++ 7#9
  | .vrmin d a fwd => 0#1 ++ 48#6 ++ d ++ a ++ 0#5 ++ fwd ++ 8#9
  | .vrcpe d a fwd => 0#1 ++ 48#6 ++ d ++ a ++ 0#5 ++ fwd ++ 9#9
  | .vrsqe d a fwd => 0#1 ++ 48#6 ++ d ++ a ++ 0#5 ++ fwd ++ 10#9
  | .vbcast d a => 0#1 ++ 48#6 ++ d ++ a ++ 11#15
  | .vins d a n => 0#1 ++ 48#6 ++ d ++ a ++ n ++ 12#10
  | .vext d a n fwd => 0#1 ++ 48#6 ++ d ++ a ++ n ++ fwd ++ 13#9
  | .gcomp d a b => 0#1 ++ 48#6 ++ d ++ a ++ b ++ 14#10
  | .messageDelivery => 0#32
  | .overflowRingRetry => 0#32
  | .overflowRingDelivery => 0#32
  | .creditReturn => 0#32
  | .issueChoice => 0#32
  | .preEmption => 0#32
  | .chunkCommit => 0#32
  | .arbiterTokenGrant => 0#32
  | .pkt => 0#32
  | .errstat => 0#32
  | .launchRequest => 0#32
  | .indirectLaunch => 0#32
  | .indirectLaunchEligible => 0#32
  | .endRequest => 0#32
  | .waitingLaunchProceeds => 0#32
  | .launchEnd => 0#32
  | .stepAdvance => 0#32
  | .dieSetChange => 0#32
  | .placementRun => 0#32
  | .kilnReplenishment => 0#32
  | .kilnDraw => 0#32
  | .macCountDraw => 0#32
  | .agingLimit => 0#32
  | .thermalLimit => 0#32
  | .thermalLimitClear => 0#32
  | .migrationQuiesce => 0#32
  | .migrationStream => 0#32
  | .migrationSwitch => 0#32
  | .placementTableRewrite => 0#32
  | .drainMarker => 0#32
  | .drainMessage => 0#32
  | .icacheFill => 0#32
  | .streamRefill => 0#32
  | .pageWalk => 0#32
  | .copyStart => 0#32
  | .copyRackReserve => 0#32
  | .copyBeat => 0#32
  | .copyCompletion => 0#32
  | .counterIncrement => 0#32
  | .matrixCommandStart => 0#32
  | .matrixCommandCompletion => 0#32
  | .marquetryAdd => 0#32
  | .mqzBeat => 0#32
  | .marquetryCompletion => 0#32
  | .farAtomic => 0#32
  | .farAtomicReply => 0#32
  | .barrierRequest => 0#32
  | .barrierReply => 0#32
  | .toleranceCompare => 0#32
  | .glueUp => 0#32
  | .dovetailCombine => 0#32
  | .dovetailCompletion => 0#32
  | .transportPacketSend => 0#32
  | .transportPacketArrival => 0#32
  | .transportAck => 0#32
  | .transportRetransmit => 0#32
  | .preciseTrap => 0#32
  | .wfiDeadline => 0#32
  | .softErrorRepair => 0#32
  | .scrub => 0#32
  | .unitDraining => 0#32
  | .unitRetire => 0#32
  | .spareTakeoverComplete => 0#32
  | .pseudoChannelRetire => 0#32
  | .pseudoChannelRedirect => 0#32
  | .laneFailure => 0#32
  | .hubFailover => 0#32
  | .regulatorPhaseLoss => 0#32
  | .configRecordWrite => 0#32
  | .unitRetirementRequest => 0#32
  | .configErrorClear => 0#32
  | .firmwareUpdate => 0#32
  | .getVersion => 0#32
  | .getCapabilities => 0#32
  | .negotiateAlgorithms => 0#32
  | .getDigests => 0#32
  | .getCertificate => 0#32
  | .challenge => 0#32
  | .getMeasurements => 0#32
  | .powerGood => 0#32
  | .hubDieHandback => 0#32
  | .hubLinksRestored => 0#32

/-- The first word of a pair carries P = 1 (R42). -/
def encodePairFirst (i : Instr) : BitVec 32 := encode i ||| 0x80000000#32

/-- The bytes of an instruction, least significant first. -/
def encodeBytes (i : Instr) : List (BitVec 8) := bytesOfWord (encode i)

end Sys2Proof
end

