-- ==== Sys2Proof/Word.lean ====
section
/-! DEFINITION. The machine's words: general registers are 64 bits (R32), instruction words 32 bits
(R42), lanes 32 bits (R33). -/
namespace Sys2Proof

/-- A general or system register (R32, R36). -/
abbrev Word := BitVec 64
/-- A byte of memory. -/
abbrev Byte := BitVec 8
/-- One vector lane, and the bits of an FP32 value (R33, R58). -/
abbrev Lane := BitVec 32
/-- A 5-bit register field (R47). -/
abbrev Reg := BitVec 5

end Sys2Proof
end

