-- ==== Sys2Proof/Machine/Map.lean ====
section
/-! DEFINITION. Sparse tables keyed by number: a list of pairs with keys strictly rising. A key not
listed reads as the default its caller names. -/
namespace Sys2Proof.Machine

/-- A table: pairs of a key and a value, keys strictly rising. -/
abbrev FMap (V : Type) := List (Nat × V)

/-- The value at a key, `dflt` when the key is not listed. -/
def FMap.get {V : Type} (dflt : V) : FMap V → Nat → V
  | [], _ => dflt
  | (k', v) :: r, k => if k = k' then v else if k < k' then dflt else FMap.get dflt r k

/-- The entry at a key, when listed. -/
def FMap.find? {V : Type} : FMap V → Nat → Option V
  | [], _ => none
  | (k', v) :: r, k => if k = k' then some v else if k < k' then none else FMap.find? r k

/-- List a value at a key. -/
def FMap.put {V : Type} : FMap V → Nat → V → FMap V
  | [], k, v => [(k, v)]
  | (k', v') :: r, k, v =>
    if k = k' then (k, v) :: r
    else if k < k' then (k, v) :: (k', v') :: r
    else (k', v') :: FMap.put r k v

/-- Remove a key. -/
def FMap.del {V : Type} : FMap V → Nat → FMap V
  | [], _ => []
  | (k', v') :: r, k =>
    if k = k' then r.dropWhile (fun p => p.1 ≤ k)
    else if k < k' then (k', v') :: r
    else (k', v') :: FMap.del r k

/-- List a value, or remove the key when the value is the default: the canonical form of memory. -/
def FMap.set {V : Type} [DecidableEq V] (dflt : V) (m : FMap V) (k : Nat) (v : V) : FMap V :=
  if v = dflt then FMap.del m k else FMap.put m k v

/-- Change the value at a key. -/
def FMap.upd {V : Type} (dflt : V) (m : FMap V) (k : Nat) (f : V → V) : FMap V :=
  FMap.put m k (f (FMap.get dflt m k))

/-- Keys strictly rise. -/
def FMap.sorted {V : Type} : FMap V → Bool
  | [] => true
  | [_] => true
  | (k, _) :: (k', v') :: r => k < k' && FMap.sorted ((k', v') :: r)

/-- The lowest number from `start`, within `fuel`, that satisfies `p`. -/
def lowestFrom (p : Nat → Bool) : Nat → Nat → Option Nat
  | _, 0 => none
  | start, fuel + 1 => if p start then some start else lowestFrom p (start + 1) fuel

/-- The element of a list at an index, when there is one, and the list without it. -/
def pick {V : Type} : List V → Nat → Option (V × List V)
  | [], _ => none
  | x :: r, 0 => some (x, r)
  | x :: r, n + 1 => (pick r n).map fun p => (p.1, x :: p.2)

/-- Replace the element at an index. -/
def replaceAt {V : Type} : List V → Nat → V → List V
  | [], _, _ => []
  | _ :: r, 0, v => v :: r
  | x :: r, n + 1, v => x :: replaceAt r n v

end Sys2Proof.Machine
end

