-- ==== Sys2Proof/Machine/Bits.lean ====
section
/-! DEFINITION. Bit fields, sign extension, byte order (R7) and other small number helpers. -/
namespace Sys2Proof.Machine

/-- Bits [hi:lo] of a number (R7). -/
def bits (x hi lo : Nat) : Nat := (x >>> lo) % 2 ^ (hi + 1 - lo)
/-- Bit `i` of a number. -/
def bit (x i : Nat) : Bool := x.testBit i
/-- A flag as a number. -/
def b2n (b : Bool) : Nat := if b then 1 else 0
/-- Bits [hi:lo] of a word. -/
def wbits (x : Word) (hi lo : Nat) : Nat := bits x.toNat hi lo
/-- A number modulo 2^64. -/
def word (n : Nat) : Word := BitVec.ofNat 64 n
/-- Sign-extension of a field to 64 bits (R57). -/
def sext {n : Nat} (x : BitVec n) : Word := x.signExtend 64
/-- Zero-extension of a field to 64 bits (R57). -/
def zext {n : Nat} (x : BitVec n) : Word := x.zeroExtend 64
/-- The signed reading of the low `n` bits of a number. -/
def signed (n x : Nat) : Int :=
  let y := x % 2 ^ n
  if y < 2 ^ (n - 1) then (y : Int) else (y : Int) - (2 ^ n : Nat)
/-- (x - y) mod 2^32 read as a signed 32-bit number is at least 0 (R208, R212, R304). -/
def reached32 (x y : Nat) : Bool := (x + 2 ^ 32 - y % 2 ^ 32) % 2 ^ 32 < 2 ^ 31
/-- Little-endian value of bytes (R7). -/
def leVal : List Byte → Nat
  | [] => 0
  | b :: r => b.toNat + 256 * leVal r
/-- The `n` low bytes of a number, least significant first (R7). -/
def leBytes : Nat → Nat → List Byte
  | 0, _ => []
  | n + 1, x => BitVec.ofNat 8 x :: leBytes n (x / 256)
/-- The field of `n` bytes at an offset of a byte string. -/
def fieldAt (bs : List Byte) (off n : Nat) : Nat := leVal ((bs.drop off).take n)
/-- Every byte is zero. -/
def allZero (bs : List Byte) : Bool := bs.all (· = 0#8)
/-- The bytes [off, off+n) are zero. -/
def zeroAt (bs : List Byte) (off n : Nat) : Bool := allZero ((bs.drop off).take n)
/-- Ceiling division. -/
def cdiv (a b : Nat) : Nat := (a + b - 1) / b
/-- The first `n` numbers from `start`. -/
def span : Nat → Nat → List Nat
  | _, 0 => []
  | start, n + 1 => start :: span (start + 1) n
/-- `n` copies. -/
def rep {V : Type} (n : Nat) (v : V) : List V := List.replicate n v
/-- The element at an index, or a default. -/
def at' {V : Type} (dflt : V) : List V → Nat → V
  | [], _ => dflt
  | x :: _, 0 => x
  | _ :: r, n + 1 => at' dflt r n
/-- The larger of two numbers, saturating reads use it. -/
def sat (n x : Nat) : Nat := if x < 2 ^ n then x else 2 ^ n - 1
/-- Add one signed offset to a 64-bit address, modulo 2^64. -/
def addS (a : Nat) (d : Int) : Nat := ((a : Int) + d).toNat % 2 ^ 64

end Sys2Proof.Machine
end

