-- ==== Sys2Proof/Machine/Float.lean ====
section
/-! DEFINITION. Exact values and rounding (R58-R72): a number is a sign, a whole significand and a
power of two, so that every sum and product is exact until the one rounding. -/
namespace Sys2Proof.Machine

/-- A decoded value. A NaN carries the FP32 pattern under which a reader receives it (R60). -/
inductive Num where
  /-- A NaN. -/
  | nan (bits : Lane)
  /-- An infinity with its sign. -/
  | inf (neg : Bool)
  /-- (-1)^neg * m * 2^e; m = 0 is a zero with its sign. -/
  | fin (neg : Bool) (m : Nat) (e : Int)
deriving DecidableEq, Repr

/-- The rounding modes of R71. The stochastic mode carries h[23:8] of R235. -/
inductive Rm where
  /-- To nearest, ties to even. -/
  | rne
  /-- Toward zero. -/
  | rtz
  /-- Toward minus infinity. -/
  | rdn
  /-- Toward plus infinity. -/
  | rup
  /-- Stochastic, with the hash of R235. -/
  | stoch (h : Nat)
deriving DecidableEq, Repr

/-- The mode that two bits of MODE.FRM name (R39). -/
def Rm.ofFrm (n : Nat) : Rm :=
  match n with
  | 0 => .rne
  | 1 => .rtz
  | 2 => .rdn
  | _ => .rup

/-- The canonical quiet NaN (R151). -/
def qnan : Lane := 0x7FC00000#32
/-- The canonical NaN value. -/
def Num.qnan : Num := .nan Machine.qnan

/-- Round m / 2^sh to a whole number (R71, R235), given the sign of the value. -/
def roundMag (rm : Rm) (neg : Bool) (m sh : Nat) : Nat :=
  let q := m >>> sh
  let r := m % 2 ^ sh
  if r = 0 then q else
  match rm with
  | .rne => if 2 * r > 2 ^ sh || (2 * r = 2 ^ sh && q % 2 = 1) then q + 1 else q
  | .rtz => q
  | .rdn => if neg then q + 1 else q
  | .rup => if neg then q else q + 1
  | .stoch h =>
    if neg then (if h < (2 ^ sh - r) * 2 ^ 16 / 2 ^ sh then q else q + 1)
    else (if h < r * 2 ^ 16 / 2 ^ sh then q + 1 else q)

/-- A binary floating-point shape: fraction bits, exponent bias, largest finite code. -/
structure Shape where
  /-- Fraction bits. -/
  fb : Nat
  /-- Exponent bias. -/
  bias : Nat
  /-- The largest finite magnitude's code (R59). -/
  maxCode : Nat

/-- The shapes of the binary formats (R58, R59). -/
def shapeOf (fmt : Nat) : Shape :=
  match fmt with
  | 0 => ⟨23, 127, 0x7F7FFFFF⟩
  | 1 => ⟨7, 127, 0x7F7F⟩
  | 2 => ⟨10, 15, 0x7BFF⟩
  | 3 => ⟨3, 7, 0x7E⟩
  | 4 => ⟨2, 15, 0x7B⟩
  | 7 => ⟨3, 1, 0x1F⟩
  | 8 => ⟨2, 3, 0x1F⟩
  | _ => ⟨1, 1, 0x7⟩

/-- The magnitude code of a finite nonzero value rounded into a shape, unbounded above: the exponent
field and the fraction run on as one number, so a carry needs no case (R60, R70). -/
def magCode (rm : Rm) (sh : Shape) (neg : Bool) (m : Nat) (e : Int) : Nat :=
  if m = 0 then 0 else
  let top := (m.log2 : Int) + e
  let qmin := (1 : Int) - sh.bias - sh.fb
  let q := max (top - sh.fb) qmin
  let r := if q ≤ e then m <<< (e - q).toNat else roundMag rm neg m (q - e).toNat
  (((q - qmin).toNat) <<< sh.fb) + r

/-- The value of a magnitude code of a shape (R60). -/
def codeMag (sh : Shape) (c : Nat) : Nat × Int :=
  let e := c >>> sh.fb
  let f := c % 2 ^ sh.fb
  if e = 0 then (f, (1 : Int) - sh.bias - sh.fb) else (2 ^ sh.fb + f, (e : Int) - sh.bias - sh.fb)

/-- The value of FP32 bits (R60). -/
def Num.ofBits (x : Lane) : Num :=
  let neg := x.msb
  let c := x.toNat % 2 ^ 31
  if c > 0x7F800000 then .nan x
  else if c = 0x7F800000 then .inf neg
  else let p := codeMag (shapeOf 0) c; .fin neg p.1 p.2

/-- Sign bit of FP32. -/
def signBit (neg : Bool) : Nat := if neg then 2 ^ 31 else 0

/-- Round to FP32 (R70 row FP32; NaN is canonical, R151). -/
def Num.toBits (rm : Rm) (x : Num) : Lane :=
  match x with
  | .nan _ => Machine.qnan
  | .inf neg => BitVec.ofNat 32 (signBit neg + 0x7F800000)
  | .fin neg m e =>
    let c := magCode rm (shapeOf 0) neg m e
    let c' := if c ≤ 0x7F7FFFFF then c else
      match rm with
      | .rne | .stoch _ => 0x7F800000
      | .rtz => 0x7F7FFFFF
      | .rdn => if neg then 0x7F800000 else 0x7F7FFFFF
      | .rup => if neg then 0x7F7FFFFF else 0x7F800000
    BitVec.ofNat 32 (signBit neg + c')

/-- Negation. -/
def Num.negate : Num → Num
  | .nan b => .nan b
  | .inf n => .inf (!n)
  | .fin n m e => .fin (!n) m e

/-- Signed significand. -/
def sgn (neg : Bool) (m : Nat) : Int := if neg then -(m : Int) else m

/-- A whole number times a power of two, with the sign of an exact zero given. -/
def Num.ofInt (zeroNeg : Bool) (v : Int) (e : Int) : Num :=
  if v = 0 then .fin zeroNeg 0 0 else .fin (v < 0) v.natAbs e

/-- Exact sum (IEEE 754). The sign of a zero sum depends on the mode. -/
def Num.add (rm : Rm) (x y : Num) : Num :=
  match x, y with
  | .nan _, _ => .qnan
  | _, .nan _ => .qnan
  | .inf a, .inf b => if a = b then .inf a else .qnan
  | .inf a, .fin .. => .inf a
  | .fin .., .inf b => .inf b
  | .fin a m e, .fin b n f =>
    let l := min e f
    let v := sgn a (m <<< (e - l).toNat) + sgn b (n <<< (f - l).toNat)
    Num.ofInt (if m = 0 && n = 0 && a = b then a else rm = .rdn) v l

/-- Exact product. -/
def Num.mul (x y : Num) : Num :=
  match x, y with
  | .nan _, _ => .qnan
  | _, .nan _ => .qnan
  | .inf a, .inf b => .inf (a != b)
  | .inf a, .fin b n _ => if n = 0 then .qnan else .inf (a != b)
  | .fin a m _, .inf b => if m = 0 then .qnan else .inf (a != b)
  | .fin a m e, .fin b n f => .fin (a != b) (m * n) (e + f)

/-- Quotient with 64 extra bits and a sticky bit, enough for one rounding. -/
def Num.div (x y : Num) : Num :=
  match x, y with
  | .nan _, _ => .qnan
  | _, .nan _ => .qnan
  | .inf _, .inf _ => .qnan
  | .inf a, .fin b _ _ => .inf (a != b)
  | .fin a _ _, .inf b => .fin (a != b) 0 0
  | .fin a m e, .fin b n f =>
    if n = 0 then (if m = 0 then .qnan else .inf (a != b))
    else
      let num := m <<< 64
      .fin (a != b) (2 * (num / n) + (if num % n = 0 then 0 else 1)) (e - f - 65)

/-- Integer square root, bit by bit from 2^k. -/
def isqrt : Nat → Nat → Nat → Nat
  | 0, _, r => r
  | k + 1, n, r => isqrt k n (if (r + 2 ^ k) * (r + 2 ^ k) ≤ n then r + 2 ^ k else r)

/-- Square root with extra bits and a sticky bit (R157). -/
def Num.sqrt (x : Num) : Num :=
  match x with
  | .nan _ => .qnan
  | .inf neg => if neg then .qnan else .inf false
  | .fin neg m e =>
    if m = 0 then .fin neg 0 0 else if neg then .qnan
    else
      let odd := (e % 2).toNat
      let n := m <<< (64 + odd)
      let r := isqrt 64 n 0
      .fin false (2 * r + (if r * r = n then 0 else 1)) ((e - odd - 64) / 2 - 1)

/-- Rounded to a whole number by the mode; `none` for a NaN or an infinity. -/
def Num.toInt (rm : Rm) (x : Num) : Option Int :=
  match x with
  | .fin neg m e =>
    some (sgn neg (if 0 ≤ e then m <<< e.toNat else roundMag rm neg m (-e).toNat))
  | _ => none

/-- The exponent of a value's leading bit (R72 step 3). -/
def Num.exponent : Num → Option Int
  | .fin _ m e => if m = 0 then none else some ((m.log2 : Int) + e)
  | _ => none

/-- The largest exponent among terms. -/
def maxExponent : List Num → Option Int
  | [] => none
  | t :: r =>
    match t.exponent, maxExponent r with
    | some a, some b => some (max a b)
    | some a, none => some a
    | none, b => b

/-- A term in fixed point with least weight 2^w, truncated toward zero (R72 step 3). -/
def Num.fixed (w : Int) : Num → Int
  | .fin neg m e => sgn neg (if w ≤ e then m <<< (e - w).toNat else m >>> (w - e).toNat)
  | _ => 0

/-- The terms are all zeros with sign minus. -/
def allNegZero (ts : List Num) : Bool :=
  ts.all fun t => match t with
    | .fin neg m _ => neg && m = 0
    | _ => false

/-- Steps 3 to 6 of R72 on one group; the result is rounded once to FP32. A NaN has the bits 0x7FC00000, which step 6 leaves
open (log 88). -/
def groupSum (ts : List Num) : Lane :=
  if ts.any (fun t => match t with | .nan _ => true | _ => false) then qnan
  else
    let pos := ts.any (· = .inf false)
    let neg := ts.any (· = .inf true)
    if pos && neg then qnan
    else if pos then 0x7F800000#32
    else if neg then 0xFF800000#32
    else
      match maxExponent ts with
      | none => if !ts.isEmpty && allNegZero ts then 0x80000000#32 else 0#32
      | some em =>
        let w := em - 30
        let v := ts.foldl (fun acc t => acc + t.fixed w) (0 : Int)
        (Num.ofInt false v w).toBits .rne

/-- R72 over a whole contraction: groups of 16 products in ascending k, each with the running sum as
one more term. `fuel` bounds the number of groups. -/
def contract : Nat → Lane → List Num → Lane
  | 0, acc, _ => acc
  | fuel + 1, acc, ts =>
    match ts with
    | [] => acc
    | _ => contract fuel (groupSum (Num.ofBits acc :: ts.take 16)) (ts.drop 16)

/-- Compare m * 2^e with n * 2^f. -/
def dyCmp (m : Nat) (e : Int) (n : Nat) (f : Int) : Ordering :=
  let l := min e f
  compare (m <<< (e - l).toNat) (n <<< (f - l).toNat)

/-- x < y on values that are no NaN. -/
def Num.lt (x y : Num) : Bool :=
  match x, y with
  | .inf a, .inf b => a && !b
  | .inf a, .fin .. => a
  | .fin .., .inf b => !b
  | .fin a m e, .fin b n f =>
    let l := min e f
    decide (sgn a (m <<< (e - l).toNat) < sgn b (n <<< (f - l).toNat))
  | _, _ => false

/-- A NaN. -/
def Num.isNan : Num → Bool
  | .nan _ => true
  | _ => false

/-- x = y under R152 (NaN is never equal, +0 equals -0). -/
def Num.eq (x y : Num) : Bool :=
  !x.isNan && !y.isNan && !x.lt y && !y.lt x

/-- x ≤ y under R152. -/
def Num.le (x y : Num) : Bool := !x.isNan && !y.isNan && !y.lt x

/-- The sign of a number. -/
def Num.neg? : Num → Bool
  | .nan b => b.msb
  | .inf n => n
  | .fin n _ _ => n

/-- x orders before y in the minimum and maximum of R152: -0 below +0. -/
def Num.before (x y : Num) : Bool := x.lt y || (!y.lt x && x.neg? && !y.neg?)

end Sys2Proof.Machine
end

