-- ==== Sys2Proof/Machine/Formats.lean ====
section
/-! DEFINITION. The twelve element formats: decoding (R60, R61, R63, R64), encoding (R62, R70), and the
FP32 operations the scalar and vector instructions share (R151-R167). -/
namespace Sys2Proof.Machine

/-- Element width in bits (R58). -/
def fmtWidth (fmt : Nat) : Nat :=
  match fmt with
  | 0 => 32
  | 1 | 2 => 16
  | 3 | 4 | 5 | 6 => 8
  | 7 | 8 | 9 => 6
  | _ => 4

/-- Length of the run of bits equal to `b` from bit `n - 1` down. -/
def runLen (b : Bool) : Nat → Nat → Nat
  | 0, _ => 0
  | n + 1, x => if x.testBit n = b then 1 + runLen b n x else 0

/-- The magnitude of a tapered code of `n` magnitude bits, nonzero (R61). -/
def taperMag (n c : Nat) : Nat × Int :=
  let one := c.testBit (n - 1)
  let l := runLen one n c
  let k : Int := if one then (l : Int) - 1 else -(l : Int)
  let rest := n - min n (l + 1)
  let e := if rest = 0 then 0 else b2n (c.testBit (rest - 1))
  let fb := rest - 1
  (2 ^ fb + c % 2 ^ fb, 2 * k + (e : Int) - (fb : Int))

/-- Decode an element's bits (R60, R61). -/
def decodeElem (fmt x : Nat) : Num :=
  match fmt with
  | 0 => Num.ofBits (BitVec.ofNat 32 x)
  | 1 => Num.ofBits (BitVec.ofNat 32 (x <<< 16))
  | 2 =>
    let neg := x.testBit 15
    let c := x % 2 ^ 15
    if c > 0x7C00 then .nan (BitVec.ofNat 32 (signBit neg + 0x7FC00000 ||| (c % 1024) <<< 13))
    else if c = 0x7C00 then .inf neg
    else let p := codeMag (shapeOf 2) c; .fin neg p.1 p.2
  | 3 =>
    let neg := x.testBit 7
    let c := x % 128
    if c = 0x7F then .nan (BitVec.ofNat 32 (signBit neg + 0x7FC00000))
    else let p := codeMag (shapeOf 3) c; .fin neg p.1 p.2
  | 4 =>
    let neg := x.testBit 7
    let c := x % 128
    if c > 0x7C then .nan (BitVec.ofNat 32 (signBit neg + 0x7FC00000))
    else if c = 0x7C then .inf neg
    else let p := codeMag (shapeOf 4) c; .fin neg p.1 p.2
  | 5 =>
    let neg := x.testBit 7
    let c := x % 128
    if c = 0 then (if neg then .qnan else .fin false 0 0)
    else let p := taperMag 7 c; .fin neg p.1 p.2
  | 6 => Num.ofInt false (signed 8 x) 0
  | 7 => let p := codeMag (shapeOf 7) (x % 32); .fin (x.testBit 5) p.1 p.2
  | 8 => let p := codeMag (shapeOf 8) (x % 32); .fin (x.testBit 5) p.1 p.2
  | 9 =>
    let neg := x.testBit 5
    let c := x % 32
    if c = 0 then (if neg then .qnan else .fin false 0 0)
    else let p := taperMag 5 c; .fin neg p.1 p.2
  | 10 => let p := codeMag (shapeOf 10) (x % 8); .fin (x.testBit 3) p.1 p.2
  | _ => Num.ofInt false (signed 4 x) 0

/-- The value times the E8M0 scale byte (R64). -/
def scaleBy (s : Nat) (x : Num) : Num :=
  if s = 0xFF then .qnan else
  match x with
  | .fin neg m e => .fin neg m (e + (s : Int) - 127)
  | y => y

/-- The value divided by the scale, as a writer multiplies it by 2^(127 - s) (R68). -/
def unscaleBy (s : Nat) (x : Num) : Num :=
  if s = 0xFF then .qnan else
  match x with
  | .fin neg m e => .fin neg m (e - (s : Int) + 127)
  | y => y

/-- An FP32 reader's bits of a value read through an element window: NaN bits as R60 gives them,
everything else rounded to nearest even (R67). -/
def Num.read32 (x : Num) : Lane :=
  match x with
  | .nan b => b
  | y => y.toBits .rne

/-- The largest tapered code whose value is at most m * 2^e, built bit by bit from bit `k`. -/
def taperFloor (n : Nat) (m : Nat) (e : Int) : Nat → Nat → Nat
  | 0, c => c
  | k + 1, c =>
    let c' := c + 2 ^ k
    let p := taperMag n c'
    taperFloor n m e k (if dyCmp p.1 p.2 m e = .gt then c else c')

/-- The tapered code of a nonzero magnitude (R62, R235). -/
def taperCode (rm : Rm) (n : Nat) (neg : Bool) (m : Nat) (e : Int) : Nat :=
  let lo := taperFloor n m e n 0
  if lo = 0 then 1 else
  if lo = 2 ^ n - 1 then lo else
  let p := taperMag n lo
  if dyCmp p.1 p.2 m e = .eq then lo else
  let q := taperMag n (lo + 1)
  let w := min e (min p.2 q.2)
  let x := m <<< (e - w).toNat
  let a := p.1 <<< (p.2 - w).toNat
  let b := q.1 <<< (q.2 - w).toNat
  let up := match rm with
    | .rne => 2 * x > a + b || (2 * x = a + b && lo % 2 = 1)
    | .rtz => false
    | .rdn => neg
    | .rup => !neg
    | .stoch h => if neg then !(h < (b - x) * 2 ^ 16 / (b - a)) else decide (h < (x - a) * 2 ^ 16 / (b - a))
  if up then lo + 1 else lo

/-- A rounding mode that only applies between neighbours within the range: beyond max the stochastic
mode encodes by nearest even (R235). -/
def Rm.plain (rm : Rm) : Rm :=
  match rm with
  | .stoch _ => .rne
  | r => r

/-- The magnitude code of a value in a shape; the stochastic mode falls back to nearest even when the
value lies beyond the largest finite one (R235). -/
def magCodeS (rm : Rm) (sh : Shape) (neg : Bool) (m : Nat) (e : Int) : Nat :=
  let p := codeMag sh sh.maxCode
  if dyCmp m e p.1 p.2 = .gt then magCode rm.plain sh neg m e else magCode rm sh neg m e

/-- A signed integer clamped into `n` bits. -/
def clampInt (n : Nat) (v : Int) : Int := max (-(2 ^ (n - 1) : Nat)) (min ((2 ^ (n - 1) : Nat) - 1) v)

/-- Low `n` bits of an integer. -/
def lowBits (n : Nat) (v : Int) : Nat := (v % (2 ^ n : Nat)).toNat

/-- Code above max of an IEEE format under a mode. -/
def overCode (rm : Rm) (neg : Bool) (maxCode : Nat) : Nat :=
  match rm with
  | .rne | .stoch _ => maxCode + 1
  | .rtz => maxCode
  | .rdn => if neg then maxCode + 1 else maxCode
  | .rup => if neg then maxCode else maxCode + 1

/-- Encode an exact value into a format (R62, R68, R70). Under stochastic rounding (R235) an INT8 or INT4 value between the
format's two lowest codes is rounded between them (log 86). -/
def encodeElem (fmt : Nat) (rm : Rm) (x : Num) : Nat :=
  match fmt with
  | 0 => match x with
    | .nan b => b.toNat
    | .fin neg m e =>
      let c := magCodeS rm (shapeOf 0) neg m e
      signBit neg + (if c ≤ 0x7F7FFFFF then c else overCode rm neg 0x7F7FFFFF)
    | .inf neg => signBit neg + 0x7F800000
  | 1 => match x with
    | .nan b => (b.toNat >>> 16) ||| 0x40
    | .inf neg => (if neg then 0x8000 else 0) + 0x7F80
    | .fin neg m e =>
      let c := magCodeS rm (shapeOf 1) neg m e
      (if neg then 0x8000 else 0) + (if c ≤ 0x7F7F then c else overCode rm neg 0x7F7F)
  | 2 => match x with
    | .nan b => (if b.msb then 0x8000 else 0) + 0x7E00 + bits b.toNat 22 14 % 512
    | .inf neg => (if neg then 0x8000 else 0) + 0x7C00
    | .fin neg m e =>
      let c := magCodeS rm (shapeOf 2) neg m e
      (if neg then 0x8000 else 0) + (if c ≤ 0x7BFF then c else overCode rm neg 0x7BFF)
  | 3 => match x with
    | .nan b => (if b.msb then 0x80 else 0) + 0x7F
    | .inf neg => (if neg then 0x80 else 0) + 0x7F
    | .fin neg m e => (if neg then 0x80 else 0) + min 0x7E (magCodeS rm (shapeOf 3) neg m e)
  | 4 => match x with
    | .nan b => (if b.msb then 0x80 else 0) + 0x7F
    | .inf neg => (if neg then 0x80 else 0) + 0x7C
    | .fin neg m e => (if neg then 0x80 else 0) + min 0x7B (magCodeS rm (shapeOf 4) neg m e)
  | 5 => match x with
    | .fin neg m e => if m = 0 then 0 else (if neg then 0x80 else 0) + taperCode rm 7 neg m e
    | _ => 0x80
  | 6 => match x with
    | .nan _ => 0
    | .inf neg => if neg then 0x80 else 0x7F
    | .fin neg m e => lowBits 8 (clampInt 8 (((Num.fin neg m e).toInt rm).getD 0))
  | 9 => match x with
    | .fin neg m e => if m = 0 then 0 else (if neg then 0x20 else 0) + taperCode rm 5 neg m e
    | _ => 0x20
  | 10 => match x with
    | .nan _ => 0
    | .inf neg => (if neg then 8 else 0) + 7
    | .fin neg m e => (if neg then 8 else 0) + min 7 (magCodeS rm (shapeOf 10) neg m e)
  | 11 => match x with
    | .nan _ => 0
    | .inf neg => if neg then 8 else 7
    | .fin neg m e => lowBits 4 (clampInt 4 (((Num.fin neg m e).toInt rm).getD 0))
  | f => match x with
    | .nan _ => 0
    | .inf neg => (if neg then 0x20 else 0) + 0x1F
    | .fin neg m e => (if neg then 0x20 else 0) + min 0x1F (magCodeS rm (shapeOf f) neg m e)

/-! ### Scalar and lane operations on FP32 bits -/

/-- rnd(x + y) (R157). -/
def fadd (rm : Rm) (x y : Lane) : Lane := ((Num.ofBits x).add rm (Num.ofBits y)).toBits rm
/-- rnd(x - y). -/
def fsub (rm : Rm) (x y : Lane) : Lane := ((Num.ofBits x).add rm (Num.ofBits y).negate).toBits rm
/-- rnd(x * y). -/
def fmul (rm : Rm) (x y : Lane) : Lane := ((Num.ofBits x).mul (Num.ofBits y)).toBits rm
/-- rnd(x / y). -/
def fdiv (rm : Rm) (x y : Lane) : Lane := ((Num.ofBits x).div (Num.ofBits y)).toBits rm
/-- rnd(sqrt x). -/
def fsqrt (rm : Rm) (x : Lane) : Lane := ((Num.ofBits x).sqrt).toBits rm
/-- The fused forms of R160: (-1)^n1 x y + (-1)^n2 z, rounded once. -/
def ffma (rm : Rm) (n1 n2 : Bool) (x y z : Lane) : Lane :=
  let p := (Num.ofBits x).mul (Num.ofBits y)
  let p := if n1 then p.negate else p
  let c := if n2 then (Num.ofBits z).negate else Num.ofBits z
  (p.add rm c).toBits rm
/-- FMIN and its vector forms (R152). -/
def fmin (x y : Lane) : Lane :=
  let a := Num.ofBits x; let b := Num.ofBits y
  if a.isNan && b.isNan then qnan else if a.isNan then y else if b.isNan then x
  else if b.before a then y else x
/-- FMAX and its vector forms (R152). -/
def fmax (x y : Lane) : Lane :=
  let a := Num.ofBits x; let b := Num.ofBits y
  if a.isNan && b.isNan then qnan else if a.isNan then y else if b.isNan then x
  else if a.before b then y else x
/-- x = y (R152). -/
def feq (x y : Lane) : Bool := (Num.ofBits x).eq (Num.ofBits y)
/-- x < y (R152). -/
def flt (x y : Lane) : Bool := (Num.ofBits x).lt (Num.ofBits y)
/-- x ≤ y (R152). -/
def fle (x y : Lane) : Bool := (Num.ofBits x).le (Num.ofBits y)
/-- Bit 31 cleared. -/
def fabsBits (x : Lane) : Lane := x &&& 0x7FFFFFFF#32
/-- Bit 31 inverted. -/
def fnegBits (x : Lane) : Lane := x ^^^ 0x80000000#32

/-- Round to an integer and clamp to [lo, hi]; a NaN gives 0 (R158, R164). -/
def ftoi (rm : Rm) (lo hi : Int) (x : Lane) : Int :=
  match Num.ofBits x with
  | .nan _ => 0
  | .inf neg => if neg then lo else hi
  | .fin n m e => max lo (min hi (((Num.fin n m e).toInt rm).getD 0))

/-- An integer rounded to FP32 (R158, R164). -/
def itof (rm : Rm) (v : Int) : Lane := (Num.ofInt false v 0).toBits rm

/-- The class bit of R159. -/
def fclass (x : Lane) : Nat :=
  match Num.ofBits x with
  | .nan b => if b.getLsbD 22 then 512 else 256
  | .inf neg => if neg then 1 else 128
  | .fin neg m _ =>
    let sub := x.toNat % 2 ^ 31 < 2 ^ 23
    if m = 0 then (if neg then 8 else 16)
    else if neg then (if sub then 4 else 2) else (if sub then 32 else 64)

/-- Keep 12 significant bits of m * 2^e, truncated, with the range ends of R167. -/
def estimate (neg : Bool) (m : Nat) (e : Int) : Lane :=
  let drop := m.log2 - 11
  let m' := (m >>> drop) <<< drop
  if dyCmp m' e 1 (-126) = .lt then BitVec.ofNat 32 (signBit neg)
  else if dyCmp m' e 1 128 ≠ .lt then BitVec.ofNat 32 (signBit neg + 0x7F800000)
  else (Num.fin neg m' e).toBits .rtz

/-- VRCPE of one lane (R167). -/
def rcpe (x : Lane) : Lane :=
  match Num.ofBits x with
  | .nan _ => qnan
  | .inf neg => BitVec.ofNat 32 (signBit neg)
  | .fin neg m e =>
    if m = 0 then BitVec.ofNat 32 (signBit neg + 0x7F800000)
    else estimate neg (2 ^ 64 / m) (-e - 64)

/-- VRSQE of one lane (R167). -/
def rsqe (x : Lane) : Lane :=
  match Num.ofBits x with
  | .nan _ => qnan
  | .inf neg => if neg then qnan else 0#32
  | .fin neg m e =>
    if m = 0 then BitVec.ofNat 32 (signBit neg + 0x7F800000)
    else if neg then qnan
    else
      let odd := (e % 2).toNat
      let m' := m <<< odd
      let e' := (e - odd) / 2
      estimate false (isqrt 64 (2 ^ 120 / m') 0) (-e' - 60)

/-! ### Packed elements (R63, R163) -/

/-- Element `i` of packed bits of width `w`: six-bit and four-bit elements follow one another, as R63
places them, so element i is bits [w*i+w-1 : w*i] of the little-endian string. -/
def packedElem (w x i : Nat) : Nat := (x >>> (w * i)) % 2 ^ w

/-- Pack elements of width `w`, the first lowest. -/
def packElems (w : Nat) : List Nat → Nat
  | [] => 0
  | x :: r => x % 2 ^ w + 2 ^ w * packElems w r

end Sys2Proof.Machine
end

