-- ==== Sys2Proof/Config.lean ====
section
/-! DEFINITION. What an implementation fixes and what the manual leaves open. An opaque constant here
has no body: nothing can be proved of its value, so a claim holds whatever it is (log 4). -/
namespace Sys2Proof.Config

/-- A byte the manual calls undefined: the tail of a slot behind a short packet (R14), the bytes of a
rack slot that a failed copy did not write (R203). Applied to a fresh number. -/
opaque freeByte : Nat → BitVec 8
/-- XVAL of a fault whose entry names none. Applied to a fresh number. -/
opaque freeXval : Nat → BitVec 64
/-- A signature reports a line that its chunk never touched (R289). Applied to a fresh number. -/
opaque falseHit : Nat → Bool
/-- The skew of TIME on a core, in nanoseconds; used modulo 16 (R36). Applied to the core. -/
opaque timeSkew : Nat → Nat
/-- The security processor's verdict on a firmware image, its bytes that are not 0 by offset: cause 0 accepts (R390,
R391). -/
opaque imageVerdict : List (Nat × BitVec 8) → Nat
/-- The security version an image carries (R390). Applied to its bytes. -/
opaque imageVersion : List (Nat × BitVec 8) → Nat
/-- The device's certificate chain: 0 its digest, 1 the chain (R390). -/
opaque certificate : Nat → Nat
/-- The measurement of an index, with the bytes of the firmware image where it covers one (R390). -/
opaque measurement : Nat → List (Nat × BitVec 8) → Nat
/-- The ECDSA P-384 signature of a message digest by the device key (R390). -/
opaque sign : Nat → Nat
/-- What the routing table of a mesh link holds for a rectangle (R88). Applied to the rectangle and the link. -/
opaque routing : Nat → Nat → Nat
/-- The congestion record's fields for a node that has one (R340). Applied to node and a fresh number. -/
opaque congestion : Nat → Nat → BitVec 64

end Sys2Proof.Config
end

