-- ==== Sys2Proof/Machine/Cause.lean ====
section
/-! DEFINITION. The cause codes that the Fenestay raises (R354). Reserved codes are never raised, so
they have no constructor. -/
namespace Sys2Proof.Machine

/-- A cause of a trap, an error phase, a dead letter or an event (R354). -/
inductive Cause where
  /-- 0, XCAUSE after reset. -/
  | none
  | illegalOp | illegalPair | targetInPair | reservedBits | privileged | breakpoint | trapInsn
  | noTranslation | protRead | protWrite | protExec | misaligned | noDramPath | windowUndefined
  | staleHandle | handleRevoked | permissionMask | spadUncorrectable | handleTableFull | handleRange
  | matrixOperand | accHeld | accUnowned | kerfParam | kerfGauge | mqDescriptor | mqDimension
  | copyPattern | rackOverrun | streamUnbound | rackUnbound | dovetailGroup | dovetailMismatch
  | transportRemote | badPacketLength | unknownActor | actorExited | ringFull | ringUnmapped
  | maskWindow | launchShape | restoreShape | indirectRange | contextImage | contextBusy
  | barrierOver | barrierDrop | counterError | soloMode | dryfitFull | knockdownDepth
  | orderTimestamp | dryfitSetup | watchData | watchLanding | doubleTrap | unitRetired
  | softCorrected | thermalLimit | securityViolation | linkDown
deriving DecidableEq, Repr

/-- The code of a cause (R354). -/
def Cause.code : Cause → Nat
  | .none => 0 | .illegalOp => 1 | .illegalPair => 2 | .targetInPair => 3 | .reservedBits => 4
  | .privileged => 5 | .breakpoint => 6 | .trapInsn => 7
  | .noTranslation => 32 | .protRead => 33 | .protWrite => 34 | .protExec => 35 | .misaligned => 36
  | .noDramPath => 37 | .windowUndefined => 38 | .staleHandle => 39 | .handleRevoked => 40
  | .permissionMask => 41 | .spadUncorrectable => 42 | .handleTableFull => 43 | .handleRange => 44
  | .matrixOperand => 64 | .accHeld => 65 | .accUnowned => 66 | .kerfParam => 67 | .kerfGauge => 68
  | .mqDescriptor => 69 | .mqDimension => 70 | .copyPattern => 71 | .rackOverrun => 72
  | .streamUnbound => 73 | .rackUnbound => 74 | .dovetailGroup => 75 | .dovetailMismatch => 76
  | .transportRemote => 77
  | .badPacketLength => 96 | .unknownActor => 97 | .actorExited => 98 | .ringFull => 99
  | .ringUnmapped => 100 | .maskWindow => 101 | .launchShape => 102 | .restoreShape => 103
  | .indirectRange => 104 | .contextImage => 105 | .contextBusy => 106
  | .barrierOver => 128 | .barrierDrop => 129 | .counterError => 130 | .soloMode => 131
  | .dryfitFull => 132 | .knockdownDepth => 133 | .orderTimestamp => 134 | .dryfitSetup => 135
  | .watchData => 160 | .watchLanding => 161 | .doubleTrap => 162 | .unitRetired => 163
  | .softCorrected => 164 | .thermalLimit => 165 | .securityViolation => 166 | .linkDown => 167

end Sys2Proof.Machine
end

