-- ==== Sys2Proof/Machine/State.lean ====
section
/-! DEFINITION. The state of the package: everything the manual gives the machine, as plain data
(INVENTORY.md lists each piece with its rule and its reset value). -/
namespace Sys2Proof.Machine

/-- A vector register: 16 lanes of 32 bits (R33). -/
abbrev VReg := Vector Lane 16
/-- A vector register of zeros. -/
def VReg.zero : VReg := Vector.replicate 16 0#32

/-- A leaf of a page table (R175). -/
structure Leaf where
  /-- Device address of the page. -/
  base : Nat
  /-- Page size as a power of two: 16, 21 or 30 (R174). -/
  size : Nat
  /-- SCOPE, 0-4 (R176). -/
  scope : Nat
  /-- An I/O page (R182). -/
  io : Bool
  /-- User-mode firings may access the page. -/
  u : Bool
  /-- Execute. -/
  x : Bool
  /-- Write. -/
  w : Bool
  /-- Read. -/
  r : Bool
deriving DecidableEq, Repr

/-- A TLB entry: one leaf of one partition (R177). -/
structure Tlb where
  /-- Partition. -/
  part : Nat
  /-- Virtual address of the page. -/
  va : Nat
  /-- The leaf. -/
  leaf : Leaf
deriving DecidableEq, Repr

/-- An error latch of a counter, a channel or a slot (R206, R213, R223). -/
structure Latch where
  /-- EP. -/
  ep : Bool
  /-- MULTI. -/
  multi : Bool
  /-- CODE. -/
  code : Nat
  /-- AGENT (R206). -/
  agent : Nat
  /-- BYTES (R206). -/
  bytes : Nat
deriving DecidableEq, Repr

/-- A clear latch. -/
def Latch.clear : Latch := ⟨false, false, 0, 0, 0⟩

/-- A rack record (R126), as every agent but the moving firing sees it. -/
structure Rack where
  /-- SZ: slots of 64 * 2^SZ bytes. -/
  sz : Nat
  /-- CNTM1: slot count minus 1. -/
  cntm1 : Nat
  /-- FILL. -/
  fill : Nat
  /-- FREE. -/
  free : Nat
  /-- NFILL. -/
  nfill : Nat
  /-- The instance whose record it is; none for a firing-local record. -/
  owner : Option Nat
  /-- The priority level that made a firing-local record. -/
  level : Nat
  /-- The input port the rack holds. -/
  port : Option Nat
  /-- A message port's rack in the mailbox (R15). -/
  mail : Bool
  /-- Reservations of copies in flight, oldest first: copy key and slots (R203). -/
  resv : List (Nat × Nat)
  /-- For each filled slot of a message port, oldest first: sending instance and port plus one (0 for
  a direct send), speculative sender plus one, timestamp plus one (R19, R315, R317). -/
  senders : List (Nat × Nat × Nat × Nat)
  /-- Credits of slots freed before their firing's DONE: instance and port, each plus one (R19). -/
  owed : List (Nat × Nat)
  /-- Claimed slots whose commands free them at completion (R228). -/
  pend : Nat
  /-- Frees that wait for those commands (R228). -/
  defer : Nat
  /-- Claimed slots among `pend` whose firing has ended (R20). -/
  due : Nat
  /-- Slots of the real tile that have landed and wait for the tolerance compare (R313). -/
  wait : Nat
deriving DecidableEq, Repr

/-- Dry-fit state of a rack (R307, R320, R321, R322). -/
structure Mark where
  /-- Marked predictable. -/
  pred : Bool
  /-- Format of the window RKPRED named. -/
  fmt : Nat
  /-- Staging address while armed. -/
  armed : Option Nat
  /-- tol_abs. -/
  tolAbs : Lane
  /-- tol_rel. -/
  tolRel : Lane
  /-- Versions held, newest first. -/
  vers : List (List Byte)
  /-- ACC. -/
  acc : Nat
  /-- REJ. -/
  rej : Nat
  /-- LASTCAUSE. -/
  lastCause : Nat
  /-- LASTERR. -/
  lastErr : Lane
  /-- Marked anew by a chunk that has not committed: it captures no version before that commit (R307, R320). -/
  anew : Bool
deriving DecidableEq, Repr

/-- An unmarked rack. -/
def Mark.clear : Mark := ⟨false, 0, none, 0#32, 0#32, [], 0, 0, 0, 0#32, false⟩

/-- A staged stream element or the fault its refill met (R130). -/
structure Elem where
  /-- The element's bits: 64 for a general stream, 512 for a strip. -/
  val : Nat
  /-- The refill's fault and the element's address. -/
  bad : Option (Cause × Nat)
  /-- Lines its bytes lie in: its pop enters them in the read signature (R289). -/
  lines : List Nat
deriving DecidableEq, Repr

/-- A stream binding (R129, R130). -/
structure Stream where
  /-- SRC. -/
  src : Nat
  /-- ESZ. -/
  esz : Nat
  /-- SIGN. -/
  sign : Bool
  /-- COUNT0-COUNT3. -/
  counts : List Nat
  /-- STRIDE0-STRIDE3, modulo 2^64. -/
  strides : List Nat
  /-- Next element to refill. -/
  next : Nat
  /-- Elements popped. -/
  popped : Nat
  /-- The staging buffer, oldest first. -/
  staged : List Elem
  /-- The refill has forked. -/
  go : Bool
  /-- Window descriptors as they stood at the fork (R69). -/
  wins : FMap Word
  /-- Issued in user mode. -/
  user : Bool
  /-- Priority level of the firing that bound it. -/
  level : Nat
  /-- Number of that firing. -/
  fir : Nat
  /-- Translations the refill keeps (R179). -/
  tlb : List Tlb
deriving DecidableEq, Repr

/-- An accumulator slot (R219, R260). -/
structure Slot where
  /-- Owning instance; none while free or shadow. -/
  owner : Option Nat
  /-- Held by a trap (R363). -/
  held : Bool
  /-- Taken as a shadow slot (R311). -/
  shadow : Bool
  /-- MFREE waits for its last command (R238). -/
  freeing : Bool
  /-- 256 values, row-major; an empty list is all zeros. -/
  vals : List Lane
  /-- Side word. -/
  side : Lane
  /-- Parameter copy, 64 bytes; an empty list is all zeros. -/
  par : List Byte
  /-- DCNT. -/
  dcnt : Nat
  /-- Error latch. -/
  latch : Latch
  /-- Kerf status (R260). -/
  kstat : Word
deriving DecidableEq, Repr

/-- A free slot (R220). -/
def Slot.free : Slot := ⟨none, false, false, false, [], 0#32, [], 0, Latch.clear, 0#64⟩

/-- The trap registers and mode of one priority level (R355). -/
structure TrapRegs where
  /-- XCAUSE. -/
  xcause : Word
  /-- XVAL. -/
  xval : Word
  /-- XPC. -/
  xpc : Word
  /-- XSTAT (R38). -/
  xstat : Word
  /-- XVEC. -/
  xvec : Word
  /-- XSCRATCH. -/
  xscratch : Word
  /-- MODE (R39). -/
  mode : Word
  /-- CHMAX (R41). -/
  chmax : Word
  /-- WATCHA. -/
  watcha : Word
  /-- WATCHM (R40). -/
  watchm : Word
deriving DecidableEq, Repr

/-- The trap registers at reset (R36). -/
def TrapRegs.reset : TrapRegs := ⟨0, 0, 0, 0, 0, 0, 0, 256, 0, 0⟩

/-- A firing in progress (R17-R20). -/
structure Firing where
  /-- The instance's key. -/
  inst : Nat
  /-- Its partition. -/
  part : Nat
  /-- Priority level. -/
  pri : Nat
  /-- Energy class (R25). -/
  cls : Nat
  /-- First address of the code image (R122). -/
  lo : Nat
  /-- Address past the image. -/
  hi : Nat
  /-- The program counter (R18). -/
  pc : Word
  /-- Instructions executed, to know the first (R323). -/
  ran : Nat
  /-- Age at issue (R118). -/
  waited : Nat
  /-- Chosen by ageing. -/
  aged : Bool
  /-- Entry time of its queue entry (R101). -/
  entry : Nat
  /-- Units drawn (R118). -/
  drawn : Nat
  /-- Its number, which its commands carry (R105, R361). -/
  serial : Nat
  /-- Cycles in which it has held its core (R105). -/
  cycles : Nat
  /-- Draws made for each 64 of them (R105). -/
  draws : Nat
  /-- Tokens sent, by output port (R19). -/
  sent : FMap Nat
  /-- Slots freed by RKADV or claimed with FRA or FRB, by input port (R20, R228). -/
  freed : FMap Nat
  /-- ACTEND executed (R96). -/
  actend : Bool
  /-- Held until glue-up (R311). -/
  held : Bool
  /-- Base of the rack a dry firing predicts (R310). -/
  dry : Option Nat
  /-- Timestamp of an ordered firing (R317). -/
  ord : Option Nat
  /-- Depth of speculation (R310, R315). -/
  depth : Nat
  /-- Instances whose speculative tokens it consumed (R315). -/
  deps : List Nat
  /-- Knocked down while its handler ran (R316). -/
  down : Bool
deriving DecidableEq, Repr

/-- A registered Marquetry descriptor, its 128 bytes (R273). -/
abbrev MqReg := List Byte

/-- The group count of an indirect launch without a counter wait, as it was read (R89). -/
inductive GroupCount where
  /-- Not read. -/
  | none
  /-- The value read. -/
  | known (n : Nat)
  /-- The read failed with a cause (R83). -/
  | unread (c : Cause)
deriving DecidableEq, Repr

/-- A task packet on its way (R21-R25). -/
structure Pkt where
  /-- Partition. -/
  part : Nat
  /-- Its bytes. -/
  bytes : List Byte
  /-- Sending core's coordinate plus one; 0 for the hub dies and the launch actor. -/
  src : Nat
  /-- Sending instance and port, each plus one, when it spends a credit (R19). -/
  sender : Nat × Nat
  /-- Sender's handle plus one and EPORT, when an error packet is asked for (R111). -/
  eret : Nat × Nat
  /-- Timestamp of an ORDSEND plus one (R324). -/
  ts : Nat
  /-- Speculative sender's instance plus one (R315). -/
  spec : Nat
  /-- An error packet raises nothing more (R111). -/
  err : Bool
  /-- The group count read at the chunk's commit (R89). -/
  count : GroupCount
  /-- Held in the outbox until glue-up (R311). -/
  held : Bool
  /-- Already delivered as a speculative token (R314). -/
  given : Bool
  /-- Its place among the packets that its core's chunks committed (R109). -/
  seq : Nat
deriving DecidableEq, Repr

/-- A counter increment in flight (R207). -/
structure Post where
  /-- Posting agent, for the order of one agent's increments. -/
  agent : Nat
  /-- Core of the counter. -/
  core : Nat
  /-- Index of the counter. -/
  idx : Nat
  /-- Increment. -/
  inc : Nat
  /-- Cause code, agent kind and bytes of an error phase. -/
  bad : Option (Nat × Nat × Nat)
deriving DecidableEq, Repr

/-- A region of a handle table (R190). -/
structure Region where
  /-- Virtual base. -/
  base : Nat
  /-- Length in bytes. -/
  len : Nat
  /-- Engines may read. -/
  r : Bool
  /-- Engines may write. -/
  w : Bool
  /-- Remote placement allowed. -/
  rem : Bool
deriving DecidableEq, Repr

/-- A copy (R196-R203). -/
structure Copy where
  /-- Issuing instance. -/
  inst : Nat
  /-- Partition. -/
  part : Nat
  /-- Issued in user mode. -/
  user : Bool
  /-- Precise-engine bit at issue. -/
  peng : Bool
  /-- Channel. -/
  ch : Nat
  /-- Identifier. -/
  id : Nat
  /-- CPY3. -/
  three : Bool
  /-- The 128-byte descriptor (R200). -/
  desc : List Byte
  /-- Forked and admitted to its channel (R197). -/
  active : Bool
  /-- Window descriptors at the fork (R69). -/
  wins : FMap Word
  /-- Regions of the source and destination handles at the fork (R190). -/
  regions : Option Region × Option Region
  /-- Every core's PERM at the fork (R204). -/
  perms : FMap Word
  /-- The completion counter, checked at the fork (R396). -/
  cnt : Option (Nat × Nat)
  /-- Next element. -/
  pos : Nat
  /-- Bytes of whole beats. -/
  bytes : Nat
  /-- Where a rack copy has reserved its slots: core, base and first slot (R203). -/
  place : Option (Nat × Nat × Nat)
  /-- Cause of the error phase. -/
  bad : Option Cause
  /-- Translations it keeps (R179). -/
  tlb : List Tlb
  /-- THE MODEL'S OWN: when it forked, by the counter `fresh` (R297). -/
  born : Nat
deriving DecidableEq, Repr

/-- An operand source of a matrix command (R226, R228, R229). -/
inductive Src where
  /-- An address. -/
  | addr (a : Nat)
  /-- A claimed rack slot: rack base, raw offset of the slot, slot size, free it at completion. -/
  | rack (base off size : Nat) (free : Bool)
  /-- A link, true for west. -/
  | link (west : Bool)
deriving DecidableEq, Repr

/-- What a queued matrix command does (R237, R264). -/
inductive MatOp where
  /-- MZERO. -/
  | mzero
  /-- MMA, MMAR. -/
  | mma (a b : Src)
  /-- MMAG, with the index lanes. -/
  | mmag (a : Nat) (idx : VReg) (b : Nat)
  /-- MLDC. -/
  | mldc (a : Nat)
  /-- Memory-form MDRAIN. -/
  | mdrain (a : Nat)
  /-- MSAVE. -/
  | msave (a : Nat)
  /-- MREST. -/
  | mrest (a : Nat)
  /-- GAUGE: block, counter, tables. -/
  | gauge (blk : List Byte) (mb sel : Nat)
  /-- KMMA: block, draws, seed value. -/
  | kmma (blk : List Byte) (m : Nat) (seed : Lane)
deriving DecidableEq, Repr

/-- A command of the matrix unit (R222). -/
structure MatCmd where
  /-- What it does. -/
  op : MatOp
  /-- Its slot. -/
  slot : Nat
  /-- Captured parameter copy (R225). -/
  par : List Byte
  /-- Issuing instance. -/
  inst : Nat
  /-- Partition. -/
  part : Nat
  /-- Issued in user mode. -/
  user : Bool
  /-- Precise-engine bit at issue. -/
  peng : Bool
  /-- Number of the firing that issued it (R105). -/
  fir : Nat
  /-- The level whose trap entry set it aside (R363). -/
  frozen : Nat
  /-- Issued by a trap handler. -/
  handler : Bool
  /-- Forked. -/
  forked : Bool
  /-- Started: the gauge tables and the kiln scale are captured (R248, R258). -/
  started : Bool
  /-- Window descriptors at the fork. -/
  wins : FMap Word
  /-- KILN.SCALE at the start. -/
  scale : Nat
  /-- Gauge tables at the start. -/
  gaugeA : List Lane
  /-- Gauge table of B at the start. -/
  gaugeB : List Lane
  /-- Cause of the error phase. -/
  bad : Option Cause
  /-- The completion counter, checked at the fork (R396). -/
  cnt : Option (Nat × Nat)
  /-- Regions of the gauge tables at the fork (R247). -/
  regions : Option Region × Option Region
  /-- Strips of A taken from a link so far (R229). -/
  sa : List VReg
  /-- Strips of B taken from a link so far. -/
  sb : List VReg
  /-- Translations it keeps (R179). -/
  tlb : List Tlb
  /-- THE MODEL'S OWN: when it forked (R297). -/
  born : Nat
deriving DecidableEq, Repr

/-- A command of the Marquetry unit (R279). -/
structure MqCmd where
  /-- MQZ rather than MQSC. -/
  zero : Bool
  /-- Registered descriptor. -/
  desc : MqReg
  /-- First level. -/
  lo : Nat
  /-- Last level. -/
  hi : Nat
  /-- Counter. -/
  mb : Nat
  /-- Coordinates. -/
  pt : List Lane
  /-- Gradient values. -/
  grad : List Lane
  /-- Issuing instance. -/
  inst : Nat
  /-- Partition. -/
  part : Nat
  /-- Issued in user mode. -/
  user : Bool
  /-- Precise-engine bit at issue. -/
  peng : Bool
  /-- Forked. -/
  forked : Bool
  /-- Bytes that its gradient table takes. -/
  need : Nat
  /-- Base of the gradient region, once the fork checks have passed. -/
  base : Nat
  /-- Words written so far. -/
  pos : Nat
  /-- Cause of the error phase. -/
  bad : Option Cause
  /-- Translations it keeps (R179). -/
  tlb : List Tlb
  /-- THE MODEL'S OWN: when it forked (R297). -/
  born : Nat
deriving DecidableEq, Repr

/-- A far atomic on its way to its home, or performed with its reply (R301). -/
structure Far where
  /-- Issuing core. -/
  core : Nat
  /-- Operation, 0-5 (R298). -/
  op : Nat
  /-- 8 bytes wide. -/
  w64 : Bool
  /-- Device address. -/
  addr : Nat
  /-- Operand b. -/
  b : Nat
  /-- Operand c. -/
  c : Nat
  /-- Scope of the page. -/
  scope : Nat
  /-- Virtual address. -/
  va : Nat
  /-- Waiting rather than posted. -/
  waits : Bool
  /-- Level of the firing. -/
  level : Nat
  /-- Number of the firing (R361). -/
  fir : Nat
  /-- THE MODEL'S OWN: when it left (R297). -/
  born : Nat
deriving DecidableEq, Repr

/-- A barrier request (R304). -/
structure BarReq where
  /-- Issuing core. -/
  core : Nat
  /-- SUB5, 0-3. -/
  op : Nat
  /-- Device address of the object. -/
  addr : Nat
  /-- Operand. -/
  b : Nat
  /-- Scope of the page. -/
  scope : Nat
  /-- Virtual address. -/
  va : Nat
  /-- Level of the firing. -/
  level : Nat
  /-- Number of the firing. -/
  fir : Nat
deriving DecidableEq, Repr

/-- One member's injection into a collective instance (R329, R330). -/
structure DvInj where
  /-- Core. -/
  core : Nat
  /-- Injection entry, 64 bytes. -/
  entry : List Byte
  /-- The completion counter, checked at the fork (R396). -/
  cnt : Option (Nat × Nat)
  /-- Chosen at the fork: translations keep to it (R179). -/
  tlb : List Tlb
  /-- Read into its cluster node. -/
  read : Bool
  /-- Completed at this member. -/
  done : Bool
  /-- Precise-engine bit at issue. -/
  peng : Bool
  /-- Issued in user mode. -/
  user : Bool
  /-- Issuing instance. -/
  inst : Nat
  /-- Its fork found the injection queue full: it stands in the engine's issue queue until an entry is free (R333). -/
  waits : Bool
  /-- THE MODEL'S OWN: when it forked (R297). -/
  born : Nat
deriving DecidableEq, Repr

/-- A node of the tree in an instance: a cluster's, a die's or the root (R326). -/
structure DvNode where
  /-- Cores, clusters or dies whose partial has arrived. -/
  got : List Nat
  /-- Running value, elements of the group's type. -/
  vals : List Nat
deriving DecidableEq, Repr

/-- A collective instance in flight (R330). -/
structure Dv where
  /-- Partition. -/
  part : Nat
  /-- Group context. -/
  grp : Nat
  /-- Piece. -/
  piece : Nat
  /-- One injection that belongs to no instance: its context is not loaded, or its core no member (R344). -/
  alone : Bool
  /-- Members' injections. -/
  inj : List DvInj
  /-- Nodes: cluster nodes by die * 128 + cluster, die nodes from 0x10000, the root at 0x20000. -/
  nodes : FMap DvNode
  /-- Flags NV OF UF NX (R331). -/
  flags : Nat
  /-- Cause of the first fault. -/
  bad : Option Cause
  /-- The owner's and the first member's results have been written, and the notice sent. -/
  noticed : Bool
deriving DecidableEq, Repr

/-- A packet of the transport engine as it left (R339). -/
structure Xpkt where
  /-- Its offset in the message. -/
  off : Nat
  /-- Its payload, as read for it. -/
  bytes : List Byte
  /-- Resends so far. -/
  resent : Nat
deriving DecidableEq, Repr

/-- The congestion record of a node (R340). -/
structure Node where
  /-- Packets sent and not yet acknowledged. -/
  queue : Nat
  /-- Congestion window, in 64-byte units. -/
  wnd : Nat
  /-- Smoothed round-trip time, in units of 16 ns. -/
  rtt : Nat
  /-- The last 256 acknowledged packets, newest first: ECN-marked. -/
  marks : List Bool
deriving DecidableEq, Repr

/-- A node's record before its first packet is acknowledged. -/
def Node.reset : Node := ⟨0, 0, 0, []⟩

/-- A message of the transport engine, sent or arriving (R338, R339). -/
structure Xmsg where
  /-- Issuing core. -/
  core : Nat
  /-- Partition. -/
  part : Nat
  /-- Issuing instance. -/
  inst : Nat
  /-- Send descriptor. -/
  desc : List Byte
  /-- Source region's base. -/
  base : Nat
  /-- Precise-engine bit at issue. -/
  peng : Bool
  /-- Issued in user mode. -/
  user : Bool
  /-- Packets sent at least once, each as it last left. -/
  sent : List Xpkt
  /-- Offsets acknowledged. -/
  acked : List Nat
  /-- Cause of the error phase. -/
  bad : Option Cause
  /-- The local completion counter, checked at the fork (R396). -/
  cnt : Option (Nat × Nat)
  /-- Translations it keeps (R179). -/
  tlb : List Tlb
  /-- Its number, which the fabric's answers carry. -/
  num : Nat
deriving DecidableEq, Repr

/-- A message arriving from the fabric (R339). -/
structure Xin where
  /-- Partition. -/
  part : Nat
  /-- Sender's message number. -/
  msg : Nat
  /-- Registered handle. -/
  rhnd : Nat
  /-- Offsets landed. -/
  landed : List Nat
  /-- Nothing more is placed: cut by a revocation, refused, or complete. -/
  cut : Bool
  /-- Translations it keeps to its end (R179). -/
  tlb : List Tlb
deriving DecidableEq, Repr

/-- A group context (R328). -/
structure Group where
  /-- The 64-byte descriptor (R327); empty while the context is not loaded. -/
  desc : List Byte
  /-- FLAGS. -/
  flags : Nat
  /-- CAUSE. -/
  cause : Nat
  /-- Cores that the partition's allotment has lost since the context was loaded, and not regained: it stays loaded until
  one of them passes to another partition (R352). -/
  lost : List Nat
deriving DecidableEq, Repr

/-- A store to the I/O region on its way to the hub dies (R182, R388). -/
structure IoWrite where
  /-- Issuing core. -/
  core : Nat
  /-- Issuing partition. -/
  part : Nat
  /-- Device address. -/
  addr : Nat
  /-- Its bytes. -/
  bytes : List Byte
deriving DecidableEq, Repr

/-- An effect that takes its place at its chunk's commit (R288, R294). -/
inductive Effect where
  /-- A counter increment (R216). -/
  | post (p : Post)
  /-- MBSET (R218). -/
  | mbset (idx val : Nat)
  /-- MBERR.C (R218): the level and register that take the latch at the commit; none in a held firing, which has it. -/
  | mberrClear (idx : Nat) (dest : Option (Nat × Reg))
  /-- PERM (R214). -/
  | perm (w : Word)
  /-- WINSET: window base and descriptor (R187). -/
  | winset (key : Nat) (w : Word)
  /-- HNEW (R193). -/
  | hnew (slot : Nat) (r : Region)
  /-- MFREE (R238). -/
  | mfree (slots : List Nat)
  /-- MSTAT.C (R244). -/
  | mstatClear (slot : Nat)
  /-- DVSTAT.C (R346). -/
  | dvClear (grp : Nat)
  /-- DVCFG: the new descriptor, empty to release (R343). -/
  | dvcfg (grp : Nat) (desc : List Byte)
  /-- XPOST (R347). -/
  | xpost (handle mb : Nat)
  /-- A packet, with the flag of the priority-1 outbox (R114). -/
  | send (p : Pkt) (high : Bool)
  /-- The place, in a held chunk, of the held packet with a number: its group count is read there (R89, R311). -/
  | stamp (seq : Nat)
  /-- The refill of a stream that a firing bound forks (R130). -/
  | streamGo (t fir : Nat)
  /-- A copy forks (R211). -/
  | copy (c : Copy)
  /-- A matrix command forks (R222). -/
  | mat (m : MatCmd)
  /-- A Marquetry command forks (R279). -/
  | mq (m : MqCmd)
  /-- A Dovetail injection forks (R344). -/
  | dvinj (d : DvInj)
  /-- A transport send forks (R348). -/
  | xsend (x : Xmsg)
  /-- A store to the I/O region (R182). -/
  | io (w : IoWrite)
  /-- A far atomic leaves (R301). -/
  | far (f : Far)
  /-- A barrier request leaves (R304). -/
  | bar (b : BarReq)
  /-- ORDT sets NEXT (R323). -/
  | setNext (n : Nat)
  /-- ACTNEW: the actor whose next instance is made (R96). -/
  | actnew (lslot aidx : Nat)
  /-- The firing ends: 0 DONE, 1 HOP, 2 STEP (R20). -/
  | ends (kind : Nat)
deriving DecidableEq, Repr

/-- The part of a core's state that a squash restores (R291). -/
structure CoreT where
  /-- Primary bank (R32). -/
  gp : Vector Word 32
  /-- Shadow bank (R28). -/
  gs : Vector Word 32
  /-- Vector registers (R33). -/
  v : Vector VReg 16
  /-- Seed registers (R34). -/
  sd : Vector Lane 8
  /-- Trap registers of level 0. -/
  tr0 : TrapRegs
  /-- Trap registers of level 1. -/
  tr1 : TrapRegs
  /-- Firing of level 0. -/
  fir0 : Option Firing
  /-- Firing of level 1. -/
  fir1 : Option Firing
  /-- Where control goes after the instruction being executed (R45). -/
  npc : Word
  /-- Parked registers: the accumulator slot plus one that holds each, 0 for the shadow bank (R133). -/
  park : FMap Nat
  /-- A masked window is open (R112). -/
  maskOpen : Bool
  /-- Instructions counted in the window. -/
  maskCnt : Nat
  /-- Racks bound to k0-k15, by base (R126). -/
  binds : FMap Nat
  /-- Firing-local rack records, by base. -/
  locals : FMap Rack
  /-- Head slots claimed by matrix commands, by base, with the priority level above it (R228). -/
  claims : FMap Nat
  /-- Dry-fit marks, by base (R320). -/
  marks : FMap Mark
  /-- Streams, by register number plus 32 for vector registers; 64 more for g24-g31 bound at priority 1, where the shadow
  bank has no binding (R28, R130). -/
  streams : FMap Stream
  /-- West link queue (R131). -/
  linkW : List VReg
  /-- East link queue. -/
  linkE : List VReg
  /-- Marquetry registrations of the level-0 firing (R273). -/
  mq0 : FMap MqReg
  /-- Of the level-1 firing. -/
  mq1 : FMap MqReg
  /-- Of the level-0 trap handler. -/
  mqh : FMap MqReg
  /-- Of the level-1 trap handler. -/
  mqh1 : FMap MqReg
  /-- Accumulator slots (R219). -/
  slots : FMap Slot
  /-- NEXTID by channel (R196). -/
  nextId : FMap Nat
  /-- Channel latches (R196). -/
  chLatch : FMap Latch
  /-- Dovetail injections so far (R344). -/
  dvCount : Nat
  /-- Transport sends so far (R348). -/
  xsCount : Nat
  /-- Extraction queue, oldest first (R333). -/
  extq : List (List Byte)
  /-- Last match record (R368). -/
  watchRec : Word
  /-- The next instruction of level 0 is not matched once more (R366). -/
  watchSkip : Bool
  /-- Nor that of level 1. -/
  watchSkip1 : Bool
deriving DecidableEq, Repr

/-- The tentative part at reset (log 2 names the values the manual does not give). -/
def CoreT.reset : CoreT :=
  { gp := Vector.replicate 32 0, gs := Vector.replicate 32 0,
    v := Vector.replicate 16 VReg.zero, sd := Vector.replicate 8 0,
    tr0 := TrapRegs.reset, tr1 := TrapRegs.reset, fir0 := none, fir1 := none, npc := 0,
    park := [], maskOpen := false, maskCnt := 0, binds := [], locals := [], claims := [], marks := [],
    streams := [], linkW := [], linkE := [], mq0 := [], mq1 := [], mqh := [], mqh1 := [], slots := [], nextId := [], chLatch := [],
    dvCount := 0, xsCount := 0, extq := [], watchRec := 0, watchSkip := false, watchSkip1 := false }

/-- A chunk (R287-R292). -/
structure Chunk where
  /-- The core's state when the chunk opened (R291). -/
  ckpt : CoreT
  /-- Instructions in it, a pair counting two. -/
  cnt : Nat
  /-- CHMAX in force when it opened (R41). -/
  limit : Nat
  /-- Buffered bytes: device address, mask of the bits written, value (R181). -/
  buf : FMap (Byte × Byte)
  /-- Lines read (R289). -/
  rd : List Nat
  /-- Lines written. -/
  wr : List Nat
  /-- Widest scope among the pages written (R290). -/
  scope : Nat
  /-- Effects at the commit, in program order. -/
  eff : List Effect
  /-- Link pushes, true for west, in program order (R132). -/
  push : List (Bool × VReg)
  /-- RKADV moves by rack base: fills and frees (R127). -/
  moves : FMap (Nat × Nat)
  /-- The chunk has ended and waits for its arbiter. -/
  sealed : Bool
  /-- It is committed in the step that executes its instruction (R182). -/
  now : Bool
  /-- The instruction that opened it has taken effect for good: a squash goes back to the one after it (log 19). -/
  after : Bool
  /-- Shadow slots that the held firing had when the chunk opened (R291, R311). -/
  shadow : FMap Nat
  /-- Slots whose parameter copy an MPAR of the chunk has replaced (R239). -/
  pars : List Nat
deriving DecidableEq, Repr

/-- Solo mode (R292). -/
structure Solo where
  /-- Scope of the token. -/
  scope : Nat
  /-- Instructions counted as though they formed one chunk. -/
  cnt : Nat
  /-- CHMAX of that chunk (R41). -/
  limit : Nat
  /-- Lines buffered by them. -/
  lines : List Nat
  /-- The last one-instruction chunk ended the run. -/
  last : Bool
  /-- The token has been granted. -/
  granted : Bool
deriving DecidableEq, Repr

/-- A held firing of a core (R311). -/
structure Held where
  /-- The firing; its record moves here when it has ended. -/
  fir : Firing
  /-- Sealed chunks, oldest first. -/
  chunks : List Chunk
  /-- Shadow slots: named slot and shadow slot (R311). -/
  shadow : FMap Nat
  /-- Staging address of a dry firing. -/
  staging : Nat
  /-- The predicted tile. -/
  tile : List Byte
  /-- The tolerance compare has accepted. -/
  accepted : Bool
  /-- The firing has executed DONE, HOP or STEP. -/
  ended : Bool
  /-- Accumulator slots that its held chunks took (R315). -/
  took : List Nat
  /-- Strips its held chunks popped, west and east: a pop is tentative until glue-up (R132). -/
  links : List VReg × List VReg
  /-- The core's state when the firing started, kept up with what the hardware changed since: a
  knock-down undoes takings and marks against it (R315, R320). -/
  start : CoreT
  /-- DRYFIT_BUFFER_FULL has been logged for it (R311). -/
  full : Bool
  /-- Claimed slots whose commands have completed, by rack base: they are freed at glue-up (R228, R311). -/
  freed : FMap Nat
deriving DecidableEq, Repr

/-- The effect of a unit that waits for its home's reply: it takes place at the reply, or not at all (R43, R301, R305). -/
structure Undone where
  /-- The core's state before the unit. -/
  back : CoreT
  /-- The state that the unit computed from it. -/
  aft : CoreT
  /-- Its link pushes, true for west (R132). -/
  push : List (Bool × VReg)
deriving DecidableEq, Repr

/-- What a core waits for (R301, R305, R362, R372). -/
inductive Await where
  /-- Nothing. -/
  | none
  /-- The reply of a far atomic or barrier at an instruction, for register d, with the unit's own effect (R43, R305). -/
  | reply (d : Reg) (pc : Word) (unit : Undone)
  /-- An engine command under MODE.PENG. -/
  | engine
  /-- WFI: register, deadline, events so far. -/
  | wfi (d : Reg) (deadline : Nat) (mask : Nat)
  /-- HREV: the revoked handle, and the number of operations that it stopped (R194). -/
  | hrev (handle n : Nat)
  /-- FENCE: what its core forked and sent before it, as bounds on `born` and `seq`, and the places of the held packets that
  its firing's glue-up sent since (R297). -/
  | fence (before lo hi : Nat)
deriving DecidableEq, Repr

/-- What a priority level's firing waits for, and what has come of it: the wait stays armed while the level
is pre-empted (R27). -/
structure Waiting where
  /-- The wait. -/
  await : Await
  /-- The reply that has arrived: value, or a cause and XVAL. -/
  reply : Option (Nat × Option (Cause × Nat))
  /-- A precise trap that the firing takes before it issues again: cause, XVAL, XPC (R301, R305, R362). -/
  trap : Option (Cause × Word × Word)
deriving DecidableEq, Repr

/-- The effect that a wait for a reply holds back. -/
def Waiting.undone (w : Waiting) : List Undone := match w.await with | .reply _ _ u => [u] | _ => []

/-- No wait. -/
def Waiting.idle : Waiting := ⟨.none, none, none⟩

/-- A run queue entry (R101). -/
structure Entry where
  /-- Instance. -/
  inst : Nat
  /-- Priority. -/
  pri : Nat
  /-- Energy class of the firing that it would start when it entered (R25). -/
  cls : Nat
  /-- Entry time in cycles. -/
  time : Nat
  /-- The ageing limit has been noted (R101). -/
  aged : Bool
deriving DecidableEq, Repr

/-- A draw due for a count of multiply-accumulates that reached 1,024 (R105). -/
structure Draw where
  /-- Units. -/
  units : Nat
  /-- Partition whose budget it takes. -/
  part : Nat
  /-- Number of the firing that issued the command. -/
  fir : Nat
deriving DecidableEq, Repr

/-- The engines of a core (R196, R222, R279, R333). -/
structure Engines where
  /-- DONEID by channel. -/
  doneId : FMap Nat
  /-- Copies issued and not completed, in order. -/
  copies : List Copy
  /-- Matrix queue, oldest first. -/
  mat : List MatCmd
  /-- Commands set aside by a trap (R363). -/
  aside : List MatCmd
  /-- Marquetry queue. -/
  mq : List MqCmd
  /-- Multiply-accumulate counts by rate (R105). -/
  macs : FMap Nat
  /-- Draws due (R105). -/
  due : List Draw
  /-- The channel whose beat was served last (R197). -/
  turn : Nat
deriving DecidableEq, Repr

/-- Engines at reset (R196). -/
def Engines.reset : Engines := ⟨[], [], [], [], [], [], [], 3⟩

/-- One core, compute or memory (R1, R170). -/
structure Core where
  /-- The tentative part, as the running firing sees it. -/
  t : CoreT
  /-- The open or sealed chunk. -/
  chunk : Option Chunk
  /-- Squashes in a row of the chunk that restarts next at level 0 (R292). -/
  squashed : Nat
  /-- At level 1. -/
  squashed1 : Nat
  /-- The held firing. -/
  held : Option Held
  /-- Solo mode. -/
  solo : Option Solo
  /-- Rack records of placed instances, by base (R126). -/
  racks : FMap Rack
  /-- Engines. -/
  eng : Engines
  /-- Counter values (R206). -/
  mb : FMap Nat
  /-- Counter latches. -/
  mbLatch : FMap Latch
  /-- PERM (R204). -/
  perm : Word
  /-- Priority-0 outbox (R114). -/
  out0 : List Pkt
  /-- Priority-1 outbox. -/
  out1 : List Pkt
  /-- Run queue (R101). -/
  runq : List Entry
  /-- Waiting of the level-0 firing. -/
  wait0 : Waiting
  /-- Waiting of the level-1 firing. -/
  wait1 : Waiting
  /-- Pending imprecise causes, one for each firing: cause, XVAL and the firing's number (R361). -/
  pendImp : List (Cause × Word × Nat)
  /-- Core TLB, most recent first (R177). -/
  tlb : List Tlb
  /-- Instruction cache: line addresses by set, most recent first (R120). -/
  icache : FMap (List Nat)
  /-- Partition served. -/
  part : Nat
  /-- An allotment has given it to that partition (R389). -/
  owned : Bool
  /-- Draining (R381). -/
  draining : Bool
  /-- Times of recent repairs (R381). -/
  repairs : List Nat
  /-- While a spare takes over, the copy runs (R383). -/
  takeover : Bool
  /-- THE MODEL'S OWN: the instruction of this step stalled or trapped, so its pc does not advance past it. -/
  stayed : Bool
  /-- THE MODEL'S OWN: the second member of a pair executes (R43). -/
  second : Bool
deriving DecidableEq, Repr

/-- A core at reset. -/
def Core.reset : Core :=
  { t := CoreT.reset, chunk := none, squashed := 0, squashed1 := 0, held := none, solo := none, racks := [],
    eng := Engines.reset, mb := [], mbLatch := [], perm := 0, out0 := [], out1 := [], runq := [],
    wait0 := Waiting.idle, wait1 := Waiting.idle, pendImp := [], tlb := [], icache := [],
    part := 0, owned := false, draining := false, repairs := [], takeover := false, stayed := false, second := false }

/-- A partition's kiln in a cluster (R104-R107). -/
structure Kiln where
  /-- BUDGET. -/
  budget : Nat
  /-- Allotment of this microsecond. -/
  allot : Nat
  /-- Budget left at the end of the last microsecond. -/
  low : Nat
  /-- The budget was 0 at some moment of this microsecond. -/
  hit0 : Bool
deriving DecidableEq, Repr

/-- A cluster (R1). -/
structure Cluster where
  /-- Kilns by partition. -/
  kilns : FMap Kiln
  /-- KILN.SCALE (R107). -/
  scale : Nat
  /-- NEXT by partition (R317). -/
  next : FMap Nat
  /-- Cluster TLB, most recent first (R177). -/
  tlb : List Tlb
  /-- Pieces of dry overflow in use, by core (R306). -/
  overflow : List Nat
  /-- Spare cores left (R1). -/
  spares : Nat
  /-- The last 16 microseconds, newest first: the budget reached 0 in it (R108). -/
  hist : List Bool
deriving DecidableEq, Repr

/-- A cluster at reset. -/
def Cluster.reset : Cluster := ⟨[], 0, [], [], [], 2, []⟩

/-- A code image held by a die (R119). -/
structure Code where
  /-- Partition. -/
  part : Nat
  /-- IMAGE. -/
  image : Nat
  /-- Its bytes. -/
  bytes : List Byte
deriving DecidableEq, Repr

/-- An entry of an overflow ring (R110): its packet's bytes stand in HBM at its place. -/
structure RingEntry where
  /-- The core at which the packet arrived. -/
  core : Nat
  /-- Its place in the order of its port's packets over the rings of every die (R109, R110). -/
  ord : Nat
  /-- The place, from 0. -/
  place : Nat
  /-- It reached the new core of the move that is under way directly, and its die's marker had not come (R109). -/
  holds : Bool
  /-- The packet. -/
  pkt : Pkt
deriving DecidableEq, Repr

/-- A compute die (R1). -/
structure Die where
  /-- Code store (R119). -/
  code : List Code
  /-- Overflow rings by partition, oldest first (R110). -/
  ring : FMap (List RingEntry)
  /-- The place after the one that each partition's ring wrote last. -/
  ringPut : FMap Nat
  /-- Rings that have been reported full and not drained below half (R110). -/
  ringFull : List Nat
  /-- Ring pages reported unmapped. -/
  ringPages : List Nat
  /-- Event log, newest first: two words each (R380). -/
  log : List (Word × Word)
  /-- Entries written so far: the next takes place `logged` modulo 4,096. -/
  logged : Nat
  /-- Die budget of this microsecond (R104). -/
  budget : Nat
  /-- Above its temperature limit (R107). -/
  hot : Bool
  /-- Spare clusters left. -/
  spares : Nat
deriving DecidableEq, Repr

/-- A die at reset. -/
def Die.reset : Die := ⟨[], [], [], [], [], [], 0, 0, false, 4⟩

/-- An actor of a launch (R79). -/
structure Actor where
  /-- The 128-byte descriptor. -/
  desc : List Byte
  /-- Instances so far (R81, R96). -/
  count : Nat
deriving DecidableEq, Repr

/-- A launch slot's contents (R86, R97). -/
structure Launch where
  /-- STATE of R97. -/
  st : Nat
  /-- Cause of a refusal. -/
  cause : Nat
  /-- The 64-byte header (R78). -/
  head : List Byte
  /-- Actors. -/
  actors : List Actor
  /-- Die set. -/
  dies : List Nat
  /-- Step number (R87). -/
  step : Nat
  /-- Reply block of the request, for its reply. -/
  repa : Nat
  /-- Counter of the reply, checked when the request was read (R85). -/
  repc : Option (Nat × Nat)
  /-- The completion counter, checked with the record (R83, R396). -/
  compl : Option (Nat × Nat)
  /-- Placement generation, 16 bits, of the tables' entries for the launch (R100). -/
  pgen : Nat
  /-- Reply blocks and counters of the end requests being served (R90). -/
  endRep : List (Nat × Option (Nat × Nat))
  /-- Dies on which instances were placed (R85). -/
  mask : Nat
  /-- An end request is being served (R90). -/
  ending : Bool
  /-- Placed on memory cores (R173). -/
  memory : Bool
deriving DecidableEq, Repr

/-- A launch record as read (R78-R82). -/
structure Record where
  /-- The header. -/
  head : List Byte
  /-- Actor descriptors. -/
  descs : List (List Byte)
  /-- Initial tokens. -/
  tokens : List (List Byte)
  /-- The completion counter that COMPL named when the record was checked (R396). -/
  compl : Option (Nat × Nat)
deriving DecidableEq, Repr

/-- A request at the launch actor (R84). -/
structure Req where
  /-- Its 64 bytes. -/
  bytes : List Byte
  /-- The counter that word 1 of the reply block named, read and checked with the request (R85, R396). -/
  repc : Option (Nat × Nat)
  /-- The group count, once it has been read (R89). -/
  count : GroupCount
  /-- The record of a launch that waits (R86). -/
  kept : Option Record
  /-- The launch slot plus one that a waiting launch has taken (R86). -/
  slot : Nat
  /-- The initial tokens of a placed launch that are still to be delivered, in record order (R82, R86). -/
  tokens : List Pkt
deriving DecidableEq, Repr

/-- What an installed supervisor actor runs: the fields of the record as they stood at its installation (R77). -/
structure Sup where
  /-- SUPIMG. -/
  image : Nat
  /-- SUPLEN. -/
  len : Nat
  /-- SUPENTRY. -/
  entry : Nat
  /-- SUPCORE. -/
  core : Nat
deriving DecidableEq, Repr

/-- A partition (R74). -/
structure Part where
  /-- Configuration record: listed bytes by offset (R388). -/
  cfg : FMap Byte
  /-- Launch slots by LSLOT. -/
  slots : FMap Launch
  /-- Generations of launch slots (R22). -/
  gens : FMap Nat
  /-- Requests not yet served, in arrival order (R75). -/
  reqs : List Req
  /-- Indirect launches that wait for their counter (R89). -/
  indirect : List Req
  /-- Launches that wait for a slot, a rectangle, cores or room for their tokens (R86). -/
  waiting : List Req
  /-- Dead letters (R118). -/
  dlCount : Nat
  /-- LASTCAUSE. -/
  dlCause : Nat
  /-- Live regions by handle slot (R190). -/
  handles : FMap Region
  /-- Generations of handle slots. -/
  hgens : FMap Nat
  /-- Group contexts by GRP (R328). -/
  groups : FMap Group
  /-- Registrations by handle: core and counter (R337). -/
  regs : FMap (Nat × Nat)
  /-- Message window queue (R92). -/
  window : List (List Byte)
  /-- ERRSTAT (R91). -/
  errstat : Word
  /-- ACCEPTED (R91). -/
  accepted : Word
  /-- The installed supervisor actor (R77). -/
  sup : Option Sup
  /-- What the function's last read of its message window returned (R91, R92). -/
  hostRead : Word
deriving DecidableEq, Repr

/-- A partition at reset. -/
def Part.reset : Part := ⟨[], [], [], [], [], [], 0, 0, [], [], [], [], [], 0, 0, none, 0⟩

/-- Where an instance stands (R87, R108, R359). -/
inductive InstSt where
  /-- Created, not placed. -/
  | unplaced
  /-- Placed. -/
  | home
  /-- Quiesce (R108). -/
  | quiesce
  /-- Stream. -/
  | stream
  /-- Switch. -/
  | switching
  /-- Drain. -/
  | drain
  /-- Stopped (R359). -/
  | stopped
  /-- Exited (R90). -/
  | exited
deriving DecidableEq, Repr

/-- An actor instance (R16, R108). -/
structure Inst where
  /-- Partition. -/
  part : Nat
  /-- Launch slot; 0xFFF for the supervisor actor. -/
  lslot : Nat
  /-- Actor index. -/
  aidx : Nat
  /-- Instance number. -/
  num : Nat
  /-- Its core, when placed. -/
  core : Option Nat
  /-- State. -/
  st : InstSt
  /-- Held at a step boundary until the step advance (R87). -/
  atStep : Bool
  /-- A firing is in progress or still held. -/
  busy : Bool
  /-- Credits by output port (R19); a port to the same core is counted too, but has its room from the rack. -/
  credit : FMap Int
  /-- Address of the state block in the core scratchpad, as an offset (R99). -/
  block : Nat
  /-- Bases of its message-port racks in units of 64 bytes, by port (R15). -/
  mail : FMap Nat
  /-- Entry time to keep when it re-enters the queue (R101). -/
  since : Option Nat
  /-- Base of the rack on whose next token it is never dry (R312). -/
  noDry : Option Nat
  /-- Held firings whose speculative tokens it does not consume: a conflict knocked it down on them (R312). -/
  barred : List Nat
  /-- An ordered firing of it was discarded and fires again (R317, R318). -/
  again : Bool
  /-- Placement tables of dies 0-3 and hubs 0-1: its core as each has it (R100). -/
  tables : FMap Nat
  /-- Old core of a migration while its forwarding entry stands. -/
  fwd : Option Nat
  /-- Destination chosen for a migration. -/
  dest : Option Nat
  /-- Markers that have arrived at the new core (R109). -/
  markers : List Nat
  /-- Migrates because its unit retires. -/
  forced : Bool
deriving DecidableEq, Repr

/-- The hub dies and the package's service state (R2, R387-R393). -/
structure Hub where
  /-- Hub dies that carry functions. -/
  alive : Bool × Bool
  /-- Their PCIe links. -/
  links : Bool × Bool
  /-- Power cap in watts (R392). -/
  cap : Nat
  /-- Lanes lost by port (R387). -/
  lanes : FMap Nat
  /-- Regulator phases lost. -/
  phases : FMap Nat
  /-- Fused security version (R390). -/
  secver : Nat
  /-- The firmware image that runs: its bytes that are not 0, by offset; empty for ROM's first. -/
  firmware : FMap Byte
  /-- The verified image that the hub dies and then the compute dies take (R391). -/
  image : FMap Byte
  /-- Compute dies whose system controllers have not yet switched to it (R391). -/
  switching : List Nat
  /-- Update mailbox: address and status (R391). -/
  mailbox : Nat × Nat
  /-- An address has been posted there and not yet been taken. -/
  posted : Bool
  /-- An update is under way: hub dies still to take it. -/
  updating : List Nat
  /-- SPDM: 0 none, 1 version, 2 capabilities, 3 algorithms (R390). -/
  spdm : Nat
  /-- Digest of the SPDM transcript so far, a running number. -/
  transcript : Nat
  /-- The last SPDM response. -/
  response : List Nat
  /-- Bring-up steps passed (R393). -/
  bringup : Nat
  /-- Redirected pseudo-channels, stack * 128 + channel, with the lines copied (R386). -/
  retired : List Nat
  /-- Pseudo-channels whose lines move to the reserve. -/
  moving : List Nat
  /-- Retired physical units by kind and coordinate (R380). -/
  units : List (Nat × Nat)
  /-- Nodes with a congestion record (R340). -/
  nodes : FMap Node
deriving DecidableEq, Repr

/-- The hub dies at reset. -/
def Hub.reset : Hub :=
  { alive := (true, true), links := (true, true), cap := 1800, lanes := [], phases := [], secver := 0,
    firmware := [], image := [], switching := [], mailbox := (0, 0), posted := false, updating := [], spdm := 0, transcript := 0, response := [],
    bringup := 0, retired := [], moving := [], units := [], nodes := [] }

/-- One turn of the agenda (log 1): which agent moves next and what arrives. -/
structure Turn where
  /-- Arithmetic cycles that pass first. -/
  dt : Nat
  /-- The core the turn concerns. -/
  core : Nat
  /-- A step of the device, or none for that core's next instruction. -/
  act : Option Instr
  /-- Operands of the step. -/
  args : List Nat
  /-- Bytes that arrive. -/
  payload : List Byte
deriving DecidableEq, Repr

/-- The package. -/
structure State where
  /-- Memory: HBM and raw scratchpad bytes by device address (R168), canonical. -/
  mem : FMap Byte
  /-- Window descriptors by the window's base device address (R66). -/
  wins : FMap Word
  /-- Cores by coordinate (R3). -/
  cores : FMap Core
  /-- Clusters by die * 128 + cluster. -/
  clusters : FMap Cluster
  /-- Compute dies. -/
  dies : FMap Die
  /-- Partitions (R36). -/
  parts : FMap Part
  /-- Instances by key. -/
  insts : FMap Inst
  /-- Packets on the way that no outbox holds (R394). -/
  net : List Pkt
  /-- Increments on the way (R207). -/
  posts : List Post
  /-- Credit returns on the way: instance, port, count (R19). -/
  credits : List (Nat × Nat × Nat)
  /-- Far atomics on the way to their homes, oldest first (R301). -/
  far : List Far
  /-- Barrier requests on the way to their homes (R304). -/
  bars : List BarReq
  /-- BAR.WAITs held at their homes. -/
  barHeld : List BarReq
  /-- Collective instances (R330). -/
  dvs : List Dv
  /-- Transport messages being sent (R339). -/
  xmsgs : List Xmsg
  /-- Transport messages arriving. -/
  xins : List Xin
  /-- Arbiter tokens: cores waiting by arbiter, the holder first (R292). -/
  tokens : FMap (List Nat)
  /-- Stores to the I/O region on their way, oldest first (R182). -/
  iow : List IoWrite
  /-- Routing tables that rectangle launches loaded, by mesh link: 2 * cluster key to the east, 2 * key + 1 to the
  south (R88). -/
  routes : FMap Nat
  /-- Hub dies and service. -/
  hub : Hub
  /-- Arithmetic cycles since reset. -/
  cycle : Nat
  /-- Raw device addresses of bytes with an uncorrectable error (R180, R379). -/
  poison : List Nat
  /-- THE MODEL'S OWN: counter applied to the free values of Config (log 4). -/
  fresh : Nat
  /-- THE MODEL'S OWN: turns to come (log 1). -/
  agenda : List Turn
  /-- THE MODEL'S OWN: the core whose instruction or step is executed. -/
  cur : Nat
  /-- THE MODEL'S OWN: operands of the step being executed. -/
  args : List Nat
  /-- THE MODEL'S OWN: bytes that arrive with the step being executed. -/
  payload : List Byte
deriving DecidableEq, Repr

/-- Why the machine stops. Safe: the hardware's behaviour is then outside the manual. -/
inductive Fault where
  /-- Raised by HUB_FAILOVER when no hub die is left: R2 gives a function to the other hub die only.
  Safe. -/
  | noHub
deriving DecidableEq, Repr

/-- Why a step has no meaning. -/
inductive Refusal where
  /-- Raised by the dispatcher for an instruction whose meaning is not written. Safe. -/
  | notModelled (mnemonic : String)
deriving DecidableEq, Repr

/-- The package right after reset: every listed value is the manual's or is named in log 2; tables
list nothing. -/
def State.reset : State :=
  { mem := [], wins := [], cores := [], clusters := [], dies := [], parts := [], insts := [], net := [],
    posts := [], credits := [], far := [], bars := [], barHeld := [], dvs := [], xmsgs := [], xins := [],
    tokens := [], iow := [], routes := [], hub := Hub.reset, cycle := 0, poison := [], fresh := 0, agenda := [], cur := 0, args := [],
    payload := [] }

end Sys2Proof.Machine
end

