-- ==== Sys2Proof/Machine/Access.lean ====
section
/-! DEFINITION. Reaching state: cores, registers and modes; the device address map (R168-R170); page
tables and TLBs (R174-R179); the checks of a core access (R180, R69, R366); bytes and elements. -/
namespace Sys2Proof.Machine

/-- How an instruction ends without its effect: a trap, or a wait that is tried again. -/
inductive Stop where
  /-- A precise trap with XVAL and XCAUSE.IMP (R57, R357, R360). -/
  | trap (c : Cause) (val : Word) (imp : Bool)
  /-- The instruction waits and is tried again; a masked window turns the wait into a trap when the flag
  is set (R112, R123). -/
  | wait (masked : Bool)
  /-- A held firing finds no room: it waits, and DRYFIT_BUFFER_FULL is logged (R311). -/
  | full
deriving DecidableEq, Repr

/-- A result, or the way the instruction stops. -/
abbrev Res (α : Type) := Except Stop α

/-- fault(cause, val) of R57. -/
def fault {α : Type} (c : Cause) (v : Nat) : Res α := .error (.trap c (word v) false)

/-- Fail with a fault when a condition holds. -/
def faultIf (b : Bool) (c : Cause) (v : Nat) : Res Unit := if b then fault c v else .ok ()

/-! ### Parts of the state -/

/-- A core. -/
def State.core (s : State) (c : Nat) : Core := FMap.get Core.reset s.cores c
/-- Replace a core. -/
def State.putCore (s : State) (c : Nat) (k : Core) : State := { s with cores := FMap.put s.cores c k }
/-- Change a core. -/
def State.updCore (s : State) (c : Nat) (f : Core → Core) : State := s.putCore c (f (s.core c))
/-- The core the step is about. -/
def State.me (s : State) : Core := s.core s.cur
/-- Replace it. -/
def State.putMe (s : State) (k : Core) : State := s.putCore s.cur k
/-- Change it. -/
def State.updMe (s : State) (f : Core → Core) : State := s.putMe (f s.me)
/-- Its tentative part. -/
def State.t (s : State) : CoreT := s.me.t
/-- Change its tentative part. -/
def State.updT (s : State) (f : CoreT → CoreT) : State := s.putMe { s.me with t := f s.t }
/-- Change its engines. -/
def State.updEng (s : State) (c : Nat) (f : Engines → Engines) : State :=
  s.updCore c fun k => { k with eng := f k.eng }

/-- What every other agent sees of a core's tentative part (R288): the checkpoint of its chunk. -/
def Core.committed (k : Core) : CoreT := match k.chunk with | some ch => ch.ckpt | none => k.t

/-- A change the hardware makes to a core's tentative part; it survives a squash. -/
def Core.both (k : Core) (f : CoreT → CoreT) : Core :=
  { k with t := f k.t, chunk := k.chunk.map fun ch => { ch with ckpt := f ch.ckpt },
           held := k.held.map fun h => { h with start := f h.start } }

/-- The waiting of a level's firing. -/
def Core.waiting (k : Core) (level : Nat) : Waiting := if level = 1 then k.wait1 else k.wait0
/-- Replace it. -/
def Core.setWaiting (k : Core) (level : Nat) (w : Waiting) : Core :=
  if level = 1 then { k with wait1 := w } else { k with wait0 := w }

/-- Cluster key of a coordinate: die * 128 + cluster (R3). -/
def clusterOf (c : Nat) : Nat := c / 16
/-- Die of a coordinate. -/
def dieOf (c : Nat) : Nat := c / 2048
/-- A memory core (R170). -/
def isMemCore (c : Nat) : Bool := 80 ≤ clusterOf c % 128
/-- A cluster. -/
def State.cluster (s : State) (k : Nat) : Cluster := FMap.get Cluster.reset s.clusters k
/-- Change a cluster. -/
def State.updCluster (s : State) (k : Nat) (f : Cluster → Cluster) : State :=
  { s with clusters := FMap.put s.clusters k (f (s.cluster k)) }
/-- A die. -/
def State.die (s : State) (d : Nat) : Die := FMap.get Die.reset s.dies d
/-- Change a die. -/
def State.updDie (s : State) (d : Nat) (f : Die → Die) : State :=
  { s with dies := FMap.put s.dies d (f (s.die d)) }
/-- A partition. -/
def State.part (s : State) (p : Nat) : Part := FMap.get Part.reset s.parts p
/-- Change a partition. -/
def State.updPart (s : State) (p : Nat) (f : Part → Part) : State :=
  { s with parts := FMap.put s.parts p (f (s.part p)) }
/-- Change an instance. -/
def State.updInst (s : State) (i : Nat) (f : Inst → Inst) : State :=
  match FMap.find? s.insts i with
  | some x => { s with insts := FMap.put s.insts i (f x) }
  | none => s
/-- Key of an instance. -/
def instKey (part lslot aidx num : Nat) : Nat := ((part * 4096 + lslot) * 256 + aidx) * 65536 + num
/-- A field of a partition's configuration record (R388). -/
def State.cfg (s : State) (p off n : Nat) : Nat :=
  leVal ((span off n).map fun i => FMap.get 0#8 (s.part p).cfg i)
/-- Package time in nanoseconds on a core: 800 MHz, with the skew R36 allows; 0 at reset (R36). -/
def State.time (s : State) (c : Nat) : Nat := if s.cycle = 0 then 0 else s.cycle * 5 / 4 + Config.timeSkew c % 16
/-- A new number for a free value. -/
def State.next (s : State) : State := { s with fresh := s.fresh + 1 }
/-- An entry of a die's event log (R380). -/
def State.logEvent (s : State) (d : Nat) (c : Cause) (kind unit info : Nat) : State :=
  s.updDie d fun x => { x with logged := x.logged + 1, log :=
    ((word (c.code <<< 56 + (kind % 16) <<< 52 + (unit % 2 ^ 13) <<< 32 + info % 2 ^ 32), word (s.cycle * 5 / 4)) :: x.log).take 4096 }

/-- A fault whose entry names no XVAL: a free value (log 4). -/
def State.freeFault {α : Type} (s : State) (c : Cause) : Res α :=
  .error (.trap c (Config.freeXval s.fresh) false)

/-! ### Firings, modes and registers -/

/-- The level that runs (R355). -/
def CoreT.level (t : CoreT) : Nat := if t.fir1.isSome then 1 else 0
/-- The running firing. -/
def CoreT.fir (t : CoreT) : Option Firing := if t.fir1.isSome then t.fir1 else t.fir0
/-- Replace the running firing's record. -/
def CoreT.setFir (t : CoreT) (f : Firing) : CoreT :=
  if t.fir1.isSome then { t with fir1 := some f } else { t with fir0 := some f }
/-- Change the running firing's record. -/
def CoreT.updFir (t : CoreT) (g : Firing → Firing) : CoreT :=
  match t.fir with
  | some f => t.setFir (g f)
  | none => t
/-- The trap registers of the running level (R355). -/
def CoreT.tr (t : CoreT) : TrapRegs := if t.fir1.isSome then t.tr1 else t.tr0
/-- Change them. -/
def CoreT.updTr (t : CoreT) (f : TrapRegs → TrapRegs) : CoreT :=
  if t.fir1.isSome then { t with tr1 := f t.tr1 } else { t with tr0 := f t.tr0 }
/-- XSTAT.SUP: supervisor mode (R35, R38). -/
def CoreT.sup (t : CoreT) : Bool := t.tr.xstat.getLsbD 0
/-- XSTAT.INTRAP: a trap handler runs (R38). -/
def CoreT.inTrap (t : CoreT) : Bool := t.tr.xstat.getLsbD 4
/-- The program counter (R18). -/
def CoreT.pc (t : CoreT) : Word := match t.fir with | some f => f.pc | none => 0
/-- MODE.FRM (R39). -/
def CoreT.frm (t : CoreT) : Rm := Rm.ofFrm (wbits t.tr.mode 3 2)
/-- MODE.CETRAP. -/
def CoreT.cetrap (t : CoreT) : Bool := t.tr.mode.getLsbD 1
/-- MODE.PENG. -/
def CoreT.peng (t : CoreT) : Bool := t.tr.mode.getLsbD 0
/-- The running firing is held and no handler of it runs (R311, R316). -/
def CoreT.heldNow (t : CoreT) : Bool :=
  match t.fir with
  | some f => f.held && !t.inTrap
  | none => false
/-- A priority-1 firing or a trap handler runs. -/
def CoreT.special (t : CoreT) : Bool := t.fir1.isSome || t.inTrap
/-- The running firing's instance. -/
def CoreT.inst (t : CoreT) : Nat := match t.fir with | some f => f.inst | none => 0

/-- The running firing's number. -/
def CoreT.serial (t : CoreT) : Nat := match t.fir with | some f => f.serial | none => 0

/-- Read a general register (R32): g0 reads zero; a priority-1 firing uses the shadow bank (R28). -/
def CoreT.g (t : CoreT) (r : Reg) : Word :=
  if r = 0#5 then 0 else if t.fir1.isSome then t.gs[r.toNat]'r.isLt else t.gp[r.toNat]'r.isLt
/-- Write a general register (R32): g0 discards; a write clears a parked bit (R133). -/
def CoreT.setG (t : CoreT) (r : Reg) (w : Word) : CoreT :=
  if r = 0#5 then t
  else if t.fir1.isSome then { t with gs := t.gs.set r.toNat w r.isLt }
  else { t with gp := t.gp.set r.toNat w r.isLt, park := FMap.del t.park r.toNat }
/-- Write a general register of a level (R28). -/
def CoreT.setGAt (t : CoreT) (level : Nat) (d : Reg) (w : Word) : CoreT :=
  if d = 0#5 then t
  else if level = 1 then { t with gs := t.gs.set d.toNat w d.isLt }
  else { t with gp := t.gp.set d.toNat w d.isLt, park := FMap.del t.park d.toNat }
/-- Read a general register of a level. -/
def CoreT.gAt (t : CoreT) (level : Nat) (d : Reg) : Word := if level = 1 then t.gs[d.toNat]'d.isLt else t.gp[d.toNat]'d.isLt
/-- Read a vector field (R33): a register, or the oldest strip of a link. -/
def CoreT.vec (t : CoreT) (r : Reg) : VReg :=
  if h : r.toNat < 16 then t.v[r.toNat]
  else if r = 16#5 then t.linkW.headD VReg.zero else t.linkE.headD VReg.zero
/-- Write a vector register. -/
def CoreT.setV (t : CoreT) (n : Nat) (x : VReg) : CoreT :=
  if h : n < 16 then { t with v := t.v.set n x } else t
/-- Read a seed register (R34). -/
def CoreT.seed (t : CoreT) (n : Nat) : Lane := if h : n < 8 then t.sd[n] else 0
/-- Write a seed register. -/
def CoreT.setSeed (t : CoreT) (n : Nat) (x : Lane) : CoreT :=
  if h : n < 8 then { t with sd := t.sd.set n x } else t

/-- A general register of the running firing. -/
def State.g (s : State) (r : Reg) : Word := s.t.g r
/-- Its number. -/
def State.gn (s : State) (r : Reg) : Nat := (s.t.g r).toNat
/-- Write a general register of the running firing. -/
def State.setG (s : State) (r : Reg) (w : Word) : State := s.updT fun t => t.setG r w
/-- The partition of the running firing, else the core's. -/
def State.myPart (s : State) : Nat := match s.t.fir with | some f => f.part | none => s.me.part

/-! ### The device address map -/

/-- What a device address names (R168). -/
inductive Loc where
  /-- HBM, raw. -/
  | hbm
  /-- A scratchpad: base of its window 0, size, window, offset. -/
  | pad (base size win off : Nat)
  /-- A mailbox counter: core and index. -/
  | counter (core idx : Nat)
  /-- The I/O region, by offset. -/
  | io (off : Nat)
  /-- Nothing. -/
  | nothing
deriving DecidableEq, Repr

/-- A coordinate that some core answers to (R3, R384). -/
def State.exists' (s : State) (c : Nat) : Bool :=
  c < 8192 && clusterOf c % 128 < 92 && !s.hub.units.contains (0, c) && !s.hub.units.contains (1, c)
    && !s.hub.units.contains (2, c / 16 * 16)

/-- Base device address of a core's window 0 (R168). -/
def padOfCore (c : Nat) : Nat := 0x100000000000 + (dieOf c) <<< 35 + (clusterOf c % 128) <<< 28 + (c % 16) <<< 24
/-- Base device address of a cluster's window 0. -/
def padOfCluster (k : Nat) : Nat := 0x200000000000 + (k / 128) <<< 35 + (k % 128) <<< 28
/-- Base device address of a die's window 0. -/
def padOfDie (d : Nat) : Nat := 0x300000000000 + d <<< 33
/-- Global address of a counter (R168). -/
def counterAddr (c n : Nat) : Nat := 0x400000000000 + (dieOf c) <<< 19 + (clusterOf c % 128) <<< 12 + (c % 16) <<< 8 + n <<< 2

/-- The device address map (R168, R388). -/
def State.locate (s : State) (a : Nat) : Loc :=
  if a < 0xC000000000 then .hbm
  else if a < 0x100000000000 then .nothing
  else if a < 0x200000000000 then
    let x := a - 0x100000000000
    let c := (bits x 36 35) * 2048 + (bits x 34 28) * 16 + bits x 27 24
    let w := bits x 23 20
    if x ≥ 2 ^ 37 || !s.exists' c || (w = 0 && bits x 19 0 ≥ 0x20000) then .nothing
    else .pad (padOfCore c) 0x20000 w (bits x 19 0)
  else if a < 0x300000000000 then
    let x := a - 0x200000000000
    let w := bits x 27 24
    if x ≥ 2 ^ 37 || bits x 34 28 ≥ 80 || s.hub.units.contains (2, (bits x 36 35 * 128 + bits x 34 28) * 16)
      || (w = 0 && bits x 23 0 ≥ 0x200000) then .nothing
    else .pad (padOfCluster (bits x 36 35 * 128 + bits x 34 28)) 0x200000 w (bits x 23 0)
  else if a < 0x400000000000 then
    let x := a - 0x300000000000
    let w := bits x 32 29
    if x ≥ 2 ^ 35 || (w = 0 && bits x 28 0 ≥ 0x4000000) then .nothing
    else .pad (padOfDie (bits x 34 33)) 0x4000000 w (bits x 28 0)
  else if a < 0x500000000000 then
    let x := a - 0x400000000000
    let c := bits x 20 19 * 2048 + bits x 18 12 * 16 + bits x 11 8
    if x ≥ 2 ^ 21 || !s.exists' c then .nothing else .counter c (bits x 7 2)
  else if a < 0x600000000000 then
    let x := a - 0x500000000000
    let o := x % 0x100000
    if x / 0x100000 < 386 && (o < 0x400 ||
        (x / 0x100000 < 2 && ((0x1000 ≤ o && o < 0x1040) || (0x40000 ≤ o && o < 0x80000))))
    then .io x else .nothing
  else .nothing

/-- Span of one window of a scratchpad of a size: windows stand 8Z apart (R65, R168). -/
def windowStride (size : Nat) : Nat := 8 * size
/-- Base device address of a window: the key of its descriptor (R66). -/
def windowKey (base size win : Nat) : Nat := base + win * windowStride size
/-- Descriptor fields (R66). -/
def wFmt (d : Word) : Nat := wbits d 3 0
/-- Elements per scale, or 0 without scales. -/
def wBlk (d : Word) : Nat := match wbits d 9 8 with | 1 => 16 | 2 => 32 | _ => 0
/-- SBASE. -/
def wBase (d : Word) : Nat := wbits d 57 32
/-- V. -/
def wValid (d : Word) : Bool := d.getLsbD 63
/-- A descriptor WINSET refuses (R66). -/
def wRefused (size : Nat) (d : Word) : Bool :=
  wFmt d > 11 || wbits d 9 8 = 3 || (wbits d 9 8 ≠ 0 && wFmt d < 3) || wbits d 62 58 ≠ 0
    || wbits d 31 10 ≠ 0 || wbits d 7 4 ≠ 0
    || (wBlk d ≠ 0 && wBase d + (8 * size / fmtWidth (wFmt d) - 1) / wBlk d ≥ size)

/-! ### Page tables -/

/-- A committed byte of memory; an unlisted one reads zero (log 3). -/
def State.byte (s : State) (a : Nat) : Byte := FMap.get 0#8 s.mem a
/-- Committed bytes. -/
def State.bytesAt (s : State) (a n : Nat) : List Byte := (span a n).map s.byte
/-- A table entry read as a package-scope read of committed memory (R178). -/
def State.word64 (s : State) (a : Nat) : Nat := leVal (s.bytesAt a 8)

/-- Reserved fields of an entry, and leaf-only fields of a table entry, are zero (R175). -/
def pteOk (e : Nat) : Bool :=
  bits e 57 48 = 0 && bits e 7 4 = 0 &&
    (if bit e 58 then bits e 62 60 ≤ 4 else bits e 62 59 = 0 && bits e 3 0 = 0)

/-- The leaf an entry holds at a level with `size` offset bits. -/
def pteLeaf (e size : Nat) : Leaf :=
  { base := bits e 47 8 <<< 8, size := size, scope := bits e 62 60, io := bit e 59, u := bit e 3,
    x := bit e 2, w := bit e 1, r := bit e 0 }

/-- A byte of a range has an uncorrectable error (R379). -/
def State.spoiled (s : State) (dev n : Nat) : Bool := s.poison.any fun a => decide (dev ≤ a ∧ a < dev + n)

/-- A walk from a table at a level: the leaf, or the level at which it failed, 8 more where the entry there has an
uncorrectable error (R174, R175, R188, R379). A table that stands misaligned or outside HBM fails at its own level
(log 86). `fuel` counts the levels left. -/
def State.walkFrom (s : State) (va : Nat) : Nat → Nat → Except Nat Leaf
  | 0, _ => .error 4
  | fuel + 1, table =>
    let level := 4 - fuel
    let idx := match level with | 1 => bits va 47 39 | 2 => bits va 38 30 | 3 => bits va 29 21 | _ => bits va 20 16
    let size := match level with | 1 => 39 | 2 => 30 | 3 => 21 | _ => 16
    let align := if level = 4 then 256 else 4096
    if table % align ≠ 0 || table ≥ 0xC000000000 then .error level else
    if s.spoiled (table + 8 * idx) 8 then .error (8 + level) else
    let e := s.word64 (table + 8 * idx)
    if !bit e 63 || !pteOk e then .error level
    else if bit e 58 then
      if level = 1 || (bits e 47 8 <<< 8) % 2 ^ size ≠ 0 then .error level else .ok (pteLeaf e size)
    else if fuel = 0 then .error level
    else s.walkFrom va fuel (bits e 47 8 <<< 8)

/-- A walk of a partition's tree (R174); 0 names an address above 48 bits. -/
def State.walk (s : State) (part va : Nat) : Except Nat Leaf :=
  if va ≥ 2 ^ 48 then .error 0 else s.walkFrom va 4 (s.cfg part 0 8)

/-- The cause of an access whose address has no translation: a page table entry that cannot be read gives its reader
SPAD_UNCORRECTABLE (R175, R379). -/
def State.noXlate (s : State) (part va : Nat) : Cause :=
  match s.walk part va with
  | .error n => if n ≥ 8 then .spadUncorrectable else .noTranslation
  | .ok _ => .noTranslation

/-- A TLB entry maps a virtual address of a partition. -/
def Tlb.hits (e : Tlb) (part va : Nat) : Bool := e.part = part && e.va = va / 2 ^ e.leaf.size * 2 ^ e.leaf.size

/-- The first entry that maps an address. -/
def tlbFind (l : List Tlb) (part va : Nat) : Option Leaf := (l.find? (·.hits part va)).map (·.leaf)

/-- Put an entry in front, dropping the least recently used past `cap` (R177). -/
def tlbPut (cap : Nat) (l : List Tlb) (e : Tlb) : List Tlb := (e :: l.filter (· ≠ e)).take cap

/-- The set of the cluster TLB that a page falls in: 2,048 entries in 8 ways (R177). Which set is the model's choice: the
page number modulo 256 (log 86). -/
def tlbSet (e : Tlb) : Nat := e.va / 2 ^ e.leaf.size % 256

/-- Put an entry in the cluster TLB: least recently used of its set leaves (R177). -/
def tlbPutSet (l : List Tlb) (e : Tlb) : List Tlb :=
  let same := ((l.filter (· ≠ e)).filter fun x => tlbSet x = tlbSet e).take 7
  e :: same ++ (l.filter (· ≠ e)).filter (fun x => tlbSet x ≠ tlbSet e)

/-- Translation for a core: its TLB, its cluster's, then a walk (R177). The sixteen memory cores of a group, which lie in no
cluster (R3), share a cluster TLB here (log 88). -/
def State.translate (s : State) (c part va : Nat) : Option Leaf :=
  if va ≥ 2 ^ 48 then none else
  match tlbFind (s.core c).tlb part va with
  | some l => some l
  | none =>
    match tlbFind (s.cluster (clusterOf c)).tlb part va with
    | some l => some l
    | none => match s.walk part va with | .ok l => some l | .error _ => none

/-- Both TLBs keep the translation that was used (R177); one that the core's TLB gave is refreshed in the cluster's too
(log 86). -/
def State.fillTlb (s : State) (c part va : Nat) (l : Leaf) : State :=
  let e : Tlb := ⟨part, va / 2 ^ l.size * 2 ^ l.size, l⟩
  let s := s.updCore c fun k => { k with tlb := tlbPut 64 k.tlb e }
  s.updCluster (clusterOf c) fun k => { k with tlb := tlbPutSet k.tlb e }

/-! ### Core accesses -/

/-- The kind of an access (R180). -/
inductive Kind where
  /-- Read. -/
  | read
  /-- Write. -/
  | write
  /-- Read and write. -/
  | rmw
deriving DecidableEq, Repr

/-- A checked access. -/
structure Acc where
  /-- Effective address. -/
  ea : Nat
  /-- Device address. -/
  dev : Nat
  /-- Bytes. -/
  size : Nat
  /-- The leaf. -/
  leaf : Leaf
  /-- What the address names. -/
  loc : Loc
deriving DecidableEq, Repr

/-- First and last raw bit, past the end, of element i of a scratchpad, counted from its raw byte 0
(R63, R65). -/
def elemBits (fmt i : Nat) : Nat × Nat := (i * fmtWidth fmt, (i + 1) * fmtWidth fmt)

/-- The raw scratchpad bytes an access would touch: first offset and count (R15). -/
def rawSpan (desc : Word) (win off size : Nat) : Nat × Nat :=
  if win = 0 then (off, size)
  else
    let p := elemBits (wFmt desc) (off / 4)
    (p.1 / 8, (p.2 - 1) / 8 + 1 - p.1 / 8)

/-- The window checks of R69 and R168 for a location; the cause when one fails. -/
def windowCheck (desc : Word) (l : Loc) (size : Nat) : Option Cause :=
  match l with
  | .nothing => some .windowUndefined
  | .hbm => none
  | .io _ => none
  | .counter _ _ => if size = 4 then none else some .misaligned
  | .pad _ z w off =>
    if w = 0 then none
    else if !wValid desc then some .windowUndefined
    else if off / 4 ≥ 8 * z / fmtWidth (wFmt desc) then some .windowUndefined
    else if size ≠ 4 then some .misaligned
    else none

/-- The descriptor of the window a location lies in, from a table of descriptors. -/
def descOf (wins : FMap Word) (l : Loc) : Word :=
  match l with
  | .pad b z w _ => if w = 0 then 0 else FMap.get 0 wins (windowKey b z w)
  | _ => 0

/-- The access would change a byte of a mailbox: the top 16 KiB of a core scratchpad (R15). -/
def inMailbox (desc : Word) (l : Loc) (size : Nat) : Bool :=
  match l with
  | .pad _ z w off => z = 0x20000 && (let p := rawSpan desc w off size; p.1 + p.2 > 0x1C000)
  | _ => false

/-- The glue-up reserve of a cluster scratchpad, bytes at its top (R306, R388): it is set by the
partition the cluster is allotted to. -/
def State.reserve (s : State) (cl : Nat) : Nat :=
  let bitNo := 80 * (cl / 128) + cl % 128
  let own := List.find? (fun p : Nat × Part => bit (leVal ((span 8 40).map fun i => FMap.get 0#8 p.2.cfg i)) bitNo) s.parts
  match own with
  | some p => min 0x200000 (65536 * s.cfg p.1 0x158 4)
  | none => 0

/-- The access touches a cluster's glue-up reserve (R306). -/
def State.inReserve (s : State) (desc : Word) (l : Loc) (size : Nat) : Bool :=
  match l with
  | .pad b z w off =>
    z = 0x200000 && (let p := rawSpan desc w off size
      p.1 + p.2 > z - s.reserve ((b - 0x200000000000) / 2 ^ 35 * 128 + bits b 34 28))
  | _ => false

/-- The access reads a byte with an uncorrectable error (R180, R379). -/
def State.poisoned (s : State) (desc : Word) (l : Loc) (dev size : Nat) : Bool :=
  !s.poison.isEmpty &&
  match l with
  | .pad b _ w off =>
    let p := rawSpan desc w off size
    let scale (a : Nat) : Bool := w ≠ 0 && wBlk desc ≠ 0 && a = b + wBase desc + off / 4 / wBlk desc
    s.poison.any fun a => (b + p.1 ≤ a && a < b + p.1 + p.2) || scale a
  | _ => s.poison.any fun a => dev ≤ a && a < dev + size

/-- The next instruction of the running level is not matched once more (R366). -/
def CoreT.skips (t : CoreT) : Bool := if t.fir1.isSome then t.watchSkip1 else t.watchSkip
/-- Set that for the running level. -/
def CoreT.setSkips (t : CoreT) (b : Bool) : CoreT :=
  if t.fir1.isSome then { t with watchSkip1 := b } else { t with watchSkip := b }

/-- The offset of the first byte of an access that the watchpoint matches (R366). -/
def CoreT.watchHit (t : CoreT) (ea size : Nat) (kind : Kind) : Option Nat :=
  let m := t.tr.watchm
  if !m.getLsbD 63 || t.inTrap || t.skips then none
  else if !((kind ≠ .write && m.getLsbD 61) || (kind ≠ .read && m.getLsbD 62)) then none
  else (span 0 size).find? fun i => ((ea + i) ^^^ t.tr.watcha.toNat) &&& wbits m 47 0 = 0

/-- The window check of an atomic or a barrier object (R299): raw bytes of window 0 of a scratchpad. -/
def atomicCheck (_ : Word) (l : Loc) (_ : Nat) : Option Cause :=
  match l with
  | .nothing => some .windowUndefined
  | .hbm => none
  | .io _ => some .protWrite
  | .counter _ _ => some .protWrite
  | .pad _ _ w _ => if w = 0 then none else some .windowUndefined

/-- Window descriptors as the running firing sees them: the committed ones, under what its held chunks set (R69,
R311). -/
def State.winsIn (s : State) : FMap Word :=
  match (if s.t.heldNow then s.me.held else none) with
  | none => s.wins
  | some h => h.chunks.foldl (fun w (ch : Chunk) => ch.eff.foldl (fun w e => match e with
      | .winset key d => FMap.put w key d
      | _ => w) w) s.wins

/-- How an access is checked where its entry differs from R180. -/
structure Rules where
  /-- The window check. -/
  win : Word → Loc → Nat → Option Cause
  /-- HBM may be reached from a memory core. -/
  hbm : Bool
  /-- An I/O page is refused (R299). -/
  noIo : Bool
  /-- The bytes are read now. -/
  reads : Bool

/-- The checks of R180 in their order, for an access of the running firing. -/
def State.accessBy (s : State) (q : Rules) (ea size : Nat) (kind : Kind) : Res Acc :=
  if ea ≥ 2 ^ 48 then fault .noTranslation ea else
  match s.translate s.cur s.myPart ea with
  | none => fault (s.noXlate s.myPart ea) ea
  | some p =>
    if !s.t.sup && !p.u then fault (if kind = .write then .protWrite else .protRead) ea
    else if kind ≠ .write && !p.r then fault .protRead ea
    else if kind ≠ .read && !p.w then fault .protWrite ea
    else
      let dev := p.base + ea % 2 ^ p.size
      let l := s.locate dev
      let d := descOf s.winsIn l
      if l = .hbm && !(q.hbm && isMemCore s.cur) then fault .noDramPath ea else
      match (if q.noIo && p.io then some .protWrite else q.win d l size) with
      | some c => fault c ea
      | none =>
        if dev % size ≠ 0 then fault .misaligned ea
        else if kind ≠ .read && inMailbox d l size then fault .protWrite ea
        else if s.inReserve d l size then fault (if kind = .read then .protRead else .protWrite) ea
        else if q.reads && s.poisoned d l dev size then fault .spadUncorrectable ea
        else
          match s.t.watchHit ea size kind with
          | some i => fault .watchData (ea + i)
          | none => .ok ⟨ea, dev, size, p, l⟩

/-- An access under R180. -/
def State.access (s : State) (ea size : Nat) (kind : Kind) : Res Acc :=
  s.accessBy ⟨windowCheck, true, false, kind ≠ .write⟩ ea size kind

/-- An atomic's access (R299); a far one reads at its home. -/
def State.atomicAccess (s : State) (ea size : Nat) (near : Bool) : Res Acc :=
  s.accessBy ⟨atomicCheck, false, true, near⟩ ea size .rmw

/-! ### Bytes the running firing sees -/

/-- A byte with buffered bits laid over it. -/
def overlay (b : Byte) (p : Byte × Byte) : Byte := (b &&& ~~~p.1) ||| (p.2 &&& p.1)

/-- Lay a chunk's buffer over a byte. -/
def Chunk.over (ch : Chunk) (a : Nat) (b : Byte) : Byte :=
  match FMap.find? ch.buf a with
  | some p => overlay b p
  | none => b

/-- A byte as the running firing sees it: committed memory, then its held chunks, then its open chunk
(R181, R288, R311). -/
def State.seen (s : State) (a : Nat) : Byte :=
  let k := s.me
  let b := s.byte a
  let b := if k.t.heldNow then
      match k.held with
      | some h => h.chunks.foldl (fun b ch => ch.over a b) b
      | none => b
    else b
  match k.chunk with
  | some ch => ch.over a b
  | none => b

/-- Bytes as the running firing sees them. -/
def State.seenBytes (s : State) (a n : Nat) : List Byte := (span a n).map s.seen

/-- The 64-byte lines of a byte range (R289). -/
def linesOf (a n : Nat) : List Nat := span (a / 64) ((a + max n 1 - 1) / 64 + 1 - a / 64)

/-- Raw device address and byte count that an access touches. -/
def Acc.raw (x : Acc) (wins : FMap Word) : Nat × Nat :=
  match x.loc with
  | .pad b _ w off => if w = 0 then (x.dev, x.size) else let p := rawSpan (descOf wins x.loc) w off x.size; (b + p.1, p.2)
  | _ => (x.dev, x.size)

/-- The value of element i of a scratchpad's bytes read through a descriptor (R60-R66), scale
applied, given a reader of bytes. -/
def elemValue (rd : Nat → Byte) (base : Nat) (desc : Word) (i : Nat) : Num :=
  let fmt := wFmt desc
  let p := elemBits fmt i
  let raw := leVal ((span (base + p.1 / 8) ((p.2 - 1) / 8 + 1 - p.1 / 8)).map rd)
  let x := decodeElem fmt ((raw >>> (p.1 % 8)) % 2 ^ fmtWidth fmt)
  if wBlk desc = 0 then x else scaleBy (rd (base + wBase desc + i / wBlk desc)).toNat x

/-- The raw bits of element i. -/
def elemRaw (rd : Nat → Byte) (base : Nat) (desc : Word) (i : Nat) : Nat :=
  let p := elemBits (wFmt desc) i
  (leVal ((span (base + p.1 / 8) ((p.2 - 1) / 8 + 1 - p.1 / 8)).map rd) >>> (p.1 % 8)) % 2 ^ fmtWidth (wFmt desc)

/-- Masked bytes that hold `w` bits `x` from raw bit `lo` of a scratchpad (R63, R68). -/
def maskedBits (base lo w x : Nat) : List (Nat × Byte × Byte) :=
  let n := (lo % 8 + w - 1) / 8 + 1
  let m := (2 ^ w - 1) <<< (lo % 8)
  let v := (x % 2 ^ w) <<< (lo % 8)
  (span 0 n).map fun i => (base + lo / 8 + i, BitVec.ofNat 8 (m >>> (8 * i)), BitVec.ofNat 8 (v >>> (8 * i)))

/-- Masked bytes of a raw store. -/
def maskedBytes (a : Nat) (bs : List Byte) : List (Nat × Byte × Byte) :=
  (bs.zip (span 0 bs.length)).map fun p => (a + p.2, 0xFF#8, p.1)

/-- What a write of a value to element i changes, given a reader for its scale (R68): the element's bits, also where they
overlap the window's own scale array (log 82). -/
def elemWrite (rd : Nat → Byte) (base : Nat) (desc : Word) (rm : Rm) (i : Nat) (x : Num) : List (Nat × Byte × Byte) :=
  let x := if wBlk desc = 0 then x else unscaleBy (rd (base + wBase desc + i / wBlk desc)).toNat x
  maskedBits base (elemBits (wFmt desc) i).1 (fmtWidth (wFmt desc)) (encodeElem (wFmt desc) rm x)

/-- The value a 4-byte slot holds for a reader that takes exact values (R67): an element, or FP32
bits through window 0 and from HBM. -/
def slotNum (rd : Nat → Byte) (wins : FMap Word) (dev : Nat) (l : Loc) : Num :=
  match l with
  | .pad b _ w off =>
    if w = 0 then Num.ofBits (BitVec.ofNat 32 (leVal ((span dev 4).map rd)))
    else elemValue rd b (descOf wins l) (off / 4)
  | _ => Num.ofBits (BitVec.ofNat 32 (leVal ((span dev 4).map rd)))

/-- The 32 bits a load of a 4-byte slot receives (R67). -/
def slot32 (rd : Nat → Byte) (wins : FMap Word) (dev : Nat) (l : Loc) : Lane :=
  match l with
  | .pad b _ w off =>
    if w = 0 then BitVec.ofNat 32 (leVal ((span dev 4).map rd))
    else (elemValue rd b (descOf wins l) (off / 4)).read32
  | _ => BitVec.ofNat 32 (leVal ((span dev 4).map rd))

/-- What a write of 32 bits to a slot changes (R68). -/
def slotWrite (rd : Nat → Byte) (wins : FMap Word) (rm : Rm) (dev : Nat) (l : Loc) (x : Num) : List (Nat × Byte × Byte) :=
  match l with
  | .pad b _ w off =>
    if w = 0 then maskedBytes dev (leBytes 4 (encodeElem 0 rm x))
    else elemWrite rd b (descOf wins l) rm (off / 4) x
  | _ => maskedBytes dev (leBytes 4 (encodeElem 0 rm x))

end Sys2Proof.Machine
end

