-- ==== Sys2Proof/Machine/Groups.lean ====
section
/-! DEFINITION. Group descriptors and injection entries of the Dovetail tree (R326-R330). -/
namespace Sys2Proof.Machine

/-- OP. -/
def gOp (d : List Byte) : Nat := bits (fieldAt d 0 4) 2 0
/-- TYPE: 0 int32, 1 FP32, 2 BF16. -/
def gType (d : List Byte) : Nat := bits (fieldAt d 0 4) 5 4
/-- XQ. -/
def gXq (d : List Byte) : Bool := bit (fieldAt d 0 4) 8
/-- CMASK. -/
def gMask (d : List Byte) : Nat := fieldAt d 4 2
/-- OWNER. -/
def gOwner (d : List Byte) : Nat := fieldAt d 6 2
/-- CLUSTERS. -/
def gClusters (d : List Byte) : Nat := leVal ((d.drop 8).take 40)
/-- NOTIFY. -/
def gNotify (d : List Byte) : Nat := fieldAt d 0x30 8
/-- Set bits below bit `n`. -/
def popBelow (x : Nat) : Nat → Nat
  | 0 => 0
  | n + 1 => popBelow x n + b2n (bit x n)
/-- The member count (R327). -/
def gCount (d : List Byte) : Nat := popBelow (gClusters d) 320 * popBelow (gMask d) 16
/-- The bit of a core's cluster. -/
def gBit (c : Nat) : Nat := 80 * (c / 2048) + c / 16 % 128
/-- The core is a member (R327). -/
def gMember (d : List Byte) (c : Nat) : Bool :=
  c / 16 % 128 < 80 && bit (gClusters d) (gBit c) && bit (gMask d) (c % 16)
/-- A member's rank: its place in ascending logical coordinate (R327). -/
def gRank (d : List Byte) (c : Nat) : Nat :=
  popBelow (gClusters d) (gBit c) * popBelow (gMask d) 16 + popBelow (gMask d) (c % 16)
/-- What DVCFG refuses in a descriptor, given the allotted clusters (R327, R343). -/
def gBad (d : List Byte) (allot : Nat) : Bool :=
  let ctl := fieldAt d 0 4
  gOp d > 5 || gType d = 3 || bit ctl 3 || bits ctl 7 6 ≠ 0 || bits ctl 31 9 ≠ 0 || gMask d = 0
    || gClusters d = 0 || gOwner d ≥ gCount d || (gOp d ≥ 3 && gType d ≠ 0) || bits (gNotify d) 63 51 ≠ 0
    || !zeroAt d 0x38 8 || (gClusters d &&& allot) ≠ gClusters d

/-- GRP of an injection entry (R329). -/
def eGrp (e : List Byte) : Nat := fieldAt e 0 1
/-- COLL: 0 reduce-to-owner, 1 all-reduce, 2 broadcast. -/
def eColl (e : List Byte) : Nat := fieldAt e 1 1
/-- PIECE. -/
def ePiece (e : List Byte) : Nat := fieldAt e 2 2
/-- LEN. -/
def eLen (e : List Byte) : Nat := fieldAt e 4 4
/-- SRC. -/
def eSrc (e : List Byte) : Nat := fieldAt e 8 8
/-- DST. -/
def eDst (e : List Byte) : Nat := fieldAt e 0x10 8
/-- INC. -/
def eInc (e : List Byte) : Nat := fieldAt e 0x20 4
/-- Effective owner rank. -/
def eOwner (d e : List Byte) : Nat := if fieldAt e 0x24 4 = 2 ^ 32 - 1 then gOwner d else fieldAt e 0x24 4
/-- The member contributes data (R329). -/
def eReads (d e : List Byte) (rank : Nat) : Bool := eColl e ≠ 2 || rank = eOwner d e
/-- The member receives the result (R329). -/
def eWrites (d e : List Byte) (rank : Nat) : Bool := eDst e ≠ 0 && (eColl e ≠ 0 || rank = eOwner d e)
/-- A refused field of an entry (R329, R344). -/
def eBad (d e : List Byte) (rank : Nat) : Bool :=
  eColl e > 2 || eLen e < 64 || eLen e > 4096 || eLen e % 64 ≠ 0 || eOwner d e ≥ gCount d || !zeroAt e 0x28 24
    || (eReads d e rank && eSrc e % 64 ≠ 0) || (eWrites d e rank && eDst e % 64 ≠ 0)
/-- Two entries do not belong to one instance (R330). -/
def eMismatch (d e f : List Byte) : Bool :=
  eColl e ≠ eColl f || eLen e ≠ eLen f || (eColl e ≠ 1 && eOwner d e ≠ eOwner d f)

/-- A refused field of a send descriptor (R338, R348). -/
def xRefused (d : List Byte) : Bool :=
  fieldAt d 0 4 = 0 || fieldAt d 0x18 4 = 0 || fieldAt d 0x18 4 > 2 ^ 30 || fieldAt d 0x1C 4 ≥ 2 ^ 24
    || bits (fieldAt d 0x30 8) 63 51 ≠ 0 || fieldAt d 0x38 1 ≥ 16 || !zeroAt d 0x39 7

end Sys2Proof.Machine
end

