-- ==== Sys2Proof/Machine/Agents.lean ====
section
/-! DEFINITION. What agents do to one another: racks and readiness (R16, R19, R126, R127), landing
writes, squashes and solo mode (R288-R293), counter increments (R207), task packets (R21-R24). -/
namespace Sys2Proof.Machine

/-! ### Racks -/

/-- Before slots that hold parked values become owned, the core fills those registers back (R133). -/
def CoreT.fillBack (t : CoreT) (slots : List Nat) : CoreT :=
  { t with park := t.park.filter fun (p : Nat × Nat) => p.2 = 0 || !slots.contains (p.2 - 1) }

/-- Slot count N (R126). -/
def Rack.n (r : Rack) : Nat := r.cntm1 + 1
/-- Bytes per slot. -/
def Rack.slotSize (r : Rack) : Nat := 64 * 2 ^ r.sz
/-- Advance FILL over n slots (R127). -/
def Rack.filled (r : Rack) (n : Nat) : Rack := { r with fill := (r.fill + n) % r.n, nfill := r.nfill + n }
/-- Advance FREE over n slots (R127); the credits of their senders are owed until DONE (R19). -/
def Rack.freed (r : Rack) (n : Nat) : Rack :=
  { r with free := (r.free + n) % r.n, nfill := r.nfill - n, senders := r.senders.drop n,
           owed := r.owed ++ ((r.senders.take n).filter (·.1 ≠ 0)).map fun x => (x.1, x.2.1) }
/-- The rack word (R80). -/
def Rack.word (r : Rack) (base : Nat) : Nat := 2 ^ 31 + r.cntm1 <<< 15 + r.sz <<< 11 + base
/-- Offset of slot i in the core scratchpad. -/
def Rack.slotOff (r : Rack) (base i : Nat) : Nat := base * 64 + (i % r.n) * r.slotSize
/-- Slots behind FILL that are taken: those of a real tile that waits for its compare (R313), then those reserved by
copies (R203). -/
def Rack.reserved (r : Rack) : Nat := r.wait + r.resv.foldl (fun a p => a + p.2) 0

/-- What a rack's firings find in it: slots that ended firings have consumed, and slots freed by RKADV, are gone from
it while commands still read slots before them; for producers they stay filled (R20, R228). -/
def Rack.left (r : Rack) : Rack :=
  { r with free := (r.free + r.due + r.defer) % r.n, nfill := r.nfill - (r.due + r.defer),
           senders := r.senders.drop (r.due + r.defer) }
/-- Free slots of a record that `left` gave: those of a real tile that waits for its compare are taken (R313). -/
def Rack.room (r : Rack) : Nat := r.n - (r.nfill + r.due + r.defer + r.wait)

/-- A core's record at a base, placed or firing-local, as other agents see it (R126). -/
def Core.rack? (k : Core) (base : Nat) : Option Rack :=
  match FMap.find? k.racks base with
  | some r => some r
  | none => FMap.find? k.t.locals base

/-- Change a record; the change survives a squash. -/
def Core.updRack (k : Core) (base : Nat) (f : Rack → Rack) : Core :=
  match FMap.find? k.racks base with
  | some r => { k with racks := FMap.put k.racks base (f r) }
  | none => k.both fun t =>
    match FMap.find? t.locals base with
    | some r => { t with locals := FMap.put t.locals base (f r) }
    | none => t

/-- A chunk's moves on a rack: fills and frees. -/
def Chunk.movesOf (ch : Chunk) (base : Nat) : Nat × Nat := FMap.get (0, 0) ch.moves base

/-- The running firing's tentative moves on a rack (R127): its held chunks', those of its completed commands (R311), and its
open chunk's. -/
def Core.ownMoves (k : Core) (base : Nat) : Nat × Nat :=
  let h := if k.t.heldNow then
      match k.held with
      | some h => h.chunks.foldl (fun a ch => (a.1 + (ch.movesOf base).1, a.2 + (ch.movesOf base).2)) (0, FMap.get 0 h.freed base)
      | none => (0, 0)
    else (0, 0)
  match k.chunk with
  | some ch => (h.1 + (ch.movesOf base).1, h.2 + (ch.movesOf base).2)
  | none => h

/-- A rack belongs to the held firing of the core: to its instance, or, while it runs, to the firing alone. The
firing-local racks of a firing that has ended are gone with it (R126). -/
def Core.heldRack (k : Core) (base : Nat) : Bool :=
  match k.held with
  | some h =>
    (match FMap.find? k.racks base with
     | some r => r.owner = some h.fir.inst
     | none => !h.ended && (FMap.find? k.t.locals base).any (·.level = 0))
  | none => false

/-- The dry-fit state of a rack as other agents see it (R320, R321). -/
def Core.firmMark (k : Core) (base : Nat) : Mark :=
  match k.held with
  | some h => if k.heldRack base then FMap.get Mark.clear h.start.marks base else FMap.get Mark.clear k.committed.marks base
  | none => FMap.get Mark.clear k.committed.marks base

/-! ### Actors and instances -/

/-- The descriptor of the supervisor actor's one shape (R77). -/
def supDesc (entry : Nat) : List Byte :=
  leBytes 4 entry ++ [1#8, 0#8, 1#8, 0#8] ++ leBytes 4 1 ++ leBytes 4 4096 ++ leBytes 2 (7 <<< 9)
    ++ rep 14 0#8 ++ rep 96 0#8

/-- The launch an instance belongs to. -/
def State.launchOf (s : State) (i : Inst) : Option Launch := FMap.find? (s.part i.part).slots i.lslot
/-- The actor descriptor of an instance (R79). -/
def State.descOfInst (s : State) (i : Inst) : List Byte :=
  if i.lslot = 0xFFF then supDesc (match (s.part i.part).sup with | some x => x.entry | none => 0)
  else match s.launchOf i with
    | some l => (at' ⟨[], 0⟩ l.actors i.aidx).desc
    | none => []
/-- ENTRY. -/
def aEntry (d : List Byte) : Nat := fieldAt d 0 4
/-- Declared priority. -/
def aPri (d : List Byte) : Nat := fieldAt d 4 1 % 2
/-- Declared energy class. -/
def aCls (d : List Byte) : Nat := bits (fieldAt d 4 1) 2 1
/-- STAGE. -/
def aStage (d : List Byte) : Nat := fieldAt d 5 1
/-- NIN. -/
def aNin (d : List Byte) : Nat := fieldAt d 6 1
/-- NOUT. -/
def aNout (d : List Byte) : Nat := fieldAt d 7 1
/-- PERGRP. -/
def aPergrp (d : List Byte) : Nat := fieldAt d 8 4
/-- STATESZ. -/
def aState (d : List Byte) : Nat := fieldAt d 12 4
/-- IN word of a port. -/
def aIn (d : List Byte) (p : Nat) : Nat := fieldAt d (0x10 + 2 * p) 2
/-- OUT word of a port. -/
def aOut (d : List Byte) (p : Nat) : Nat := fieldAt d (0x20 + 4 * p) 4
/-- Rack word of kN. -/
def aRack (d : List Byte) (k : Nat) : Nat := fieldAt d (0x40 + 4 * k) 4
/-- The port is a rack port. -/
def inRackPort (w : Nat) : Bool := bit w 6
/-- Consumption rate. -/
def inRate (w : Nat) : Nat := bits w 5 0 + 1
/-- Slots of a message port. -/
def inSlots (w : Nat) : Nat := 4 * (bits w 12 9 + 1)
/-- Slot size of a message port. -/
def inSlotSize (w : Nat) : Nat := 64 * 2 ^ bits w 8 7
/-- Production rate. -/
def outRate (w : Nat) : Nat := bits w 6 0

/-- Base, in units of 64 bytes, of the rack that holds an input port (R14, R126). -/
def State.portBase (s : State) (i : Inst) (p : Nat) : Nat :=
  let w := aIn (s.descOfInst i) p
  if inRackPort w then bits (aRack (s.descOfInst i) (bits w 12 9)) 10 0 else FMap.get 0 i.mail p

/-- The generation of a launch slot; slot 0xFFF has generation 0 (R22). -/
def State.genOf (s : State) (part lslot : Nat) : Nat :=
  if lslot = 0xFFF then 0 else FMap.get 0 (s.part part).gens lslot
/-- The handle of an instance (R22). -/
def State.handleOf (s : State) (i : Inst) : Nat :=
  i.lslot <<< 36 + i.aidx <<< 28 + i.num <<< 12 + s.genOf i.part i.lslot
/-- Instance count of an actor (R81). -/
def State.countOf (s : State) (part lslot aidx : Nat) : Nat :=
  match FMap.find? (s.part part).slots lslot with
  | some l => (at' ⟨[], 0⟩ l.actors aidx).count
  | none => 0
/-- The destination instance number that DMAP selects (R80, R114). -/
def dmap (m num count : Nat) : Nat :=
  match m with
  | 0 => if count = 0 then 0 else num % count
  | 1 => 0
  | _ => if count = 0 then 0 else (num + 1) % count

/-- The destination instance of an output port (R114). -/
def State.outDest (s : State) (i : Inst) (p : Nat) : Nat :=
  let w := aOut (s.descOfInst i) p
  instKey i.part i.lslot (bits w 15 8) (dmap (bits w 21 20) i.num (s.countOf i.part i.lslot (bits w 15 8)))

/-- Slots that firings in progress on a core have reserved in a rack of that core (R19). -/
def State.reservedIn (s : State) (c base : Nat) : Nat :=
  let k := s.core c
  let fs := k.committed.fir0.toList ++ k.committed.fir1.toList ++
    (match k.held with | some h => if h.ended then [h.fir] else [] | none => [])
  fs.foldl (fun a f =>
    match FMap.find? s.insts f.inst with
    | none => a
    | some i =>
      let d := s.descOfInst i
      (span 0 (aNout d)).foldl (fun a p =>
        match FMap.find? s.insts (s.outDest i p) with
        | none => a
        | some j => if j.core = some c && s.portBase j (bits (aOut d p) 18 16) = base
            then a + (outRate (aOut d p) - FMap.get 0 f.sent p) else a) a) 0

/-- Room on an output port (R19). -/
def State.outRoom (s : State) (i : Inst) (p : Nat) : Nat :=
  let w := aOut (s.descOfInst i) p
  match FMap.find? s.insts (s.outDest i p), i.core with
  | some j, some c =>
    if j.core = some c then
      let base := s.portBase j (bits w 18 16)
      match (s.core c).rack? base with
      | some r => r.n - r.nfill - r.wait - s.reservedIn c base
      | none => 0
    else (FMap.get 0 i.credit p).toNat
  | _, _ => (FMap.get 0 i.credit p).toNat

/-- The destination of an output port lies on the instance's own core. -/
def State.outLocal (s : State) (i : Inst) (p : Nat) : Bool :=
  match FMap.find? s.insts (s.outDest i p) with
  | some j => j.core = i.core && i.core.isSome
  | none => false

/-- Filled slots of an input port. -/
def State.portFilled (s : State) (i : Inst) (p : Nat) : Nat :=
  match i.core with
  | some c => match (s.core c).rack? (s.portBase i p) with | some r => r.left.nfill | none => 0
  | none => 0

/-- Placed where it may fire (R87, R108). -/
def Inst.canFire (i : Inst) : Bool := (i.st = .home || i.st = .drain) && !i.atStep && i.core.isSome && !i.busy

/-- The output side of R16. -/
def State.roomOk (s : State) (i : Inst) : Bool :=
  (span 0 (aNout (s.descOfInst i))).all fun p => s.outRoom i p ≥ outRate (aOut (s.descOfInst i) p)

/-- An end request has been served for the launch of an instance: it starts no firing any more (R90). -/
def State.endAsked (s : State) (i : Inst) : Bool := match s.launchOf i with | some l => l.ending | none => false

/-- Ready under R16. -/
def State.instReady (s : State) (i : Inst) : Bool :=
  let d := s.descOfInst i
  i.canFire && !s.endAsked i && (span 0 (aNin d)).all (fun p => s.portFilled i p ≥ inRate (aIn d p)) && s.roomOk i

/-- The device address of a staging area of `size` bytes for a core's firing, when it translates to window 0 of the core's
own scratchpad, clear of the mailbox (R15, R321). -/
def State.stagingAt (s : State) (c part va size : Nat) : Option Nat :=
  match s.translate c part va with
  | none => none
  | some p =>
    let dev := p.base + va % 2 ^ p.size
    match s.locate dev with
    | .pad b _ w off => if w = 0 && b = padOfCore c && off + size ≤ 0x1C000 then some dev else none
    | _ => none

/-- Bytes of a slot of a core's rack, 0 without one. -/
def Core.tileSize (k : Core) (base : Nat) : Nat := match k.rack? base with | some r => r.slotSize | none => 0

/-- The rack port on which an instance is ready dry (R309), if any: its base. One whose staging area is not mapped any
more is not ready dry (log 35). -/
def State.dryPort (s : State) (i : Inst) : Option Nat :=
  let d := s.descOfInst i
  match i.core with
  | none => none
  | some c =>
    let k := s.core c
    if !i.canFire || s.endAsked i || aPri d ≠ 0 || k.held.isSome || !s.roomOk i then none else
    match (span 0 (aNin d)).find? fun p => inRackPort (aIn d p) && s.portFilled i p = 0 with
    | none => none
    | some p =>
      let b := s.portBase i p
      let m := k.firmMark b
      if i.noDry ≠ some b && inRate (aIn d p) = 1 && m.pred && m.vers.length = 2
          && m.armed.any (fun v => (s.stagingAt c i.part v (k.tileSize b)).isSome)
          && (span 0 (aNin d)).all (fun q => q = p || s.portFilled i q ≥ inRate (aIn d q))
      then some b else none

/-- Header of the packet in a slot of a core's rack. -/
def State.slotHeader (s : State) (c : Nat) (r : Rack) (base i : Nat) : Nat :=
  leVal (s.bytesAt (padOfCore c + r.slotOff base i) 8)

/-- Energy class of the firing an instance would start: the largest ECLS of the packets it consumes,
else the declared class (R25). -/
def State.classOf (s : State) (i : Inst) : Nat :=
  let d := s.descOfInst i
  match i.core with
  | none => aCls d
  | some c =>
    let es := (span 0 (aNin d)).flatMap fun p =>
      if inRackPort (aIn d p) then [] else
      match (s.core c).rack? (s.portBase i p) with
      | some r => (span 0 (min r.left.nfill (inRate (aIn d p)))).map fun j =>
          bits (s.slotHeader c r (s.portBase i p) (r.left.free + j)) 55 54
      | none => []
    if es.isEmpty then aCls d else es.foldl max 0

/-- A ready instance enters its core's run queue once (R16, R101). -/
def State.wake (s : State) (key : Nat) : State :=
  match FMap.find? s.insts key with
  | none => s
  | some i =>
    match i.core with
    | none => s
    | some c =>
      if (s.core c).runq.any (·.inst = key) then s
      else if s.instReady i || (s.dryPort i).isSome then
        let e : Entry := ⟨key, aPri (s.descOfInst i), s.classOf i, i.since.getD s.cycle, false⟩
        (s.updCore c fun k => { k with runq := k.runq ++ [e] }).updInst key fun x => { x with since := none }
      else s

/-- Every instance of a core that has become ready enters the queue. -/
def State.wakeCore (s : State) (c : Nat) : State :=
  (s.insts.filter fun p => p.2.core = some c).foldl (fun s p => s.wake p.1) s

/-! ### Signatures and squashes -/

/-- Core `c` receives the write signature of a commit of unit `u` at a scope (R290). -/
def inScope (scope u c : Nat) : Bool :=
  match scope with
  | 0 => c = u
  | 1 => clusterOf c = clusterOf u
  | 2 => dieOf c = dieOf u
  | _ => true

/-- Key of the arbiter of a scope for a core (R290). -/
def arbiter (scope c : Nat) : Nat :=
  match scope with
  | 0 => c
  | 1 => 0x10000 + clusterOf c
  | 2 => 0x20000 + dieOf c
  | _ => 0x30000

/-- The core that holds an arbiter's token (R292). -/
def State.holder (s : State) (arb : Nat) : Option Nat :=
  match FMap.get [] s.tokens arb with
  | c :: _ => match (s.core c).solo with
    | some so => if so.granted then some c else none
    | none => none
  | [] => none

/-- Squashes in a row of a level's chunk (R292). -/
def Core.squashes (k : Core) (level : Nat) : Nat := if level = 1 then k.squashed1 else k.squashed
/-- Set them. -/
def Core.setSquashes (k : Core) (level n : Nat) : Core :=
  if level = 1 then { k with squashed1 := n } else { k with squashed := n }

/-- A queued or set-aside command of the matrix unit names a slot. -/
def Core.commanded (k : Core) (n : Nat) : Bool :=
  k.eng.mat.any (fun (m : MatCmd) => m.slot = n) || k.eng.aside.any (fun (m : MatCmd) => m.slot = n)

/-- So does one that the open chunk has issued (R222, R238). -/
def Core.issuedOn (k : Core) (n : Nat) : Bool :=
  k.commanded n || k.chunk.any fun (ch : Chunk) => ch.eff.any fun e => match e with | .mat m => m.slot = n | _ => false

/-- Slots that MFREE has let go become free once no command on them is left (R238). -/
def Core.settleSlots (k : Core) : Core :=
  k.both fun t => { t with slots := t.slots.filter fun (p : Nat × Slot) => !p.2.freeing || k.issuedOn p.1 }

/-- A squash (R291): the chunk's state is restored, the shadow slots that it took are free again, and after the fourth in a row the core enters solo
mode and requests its arbiter's token (R292). A repair's squash does not count (R379). -/
def State.squash (s : State) (c : Nat) (counts : Bool) : State :=
  let k := s.core c
  match k.chunk with
  | none => s
  | some ch =>
    let n := k.squashes k.t.level + b2n counts
    let held := if !k.t.heldNow then k.held
      else if !ch.ckpt.heldNow then none
      else k.held.map fun h => { h with shadow := ch.shadow }
    let k' := (({ k with t := ch.ckpt, chunk := none, held := held } : Core).settleSlots.setSquashes k.t.level n).setWaiting
      k.t.level Waiting.idle
    if n ≥ 4 && k.solo.isNone then
      let s := s.putCore c { k' with solo := some ⟨ch.scope, 0, ch.limit, [], false, false⟩ }
      let s := { s with tokens := FMap.upd [] s.tokens (arbiter ch.scope c) (· ++ [c]) }
      s.logEvent (dieOf c) .soloMode (if isMemCore c then 1 else 0) c n
    else s.putCore c k'

/-- Some line of the reads is written, or the signature reports one falsely (R289). -/
def conflicts (rd lines : List Nat) (fresh c : Nat) : Bool :=
  rd.any lines.contains || (!rd.isEmpty && Config.falseHit (fresh * 8192 + c))

/-- A cause becomes pending on a firing, by its number; the first one stands, and one for a firing that has ended is
lost (R361). -/
def Core.pendImprecise (k : Core) (c : Cause) (v : Word) (fir : Nat) : Core :=
  if k.pendImp.any (·.2.2 = fir) || !(k.t.fir0.toList ++ k.t.fir1.toList).any (·.serial = fir) then k
  else { k with pendImp := k.pendImp ++ [(c, v, fir)] }

/-- Record a match of a watchpoint of a level by a landing write (R361, R367): the first pending cause
stands. -/
def Core.watchLand (k : Core) (kind src : Nat) (addrs : List Nat) : Core :=
  let try' (k : Core) (tr : TrapRegs) (fir : Option Firing) : Core :=
    let m := tr.watchm
    match fir with
    | none => k
    | some f =>
    if !m.getLsbD 63 || !m.getLsbD 60 || tr.xstat.getLsbD 4 then k else
    match addrs.find? fun a => (a ^^^ tr.watcha.toNat) &&& wbits m 47 0 = 0 with
    | none => k
    | some a =>
      let r := word (kind <<< 61 + src <<< 48 + a)
      let k := k.both fun t => { t with watchRec := r }
      k.pendImprecise .watchLanding r f.serial
  let k := try' k k.t.tr0 k.t.fir0
  try' k k.t.tr1 k.t.fir1

/-- The core whose scratchpad holds a device address (R168). -/
def State.coreOfPad (s : State) (a : Nat) : Option Nat :=
  match s.locate a with
  | .pad b z _ _ => if z = 0x20000 then some (bits (b - 0x100000000000) 36 35 * 2048 + bits b 34 28 * 16 + bits b 27 24) else none
  | _ => none

/-- Landing writes are matched against the watchpoints of the cores they land in (R367). -/
def State.watchAll (s : State) (kind src : Nat) (skip : Option Nat) (addrs : List Nat) : State :=
  let owners := (addrs.filterMap s.coreOfPad).dedup.filter fun c => some c ≠ skip
  owners.foldl (fun s c => s.updCore c fun k =>
    k.watchLand kind src (addrs.filter fun a => s.coreOfPad a = some c)) s

/-- Apply masked bytes to memory, keeping its canonical form. -/
def State.poke (s : State) (w : List (Nat × Byte × Byte)) : State :=
  { s with mem := w.foldl (fun m p => FMap.set 0#8 m p.1 (overlay (FMap.get 0#8 m p.1) p.2)) s.mem }

/-- The same for bytes that replace what stood there: a byte written whole has no uncorrectable error any more (R379). -/
def State.replace (s : State) (w : List (Nat × Byte × Byte)) : State :=
  let s := s.poke w
  { s with poison := s.poison.filter fun a => !(w.any fun p => p.1 = a && p.2.1 = 0xFF#8) }

/-- Copy raw bytes from places as they stand, uncorrectable errors among them (R379): each span a destination, a source and
a length. -/
def State.carry (s : State) (spans : List (Nat × Nat × Nat)) : State :=
  let bad := spans.flatMap fun x => (s.poison.filter fun a => decide (x.2.1 ≤ a ∧ a < x.2.1 + x.2.2)).map fun a => a - x.2.1 + x.1
  let s := s.replace (spans.flatMap fun x => maskedBytes x.1 (s.bytesAt x.2.1 x.2.2))
  { s with poison := s.poison ++ bad }

/-- A landing write waits while a spare takes over a core whose scratchpad it reaches (R383). -/
def State.away (s : State) (addrs : List Nat) : Bool :=
  s.cores.any (fun (p : Nat × Core) => p.2.takeover) &&
    addrs.any fun a => match s.coreOfPad a with | some c => (s.core c).takeover | none => false
/-- So does an increment of one of its counters. -/
def State.cntAway (s : State) (cnt : Option (Nat × Nat)) : Bool :=
  match cnt with | some (c, _) => (s.core c).takeover | none => false

/-! ### Counter increments -/

/-- Post an increment (R207). -/
def State.post (s : State) (p : Post) : State := { s with posts := s.posts ++ [p] }

/-- Apply an increment to its counter (R207). -/
def Core.applyInc (k : Core) (p : Post) : Core :=
  let v := (FMap.get 0 k.mb p.idx + p.inc) % 2 ^ 32
  let l := FMap.get Latch.clear k.mbLatch p.idx
  let l' := match p.bad with
    | none => l
    | some (c, a, b) => if l.ep then { l with multi := true } else ⟨true, false, c, a, min b (2 ^ 32 - 1)⟩
  { k with mb := FMap.put k.mb p.idx v, mbLatch := if l' = l then k.mbLatch else FMap.put k.mbLatch p.idx l' }

/-- The latch word of R206. -/
def Latch.word (l : Latch) : Nat :=
  (b2n l.ep) <<< 63 + (b2n l.multi) <<< 62 + l.code <<< 48 + l.agent <<< 44 + l.bytes

/-- A WFI of a core notes an event (R372). -/
def Core.wfiEvent (k : Core) (i : Nat) : Core :=
  let one (w : Waiting) : Waiting :=
    match w.await with
    | .wfi d dl m => { w with await := .wfi d dl (m ||| 2 ^ i) }
    | _ => w
  { k with wait0 := one k.wait0, wait1 := one k.wait1 }

/-! ### Task packets -/

/-- The header word of a packet (R21). -/
def pktHeader (b : List Byte) : Nat := fieldAt b 0 8
/-- Length in bytes. -/
def hdrLen (h : Nat) : Nat := 32 * (bits h 63 61 + 1)
/-- NSUCC. -/
def hdrSucc (h : Nat) : Nat := bits h 60 57
/-- Destination port. -/
def hdrPort (h : Nat) : Nat := bits h 50 48
/-- Destination handle. -/
def hdrActor (h : Nat) : Nat := bits h 47 0
/-- Network channel. -/
def hdrPri (h : Nat) : Nat := bits h 56 56
/-- A malformed length (R23). -/
def hdrMalformed (h : Nat) : Bool := hdrSucc h > 8 || 8 + 8 * hdrSucc h > hdrLen h

/-- A packet from the hub dies, without a sender. -/
def Pkt.fromHub (part : Nat) (b : List Byte) : Pkt := ⟨part, b, 0, (0, 0), (0, 0), 0, 0, false, .none, false, false, 0⟩
/-- Header of a packet. -/
def Pkt.hdr (p : Pkt) : Nat := pktHeader p.bytes
/-- Key of the instance that a packet's handle names. -/
def Pkt.key (p : Pkt) : Nat :=
  let h := hdrActor p.hdr
  instKey p.part (bits h 47 36) (bits h 35 28) (bits h 27 12)
/-- Two packets whose order R109 keeps: one sender, one channel, one port of one instance. -/
def Pkt.sameFlow (p q : Pkt) : Bool :=
  p.part = q.part && p.src = q.src && hdrPri p.hdr = hdrPri q.hdr && hdrActor p.hdr = hdrActor q.hdr
    && hdrPort p.hdr = hdrPort q.hdr
/-- Put a packet on its way. -/
def State.sendPkt (s : State) (p : Pkt) : State := { s with net := s.net ++ [p] }
/-- A packet of words to the supervisor actor, PRI 1, ECLS 0, PORT 0 (R77, R110, R359), from a core's coordinate plus
one or, with 0, from the hub dies. Words that the manual does not give are free values. -/
def State.tellSup (s : State) (src part : Nat) (ws : List Nat) : State :=
  let n := (8 * (ws.length + 1) + 31) / 32
  let h := (n - 1) <<< 61 + 1 <<< 56 + 0xFFF010000000
  let b := (h :: ws).flatMap (leBytes 8)
  let pad := (span 0 (32 * n - b.length)).map fun i => Config.freeByte (s.fresh * 256 + i)
  s.next.sendPkt { Pkt.fromHub part (b ++ pad) with src := src, seq := s.fresh }
/-- A dead letter (R110, R118). -/
def State.deadLetter (s : State) (part : Nat) (c : Cause) : State :=
  s.updPart part fun p => { p with dlCount := (p.dlCount + 1) % 2 ^ 32, dlCause := c.code }

end Sys2Proof.Machine
end

