-- ==== Sys2Proof/Machine/Patterns.lean ====
section
/-! DEFINITION. Address patterns of four counts and strides (R129, R200), and the checks of a copy's
descriptor at its fork (R190, R200-R202). -/
namespace Sys2Proof.Machine

/-- The digits of n in the mixed radix of the counts, innermost first. -/
def digits : List Nat → Nat → List Nat
  | [], _ => []
  | c :: r, n => n % c :: digits r (n / c)
/-- Elements of a pattern. -/
def patTotal (counts : List Nat) : Nat := counts.foldl (· * ·) 1
/-- Offset of element n, modulo 2^64. -/
def patOff (counts strides : List Nat) (n : Nat) : Nat :=
  (List.zipWith (· * ·) (digits counts n) strides).foldl (· + ·) 0 % 2 ^ 64
/-- The lowest and the highest offset of a pattern. -/
def patExtent (counts strides : List Nat) : Int × Int :=
  (List.zipWith (fun (c d : Nat) => ((c : Int) - 1) * signed 64 d) counts strides).foldl
    (fun (a : Int × Int) x => (a.1 + min x 0, a.2 + max x 0)) (0, 0)
/-- Every element stands at a multiple of its size. -/
def patAligned (base esz : Nat) (counts strides : List Nat) : Bool :=
  base % esz = 0 && (counts.zip strides).all fun p => p.1 = 1 || p.2 % esz = 0

/-! ### Copy descriptors (R200) -/

/-- CTL. -/
def Copy.ctl (x : Copy) : Nat := fieldAt x.desc 0x18 4
/-- Element size in bytes. -/
def Copy.esz (x : Copy) : Nat := 2 ^ bits x.ctl 2 0
/-- RK: rack mode. -/
def Copy.rk (x : Copy) : Bool := bit x.ctl 3
/-- RKN. -/
def Copy.rkn (x : Copy) : Nat := bits x.ctl 10 4
/-- RACKW. -/
def Copy.rackw (x : Copy) : Nat := fieldAt x.desc 0x78 4
/-- Counts. -/
def Copy.counts (x : Copy) : List Nat := (span 0 4).map fun i => fieldAt x.desc (0x28 + 4 * i) 4
/-- Source strides. -/
def Copy.sstr (x : Copy) : List Nat := (span 0 4).map fun i => fieldAt x.desc (0x38 + 8 * i) 8
/-- Destination strides. -/
def Copy.dstr (x : Copy) : List Nat := (span 0 4).map fun i => fieldAt x.desc (0x58 + 8 * i) 8
/-- Elements of a copy. -/
def Copy.total (x : Copy) : Nat := patTotal x.counts
/-- SRC with the region's base. -/
def Copy.src (x : Copy) : Nat := (fieldAt x.desc 0 8 + (x.regions.1.map (·.base)).getD 0) % 2 ^ 64
/-- DST with the region's base. -/
def Copy.dst (x : Copy) : Nat := (fieldAt x.desc 8 8 + (x.regions.2.map (·.base)).getD 0) % 2 ^ 64
/-- Virtual address of source element n. -/
def Copy.srcAt (x : Copy) (n : Nat) : Nat := (x.src + patOff x.counts x.sstr n) % 2 ^ 64
/-- Offset of destination element n. -/
def Copy.dstOff (x : Copy) (n : Nat) : Nat := patOff x.counts x.dstr n

/-- Some element of a side lies outside [0, len), counted from `off`. -/
def patBeyond (off len esz : Nat) (counts strides : List Nat) : Bool :=
  let e := patExtent counts strides
  (off : Int) + e.1 < 0 || (off : Int) + e.2 + esz > len

/-- What the descriptor and its regions make refuse at the fork, after the handles and the counter
(R190, R200, R202); in rack mode the destination offsets are held against the rack later. -/
def Copy.refused (x : Copy) : Option Cause :=
  if x.counts.any (fun c => c = 0 || c > 2 ^ 24) || bits x.ctl 2 0 = 7 || bits x.ctl 31 11 ≠ 0 || fieldAt x.desc 0x7C 4 ≠ 0
      || (x.rk && (x.rkn = 0 || fieldAt x.desc 0x14 4 ≠ 0)) || (!x.rk && (x.rkn ≠ 0 || x.rackw ≠ 0))
      || bits x.rackw 30 21 ≠ 0 then some .copyPattern
  else if x.regions.1.any (fun r => !r.r) then some .protRead
  else if x.regions.2.any (fun r => !r.w) then some .protWrite
  else if x.regions.1.any (fun r => patBeyond (fieldAt x.desc 0 8) r.len x.esz x.counts x.sstr)
      || x.regions.2.any (fun r => patBeyond (fieldAt x.desc 8 8) r.len x.esz x.counts x.dstr) then some .copyPattern
  else if !patAligned x.src x.esz x.counts x.sstr || !patAligned x.dst x.esz x.counts x.dstr then some .misaligned
  else none

end Sys2Proof.Machine
end

