-- ==== Sys2Proof/Machine/Ops.lean ====
section
/-! DEFINITION. The shared operations: the open chunk and its buffer (R181, R287), engine accesses
(R179), landing writes with their squashes and knock-downs (R290, R312, R315), the end of a firing
(R20), a chunk's commit (R288), glue-up (R314), taking a trap and returning from it (R357, R359,
R371). -/
namespace Sys2Proof.Machine

/-! ### The open chunk -/

/-- A chunk that opens now (R287): CHMAX is read here (R41). -/
def Core.newChunk (k : Core) : Chunk :=
  { ckpt := k.t, cnt := 0, limit := wbits k.t.tr.chmax 10 0, buf := [], rd := [], wr := [], scope := 0,
    eff := [], push := [], moves := [], sealed := false, now := false, after := false,
    shadow := (match k.held with | some h => h.shadow | none => []), pars := [] }

/-- The open chunk, opened when there is none. -/
def Core.open' (k : Core) : Chunk := match k.chunk with | some ch => ch | none => k.newChunk

/-- Change the open chunk of the step's core. -/
def State.withChunk (s : State) (f : Chunk → Chunk) : State :=
  s.updMe fun k => { k with chunk := some (f k.open') }

/-- The chunk ends after the instruction that runs (R287). -/
def State.endAfter (s : State) : State := s.withChunk fun ch => { ch with sealed := true }

/-- An effect at the commit of the open chunk (R57). -/
def State.effect (s : State) (e : Effect) : State := s.withChunk fun ch => { ch with eff := ch.eff ++ [e] }

/-- Lines enter the read signature (R289). -/
def State.noteLines (s : State) (ls : List Nat) : State :=
  s.withChunk fun ch => { ch with rd := ch.rd ++ ls.filter fun l => !ch.rd.contains l }

/-- The signature entry of a window's descriptor: a chunk that used the descriptor never commits after
a WINSET of the window has replaced it (R69). -/
def descLine (key : Nat) : Nat := 2 ^ 60 + key

/-- Signature entries of what a chunk tests in a table that other agents change at their commits: the instance counts of
a launch (R96), a group context (R328), a partition's registrations (R337). A change squashes the chunk, as a write of
memory does (log 81). -/
def actLine (part lslot : Nat) : Nat := 2 ^ 61 + part * 4096 + lslot
/-- A group context. -/
def ctxLine (part grp : Nat) : Nat := 2 ^ 62 + part * 64 + grp
/-- A partition's registrations. -/
def regsLine (part : Nat) : Nat := 2 ^ 63 + part

/-- The error latch of a counter of a core, which a held firing has read with MBERR.C (R218). -/
def latchLine (c n : Nat) : Nat := 2 ^ 60 + 2 ^ 59 + c * 64 + n

/-- The descriptor an access uses, as a signature entry. -/
def Acc.descLines (x : Acc) : List Nat :=
  match x.loc with
  | .pad b z w _ => if w = 0 then [] else [descLine (windowKey b z w)]
  | _ => []

/-- The line of the scale byte that an access through an element window uses (R68). -/
def Acc.scaleLines (x : Acc) (wins : FMap Word) : List Nat :=
  let d := descOf wins x.loc
  match x.loc with
  | .pad b _ w off => if w = 0 || wBlk d = 0 then [] else linesOf (b + wBase d + off / 4 / wBlk d) 1
  | _ => []

/-- The lines an access reads: its raw bytes, the scale byte of an element, its descriptor. A counter or
an I/O register lies in no line. -/
def Acc.lines (x : Acc) (wins : FMap Word) : List Nat :=
  let r := x.raw wins
  match x.loc with
  | .pad _ _ _ _ => linesOf r.1 r.2 ++ x.descLines ++ x.scaleLines wins
  | .hbm => linesOf r.1 r.2
  | _ => []

/-- A performed read: the TLBs keep the translation and the lines enter the signature. -/
def State.noteRead (s : State) (x : Acc) : State :=
  (s.fillTlb s.cur s.myPart x.ea x.leaf).noteLines (x.lines s.winsIn)

/-- Merge masked bytes into a buffer. -/
def bufPut (buf : FMap (Byte × Byte)) (w : List (Nat × Byte × Byte)) : FMap (Byte × Byte) :=
  w.foldl (fun b p =>
    let o := FMap.get (0#8, 0#8) b p.1
    FMap.put b p.1 (o.1 ||| p.2.1, overlay o.2 p.2)) buf

/-- Buffer a store (R181): it enters the write signature, and its page's scope widens the chunk's. -/
def State.bufStore (s : State) (w : List (Nat × Byte × Byte)) (scope : Nat) : State :=
  s.withChunk fun ch =>
    { ch with buf := bufPut ch.buf w, scope := max ch.scope scope,
              wr := ch.wr ++ ((w.map fun p => p.1 / 64).dedup.filter fun l => !ch.wr.contains l) }

/-- Lines of a buffer. -/
def bufLines (buf : FMap (Byte × Byte)) : List Nat := (buf.map fun p => p.1 / 64).dedup

/-- Marked racks. -/
def markCount (m : FMap Mark) : Nat := (m.filter fun (p : Nat × Mark) => p.2.pred).length

/-- A core's marks as every other agent sees them: those of its chunks that have committed (R320). -/
def Core.marksFirm (k : Core) : FMap Mark := k.committed.marks.map fun (p : Nat × Mark) => (p.1, k.firmMark p.1)

/-- A core's marks as its running firing sees them: not those that another firing's held chunks set (R311, R320). -/
def Core.marksSeen (k : Core) : FMap Mark :=
  if k.t.heldNow then k.t.marks
  else k.t.marks.map fun (p : Nat × Mark) => if k.heldRack p.1 then (p.1, k.firmMark p.1) else p

/-- Marked racks of a cluster, as its core `c` sees its own and as other agents see the others' (R306, R320). -/
def State.marksIn (s : State) (cl c : Nat) : Nat :=
  s.cores.foldl (fun n (p : Nat × Core) =>
    if clusterOf p.1 = cl then n + markCount (if p.1 = c then p.2.marksSeen else p.2.marksFirm) else n) 0

/-- Some rack is marked in one table and not in another. -/
def marksGrow (new old : FMap Mark) : Bool :=
  new.any fun (p : Nat × Mark) => p.2.pred && !(FMap.get Mark.clear old p.1).pred

/-- The marks that core `c` shows as `k` fit the glue-up reserve of its cluster, with `pieces` of dry overflow in use, if
some of them are new: another commit may have taken the room since RKPRED was executed (R306). -/
def State.marksFit (s : State) (c : Nat) (k : Core) (pieces : Nat) : Bool :=
  let cl := clusterOf c
  let n := s.cores.foldl (fun n (p : Nat × Core) => if clusterOf p.1 = cl && p.1 ≠ c then n + markCount p.2.marksFirm else n)
    (markCount k.marksFirm)
  !marksGrow k.marksFirm (s.core c).marksFirm || (n ≤ 16 && 8192 * n + 65536 * pieces ≤ s.reserve cl)

/-- The marks of a core's chunk fit at its commit (R306). -/
def State.chunkFits (s : State) (c : Nat) : Bool :=
  s.marksFit c { s.core c with chunk := none } (s.cluster (clusterOf c)).overflow.length

/-- Marks that a chunk has made are committed: the racks among them that `ok` names capture versions from now on (R307). -/
def CoreT.settleMarks (t : CoreT) (ok : Nat → Bool) : CoreT :=
  { t with marks := t.marks.map fun (p : Nat × Mark) => if ok p.1 then (p.1, { p.2 with anew := false }) else p }

/-- Racks of a core that hold a piece of the predictor store, or will: marked for other agents or for its running firing.
An unmark frees its piece at its commit only (R306, R320). -/
def Core.marksTaken (k : Core) : Nat :=
  markCount (k.marksSeen.map fun (p : Nat × Mark) => (p.1, { p.2 with pred := p.2.pred || (k.firmMark p.1).pred }))

/-- A whole piece of dry overflow is free (R306). -/
def State.overflowRoom (s : State) (cl c : Nat) : Bool :=
  let n := s.cores.foldl (fun n (p : Nat × Core) =>
    if clusterOf p.1 = cl then n + (if p.1 = c then p.2.marksTaken else markCount p.2.marksFirm) else n) 0
  8192 * n + 65536 * (s.cluster cl).overflow.length + 65536 ≤ s.reserve cl

/-- The glue-up reserve still has room for another piece of `n` bytes (R306). -/
def State.reserveRoom (s : State) (cl c n : Nat) : Bool :=
  8192 * s.marksIn cl c + 65536 * (s.cluster cl).overflow.length + n ≤ s.reserve cl

/-- Room for a store (R181, R287, R311): a store that needs a line the full buffer of 128 lines lacks ends the
chunk first. A held firing has its chunk buffer and then a piece of 64 KiB of dry overflow, taken when it is
first needed. -/
def State.roomFor (s : State) (w : List (Nat × Byte × Byte)) : Res State :=
  let k := s.me
  let cl := clusterOf s.cur
  let mine := match k.chunk with | some ch => bufLines ch.buf | none => []
  let so := match k.solo with | some so => so.lines | none => []
  let more := ((w.map fun p => p.1 / 64).dedup.filter fun l => !mine.contains l && !so.contains l).length
  if !k.t.heldNow then
    if mine.length + so.length + more > 128 && mine.length + so.length > 0 then .error (.wait false) else .ok s
  else
    let held := match k.held with
      | some h => h.chunks.foldl (fun a ch => a + (bufLines ch.buf).length) 0
      | none => 0
    let need := mine.length + more + held
    if need ≤ 128 then .ok s
    else if need > 1152 then .error .full
    else if (s.cluster cl).overflow.contains s.cur then .ok s
    else if s.overflowRoom cl s.cur then
      .ok (s.updCluster cl fun k => { k with overflow := k.overflow ++ [s.cur] })
    else .error .full

/-- Buffer a checked store. -/
def State.store (s : State) (x : Acc) (w : List (Nat × Byte × Byte)) : Res State := do
  let s ← s.roomFor w
  .ok (((s.fillTlb s.cur s.myPart x.ea x.leaf).noteLines (x.descLines ++ x.scaleLines s.winsIn)).bufStore w x.leaf.scope)

/-- The chunk holds earlier instructions; those of solo mode count as though they formed one (R292). -/
def State.chunkBusy (s : State) : Bool :=
  (match s.me.chunk with | some ch => ch.cnt > 0 | none => false) ||
  (match s.me.solo with | some so => so.cnt > 0 | none => false)

/-- An instruction that ends the chunk before itself and is never executed again leaves no chunk open. -/
def State.noChunk (s : State) : State := s.updMe fun k => { k with chunk := none }

/-- An instruction that has taken effect for good opens a chunk to which a squash goes back only as far as the
instruction after it (log 19). -/
def State.afterThis (s : State) : State := s.updMe fun k => { k with chunk := some { k.newChunk with after := true } }

/-- An instruction that forms a chunk of its own waits until the chunk before it has committed. -/
def State.ownChunk (s : State) : Res Unit := if s.chunkBusy then .error (.wait false) else .ok ()

/-! ### Engine accesses -/

/-- The translation an engine keeps for a page, or takes now (R179). -/
def State.engXlate (s : State) (c part : Nat) (tlb : List Tlb) (va : Nat) : Option Leaf :=
  if va ≥ 2 ^ 48 then none else
  match tlbFind tlb part va with
  | some l => some l
  | none =>
    match tlbFind (s.cluster (clusterOf c)).tlb part va with
    | some l => some l
    | none => match s.walk part va with | .ok l => some l | .error _ => none

/-- Keep a translation. -/
def keepTlb (tlb : List Tlb) (part va : Nat) (l : Leaf) : List Tlb :=
  if (tlbFind tlb part va).isSome then tlb else ⟨part, va / 2 ^ l.size * 2 ^ l.size, l⟩ :: tlb

/-- The checks of R180 for an engine's access, in their order. -/
def State.engAccess (s : State) (c part : Nat) (user : Bool) (tlb : List Tlb) (wins : FMap Word)
    (hbm : Bool) (va size : Nat) (kind : Kind) : Except Cause Acc :=
  match s.engXlate c part tlb va with
  | none => .error (s.noXlate part va)
  | some p =>
    if user && !p.u then .error (if kind = .write then .protWrite else .protRead)
    else if kind ≠ .write && !p.r then .error .protRead
    else if kind ≠ .read && !p.w then .error .protWrite
    else
      let dev := p.base + va % 2 ^ p.size
      let l := s.locate dev
      let d := descOf wins l
      if l = .hbm && !hbm then .error .noDramPath else
      match windowCheck d l size with
      | some e => .error e
      | none =>
        if dev % size ≠ 0 then .error .misaligned
        else if kind ≠ .read && inMailbox d l size then .error .protWrite
        else if s.inReserve d l size then .error (if kind = .read then .protRead else .protWrite)
        else if kind ≠ .write && s.poisoned d l dev size then .error .spadUncorrectable
        else .ok ⟨va, dev, size, p, l⟩

/-- The check of a completion counter's address at a fork (R396). -/
def State.counterTarget (s : State) (c part : Nat) (user : Bool) (va : Nat) : Except Cause (Nat × Nat) :=
  match s.engXlate c part [] va with
  | none => .error (s.noXlate part va)
  | some p =>
    if (user && !p.u) || !p.w then .error .protWrite
    else
      let dev := p.base + va % 2 ^ p.size
      if dev % 4 ≠ 0 then .error .misaligned else
      match s.locate dev with
      | .counter k n => .ok (k, n)
      | _ => .error .copyPattern

/-- The check for an address that may be 0 for none: the counter, and a cause. -/
def State.cntCheck (s : State) (c part : Nat) (user : Bool) (va : Nat) : Option (Nat × Nat) × Option Cause :=
  if va = 0 then (none, none) else
  match s.counterTarget c part user va with
  | .ok k => (some k, none)
  | .error e => (none, some e)

/-- Post to a checked counter. -/
def State.postCnt (s : State) (agent : Nat) (cnt : Option (Nat × Nat)) (inc : Nat) (bad : Option (Nat × Nat × Nat)) : State :=
  match cnt with
  | some (k, n) => s.post ⟨agent, k, n, inc % 2 ^ 32, bad⟩
  | none => s

/-- A partition's region of a handle: live with its generation (R190, R191). -/
def State.region (s : State) (part h : Nat) : Option Region :=
  if h / 4096 = 0 || FMap.get 0 (s.part part).hgens (h / 4096) ≠ h % 4096 then none
  else FMap.find? (s.part part).handles (h / 4096)

/-- HNEWs of the running firing's own uncommitted chunks (R191). -/
def State.ownNews (s : State) : List (Nat × Region) :=
  let f (ch : Chunk) := ch.eff.filterMap fun e => match e with | .hnew n r => some (n, r) | _ => none
  let k := s.me
  (if k.t.heldNow then (match k.held with | some h => h.chunks.flatMap f | none => []) else []) ++
    (match k.chunk with | some ch => f ch | none => [])

/-- The region a handle names at issue (R191): its own firing's HNEWs count. -/
def State.regionSeen (s : State) (part h : Nat) : Option Region :=
  match s.region part h with
  | some r => some r
  | none =>
    if h / 4096 = 0 || FMap.get 0 (s.part part).hgens (h / 4096) ≠ h % 4096 then none
    else (s.ownNews.find? fun p => p.1 = h / 4096).map (·.2)

/-! ### The hub dies' own reads -/

/-- A read of raw bytes by the hub dies or a die's fetch agent: an uncorrectable error gives its cause (R379). -/
def State.rawWord (s : State) (dev n : Nat) : Except Cause Nat :=
  if s.spoiled dev n then .error .spadUncorrectable else .ok (leVal (s.bytesAt dev n))

/-- An aligned read of at most 8 bytes by the launch actor: raw, from window 0 of a scratchpad or from HBM
(R76); anywhere else, the counter region and an I/O page among it, WINDOW_UNDEFINED (log 75). -/
def State.hubWord (s : State) (part va n : Nat) : Except Cause Nat :=
  match s.walk part va with
  | .error _ => .error (s.noXlate part va)
  | .ok p =>
    if !p.r then .error .protRead else
    let dev := p.base + va % 2 ^ p.size
    match s.locate dev with
    | .hbm => s.rawWord dev n
    | .pad _ _ w _ => if w = 0 then s.rawWord dev n else .error .windowUndefined
    | _ => .error .windowUndefined

/-- A read of `n` aligned 8-byte words by the launch actor, first address first. -/
def State.hubRead (s : State) (part va : Nat) : Nat → Except Cause (List Byte)
  | 0 => .ok []
  | n + 1 => do
    let w ← s.hubWord part va 8
    let r ← s.hubRead part (va + 8) n
    .ok (leBytes 8 w ++ r)

/-- The group count that an indirect launch without a counter wait reads at its chunk's commit, or the cause of the
failing read (R83, R89); every other packet is left as it is. -/
def State.stampCount (s : State) (p : Pkt) : Pkt :=
  let b := p.bytes
  if fieldAt b 0 8 % 2 ^ 48 = 0xFFF000000000 && fieldAt b 8 8 = 1 && fieldAt b 0x28 8 = 0 then
    match s.hubWord p.part (fieldAt b 0x20 8) 4 with
    | .ok n => { p with count := .known n }
    | .error c => { p with count := .unread c }
  else p

/-! ### Injections (R330, R344) -/

/-- An unloaded context without flags. -/
def Group.none : Group := ⟨[], 0, 0, []⟩
/-- A group context. -/
def State.group (s : State) (part g : Nat) : Group := FMap.get Group.none (s.part part).groups g

/-- Instances of a context in flight (R328, R346). -/
def State.dvFlight (s : State) (part g : Nat) : Nat :=
  (s.dvs.filter fun (v : Dv) => !v.alone && v.part = part && v.grp = g).length

/-- The check of one 64-byte block of a contribution or a result (R344): window 0 of a scratchpad. -/
def State.dvBlock (s : State) (c part : Nat) (user write : Bool) (va : Nat) : Option Cause :=
  match s.engXlate c part [] va with
  | none => some (s.noXlate part va)
  | some p =>
    if (user && !p.u) || (if write then !p.w else !p.r) then some (if write then .protWrite else .protRead) else
    let dev := p.base + va % 2 ^ p.size
    let l := s.locate dev
    match l with
    | .hbm => some .noDramPath
    | .nothing => some .windowUndefined
    | .pad _ _ w _ =>
      if w ≠ 0 || p.io then some .copyPattern
      else if write && inMailbox 0 l 64 then some .protWrite
      else if s.inReserve 0 l 64 then some (if write then .protWrite else .protRead)
      else if !write && s.poisoned 0 l dev 64 then some .spadUncorrectable
      else none
    | _ => some .copyPattern

/-- The first failing block of a range. -/
def State.dvRange (s : State) (c part : Nat) (user write : Bool) (va len : Nat) : Option Cause :=
  ((span 0 (len / 64)).filterMap fun i => s.dvBlock c part user write (va + 64 * i)).head?

/-- The translations of a range's pages, kept for the instance's time (R179). -/
def State.dvPages (s : State) (c part : Nat) (tlb : List Tlb) (va len : Nat) : List Tlb :=
  (span 0 (len / 64)).foldl (fun t i =>
    match s.engXlate c part t (va + 64 * i) with
    | some l => keepTlb t part (va + 64 * i) l
    | none => t) tlb

/-- The first of two causes. -/
def firstCause (a b : Option Cause) : Option Cause := match a with | some x => some x | none => b

/-- Entries of a core's injection queue that are in use: from the fork until the contribution has been read (R333). -/
def State.dvHeld (s : State) (c : Nat) : Nat :=
  s.dvs.foldl (fun n v => n + (v.inj.filter fun (x : DvInj) => x.core = c && !x.read && !x.done && !x.waits).length) 0

/-- Injections of a core that wait in the engine's issue queue (R333). -/
def State.dvWaiting (s : State) (c : Nat) : List Nat :=
  s.dvs.flatMap fun v => (v.inj.filter fun (x : DvInj) => x.core = c && x.waits).map (·.born)

/-- An injection that forks now finds its core's queue full (R333). -/
def State.dvFull (s : State) (c : Nat) : Bool := s.dvHeld c ≥ 64 || !(s.dvWaiting c).isEmpty

/-- The oldest injection that waits takes a free entry (R333). -/
def State.dvAdmit (s : State) (c : Nat) : State :=
  match s.dvWaiting c with
  | [] => s
  | b :: r =>
    if s.dvHeld c ≥ 64 then s else
    let go (x : DvInj) : DvInj := if x.core = c && x.waits && x.born = r.foldl min b then { x with waits := false } else x
    { s with dvs := s.dvs.map fun (v : Dv) => { v with inj := v.inj.map go } }

/-- An injection forks: its checks, and its place in an instance of its piece (R330, R344): the first one in
which its core has not injected, else a new one. -/
def State.dvJoin (s : State) (part : Nat) (x : DvInj) : State :=
  let e := x.entry
  let ck := s.cntCheck x.core part x.user (fieldAt e 0x18 8)
  let x := { x with cnt := ck.1 }
  let d := (s.group part (eGrp e)).desc
  let lone (c : Cause) : State :=
    { s with dvs := s.dvs ++ [{ part := part, grp := eGrp e, piece := ePiece e, alone := true, inj := [x], nodes := [],
                                flags := 0, bad := some c, noticed := false }] }
  if eGrp e > 63 then lone .copyPattern
  else if d.isEmpty || !gMember d x.core then lone .dovetailGroup
  else
    let rank := gRank d x.core
    let i := s.dvs.findIdx fun (v : Dv) => !v.alone && v.part = part && v.grp = eGrp e && v.piece = ePiece e
      && v.inj.all (·.core ≠ x.core)
    let mis := match s.dvs[i]? with
      | some v => (match v.inj with | y :: _ => eMismatch d e y.entry | [] => false)
      | none => false
    let bad := if eBad d e rank then some .copyPattern
      else if mis then some .dovetailMismatch
      else firstCause ck.2 (firstCause
        (if eReads d e rank then s.dvRange x.core part x.user false (eSrc e) (eLen e) else none)
        (if eWrites d e rank then s.dvRange x.core part x.user true (eDst e) (eLen e) else none))
    let kept := if bad.isSome then [] else
      let t := if eReads d e rank then s.dvPages x.core part [] (eSrc e) (eLen e) else []
      if eWrites d e rank then s.dvPages x.core part t (eDst e) (eLen e) else t
    let x := { x with tlb := kept }
    match s.dvs[i]? with
    | some v => { s with dvs := replaceAt s.dvs i { v with inj := v.inj ++ [x], bad := firstCause v.bad bad } }
    | none =>
      { s with dvs := s.dvs ++ [{ part := part, grp := eGrp e, piece := ePiece e, alone := false, inj := [x],
                                  nodes := [], flags := 0, bad := bad, noticed := false }] }

/-! ### Units that wait for their home's reply -/

/-- Registers of two parts of a unit: each keeps what its part wrote. -/
def mergeRegs {n w : Nat} (old c a : Vector (BitVec w) n) : Vector (BitVec w) n :=
  Vector.ofFn fun i => if c.get i ≠ old.get i then c.get i else a.get i
/-- Vector registers of two parts of a unit. -/
def mergeVecs (old c a : Vector VReg 16) : Vector VReg 16 :=
  Vector.ofFn fun i => if c.get i ≠ old.get i then c.get i else a.get i

/-- A unit that waits for a reply leaves its registers as they stood before it; its pops are made (R43). -/
def CoreT.withhold (t back : CoreT) : CoreT :=
  { t with gp := back.gp, gs := back.gs, v := back.v, sd := back.sd, park := back.park }

/-- Its effect takes place at the reply: the registers that it wrote, of its level and of those that R28 shares. -/
def CoreT.complete (t : CoreT) (u : Undone) (level : Nat) : CoreT :=
  let t := { t with v := mergeVecs u.back.v u.aft.v t.v, sd := mergeRegs u.back.sd u.aft.sd t.sd }
  if level = 1 then { t with gs := mergeRegs u.back.gs u.aft.gs t.gs }
  else { t with gp := mergeRegs u.back.gp u.aft.gp t.gp,
                park := t.park.filter fun (p : Nat × Nat) => (FMap.find? u.aft.park p.1).isSome }

/-- A refusal undoes its pops: the elements and strips that it took are the oldest again (R43, R305). -/
def CoreT.restore (t : CoreT) (u : Undone) : CoreT :=
  let back (m : FMap Stream) (p : Nat × Stream) : FMap Stream :=
    match FMap.find? u.aft.streams p.1, FMap.find? m p.1 with
    | some y, some x =>
      let n := y.popped - p.2.popped
      if n = 0 then m else FMap.put m p.1 { x with staged := p.2.staged.take n ++ x.staged, popped := x.popped - n }
    | _, _ => m
  { t with streams := u.back.streams.foldl back t.streams,
           linkW := u.back.linkW.take (u.back.linkW.length - u.aft.linkW.length) ++ t.linkW,
           linkE := u.back.linkE.take (u.back.linkE.length - u.aft.linkE.length) ++ t.linkE }

/-- The units of a core that wait for a reply. -/
def Core.undone (k : Core) : List Undone := k.wait0.undone ++ k.wait1.undone

/-! ### Firings that end or are given up -/

/-- A level's firing leaves the core: streams, parked values, registrations, claims and firing-local records go with it,
and so do bindings to those records and their dry-fit marks; the other bindings stay for the firing of the other level while
there is one (R28, R126, R130, R133, R228, R273, R307; log 13). The bytes of a firing-local rack's slots, which R126 leaves
undefined, stay as they are (log 88). -/
def CoreT.dropFiring (t : CoreT) (level : Nat) : CoreT :=
  let gone := (t.locals.filter fun (p : Nat × Rack) => p.2.level = level).map (·.1)
  let other := if level = 1 then t.fir0.isSome else t.fir1.isSome
  let t := { t with locals := t.locals.filter (fun p => p.2.level ≠ level),
                    binds := if other then t.binds.filter (fun (p : Nat × Nat) => !gone.contains p.2) else [],
                    marks := t.marks.filter (fun (p : Nat × Mark) => !gone.contains p.1),
                    claims := t.claims.filter (fun (p : Nat × Nat) => p.1 / 65536 ≠ level),
                    streams := t.streams.filter (fun p => p.2.level ≠ level) }
  if level = 1 then
    { t with fir1 := none, mq1 := [], mqh1 := [], tr1 := { t.tr1 with xstat := 0 } }
  else
    { t with fir0 := none, mq0 := [], mqh := [], park := [], maskOpen := false, maskCnt := 0,
             tr0 := { t.tr0 with xstat := 0 } }

/-- Credits come back (R19). -/
def State.addCredit (s : State) (inst p n : Nat) : State :=
  if n = 0 then s else s.updInst inst fun i => { i with credit := FMap.upd 0 i.credit p (· + (n : Int)) }

/-- The unused part of a firing's reservations returns (R19, R116). -/
def State.returnRoom (s : State) (f : Firing) : State :=
  match FMap.find? s.insts f.inst with
  | none => s
  | some i =>
    let d := s.descOfInst i
    (span 0 (aNout d)).foldl (fun s p =>
      s.addCredit f.inst p (outRate (aOut d p) - FMap.get 0 f.sent p)) s

/-- The slots that a discarded or ended firing's instance holds unmark their held state. -/
def CoreT.unhold (t : CoreT) (inst : Nat) : CoreT :=
  { t with slots := t.slots.map fun (p : Nat × Slot) => if p.2.owner = some inst then (p.1, { p.2 with held := false }) else p }

/-- The commands that a level's trap entry set aside come back behind those issued since (R363, R359). -/
def Core.thaw (k : Core) (level : Nat) : Core :=
  { k with eng := { k.eng with mat := k.eng.mat ++ k.eng.aside.filter (fun (m : MatCmd) => m.frozen = level),
                               aside := k.eng.aside.filter (fun (m : MatCmd) => m.frozen ≠ level) } }

/-- A rack source that its command frees at its completion. -/
def Src.freed : Src → List Nat
  | .rack b _ _ true => [b]
  | _ => []
/-- The same source, freed by no command. -/
def Src.keep : Src → Src
  | .rack b off size _ => .rack b off size false
  | x => x
/-- The bases of the racks whose slots a command frees at its completion (R228). -/
def MatOp.freed : MatOp → List Nat
  | .mma a b => a.freed ++ b.freed
  | _ => []
/-- The command frees none. -/
def MatOp.keep : MatOp → MatOp
  | .mma a b => .mma a.keep b.keep
  | x => x

/-- Once no command has a claimed slot of a rack to free, the frees that waited for it follow (R228). -/
def Rack.flush (r : Rack) : Rack := if r.pend = 0 then { r.freed r.defer with defer := 0, due := 0 } else r

/-- The racks whose claimed slots the forked commands of a firing have yet to free, one entry for each slot (R228). -/
def Core.claimsOf (k : Core) (fir : Nat) : List Nat :=
  ((k.eng.mat ++ k.eng.aside).filter fun (m : MatCmd) => m.fir = fir).flatMap fun m => m.op.freed

/-- A discarded firing consumes no token (R20): the forked commands that would free its claimed slots at their completion
leave them filled. -/
def Core.keepClaims (k : Core) (fir : Nat) : Core :=
  let keep (l : List MatCmd) : List MatCmd := l.map fun (m : MatCmd) => if m.fir = fir then { m with op := m.op.keep } else m
  (k.claimsOf fir).foldl (fun k b => k.updRack b fun r => ({ r with pend := r.pend - 1 } : Rack).flush)
    { k with eng := { k.eng with mat := keep k.eng.mat, aside := keep k.eng.aside } }

/-- Leave solo mode: the token goes (R292). -/
def State.leaveSolo (s : State) (c : Nat) : State :=
  match (s.core c).solo with
  | none => s
  | some so =>
    let s := s.updCore c fun k => { k with solo := none }
    { s with tokens := FMap.put s.tokens (arbiter so.scope c) ((FMap.get [] s.tokens (arbiter so.scope c)).filter (· ≠ c)) }

/-- Discard the firing of a level (R20): its open chunk goes, no token is consumed, and the instance may become ready
again with its old entry time (R101). Room that it gives back may make other instances of the core ready (R16). -/
def State.discard (s : State) (c level : Nat) : State :=
  let k := s.core c
  let here : Bool := k.t.level = level
  let k := if here then { k with t := k.committed, chunk := none } else k
  match (if level = 1 then k.t.fir1 else k.t.fir0) with
  | none => s
  | some f =>
    let k := ((k.setWaiting level Waiting.idle).setSquashes level 0).keepClaims f.serial
    let k := { (k.settleSlots.both fun t => (t.dropFiring level).unhold f.inst) with
      pendImp := k.pendImp.filter (·.2.2 ≠ f.serial) }
    let s := (s.putCore c (k.thaw level)).returnRoom f
    let s := if here then s.leaveSolo c else s
    (s.updInst f.inst fun i => { i with busy := false, since := some f.entry, again := f.ord.isSome }).wakeCore c

/-! ### Racks that fill -/

/-- The predictor keeps the last two versions of a filled slot of a marked rack (R307). A firing that has unmarked the
rack in a chunk that has not committed sees none, nor does one that has marked it anew there. A tile that cannot be read
(R379) is no version, and the older ones, which are then not the last two, go (log 88). -/
def State.capture (s : State) (c base slot : Nat) : State :=
  let k := s.core c
  let m := k.firmMark base
  if !m.pred then s else
  match k.rack? base with
  | none => s
  | some r =>
    let a := padOfCore c + r.slotOff base slot
    let tile := s.bytesAt a r.slotSize
    let keep (l : List (List Byte)) : List (List Byte) := if s.spoiled a r.slotSize then [] else (tile :: l).take 2
    s.updCore c fun k => k.both fun t =>
      { t with marks := FMap.upd Mark.clear t.marks base fun m => if m.pred && !m.anew then { m with vers := keep m.vers } else m }

/-- Fill n slots of a rack (R127): versions are captured first (R307). -/
def State.fillNow (s : State) (c base n : Nat) : State :=
  let r0 := ((s.core c).rack? base).map (·.fill)
  let s := (span 0 n).foldl (fun s i => s.capture c base (r0.getD 0 + i)) s
  (s.updCore c fun k => k.updRack base fun r => r.filled n).wakeCore c

/-- Fill n slots of a rack; the real tile of an unresolved dry firing waits for the tolerance compare (R313). -/
def State.fillRack (s : State) (c base n : Nat) : State :=
  match (s.core c).held with
  | some h =>
    if h.fir.dry = some base && !h.accepted then s.updCore c fun k => k.updRack base fun r => { r with wait := r.wait + n }
    else s.fillNow c base n
  | none => s.fillNow c base n

/-- Slots that waited for a compare are filled (R313). -/
def State.fillWaiting (s : State) (c base : Nat) : State :=
  match (s.core c).rack? base with
  | none => s
  | some r =>
    if r.wait = 0 then s
    else (s.updCore c fun k => k.updRack base fun r => { r with wait := 0 }).fillNow c base r.wait

/-! ### Knock-down -/

/-- A held firing's shadow slots and takings go, but not what its handler took; its pops and its rack settings are undone
(R315, R316). -/
def CoreT.dropHeld (t : CoreT) (h : Held) (mine : Nat → Bool) : CoreT :=
  let gone := h.shadow.map (·.2) ++ h.took
  { t with slots := t.slots.filter fun p => !gone.contains p.1,
           linkW := h.links.1 ++ t.linkW, linkE := h.links.2 ++ t.linkE,
           marks := h.start.marks.foldl (fun (m : FMap Mark) (p : Nat × Mark) => if mine p.1 then FMap.put m p.1 p.2 else m)
             (t.marks.filter fun (p : Nat × Mark) => !mine p.1) }

/-- A command works on a shadow slot of the held firing (R311). -/
def Core.heldCmd (k : Core) (m : MatCmd) : Bool := k.held.any fun (h : Held) => h.shadow.any fun (p : Nat × Nat) => p.2 = m.slot

/-- Drop the core's held firing's leavings: its packets, its commands on shadow slots, queued or set aside, its shadow
slots, takings, pops and settings (R315, R316). -/
def Core.unheld (k : Core) : Core :=
  match k.held with
  | none => k
  | some h =>
    let mine := k.heldRack
    let cmds (l : List MatCmd) : List MatCmd := l.filter fun (m : MatCmd) => !k.heldCmd m
    { k with t := k.t.dropHeld h mine, held := none,
             chunk := k.chunk.map fun (ch : Chunk) => { ch with ckpt := ch.ckpt.dropHeld h mine },
             out0 := k.out0.filter fun p => !(p.held && p.spec = h.fir.inst + 1),
             eng := { k.eng with mat := cmds k.eng.mat, aside := cmds k.eng.aside } }

/-- Places, counted from FREE, of a rack's tokens that are not a sender's speculative ones. -/
def Rack.others (q : Rack) (key : Nat) : List Nat :=
  ((q.senders.zip (span 0 q.senders.length)).filter fun (x : (Nat × Nat × Nat × Nat) × Nat) => x.1.2.2.1 ≠ key).map (·.2)

/-- The speculative tokens of a sender vanish from a rack (R315). -/
def Rack.unsend (q : Rack) (key : Nat) : Rack :=
  let keep := q.senders.filter fun (x : Nat × Nat × Nat × Nat) => x.2.2.1 ≠ key
  let gone := q.senders.length - keep.length
  { q with senders := keep, nfill := q.nfill - gone, fill := (q.fill + q.n * 64 - gone) % q.n }

/-- A queue entry shows the class of the firing that its instance would start now (R25, R101). -/
def State.showClass (s : State) (e : Entry) : Entry :=
  match FMap.find? s.insts e.inst with
  | some i => { e with cls := s.classOf i }
  | none => e

/-- A sender's speculative tokens vanish from one rack: the tokens behind them move up with their bytes (R315; log 35),
and the room makes other instances ready. -/
def State.unsendRack (s : State) (c base key : Nat) : State :=
  match FMap.find? (s.core c).racks base with
  | none => s
  | some r =>
    let keep := r.others key
    if keep.length = r.senders.length then s else
    let at' (i : Nat) : Nat := padOfCore c + r.slotOff base (r.free + i)
    let moved := ((keep.zip (span 0 keep.length)).filter fun (p : Nat × Nat) => p.1 ≠ p.2).map fun (p : Nat × Nat) =>
      (at' p.2, at' p.1, r.slotSize)
    let s := (s.carry moved).updCore c fun k => k.updRack base fun r => r.unsend key
    (s.updCore c fun k => { k with runq := k.runq.map s.showClass }).wakeCore c

/-- A sender's speculative tokens vanish from every rack (R315). -/
def State.unsend (s : State) (key : Nat) : State :=
  s.cores.foldl (fun s (p : Nat × Core) => p.2.racks.foldl (fun s (q : Nat × Rack) => s.unsendRack p.1 q.1 key) s) s

/-- Change every record of every placed instance. -/
def State.mapRacks (s : State) (f : Rack → Rack) : State :=
  { s with cores := s.cores.map fun (p : Nat × Core) =>
      (p.1, { p.2 with racks := p.2.racks.map fun (q : Nat × Rack) => (q.1, f q.2) }) }

/-- A sender's speculative tokens are firm from now on (R314). -/
def Rack.firm (q : Rack) (key : Nat) : Rack :=
  { q with senders := q.senders.map fun (x : Nat × Nat × Nat × Nat) =>
      if x.2.2.1 = key then (x.1, x.2.1, 0, x.2.2.2) else x }

/-- A held firing of an instance has resolved: nothing depends on it any more, and no instance is barred from its tokens
(R312, R315). -/
def State.resolved (s : State) (inst : Nat) : State :=
  let drop (f : Firing) : Firing := { f with deps := f.deps.filter (· ≠ inst) }
  { s with
    insts := s.insts.map fun (p : Nat × Inst) => (p.1, { p.2 with barred := p.2.barred.filter (· ≠ inst) }),
    cores := s.cores.map fun (p : Nat × Core) =>
      let k := p.2.both fun t => { t with fir0 := t.fir0.map drop }
      (p.1, { k with held := k.held.map fun (h : Held) => { h with fir := drop h.fir } }) }

/-- Tokens that a held firing has sent on an output port, none of which has left for good: its held packets, and the held
fills of a rack of its core (R19, R311). -/
def State.heldSent (s : State) (c : Nat) (h : Held) (p : Nat) : Nat :=
  let k := s.core c
  (k.out0.filter fun (q : Pkt) => q.held && q.sender = (h.fir.inst + 1, p + 1)).length +
  (match FMap.find? s.insts h.fir.inst with
   | none => 0
   | some i =>
     match (if s.outLocal i p then FMap.find? s.insts (s.outDest i p) else none) with
     | none => 0
     | some j => h.chunks.foldl (fun n ch =>
         n + (ch.movesOf (s.portBase j (bits (aOut (s.descOfInst i) p) 18 16))).1) 0)

/-- A record of a firing whose held sends were dropped. -/
def State.unsent (s : State) (c : Nat) (h : Held) (f : Firing) : Firing :=
  { f with sent := f.sent.map fun (p : Nat × Nat) => (p.1, p.2 - s.heldSent c h p.1) }

/-- Knock-down of the held firing of a core (R315, R316): it and every dependant are discarded. After a conflict it is
not dry again on the token that it predicted, nor does it consume the speculative tokens again that it consumed (R312).
`fuel` bounds the depth of dependants. -/
def State.knockDown : Nat → State → Nat → Bool → State
  | 0, s, _, _ => s
  | fuel + 1, s, c, conflict =>
    let k := s.core c
    match k.held with
    | none => s
    | some h =>
      let inst := h.fir.inst
      let running := !h.ended
      let inHandler := running && k.t.fir0.any (·.inst = inst) && k.t.tr0.xstat.getLsbD 4
      let deps := (s.cores.filter fun (p : Nat × Core) => p.1 ≠ c && p.2.held.any fun (d : Held) => d.fir.deps.contains inst).map (·.1)
      let s := s.unsend (inst + 1)
      let s :=
        if inHandler then
          s.updCore c fun k => k.unheld.both fun t =>
            { t with fir0 := t.fir0.map fun f => { s.unsent c h f with down := true, held := false, dry := none } }
        else if running then
          (s.updCore c fun k =>
            let k := if k.t.level = 0 then { k with t := k.committed, chunk := none } else k
            k.unheld.both fun t => { t with fir0 := t.fir0.map fun f => { f with sent := [] } }).discard c 0
        else
          ((s.updCore c Core.unheld).returnRoom { h.fir with sent := [] }).updInst inst fun i =>
            { i with busy := false, since := some h.fir.entry, again := h.fir.ord.isSome }
      let s := s.resolved inst
      let s := if conflict then s.updInst inst fun i =>
          { i with noDry := if h.fir.dry.isSome then h.fir.dry else i.noDry, barred := (i.barred ++ h.fir.deps).dedup } else s
      let s := s.updCluster (clusterOf c) fun k => { k with overflow := k.overflow.filter (· ≠ c) }
      let s := match h.fir.dry with | some b => s.fillWaiting c b | none => s
      (deps.foldl (fun s d => State.knockDown fuel s d false) s).wakeCore c

/-- A firing whose timestamp is its cluster's NEXT is never knocked down by a conflict, a dry one among them (R318). -/
def State.firmTurn (s : State) (c : Nat) (h : Held) : Bool :=
  match h.fir.ord with
  | some t => FMap.get 0 (s.cluster (clusterOf c)).next h.fir.part = t
  | none => false

/-- The write signature of a committing write of unit `u` reaches every open chunk of its scope, which a conflict
squashes, and every held chunk, whose firing a conflict knocks down (R290, R312). The chunk that commits is open no
more. -/
def State.signal (s : State) (scope u : Nat) (lines : List Nat) : State :=
  if lines.isEmpty then s else
  let s := s.next
  s.cores.foldl (fun s p =>
    let c := p.1
    if !inScope scope u c then s else
    let s := match (s.core c).held with
      | some h =>
        if h.chunks.any (fun ch => conflicts ch.rd lines s.fresh c) && !s.firmTurn c h then State.knockDown 8 s c true else s
      | none => s
    match (s.core c).chunk with
    | some ch => if conflicts ch.rd lines s.fresh c then s.squash c true else s
    | none => s) s

/-- The latch of a counter has changed: a held firing that has read it with MBERR.C starts again. That is no conflict of
memory, so a firing whose turn has come is not spared (R218, R318; log 81). -/
def State.latchChanged (s : State) (c n : Nat) : State :=
  let read (ch : Chunk) : Bool := ch.rd.contains (latchLine c n)
  let s := match (s.core c).held with
    | some h => if h.chunks.any read then State.knockDown 8 s c true else s
    | none => s
  match (s.core c).chunk with
  | some ch => if read ch then s.squash c false else s
  | none => s

/-- A committing write that an engine or a home lands (R198, R290): `kind` and `src` name the writer for
the watchpoints (R368); a core's own atomic is no other core's write (R367). -/
def State.land (s : State) (u scope kind src : Nat) (w : List (Nat × Byte × Byte)) : State :=
  let s := s.replace w
  let s := s.watchAll kind src (if kind = 2 then some src else none) (w.map (·.1))
  s.signal scope u ((w.map fun p => p.1 / 64).dedup)

/-- The key of a level's claims on a rack (R228). -/
def claimKey (level base : Nat) : Nat := level * 65536 + base

/-- Head slots of a rack that the running firing's commands have claimed (R228). -/
def CoreT.claimed (t : CoreT) (base : Nat) : Nat := FMap.get 0 t.claims (claimKey t.level base)
/-- Change their number. -/
def CoreT.setClaimed (t : CoreT) (base n : Nat) : CoreT := { t with claims := FMap.put t.claims (claimKey t.level base) n }

/-- A level's claims on a rack fall as its slots are freed (R228). -/
def Core.unclaim (k : Core) (level base n : Nat) : Core :=
  k.both fun t => { t with claims := FMap.put t.claims (claimKey level base) (FMap.get 0 t.claims (claimKey level base) - n) }

/-- At a firing's DONE the claimed slots that its commands have yet to free count as consumed, on any rack (R20, R228). -/
def Core.dueClaims (k : Core) (fir : Nat) : Core :=
  (k.claimsOf fir).foldl (fun k b => k.updRack b fun r => { r with due := min r.pend (r.due + 1) }) k

/-- Free n slots of a rack; the frees wait behind slots whose commands still read them (R228). -/
def State.freeRack (s : State) (c base n : Nat) : State :=
  s.updCore c fun k => k.updRack base fun r => if r.pend > 0 then { r with defer := r.defer + n } else r.freed n

/-- Credit returns leave for the senders of freed slots (R19). -/
def State.payCredits (s : State) (c base : Nat) : State :=
  match (s.core c).rack? base with
  | none => s
  | some r =>
    let s := s.updCore c fun k => k.updRack base fun r => { r with owed := [] }
    { s with credits := s.credits ++ r.owed.map fun p => (p.1 - 1, p.2 - 1, 1) }

/-- An instance exits (R90): tokens in its racks are dead letters, its block, racks and slots are freed. NEXT advances for
an ordered firing of it that was discarded and would have fired again (R317). -/
def State.exitInst (s : State) (key : Nat) : State :=
  match FMap.find? s.insts key with
  | none => s
  | some i =>
    let s := match i.core with
      | none => s
      | some c =>
        let k := s.core c
        let mine := k.racks.filter fun (p : Nat × Rack) => p.2.owner = some key
        let tokens := (mine.filter fun (p : Nat × Rack) => p.2.port.isSome).foldl (fun (a : Nat) (p : Nat × Rack) => a + p.2.left.nfill) 0
        let s := s.putCore c { k.both (fun t =>
            { t with slots := (t.slots.filter fun (p : Nat × Slot) => p.2.owner ≠ some key || k.commanded p.1).map fun (p : Nat × Slot) =>
                       if p.2.owner = some key then (p.1, { p.2 with freeing := true }) else p,
                     marks := t.marks.filter fun p => !(mine.any (·.1 = p.1)) }) with
          racks := k.racks.filter fun p => p.2.owner ≠ some key,
          runq := k.runq.filter (·.inst ≠ key) }
        (span 0 tokens).foldl (fun s _ => s.deadLetter i.part .actorExited) s
    let s := match (if i.again then i.core else none) with
      | some c => s.updCluster (clusterOf c) fun k => { k with next := FMap.upd 0 k.next i.part fun n => (n + 1) % 2 ^ 32 }
      | none => s
    s.updInst key fun x => { x with st := .exited, core := none, busy := false, again := false }

/-- The end of a firing at its commit (R20, R87, R90, R116, R317): kind 0 DONE, 1 HOP, 2 STEP. -/
def State.endFiring (s : State) (c : Nat) (f : Firing) (kind : Nat) : State :=
  match FMap.find? s.insts f.inst with
  | none => s.updCore c fun k => k.both fun t => t.dropFiring f.pri
  | some i =>
    let d := s.descOfInst i
    let s := s.updCore c fun k => k.dueClaims f.serial
    let s := (span 0 (aNin d)).foldl (fun s p =>
      let b := s.portBase i p
      (s.freeRack c b (inRate (aIn d p) - FMap.get 0 f.freed p)).payCredits c b) s
    let s := s.returnRoom f
    let here : Bool := match (if f.pri = 1 then (s.core c).t.fir1 else (s.core c).t.fir0) with
      | some g => g.inst = f.inst
      | none => false
    let s := s.updCore c fun k =>
        { (if here then k.both (fun t => t.dropFiring f.pri) else k) with
          pendImp := k.pendImp.filter (·.2.2 ≠ f.serial) }
    let s := s.updInst f.inst fun x => { x with busy := false, noDry := none, since := none, again := false,
                                                atStep := kind = 2 && f.pri = 0 && !f.actend }
    let s := match f.ord with
      | some _ => s.updCluster (clusterOf c) fun k => { k with next := FMap.upd 0 k.next f.part fun n => (n + 1) % 2 ^ 32 }
      | none => s
    let ending := match s.launchOf i with | some l => l.ending | none => false
    let s := if f.actend || ending then s.exitInst f.inst else s
    s.wakeCore c

/-! ### The commit of a chunk -/

/-- The neighbour of a core on a link row: west when the flag is set (R131). -/
def neighbour (c : Nat) (west : Bool) : Option Nat :=
  let cl := clusterOf c % 128
  if cl ≥ 80 then none
  else if west then
    (if c % 16 ≠ 0 then some (c - 1) else if cl % 10 = 0 then none else some (c - 1))
  else
    (if c % 16 ≠ 15 then some (c + 1) else if cl % 10 = 9 then none else some (c + 1))

/-- A pushed strip lands in the neighbour's queue: pushed west it is read as le (R132). -/
def State.landPush (s : State) (c : Nat) (p : Bool × VReg) : State :=
  match neighbour c p.1 with
  | none => s
  | some n => s.updCore n fun k => k.both fun t =>
      if p.1 then { t with linkE := t.linkE ++ [p.2] } else { t with linkW := t.linkW ++ [p.2] }

/-- The agent number of a core's firing or engine, for the order of its increments (R207). -/
def agentOf (c kind : Nat) : Nat := c * 16 + kind

/-- A range of addresses does not lie in window 0 of a die scratchpad (R284); a page without a translation is left to the
words that reach it. -/
def State.offDie (s : State) (c part base len : Nat) : Bool :=
  (span (base / 65536) ((base + len - 1) / 65536 + 1 - base / 65536)).any fun i =>
    let va := max base (65536 * i)
    match s.engXlate c part [] va with
    | none => false
    | some p => match s.locate (p.base + va % 2 ^ p.size) with
      | .pad _ z w _ => !(z = 0x4000000 && w = 0)
      | _ => true

/-- An effect takes its place (R288, R294). `f` is the firing that made it. -/
def State.applyEffect (s : State) (c : Nat) (f : Option Firing) (e : Effect) : State :=
  let part := match f with | some f => f.part | none => (s.core c).part
  match e with
  | .post p => s.post p
  | .mbset i v => (s.updCore c fun k => { k with mb := FMap.put k.mb i v, mbLatch := FMap.del k.mbLatch i }).latchChanged c i
  | .mberrClear i dest =>
      let take (k : Core) : Core := match dest, f with
        | some (level, d), some f =>
          if (if level = 1 then k.t.fir1 else k.t.fir0).any (·.serial = f.serial) then
            k.both fun t => t.setGAt level d (word (FMap.get Latch.clear k.mbLatch i).word)
          else k
        | _, _ => k
      (s.updCore c fun k => { take k with mbLatch := FMap.del k.mbLatch i }).latchChanged c i
  | .perm w => s.updCore c fun k => { k with perm := w }
  | .winset key w => ({ s with wins := FMap.put s.wins key w }).signal 4 c [descLine key]
  | .hnew n r => s.updPart part fun p => { p with handles := FMap.put p.handles n r }
  | .mfree slots => s.updCore c fun k => slots.foldl (fun k n =>
      if k.commanded n then
        k.both fun t => { t with slots := FMap.upd Slot.free t.slots n fun x => { x with freeing := true } }
      else k.both fun t => { t with slots := FMap.del t.slots n }) k
  | .mstatClear n => s.updCore c fun k => k.both fun t =>
      { t with slots := FMap.upd Slot.free t.slots n fun x => { x with latch := Latch.clear } }
  | .dvClear g => s.updPart part fun p =>
      match FMap.find? p.groups g with
      | some x => { p with groups := FMap.put p.groups g { x with flags := 0, cause := 0 } }
      | none => p
  | .dvcfg g d => (s.updPart part fun p =>
      { p with groups := FMap.upd Group.none p.groups g fun x => { x with desc := d, lost := [] } }).signal 4 c [ctxLine part g]
  | .xpost h mb => (s.updPart part fun p => { p with regs := FMap.put p.regs h (c, mb) }).signal 4 c [regsLine part]
  | .stamp n => s.updCore c fun k => { k with out0 := k.out0.map fun (p : Pkt) => if p.held && p.seq = n then s.stampCount p else p }
  | .send p hi =>
    let p := { s.stampCount p with seq := s.fresh }
    s.next.updCore c fun k =>
      if hi then { k with out1 := k.out1 ++ [p] } else { k with out0 := k.out0 ++ [p] }
  | .streamGo t fir => s.updCore c fun k => k.both fun x =>
      match FMap.find? x.streams t with
      | some st => if st.fir = fir then { x with streams := FMap.put x.streams t { st with go := true, wins := s.wins } } else x
      | none => x
  | .copy x =>
    let rs := s.region part (fieldAt x.desc 0x10 4)
    let rd := s.region part (fieldAt x.desc 0x14 4)
    let stale := (fieldAt x.desc 0x10 4 ≠ 0 && rs.isNone) || (fieldAt x.desc 0x14 4 ≠ 0 && rd.isNone)
    let ck := s.cntCheck c part x.user (fieldAt x.desc 0x20 8)
    let x := { x with born := s.fresh, wins := s.wins, regions := (rs, rd), perms := s.cores.map (fun (p : Nat × Core) => (p.1, p.2.perm)), cnt := ck.1 }
    let bad := if stale then some Cause.staleHandle else firstCause ck.2 x.refused
    s.next.updEng c fun g => { g with copies := g.copies ++
      [{ x with bad := bad, active := g.copies.length < 32 && g.copies.all (·.active) }] }
  | .mat m =>
    let va := match m.op with | .mdrain _ | .msave _ => fieldAt m.par 0x18 8 | _ => 0
    let hs := match m.op with
      | .gauge b _ _ | .kmma b _ _ => (fieldAt b 0x18 4, fieldAt b 0x20 4)
      | _ => (0, 0)
    let ra := s.region part hs.1
    let rb := s.region part hs.2
    let stale := (hs.1 ≠ 0 && ra.isNone) || (hs.2 ≠ 0 && rb.isNone)
    let ck := s.cntCheck c part m.user va
    let bad := if stale then some Cause.staleHandle else ck.2
    let s := s.next.updEng c fun g => { g with mat := g.mat ++
      [{ m with born := s.fresh, forked := true, wins := s.wins, cnt := ck.1, regions := (ra, rb), bad := bad }] }
    let pend (s : State) (x : Src) := match x with
      | .rack b _ _ true => s.updCore c fun k => k.updRack b fun r => { r with pend := r.pend + 1 }
      | _ => s
    (match m.op with | .mma a b => pend (pend s a) b | .mmag _ _ _ => s | _ => s)
  | .mq m =>
    let r := s.region part (fieldAt m.desc 8 4)
    let bad := match r with
      | none => some Cause.staleHandle
      | some q => if q.len < m.need || s.offDie c part q.base q.len then some .mqDescriptor else if !m.zero && !q.r then some .protRead
        else if !q.w then some .protWrite else none
    s.next.updEng c fun g => { g with mq := g.mq ++ [{ m with born := s.fresh, forked := true, bad := bad, base := (r.map (·.base)).getD 0 }] }
  | .dvinj d => (s.next.dvJoin part { d with born := s.fresh, waits := s.dvFull c }).signal 4 c [ctxLine part (eGrp d.entry)]
  | .xsend x =>
    let r := s.region part (fieldAt x.desc 0 4)
    let ck := s.cntCheck c part x.user (fieldAt x.desc 0x20 8)
    let bad := if xRefused x.desc then some Cause.copyPattern else
      match r with
      | none => some Cause.staleHandle
      | some q => if fieldAt x.desc 8 8 + fieldAt x.desc 0x18 4 > q.len then some .copyPattern
        else firstCause ck.2 (if q.r then none else some .protRead)
    { s with xmsgs := s.xmsgs ++ [{ x with cnt := ck.1, bad := bad, base := (r.map (·.base)).getD 0, num := s.fresh }],
             fresh := s.fresh + 1 }
  | .io w => { s with iow := s.iow ++ [w] }
  | .far x => { s.next with far := s.far ++ [{ x with born := s.fresh }] }
  | .bar b => { s with bars := s.bars ++ [b] }
  | .setNext n => s.updCluster (clusterOf c) fun k => { k with next := FMap.put k.next part n }
  | .actnew l a =>
    let n := s.countOf part l a
    let s := s.updPart part fun p =>
      match FMap.find? p.slots l with
      | some x =>
        let a' : Actor := { at' ⟨[], 0⟩ x.actors a with count := n + 1 }
        { p with slots := FMap.put p.slots l { x with actors := replaceAt x.actors a a' } }
      | none => p
    let s := s.signal 4 c [actLine part l]
    let i : Inst :=
      { part := part, lslot := l, aidx := a, num := n, core := none, st := .unplaced, atStep := false, busy := false,
        credit := [], block := 0, mail := [], since := none, noDry := none, barred := [], again := false, tables := [],
        fwd := none, dest := none, markers := [], forced := false }
    { s with insts := FMap.put s.insts (instKey part l a n) i }
  | .ends kind => match f with | some f => s.endFiring c f kind | none => s

/-- The order in which a chunk's effects are applied: program order, but for MFREE, which frees a slot only once no command
of the chunk has it to name (R238), and for the firing's end, which comes last. -/
def effOrder (l : List Effect) : List Effect :=
  let late (e : Effect) : Nat := match e with | .mfree _ => 1 | .ends _ => 2 | _ => 0
  l.filter (late · = 0) ++ l.filter (late · = 1) ++ l.filter (late · = 2)

/-- A chunk's effects take their place, all at once (R288). -/
def State.applyChunk (s : State) (c : Nat) (f : Option Firing) (ch : Chunk) : State :=
  let w := ch.buf.map fun p => (p.1, p.2.1, p.2.2)
  let s := s.replace w
  let s := if w.isEmpty then s else s.watchAll 2 c (some c) (w.map (·.1))
  let s := s.signal ch.scope c ch.wr
  let s := ch.moves.foldl (fun s m =>
    let s := if m.2.1 = 0 then s else s.fillRack c m.1 m.2.1
    if m.2.2 = 0 then s else s.freeRack c m.1 m.2.2) s
  let s := ch.push.foldl (fun s p => s.landPush c p) s
  let s := (effOrder ch.eff).foldl (fun s e => s.applyEffect c f e) s
  if ch.moves.isEmpty then s else s.wakeCore c

/-- No other core holds the token of the chunk's arbiter (R292). -/
def State.mayCommit (s : State) (c : Nat) (ch : Chunk) : Bool :=
  match s.holder (arbiter ch.scope c) with
  | some h => h = c
  | none => true

/-- In solo mode the one-instruction chunk that has just ended is counted; the last one ends the mode (R292). -/
def State.soloStep (s : State) (c : Nat) (ch : Chunk) : State :=
  match (s.core c).solo with
  | some so =>
    if so.last then s.leaveSolo c
    else s.updCore c fun k => { k with solo := k.solo.map fun so =>
      { so with cnt := so.cnt + ch.cnt, lines := so.lines ++ (bufLines ch.buf).filter fun l => !so.lines.contains l } }
  | none => s

/-- Tolerances that a chunk of a trap handler or of a priority-1 firing has set on the placed racks of the held firing: they
have committed, whatever becomes of that firing (R316, R321). -/
def Core.keepTol (k : Core) (old : FMap Mark) : Core :=
  let one (m : FMap Mark) (p : Nat × Mark) : FMap Mark :=
    let o := FMap.get Mark.clear old p.1
    if (p.2.tolAbs = o.tolAbs && p.2.tolRel = o.tolRel) || (FMap.find? k.racks p.1).isNone || !k.heldRack p.1 then m
    else FMap.upd Mark.clear m p.1 fun x => { x with tolAbs := p.2.tolAbs, tolRel := p.2.tolRel }
  { k with held := k.held.map fun (h : Held) => { h with start := { h.start with marks := k.t.marks.foldl one h.start.marks } } }

/-- The commit of a core's chunk at its arbiter (R288-R290). A chunk whose marks no longer find room in the glue-up reserve
starts again (R306; log 81). -/
def State.commit (s : State) (c : Nat) : State :=
  let k := s.core c
  match k.chunk with
  | none => s
  | some ch =>
    if !s.mayCommit c ch then s
    else if !s.chunkFits c then s.squash c false else
    let k' : Core := { k.keepTol ch.ckpt.marks with chunk := none, t := k.t.settleMarks fun b => !k.heldRack b }
    let s := s.putCore c (k'.setSquashes k.t.level 0)
    let s := (s.applyChunk c k.t.fir ch).soloStep c ch
    if k.t.marks = ch.ckpt.marks then s else s.wakeCore c

/-- DRYFIT_BUFFER_FULL is logged, once for a held firing (R311, R322). -/
def State.noteFull (s : State) : State :=
  match s.me.held with
  | none => s
  | some h =>
    if h.full then s else
    let s := s.updMe fun k =>
      { (match h.fir.dry with
         | some b => k.both fun t => { t with marks := FMap.upd Mark.clear t.marks b fun m => { m with lastCause := Cause.dryfitFull.code } }
         | none => k) with held := some { h with full := true } }
    s.logEvent (dieOf s.cur) .dryfitFull 0 s.cur h.fir.part

/-- A packet's destination stands in the cluster of a core. -/
def State.nearPkt (s : State) (c : Nat) (p : Pkt) : Bool :=
  match FMap.find? s.insts p.key with
  | some i => (match i.core with | some d => clusterOf d = clusterOf c | none => false)
  | none => false

/-- A packet of the held firing waits for glue-up: KNOCKDOWN_DEPTH is logged (R315, R322). -/
def State.noteDepth (s : State) : State :=
  match s.me.held with
  | none => s
  | some h =>
    let s := match h.fir.dry with
      | some b => s.updMe fun k => k.both fun t =>
          { t with marks := FMap.upd Mark.clear t.marks b fun m => { m with lastCause := Cause.knockdownDepth.code } }
      | none => s
    s.logEvent (dieOf s.cur) .knockdownDepth 0 s.cur h.fir.part

/-- The effects that a held chunk keeps: its matrix commands fork when it is held, and each of its packets, which stand in the
outbox from the `n`th on, leaves its place (R89, R311). -/
def heldEffects : Nat → List Effect → List Effect
  | _, [] => []
  | n, .send _ _ :: r => .stamp n :: heldEffects (n + 1) r
  | n, .mat _ :: r => heldEffects n r
  | n, e :: r => e :: heldEffects n r

/-- A sealed chunk of a held firing is held (R311): its matrix commands on shadow slots fork now; its
packets take their outbox entries. A seventeenth waits. In solo mode each one-instruction chunk is held like any other, and
the token stays meanwhile (log 86). -/
def State.holdChunk (s : State) : State :=
  let k := s.me
  match k.chunk, k.held with
  | some ch, some h =>
    if h.chunks.length ≥ 16 then s.noteFull else
    let mats := ch.eff.filterMap fun e => match e with
      | .mat m => some { m with born := s.fresh, forked := true, wins := s.winsIn }
      | _ => none
    let pkts := ch.eff.filterMap fun e => match e with | .send p _ => some { p with held := true, spec := h.fir.inst + 1 } | _ => none
    let mine := k.out0.filter fun (p : Pkt) => p.held
    let pkts := (pkts.zip (span mine.length pkts.length)).map fun p => { p.1 with seq := p.2 }
    let rest := heldEffects mine.length ch.eff
    let ends := ch.eff.any fun e => match e with | .ends _ => true | _ => false
    let f := k.t.fir.getD h.fir
    let popW := ch.ckpt.linkW.take (ch.ckpt.linkW.length - k.t.linkW.length)
    let popE := ch.ckpt.linkE.take (ch.ckpt.linkE.length - k.t.linkE.length)
    let took := (k.t.slots.filter fun (p : Nat × Slot) => p.2.owner = some h.fir.inst
      && (FMap.get Slot.free ch.ckpt.slots p.1).owner ≠ some h.fir.inst).map (·.1)
    let h := { h with chunks := h.chunks ++ [{ ch with eff := rest, sealed := true }], fir := f, ended := h.ended || ends,
                      took := h.took ++ took, links := (h.links.1 ++ popW, h.links.2 ++ popE) }
    let t := if ends then k.t.dropFiring 0 else k.t
    let s := s.next.putMe
      { k with chunk := none, squashed := 0, held := some h, t := t, out0 := k.out0 ++ pkts,
               pendImp := if ends then k.pendImp.filter (·.2.2 ≠ f.serial) else k.pendImp,
               eng := { k.eng with mat := k.eng.mat ++ mats } }
    let s := s.soloStep s.cur ch
    (pkts.filter fun p => h.fir.depth ≥ 3 || !s.nearPkt s.cur p).foldl (fun s _ => s.noteDepth) s
  | _, _ => s

/-- A sealed chunk is held when its firing is; else it waits for its arbiter. -/
def State.settle (s : State) : State :=
  match s.me.chunk with
  | some ch => if ch.sealed && s.t.heldNow then s.holdChunk else s
  | none => s

/-! ### Glue-up -/

/-- The shadow slots replace the slots they shadow (R314). A checkpoint may stand from before a shadow slot was taken: there
the named slot stays as it is. -/
def CoreT.glueSlots (t : CoreT) (sh : FMap Nat) : CoreT :=
  { t with slots := sh.foldl (fun m p =>
      match FMap.find? m p.2 with
      | none => m
      | some x =>
        let o := FMap.get Slot.free m p.1
        FMap.put (FMap.del m p.2) p.1 { x with owner := o.owner, held := o.held, shadow := false, freeing := o.freeing }) t.slots }

/-- Whether a held firing may glue up now (R314, R315, R317, R318). -/
def State.mayGlue (s : State) (c : Nat) (h : Held) : Bool :=
  (h.fir.dry.isNone || h.accepted)
    && (match h.fir.ord with
        | some t => FMap.get 0 (s.cluster (clusterOf c)).next h.fir.part = t
        | none => true)
    && h.fir.deps.all (fun d => !(s.cores.any fun p => p.2.held.any fun g => g.fir.inst = d))
    && h.chunks.all (fun ch => match s.holder (arbiter ch.scope c) with | some x => x = c | none => true)

/-- A shadow slot's number becomes that of the slot it shadows (R314). -/
def unshadow (sh : FMap Nat) (n : Nat) : Nat :=
  match List.find? (fun (p : Nat × Nat) => p.2 = n) sh with | some p => p.1 | none => n

/-- Commands name the slots that the shadow slots replaced, an open chunk's too (R314). -/
def Core.unshadow (k : Core) (sh : FMap Nat) : Core :=
  let one (m : MatCmd) : MatCmd := { m with slot := Sys2Proof.Machine.unshadow sh m.slot }
  { k with
    eng := { k.eng with mat := k.eng.mat.map one, aside := k.eng.aside.map one },
    chunk := k.chunk.map fun (ch : Chunk) => { ch with shadow := [], eff := ch.eff.map fun e => match e with
      | .mat m => .mat (one m)
      | .mstatClear n => .mstatClear (Sys2Proof.Machine.unshadow sh n)
      | e => e } }

/-- A FENCE at which a held firing waits covers the packets that its glue-up sends, from one number to another (R297). -/
def Core.fenceHeld (k : Core) (h : Held) (lo hi : Nat) : Core :=
  match k.wait0.await with
  | .fence n _ _ =>
    if h.ended || k.t.tr0.xstat.getLsbD 4 then k else { k with wait0 := { Waiting.idle with await := .fence n lo hi } }
  | _ => k

/-- Glue-up of a core's held firing (R312, R314): its chunks take consecutive places. One whose marks find no room in the
glue-up reserve is knocked down (R306; log 81). -/
def State.glueUp (s : State) (c : Nat) : State :=
  let k := s.core c
  match k.held with
  | none => s
  | some h =>
    if !s.mayGlue c h then s
    else if !s.marksFit c { k with held := none } ((s.cluster (clusterOf c)).overflow.filter (· ≠ c)).length
    then State.knockDown 8 s c false else
    let key := h.fir.inst + 1
    let owed := ((k.eng.mat ++ k.eng.aside).filter k.heldCmd).flatMap fun m => m.op.freed
    let k := (k.unshadow h.shadow).both fun t =>
      let t := (t.glueSlots h.shadow).settleMarks k.heldRack
      let mine := match t.fir0 with | some f => f.inst = h.fir.inst | none => false
      { t with tr0 := if mine && !t.tr0.xstat.getLsbD 4 then { t.tr0 with xstat := t.tr0.xstat &&& ~~~0x20#64 } else t.tr0,
               fir0 := t.fir0.map fun f => if f.inst = h.fir.inst then { f with held := false, dry := none } else f }
    let s := s.putCore c { k with held := none }
    let s := h.freed.foldl (fun (s : State) p => s.freeRack c p.1 p.2) s
    let s := s.updCore c fun k => owed.foldl (fun k b => k.updRack b fun r => { r with pend := r.pend + 1 }) k
    let f := { h.fir with held := false }
    let s := h.chunks.foldl (fun s ch => s.applyChunk c (some f) ch) s
    let n := s.fresh
    let s := { s.updCore c fun k => (k.fenceHeld h n (n + 1024)) with fresh := n + 1024 }
    let s := s.updCore c fun k => { k with out0 := (k.out0.filter fun p => !(p.spec = key && p.given)).map fun p =>
      if p.spec = key then { p with held := false, spec := 0, seq := n + p.seq } else p }
    let s := (s.mapRacks fun q => q.firm key).resolved h.fir.inst
    (s.updCluster (clusterOf c) fun k => { k with overflow := k.overflow.filter (· ≠ c) }).wakeCore c

/-! ### Traps -/

/-- XCAUSE (R37). -/
def xcauseOf (c : Cause) (imp secw : Bool) : Word := word (c.code + 256 * b2n secw + 512 * b2n imp)

/-- Stop the firing of the running level (R359): it is discarded, its instance is stopped, and a fault
packet tells the supervisor; a held firing is knocked down (R315). `first` holds XCAUSE and XPC of a trapped firing whose handler trapped. -/
def State.stopFiring (s : State) (xcause xpc xval : Word) (first : Option (Word × Word)) : State :=
  let t := s.t
  match t.fir with
  | none => s
  | some f =>
    let handle := match FMap.find? s.insts f.inst with | some i => s.handleOf i | none => 0
    let mine : Bool := match s.me.held with | some h => h.fir.inst = f.inst | none => false
    let s := if mine then State.knockDown 8 s s.cur false else s
    let s := s.discard s.cur f.pri
    let s := s.updInst f.inst fun i => { i with st := .stopped, since := none }
    let s := s.updMe fun k => { k with runq := k.runq.filter (·.inst ≠ f.inst) }
    s.tellSup (s.cur + 1) f.part [handle, xcause.toNat, xpc.toNat, xval.toNat, s.cur,
      (match first with | some p => p.1.toNat | none => 0), (match first with | some p => p.2.toNat | none => 0)]

/-- A level's trap entry freezes the matrix unit (R263, R363): every queued command and a KMMA between its draws are set
aside, whichever firing issued them, so that the queue is empty; another command that runs is finished; and the
instance's slots become held. -/
def Core.freeze (k : Core) (level inst : Nat) : Core :=
  let goes (m : MatCmd) : Bool := !m.started || (match m.op with | .kmma _ _ _ => true | _ => false)
  let k := { k with eng := { k.eng with aside := k.eng.aside ++ (k.eng.mat.filter goes).map (fun (m : MatCmd) => { m with frozen := level }),
                                        mat := k.eng.mat.filter fun (m : MatCmd) => !goes m } }
  k.both fun t => { t with slots := t.slots.map fun (p : Nat × Slot) => if p.2.owner = some inst then (p.1, { p.2 with held := true }) else p }

/-- A wait for an event of the trapped instruction is over: the instruction arms it again if it is issued again (R372). -/
def Core.unarm (k : Core) (level : Nat) : Core :=
  match (k.waiting level).await with
  | .wfi _ _ _ | .fence _ _ _ => k.setWaiting level Waiting.idle
  | _ => k

/-- Enter the handler, or stop the firing (R357, R359): the chunk before the instruction has ended.
XPC, XVAL and XCAUSE are written; PSUP, PPRI, PMASK, DRY, INTRAP and SUP are set; the masked window
closes with its count; control goes to XVEC. -/
def State.enterTrap (s : State) (c : Cause) (xval xpc : Word) (imp secw : Bool) : State :=
  let s := s.next
  let t := s.t
  match t.fir with
  | none => s
  | some f =>
    let cause := xcauseOf (if t.inTrap then .doubleTrap else c) imp secw
    let old := t.tr
    let s := s.updMe fun k => k.both fun t =>
      { t.updTr (fun r => { r with xcause := cause, xval := xval, xpc := xpc }) with
        watchRec := if c = .watchData then xval else t.watchRec }
    if t.inTrap then s.stopFiring cause xpc xval (some (old.xcause, old.xpc))
    else if old.xvec = 0 then s.stopFiring cause xpc xval none
    else
        let dry := b2n f.held
        let pm := b2n (t.maskOpen && c ≠ .maskWindow)
        let st := word (1 + 2 * (old.xstat.toNat % 2) + 4 * f.pri + 8 * pm + 16 + 32 * dry)
        s.updMe fun k =>
          let k := (k.freeze f.pri f.inst).unarm t.level
          k.both fun t => { (t.updTr fun r => { r with xstat := st }).updFir (fun g => { g with pc := old.xvec }) with
            npc := old.xvec, maskOpen := false, mqh := if f.pri = 1 then t.mqh else [],
            mqh1 := if f.pri = 1 then [] else t.mqh1 }

/-- The open chunk of a core ends where issue stopped, as pre-emption ends it (R27): it commits, or joins its held firing's
chunks, or is squashed where these have no place for it. It stays while its arbiter's token stands elsewhere. -/
def State.cutChunk (s : State) (c : Nat) : State :=
  let back := s.cur
  let s : State := { s with cur := c }
  let s := match s.me.chunk with
    | none => s
    | some ch =>
      if ch.cnt = 0 then s.noChunk else
      let s := s.endAfter
      if s.t.heldNow then
        let s := s.holdChunk
        if s.me.chunk.isSome then s.squash c false else s
      else s.commit c
  { s with cur := back }

/-- Keep the pc where it is: the instruction has not completed. -/
def State.stay (s : State) : State := s.updMe fun k => { k with stayed := true }

/-- The end of a turn in which the instruction stayed: it ends solo mode, whose chunk ended before it (R292). -/
def State.endStay (s : State) : State :=
  let s := s.updMe fun k => { k with stayed := false, second := false }
  if s.me.solo.isSome then s.leaveSolo s.cur else s

/-- An instruction waits (R287): a chunk with earlier instructions ends before it; an empty one is
closed. -/
def State.stall (s : State) : State :=
  let s := s.updMe fun k => { k with chunk := match k.chunk with
    | some ch => if ch.cnt = 0 then none else some { ch with sealed := true }
    | none => none }
  s.stay

/-- A precise trap at the instruction (R357): the open chunk ends before it and commits, or is held with
its firing; while its arbiter's token stands elsewhere the instruction waits and is tried again, and so it is when the
chunk is squashed. -/
def State.takeTrap (s : State) (c : Cause) (xval xpc : Word) (imp secw : Bool) : State :=
  match s.me.chunk with
  | none => (s.enterTrap c xval xpc imp secw).stay
  | some ch =>
    if ch.cnt = 0 then ((s.updMe fun k => { k with chunk := none }).enterTrap c xval xpc imp secw).stay
    else
      let s' := s.withChunk fun ch => { ch with sealed := true }
      if s.t.heldNow then
        let s'' := s'.holdChunk
        if s''.me.chunk.isSome then s'.stay else (s''.enterTrap c xval xpc imp secw).stay
      else
        let s'' := s'.commit s.cur
        if s''.me.chunk.isSome || !s'.chunkFits s.cur then s''.stay else (s''.enterTrap c xval xpc imp secw).stay

/-- The faulting word is the second of its unit (R37, R43). -/
def State.secw (s : State) : Bool := s.t.pc.getLsbD 2 || s.me.second

/-- How a meaning ends: with its effect, with a precise trap at the instruction, or waiting. Inside a
masked window a wait is MASK_WINDOW_EXCEEDED (R112), whose XVAL is free. The instruction's effect is discarded in the
last two. -/
def finish (s : State) (r : Res State) : Host.Outcome State Fault Refusal :=
  match r with
  | .ok s' => .next s'
  | .error .full =>
    if s.t.maskOpen then .next (s.noteFull.takeTrap .maskWindow (Config.freeXval s.fresh) s.t.pc false s.secw) else .next s.noteFull.stall
  | .error (.trap c v imp) => .next (s.takeTrap c v s.t.pc imp s.secw)
  | .error (.wait m) =>
    if m && s.t.maskOpen then .next (s.takeTrap .maskWindow (Config.freeXval s.fresh) s.t.pc false s.secw) else .next s.stall

/-- Control goes to an address (R57). -/
def State.goto (s : State) (a : Nat) : State := s.updT fun t => { t with npc := word a }
/-- The address R45 gives for the instruction that follows. -/
def State.nextPc (s : State) : Word := s.t.npc

/-- Where a unit's bytes lie: the code store of the core's die (R119). -/
def State.codeWord (s : State) (a : Nat) : Option (BitVec 32) :=
  match s.t.fir with
  | none => none
  | some f =>
    if a < f.lo || a + 4 > f.hi then none else
    match (s.die (dieOf s.cur)).code.find? fun c =>
        c.part = f.part && c.image = f.lo && c.bytes.length = f.hi - f.lo with
    | none => none
    | some c => some (BitVec.ofNat 32 (fieldAt c.bytes (a - f.lo) 4))

/-- check_target: R46, then R122. -/
def State.checkTarget (s : State) (a : Nat) : Res Unit :=
  match s.t.fir with
  | none => .ok ()
  | some f =>
    let inside := f.lo ≤ a && a + 4 ≤ f.hi
    let pair := a % 8 = 4 && (match s.codeWord (a - 4) with | some w => w.getLsbD 31 | none => false)
    if pair then fault .targetInPair a
    else if !inside then fault .protExec a
    else .ok ()

end Sys2Proof.Machine
end

