-- ==== Sys2Proof/Machine/Operands.lean ====
section
/-! DEFINITION. Operand forms: registers that may be bound to streams (R32, R130), vector fields that
may name a link (R33, R132), parked registers (R133), blocks that an instruction reads whole. -/
namespace Sys2Proof.Machine

/-! ### Streams -/

/-- The stream a register is bound to, by number, plus 32 for a vector register. A priority-1 firing
sees no binding of g24-g31 (R28, R130), a trap handler none at all (R358). -/
def CoreT.bound (t : CoreT) (key : Nat) : Option Stream :=
  if t.inTrap || (t.fir1.isSome && key < 32) then none else FMap.find? t.streams key

/-- Elements of the pattern (R129). -/
def Stream.total (x : Stream) : Nat := x.counts.foldl (· * ·) 1

/-- Whether a register can be read now: a bound one needs a staged element that its refill could read
(R130). -/
def CoreT.readable (t : CoreT) (key : Nat) : Res Unit :=
  match t.bound key with
  | none => .ok ()
  | some x =>
    match x.staged with
    | e :: _ => (match e.bad with | some (c, a) => fault c a | none => .ok ())
    | [] => if x.popped ≥ x.total then fault .streamUnbound key else .error (.wait true)

/-- Whether a register can be written: a bound one cannot (R130). -/
def CoreT.writable (t : CoreT) (key : Nat) : Res Unit :=
  if (t.bound key).isSome then fault .streamUnbound key else .ok ()

/-- A general register's value for an instruction: the next element when it is bound. -/
def CoreT.gIn (t : CoreT) (r : Reg) : Word :=
  match t.bound r.toNat with
  | some x => (match x.staged with | e :: _ => word e.val | [] => t.g r)
  | none => t.g r

/-- The lanes of a strip held as a number. -/
def laneList (n : Nat) : VReg := Vector.ofFn fun i => BitVec.ofNat 32 (n >>> (32 * i.val))
/-- A strip as a number. -/
def stripNat (v : VReg) : Nat := v.toList.foldr (fun x a => x.toNat + 2 ^ 32 * a) 0
/-- A strip of 16 lanes of a list. -/
def stripLanes (l : List Lane) : VReg := Vector.ofFn fun i => at' 0#32 l i.val

/-- The bytes of a strip. -/
def stripBytes (v : VReg) : List Byte := v.toList.flatMap fun x => leBytes 4 x.toNat
/-- The strip of 64 bytes. -/
def stripOf (bs : List Byte) : VReg := laneList (leVal bs)

/-- A vector field's value for an instruction: a register, the next strip of its stream, or the oldest
strip of a link. -/
def CoreT.vIn (t : CoreT) (r : Reg) : VReg :=
  match t.bound (32 + r.toNat) with
  | some x => (match x.staged with | e :: _ => laneList e.val | [] => t.vec r)
  | none => t.vec r

/-- Pop a bound register once: it then holds the element (R130, R148). -/
def CoreT.popKey (t : CoreT) (key : Nat) : CoreT :=
  match t.bound key with
  | none => t
  | some x =>
    match x.staged with
    | [] => t
    | e :: rest =>
      let t := { t with streams := FMap.put t.streams key { x with staged := rest, popped := x.popped + 1 } }
      if key < 32 then t.setG (BitVec.ofNat 5 key) (word e.val) else t.setV (key - 32) (laneList e.val)

/-- A read clears a register's parked bit (R133). -/
def CoreT.unpark (t : CoreT) (r : Reg) : CoreT :=
  if t.fir1.isSome then t else { t with park := FMap.del t.park r.toNat }

/-! ### What an instruction reads and writes -/

/-- The registers an instruction names. -/
structure Use where
  /-- General registers read. -/
  rg : List Reg := []
  /-- General registers written. -/
  wg : List Reg := []
  /-- Vector fields read. -/
  rv : List Reg := []
  /-- Vector fields written. -/
  wv : List Reg := []
  /-- FWD (R132). -/
  fwd : Bool := false
  /-- Links that an engine pops after the fork (R229). -/
  late : List Reg := []

/-- Stream keys of register fields: numbers, plus 32 for vector fields. -/
def keysOf (g v : List Reg) : List Nat := g.map (fun (r : Reg) => r.toNat) ++ v.map (fun (r : Reg) => 32 + r.toNat)

/-- lw is read. -/
def Use.west (u : Use) : Bool := u.rv.contains 16#5
/-- le is read. -/
def Use.east (u : Use) : Bool := u.rv.contains 17#5

/-- Pushes through an edge: west when the flag is set, forwarded strips included (R132). -/
def Use.pushes (u : Use) (west : Bool) : Nat :=
  u.wv.count (if west then 16#5 else 17#5) + b2n (u.fwd && (if west then u.east else u.west))

/-- Room for pushes in the neighbour's queue of 4 strips: filled entries, entries popped tentatively and
pushes not yet landed count, those of units that wait for a reply too (R43, R132). An edge without a neighbour takes
everything. -/
def State.linkRoom (s : State) (west : Bool) (n : Nat) : Bool :=
  if n = 0 then true else
  match neighbour s.cur west with
  | none => true
  | some nb =>
    let k := s.core nb
    let q := if west then k.committed.linkE else k.committed.linkW
    let back := match k.held with | some h => (if west then h.links.2 else h.links.1).length | none => 0
    let popped := k.undone.foldl (fun n u => n + (if west then u.back.linkE.length - u.aft.linkE.length
      else u.back.linkW.length - u.aft.linkW.length)) 0
    let pend (ch : Chunk) := (ch.push.filter fun p => p.1 = west).length
    let mine := (match s.me.chunk with | some ch => pend ch | none => 0)
      + (match s.me.held with | some h => h.chunks.foldl (fun a ch => a + pend ch) 0 | none => 0)
      + s.me.undone.foldl (fun a u => a + (u.push.filter fun p => p.1 = west).length) 0
    q.length + back + popped + mine + n ≤ 4

/-- Checks of a list, the first failure standing. -/
def allOk (f : Nat → Res Unit) : List Nat → Res Unit
  | [] => .ok ()
  | x :: r => match f x with | .ok () => allOk f r | .error e => .error e

/-- An instruction can issue under R123, as far as its registers and links go: no destination is bound,
every stream and link it pops has a strip, every push has room. -/
def State.ready (s : State) (u : Use) : Res Unit := do
  allOk s.t.writable (keysOf u.wg u.wv)
  allOk s.t.readable (keysOf u.rg u.rv)
  if u.west && s.t.linkW.isEmpty then .error (.wait true)
  else if u.east && s.t.linkE.isEmpty then .error (.wait true)
  else if !s.linkRoom true (u.pushes true) || !s.linkRoom false (u.pushes false) then .error (.wait true)
  else .ok ()

/-- Push a strip: it lands in the neighbour's queue at the commit (R132). -/
def State.pushStrip (s : State) (west : Bool) (x : VReg) : State :=
  s.withChunk fun ch => { ch with push := ch.push ++ [(west, x)] }

/-- Lines of the stream elements that an instruction pops. -/
def CoreT.popLines (t : CoreT) (u : Use) : List Nat :=
  (keysOf u.rg u.rv).dedup.flatMap fun k => match t.bound k with
    | some x => (match x.staged with | e :: _ => e.lines | [] => [])
    | none => []

/-- Popped elements enter the read signature (R289). -/
def State.notePops (s : State) (u : Use) : State :=
  if (s.t.popLines u).isEmpty then s else s.noteLines (s.t.popLines u)

/-- The pops of an instruction: each stream and each link it reads once; forwarded strips go onward;
parked bits of registers it reads clear. -/
def State.take (s : State) (u : Use) : State :=
  let w := s.t.linkW.headD VReg.zero
  let e := s.t.linkE.headD VReg.zero
  let s := s.notePops u
  let s := s.updT fun t =>
    let t := u.rg.foldl (fun t r => t.unpark r) t
    let t := (keysOf u.rg u.rv).dedup.foldl (fun t k => t.popKey k) t
    { t with linkW := if u.west then t.linkW.drop 1 else t.linkW,
             linkE := if u.east then t.linkE.drop 1 else t.linkE }
  let s := if u.fwd && u.west then s.pushStrip false w else s
  if u.fwd && u.east then s.pushStrip true e else s

/-- Write a vector field: a register, or a push through an edge (R132). -/
def State.putV (s : State) (r : Reg) (x : VReg) : State :=
  if r = 16#5 then s.pushStrip true x
  else if r = 17#5 then s.pushStrip false x
  else s.updT fun t => t.setV r.toNat x

/-- An instruction with the effect `f` of the state after its pops. -/
def State.doing (s : State) (u : Use) (f : State → Res State) : Res State := do
  s.ready u
  f (s.take u)

/-- An instruction that writes one general register with a value and does nothing else. -/
def State.writeG (s : State) (u : Use) (d : Reg) (w : Word) : Res State :=
  s.doing u fun s => .ok (s.setG d w)

/-- An instruction that writes one vector field with a value and does nothing else. -/
def State.writeV (s : State) (u : Use) (d : Reg) (x : VReg) : Res State :=
  s.doing u fun s => .ok (s.putV d x)

/-- A general register's value for the running instruction. -/
def State.gIn (s : State) (r : Reg) : Word := s.t.gIn r
/-- A vector field's value for the running instruction. -/
def State.vIn (s : State) (r : Reg) : VReg := s.t.vIn r

/-- The link among rack-or-link fields: 16 is lw, 17 is le (R228, R229). -/
def linkFields (l : List Reg) : List Reg := l.filter fun r => 16 ≤ r.toNat

/-- Every register MQLD could write (R44, R283). -/
def mqRegs (d : Reg) : List Reg := (span d.toNat (min 8 (16 - d.toNat))).map (BitVec.ofNat 5 ·)

/-- The registers each instruction names in its word (R44, R123). -/
def useOf : Instr → Use
  | .jal link _ => { wg := [link] }
  | .j _ => {}
  | .beq a b _ => { rg := [a, b] }
  | .bne a b _ => { rg := [a, b] }
  | .blt a b _ => { rg := [a, b] }
  | .bge a b _ => { rg := [a, b] }
  | .bltu a b _ => { rg := [a, b] }
  | .bgeu a b _ => { rg := [a, b] }
  | .jalr d a _ => { rg := [a], wg := [d] }
  | .jr a _ => { rg := [a] }
  | .loop d a _ => { rg := [a], wg := [d] }
  | .ldB d a _ => { rg := [a], wg := [d] }
  | .ldBu d a _ => { rg := [a], wg := [d] }
  | .ldH d a _ => { rg := [a], wg := [d] }
  | .ldHu d a _ => { rg := [a], wg := [d] }
  | .ldW d a _ => { rg := [a], wg := [d] }
  | .ldWu d a _ => { rg := [a], wg := [d] }
  | .ldD d a _ => { rg := [a], wg := [d] }
  | .stB d a _ => { rg := [d, a] }
  | .stH d a _ => { rg := [d, a] }
  | .stW d a _ => { rg := [d, a] }
  | .stD d a _ => { rg := [d, a] }
  | .ldxB d a b => { rg := [a, b], wg := [d] }
  | .ldxBu d a b => { rg := [a, b], wg := [d] }
  | .ldxH d a b => { rg := [a, b], wg := [d] }
  | .ldxHu d a b => { rg := [a, b], wg := [d] }
  | .ldxW d a b => { rg := [a, b], wg := [d] }
  | .ldxWu d a b => { rg := [a, b], wg := [d] }
  | .ldxD d a b => { rg := [a, b], wg := [d] }
  | .stxB d a b => { rg := [d, a, b] }
  | .stxH d a b => { rg := [d, a, b] }
  | .stxW d a b => { rg := [d, a, b] }
  | .stxD d a b => { rg := [d, a, b] }
  | .vld d a _ => { rg := [a], wv := [d] }
  | .vst d a _ => { rg := [a], rv := [d] }
  | .vldt d a _ => { rg := [a], wv := [d] }
  | .tmov d a b => { rg := [d, a, b] }
  | .amoadd d a b _ _ => { rg := [a, b], wg := [d] }
  | .amofadd d a b _ => { rg := [a, b], wg := [d] }
  | .amoswp d a b _ _ => { rg := [a, b], wg := [d] }
  | .amocas d a b c _ _ => { rg := [a, b, c], wg := [d] }
  | .amomin d a b _ _ => { rg := [a, b], wg := [d] }
  | .amomax d a b _ _ => { rg := [a, b], wg := [d] }
  | .fence _ => {}
  | .mbinc b _ => { rg := [b] }
  | .mbincImm _ _ => {}
  | .mbincGlobal a b => { rg := [a, b] }
  | .mbincGlobalImm a _ => { rg := [a] }
  | .mbwait d a _ => { rg := [a], wg := [d] }
  | .mbrd d _ => { wg := [d] }
  | .mbset a _ => { rg := [a] }
  | .mberr d _ => { wg := [d] }
  | .mberrC d _ => { wg := [d] }
  | .barInit a b => { rg := [a, b] }
  | .barArv d a b => { rg := [a, b], wg := [d] }
  | .barDrop d a b => { rg := [a, b], wg := [d] }
  | .barWait d a b => { rg := [a, b], wg := [d] }
  | .cpy d a _ => { rg := [a], wg := [d] }
  | .cpy3 d a _ => { rg := [a], wg := [d] }
  | .cwait d a _ => { rg := [a], wg := [d] }
  | .cstat d _ => { wg := [d] }
  | .cstatC d _ => { wg := [d] }
  | .perm d a => { rg := [a], wg := [d] }
  | .rkset _ a => { rg := [a] }
  | .rkwf _ _ => {}
  | .rkws _ _ => {}
  | .rkadv _ _ _ => {}
  | .rkrd d _ _ => { wg := [d] }
  | .stbind _ a _ => { rg := [a] }
  | .stunb _ _ => {}
  | .park a => { rg := [a] }
  | .unpark a => { rg := [a] }
  | .mzero _ => {}
  | .mown d a => { rg := [a], wg := [d] }
  | .mfree a => { rg := [a] }
  | .mma _ a b => { rg := [a, b] }
  | .mmar _ a b => { rg := [a], late := linkFields [b] }
  | .mmarAk _ a b => { late := linkFields [a, b] }
  | .mmag _ a b c => { rg := [a, c], rv := [b] }
  | .mldc _ a => { rg := [a] }
  | .mdrain _ a => { rg := [a] }
  | .mdrainReg _ d _ => { wv := [d] }
  | .mpar _ a => { rg := [a] }
  | .msave _ a => { rg := [a] }
  | .mrest _ a => { rg := [a] }
  | .mstat d _ => { wg := [d] }
  | .mstatC d _ => { wg := [d] }
  | .mwait d a => { rg := [a], wg := [d] }
  | .gauge a _ _ => { rg := [a] }
  | .kmma _ a _ => { rg := [a] }
  | .kvar d _ => { wg := [d] }
  | .kstat d _ => { wg := [d] }
  | .seedw _ a => { rg := [a] }
  | .seedr d _ => { wg := [d] }
  | .mqdef d a => { rg := [a], wg := [d] }
  | .mqld d a c b => { rg := [a, b], rv := [c], wv := mqRegs d }
  | .mqsc d a c b => { rg := [a, b], rv := c :: mqRegs d }
  | .mqz a b => { rg := [a, b] }
  | .mqstat d a b => { rg := [a, b], wg := [d] }
  | .send a _ _ _ => { rg := [a] }
  | .sendp a b c _ => { rg := [a, b, c] }
  | .hop a b => { rg := [a, b] }
  | .kilnrd d _ => { wg := [d] }
  | .launch a b => { rg := [a, b] }
  | .launchi a b c => { rg := [a, b, c] }
  | .actnew d a => { rg := [a], wg := [d] }
  | .lchstat d a => { rg := [a], wg := [d] }
  | .rkpred _ a => { rg := [a] }
  | .dfit _ a => { rg := [a] }
  | .dftol _ a => { rg := [a] }
  | .dfstat d _ => { wg := [d] }
  | .ordt a => { rg := [a] }
  | .ordtReadNext d => { wg := [d] }
  | .ordtSetNext a => { rg := [a] }
  | .ordtReadT d => { wg := [d] }
  | .ordsend a b _ => { rg := [a, b] }
  | .dvcfg d a _ => { rg := [a], wg := [d] }
  | .dvinj d a => { rg := [a], wg := [d] }
  | .dvext d => { wv := [d] }
  | .dvstat d _ => { wg := [d] }
  | .dvstatC d _ => { wg := [d] }
  | .xpost d a _ => { rg := [a], wg := [d] }
  | .xsend d a => { rg := [a], wg := [d] }
  | .xcc d a => { rg := [a], wg := [d] }
  | .trap _ => {}
  | .brk _ => {}
  | .wfi d a => { rg := [a], wg := [d] }
  | .csrrd g _ => { wg := [g] }
  | .csrwr g _ => { rg := [g] }
  | .csrsw g _ => { rg := [g], wg := [g] }
  | .ctxsave d a b => { rg := [a, b], wg := [d] }
  | .ctxrest d a b => { rg := [a, b], wg := [d] }
  | .ctxrestAny d a b => { rg := [a, b], wg := [d] }
  | .watch d a b => { rg := [a, b], wg := [d] }
  | .winset d a b => { rg := [a, b], wg := [d] }
  | .winsetRead d a => { rg := [a], wg := [d] }
  | .probe d a => { rg := [a], wg := [d] }
  | .tlbi a _ => { rg := [a] }
  | .hnew d a b => { rg := [a, b], wg := [d] }
  | .hrev d a => { rg := [a], wg := [d] }
  | .hchk d a => { rg := [a], wg := [d] }
  | .add d a b => { rg := [a, b], wg := [d] }
  | .sub d a b => { rg := [a, b], wg := [d] }
  | .and d a b => { rg := [a, b], wg := [d] }
  | .or d a b => { rg := [a, b], wg := [d] }
  | .xor d a b => { rg := [a, b], wg := [d] }
  | .sll d a b => { rg := [a, b], wg := [d] }
  | .srl d a b => { rg := [a, b], wg := [d] }
  | .sra d a b => { rg := [a, b], wg := [d] }
  | .slt d a b => { rg := [a, b], wg := [d] }
  | .sltu d a b => { rg := [a, b], wg := [d] }
  | .mul d a b => { rg := [a, b], wg := [d] }
  | .mulh d a b => { rg := [a, b], wg := [d] }
  | .mulhu d a b => { rg := [a, b], wg := [d] }
  | .div d a b => { rg := [a, b], wg := [d] }
  | .divu d a b => { rg := [a, b], wg := [d] }
  | .rem d a b => { rg := [a, b], wg := [d] }
  | .remu d a b => { rg := [a, b], wg := [d] }
  | .min d a b => { rg := [a, b], wg := [d] }
  | .max d a b => { rg := [a, b], wg := [d] }
  | .minu d a b => { rg := [a, b], wg := [d] }
  | .maxu d a b => { rg := [a, b], wg := [d] }
  | .clz d a => { rg := [a], wg := [d] }
  | .ctz d a => { rg := [a], wg := [d] }
  | .popc d a => { rg := [a], wg := [d] }
  | .andn d a b => { rg := [a, b], wg := [d] }
  | .addi d a _ => { rg := [a], wg := [d] }
  | .andi d a _ => { rg := [a], wg := [d] }
  | .ori d a _ => { rg := [a], wg := [d] }
  | .xori d a _ => { rg := [a], wg := [d] }
  | .slli d a _ => { rg := [a], wg := [d] }
  | .srli d a _ => { rg := [a], wg := [d] }
  | .srai d a _ => { rg := [a], wg := [d] }
  | .slti d a _ => { rg := [a], wg := [d] }
  | .sltiu d a _ => { rg := [a], wg := [d] }
  | .li d _ => { wg := [d] }
  | .lih d _ => { rg := [d], wg := [d] }
  | .lea d a b _ => { rg := [a, b], wg := [d] }
  | .bfx d a _ _ => { rg := [a], wg := [d] }
  | .bfxu d a _ _ => { rg := [a], wg := [d] }
  | .bfi d a _ _ => { rg := [a, d], wg := [d] }
  | .sel d a b c => { rg := [a, b, c], wg := [d] }
  | .fadd d a b => { rg := [a, b], wg := [d] }
  | .fsub d a b => { rg := [a, b], wg := [d] }
  | .fmul d a b => { rg := [a, b], wg := [d] }
  | .fdiv d a b => { rg := [a, b], wg := [d] }
  | .fsqrt d a => { rg := [a], wg := [d] }
  | .fmin d a b => { rg := [a, b], wg := [d] }
  | .fmax d a b => { rg := [a, b], wg := [d] }
  | .feq d a b => { rg := [a, b], wg := [d] }
  | .flt d a b => { rg := [a, b], wg := [d] }
  | .fle d a b => { rg := [a, b], wg := [d] }
  | .fabs d a => { rg := [a], wg := [d] }
  | .fneg d a => { rg := [a], wg := [d] }
  | .ftoi d a => { rg := [a], wg := [d] }
  | .ftoiu d a => { rg := [a], wg := [d] }
  | .itof d a => { rg := [a], wg := [d] }
  | .itofu d a => { rg := [a], wg := [d] }
  | .fclass d a => { rg := [a], wg := [d] }
  | .fmadd d a b c => { rg := [a, b, c], wg := [d] }
  | .fmsub d a b c => { rg := [a, b, c], wg := [d] }
  | .fnmadd d a b c => { rg := [a, b, c], wg := [d] }
  | .fnmsub d a b c => { rg := [a, b, c], wg := [d] }
  | .vadd d a b fwd => { rv := [a, b], wv := [d], fwd := fwd = 1#1 }
  | .vsub d a b fwd => { rv := [a, b], wv := [d], fwd := fwd = 1#1 }
  | .vmul d a b fwd => { rv := [a, b], wv := [d], fwd := fwd = 1#1 }
  | .vmin d a b fwd => { rv := [a, b], wv := [d], fwd := fwd = 1#1 }
  | .vmax d a b fwd => { rv := [a, b], wv := [d], fwd := fwd = 1#1 }
  | .vabs d a fwd => { rv := [a], wv := [d], fwd := fwd = 1#1 }
  | .vneg d a fwd => { rv := [a], wv := [d], fwd := fwd = 1#1 }
  | .vand d a b fwd => { rv := [a, b], wv := [d], fwd := fwd = 1#1 }
  | .vor d a b fwd => { rv := [a, b], wv := [d], fwd := fwd = 1#1 }
  | .vxor d a b fwd => { rv := [a, b], wv := [d], fwd := fwd = 1#1 }
  | .viadd d a b fwd => { rv := [a, b], wv := [d], fwd := fwd = 1#1 }
  | .visub d a b fwd => { rv := [a, b], wv := [d], fwd := fwd = 1#1 }
  | .vimul d a b fwd => { rv := [a, b], wv := [d], fwd := fwd = 1#1 }
  | .vceq d a b fwd => { rv := [a, b], wv := [d], fwd := fwd = 1#1 }
  | .vclt d a b fwd => { rv := [a, b], wv := [d], fwd := fwd = 1#1 }
  | .vcle d a b fwd => { rv := [a, b], wv := [d], fwd := fwd = 1#1 }
  | .vfma d a b c fwd => { rv := [a, b, c], wv := [d], fwd := fwd = 1#1 }
  | .vfms d a b c fwd => { rv := [a, b, c], wv := [d], fwd := fwd = 1#1 }
  | .vfnma d a b c fwd => { rv := [a, b, c], wv := [d], fwd := fwd = 1#1 }
  | .vfnms d a b c fwd => { rv := [a, b, c], wv := [d], fwd := fwd = 1#1 }
  | .vsel d a b c fwd => { rv := [a, b, c], wv := [d], fwd := fwd = 1#1 }
  | .vpack d a _ fwd => { rv := [a], wv := [d], fwd := fwd = 1#1 }
  | .vunpk d a _ fwd => { rv := [a], wv := [d], fwd := fwd = 1#1 }
  | .vitof d a fwd => { rv := [a], wv := [d], fwd := fwd = 1#1 }
  | .vftoi d a fwd => { rv := [a], wv := [d], fwd := fwd = 1#1 }
  | .vperm d a b fwd => { rv := [a, b], wv := [d], fwd := fwd = 1#1 }
  | .vrot d a _ fwd => { rv := [a], wv := [d], fwd := fwd = 1#1 }
  | .vrsum d a fwd => { wg := [d], rv := [a], fwd := fwd = 1#1 }
  | .vrmax d a fwd => { wg := [d], rv := [a], fwd := fwd = 1#1 }
  | .vrmin d a fwd => { wg := [d], rv := [a], fwd := fwd = 1#1 }
  | .vrcpe d a fwd => { rv := [a], wv := [d], fwd := fwd = 1#1 }
  | .vrsqe d a fwd => { rv := [a], wv := [d], fwd := fwd = 1#1 }
  | .vbcast d a => { rg := [a], wv := [d] }
  | .vins d a _ => { rg := [a], rv := [d], wv := [d] }
  | .vext d a _ fwd => { wg := [d], rv := [a], fwd := fwd = 1#1 }
  | .gcomp d a b => { rv := [a, a + 1#5, b, b + 1#5], wv := [d, b, b + 1#5] }
  | .chend => {}
  | .done => {}
  | .maskon => {}
  | .maskoff => {}
  | .step => {}
  | .actend => {}
  | .xret => {}
  | .xretK => {}
  | .messageDelivery => {}
  | .overflowRingRetry => {}
  | .overflowRingDelivery => {}
  | .creditReturn => {}
  | .issueChoice => {}
  | .preEmption => {}
  | .chunkCommit => {}
  | .arbiterTokenGrant => {}
  | .pkt => {}
  | .errstat => {}
  | .launchRequest => {}
  | .indirectLaunch => {}
  | .indirectLaunchEligible => {}
  | .endRequest => {}
  | .waitingLaunchProceeds => {}
  | .launchEnd => {}
  | .stepAdvance => {}
  | .dieSetChange => {}
  | .placementRun => {}
  | .kilnReplenishment => {}
  | .kilnDraw => {}
  | .macCountDraw => {}
  | .agingLimit => {}
  | .thermalLimit => {}
  | .thermalLimitClear => {}
  | .migrationQuiesce => {}
  | .migrationStream => {}
  | .migrationSwitch => {}
  | .placementTableRewrite => {}
  | .drainMarker => {}
  | .drainMessage => {}
  | .icacheFill => {}
  | .streamRefill => {}
  | .pageWalk => {}
  | .copyStart => {}
  | .copyRackReserve => {}
  | .copyBeat => {}
  | .copyCompletion => {}
  | .counterIncrement => {}
  | .matrixCommandStart => {}
  | .matrixCommandCompletion => {}
  | .marquetryAdd => {}
  | .mqzBeat => {}
  | .marquetryCompletion => {}
  | .farAtomic => {}
  | .farAtomicReply => {}
  | .barrierRequest => {}
  | .barrierReply => {}
  | .toleranceCompare => {}
  | .glueUp => {}
  | .dovetailCombine => {}
  | .dovetailCompletion => {}
  | .transportPacketSend => {}
  | .transportPacketArrival => {}
  | .transportAck => {}
  | .transportRetransmit => {}
  | .preciseTrap => {}
  | .wfiDeadline => {}
  | .softErrorRepair => {}
  | .scrub => {}
  | .unitDraining => {}
  | .unitRetire => {}
  | .spareTakeoverComplete => {}
  | .pseudoChannelRetire => {}
  | .pseudoChannelRedirect => {}
  | .laneFailure => {}
  | .hubFailover => {}
  | .regulatorPhaseLoss => {}
  | .configRecordWrite => {}
  | .unitRetirementRequest => {}
  | .configErrorClear => {}
  | .firmwareUpdate => {}
  | .getVersion => {}
  | .getCapabilities => {}
  | .negotiateAlgorithms => {}
  | .getDigests => {}
  | .getCertificate => {}
  | .challenge => {}
  | .getMeasurements => {}
  | .powerGood => {}
  | .hubDieHandback => {}
  | .hubLinksRestored => {}

/-! ### I/O pages and blocks -/

/-- An access to an I/O page forms a chunk of its own, which commits in the step that executes it (R182): it waits until
the chunk before it has committed, every earlier I/O store of the core is performed and no other core holds its
arbiter's token; a held firing waits for its glue-up (log 21). -/
def State.ioGate (s : State) (x : Acc) : Res Unit :=
  if !x.leaf.io then .ok ()
  else if s.chunkBusy || s.t.heldNow || s.iow.any (·.core = s.cur)
    || !(match s.holder (arbiter x.leaf.scope s.cur) with | some h => h = s.cur | none => true) then .error (.wait false)
  else .ok ()

/-- The chunk of an I/O access ends after it, and commits at once. -/
def State.ioSeal (s : State) (x : Acc) : State :=
  if x.leaf.io then s.withChunk fun ch => { ch with sealed := true, now := true, scope := max ch.scope x.leaf.scope } else s

/-- A byte of the I/O region as a partition reads it (R388): configuration record, update mailbox, event logs, which only
the physical functions read: another partition reads zeros there (log 79). -/
def State.ioByte (s : State) (reader off : Nat) : Byte :=
  let p := off / 0x100000
  let o := off % 0x100000
  if o < 0x400 then FMap.get 0#8 (s.part p).cfg o
  else if o < 0x40000 then
    if o < 0x1008 then BitVec.ofNat 8 (s.hub.mailbox.1 >>> (8 * (o % 8)))
    else if o < 0x1010 then BitVec.ofNat 8 (s.hub.mailbox.2 >>> (8 * (o % 8)))
    else 0#8
  else if reader > 1 then 0#8
  else
    let d := s.die ((o - 0x40000) / 0x10000)
    let i := o % 0x10000 / 16
    -- the newest entry stands at place (logged - 1) mod 4096
    let back := (d.logged + 4096 * 2 - 1 - i) % 4096
    match d.log[back]? with
    | some e => BitVec.ofNat 8 ((if o % 16 < 8 then e.1.toNat else e.2.toNat) >>> (8 * (o % 8)))
    | none => 0#8

/-- Bytes an access of a raw place reads, as the running firing sees them: memory, a counter's VALUE
(R209), the I/O region. -/
def State.rawRead (s : State) (x : Acc) : List Byte :=
  match x.loc with
  | .counter c n => leBytes x.size (FMap.get 0 (s.core c).mb n)
  | .io off => (span off x.size).map (s.ioByte s.myPart)
  | _ => s.seenBytes x.dev x.size

/-! ### Slots -/

/-- A 4-byte slot's content on its way to another slot: the exact value, and the element's own bits with
its format, block size and scale byte (R67). -/
structure Moved where
  /-- Exact value. -/
  num : Num
  /-- The element's bits. -/
  raw : Nat
  /-- Format code. -/
  fmt : Nat
  /-- Elements per scale, 0 without. -/
  blk : Nat
  /-- Scale byte. -/
  scale : Byte

/-- An FP32 value on its way (R68). -/
def Moved.fp32 (x : Lane) : Moved := ⟨Num.ofBits x, x.toNat, 0, 0, 0⟩

/-- The 32 bits a moved value leaves in a raw slot: an FP32 element keeps its bits (R68). -/
def Moved.bits32 (m : Moved) : Nat := if m.fmt = 0 && m.blk = 0 then m.raw else encodeElem 0 .rne m.num

/-- The scale byte of a slot of an element window. -/
def scaleAt (rd : Nat → Byte) (b : Nat) (d : Word) (off : Nat) : Byte :=
  if wBlk d = 0 then 0 else rd (b + wBase d + off / 4 / wBlk d)

/-- Read a slot: through window 0 and from HBM it is taken as FP32 (R186). -/
def movedOf (rd : Nat → Byte) (wins : FMap Word) (x : Acc) : Moved :=
  let plain := Moved.fp32 (BitVec.ofNat 32 (leVal ((span x.dev 4).map rd)))
  match x.loc with
  | .pad b _ w off =>
    if w = 0 then plain else
    let d := descOf wins x.loc
    ⟨elemValue rd b d (off / 4), elemRaw rd b d (off / 4), wFmt d, wBlk d, scaleAt rd b d off⟩
  | _ => plain

/-- What a write of a moved value to a slot changes: element bits move unchanged between windows of one
format, block size and scale; else the value is encoded (R67, R68). -/
def movedPut (rd : Nat → Byte) (wins : FMap Word) (x : Acc) (m : Moved) : List (Nat × Byte × Byte) :=
  match x.loc with
  | .pad b _ w off =>
    if w = 0 then maskedBytes x.dev (leBytes 4 m.bits32) else
    let d := descOf wins x.loc
    if m.fmt = wFmt d && m.blk = wBlk d && m.scale = scaleAt rd b d off then
      maskedBits b (elemBits (wFmt d) (off / 4)).1 (fmtWidth (wFmt d)) m.raw
    else elemWrite rd b d .rne (off / 4) m.num
  | _ => maskedBytes x.dev (leBytes 4 m.bits32)

/-- The checks of a list of slots, in order. A counter takes no slot access of a vector or a tile
(R209). -/
def State.slotAccs (s : State) (kind : Kind) : List Nat → Res (List Acc)
  | [] => .ok []
  | ea :: r => do
    let x ← s.access ea 4 kind
    (match x.loc with
     | .counter _ _ => fault .misaligned ea
     | _ => s.ioGate x)
    let xs ← s.slotAccs kind r
    .ok (x :: xs)

/-- A slot as the running firing reads it. -/
def State.slotIn (s : State) (x : Acc) : Moved :=
  match x.loc with
  | .io _ => Moved.fp32 (BitVec.ofNat 32 (leVal (s.rawRead x)))
  | _ => movedOf s.seen s.winsIn x

/-- Slots have been read. -/
def State.noteSlots (s : State) (xs : List Acc) : State := xs.foldl (fun s x => (s.noteRead x).ioSeal x) s

/-- Buffer one slot. -/
def State.putSlot (s : State) (p : Acc × Moved) : State :=
  let x := p.1
  match x.loc with
  | .io _ => (s.effect (.io ⟨s.cur, s.myPart, x.dev, leBytes 4 (encodeElem 0 .rne p.2.num)⟩)).ioSeal x
  | _ => ((((s.fillTlb s.cur s.myPart x.ea x.leaf).noteLines (x.descLines ++ x.scaleLines s.winsIn)).bufStore
      (movedPut s.seen s.winsIn x p.2) x.leaf.scope)).ioSeal x

/-- Buffer a list of slots whole, or wait for room (R181, R185, R186). -/
def State.putSlots (s : State) (ps : List (Acc × Moved)) : Res State := do
  let s ← s.roomFor (ps.flatMap fun p => movedPut s.seen s.winsIn p.1 p.2)
  .ok (ps.foldl State.putSlot s)

/-! ### Blocks -/

/-- A raw read of an aligned block of `n` bytes (R148, R180, R211). -/
def State.readBlock (s : State) (ea n : Nat) : Res (State × List Byte) := do
  faultIf (ea % n ≠ 0) .misaligned ea
  let x ← s.access ea n .read
  s.ioGate x
  .ok ((s.noteRead x).ioSeal x, s.rawRead x)

end Sys2Proof.Machine
end

