-- ==== Sys2Proof/Machine/Integer.lean ====
section
/-! DEFINITION. Integer and address instructions (R134-R139). -/
namespace Sys2Proof.Machine

/-- The outcome type of a meaning. -/
abbrev Out := Host.Outcome State Fault Refusal

/-- An instruction whose whole effect is one general register's new value. -/
def setsG (i : Instr) (d : Reg) (w : Word) (s : State) : Out := finish s (s.writeG (useOf i) d w)

/-- A truth value as 1 or 0. -/
def flag (b : Bool) : Word := if b then 1 else 0

/-- The shift amount of a register (R134). -/
def shAmt (y : Word) : Nat := y.toNat % 64

/-- DIV (R134): truncated toward zero; by zero -1. -/
def divS (x y : Word) : Word := if y = 0 then BitVec.allOnes 64 else x.sdiv y
/-- REM: the dividend's sign; by zero the dividend. -/
def remS (x y : Word) : Word := if y = 0 then x else x.srem y
/-- DIVU: by zero 2^64 - 1. -/
def divU (x y : Word) : Word := if y = 0 then BitVec.allOnes 64 else x / y
/-- REMU: by zero the dividend. -/
def remU (x y : Word) : Word := if y = 0 then x else x % y
/-- The high half of the unsigned product. -/
def mulHiU (x y : Word) : Word := word (x.toNat * y.toNat / 2 ^ 64)
/-- The high half of the signed product. -/
def mulHiS (x y : Word) : Word := BitVec.ofInt 64 (x.toInt * y.toInt / 2 ^ 64)
/-- Zero bits above the highest one among the low `n` bits. -/
def leadZeros (x : Word) : Nat → Nat
  | 0 => 0
  | n + 1 => if x.getLsbD n then 0 else leadZeros x n + 1
/-- Zero bits from bit `64 - n` up to the lowest one. -/
def trailZeros (x : Word) : Nat → Nat
  | 0 => 0
  | n + 1 => if x.getLsbD (63 - n) then 0 else trailZeros x n + 1
/-- One bits among the low `n`. -/
def popCount (x : Word) : Nat → Nat
  | 0 => 0
  | n + 1 => popCount x n + b2n (x.getLsbD n)
/-- The low `n` ones. -/
def ones (n : Nat) : Word := word (2 ^ n - 1)
/-- BFXU: field [pos+len-1:pos]; `len` is len - 1 as encoded (R47, R138). -/
def fieldU (x : Word) (pos len : Nat) : Word := (x >>> pos) &&& ones (len + 1)
/-- BFX: the same, sign-extended. -/
def fieldS (x : Word) (pos len : Nat) : Word := ((x >>> pos) <<< (63 - len)).sshiftRight (63 - len)
/-- BFI: the field of `x` replaced by the low bits of `y`. -/
def fieldPut (x y : Word) (pos len : Nat) : Word :=
  (x &&& ~~~(ones (len + 1) <<< pos)) ||| ((y &&& ones (len + 1)) <<< pos)

/-- ADD (R134). -/
def execAdd (d a b : Reg) (s : State) : Out :=
  setsG (.add d a b) d (s.gIn a + s.gIn b) s

/-- SUB (R134). -/
def execSub (d a b : Reg) (s : State) : Out :=
  setsG (.sub d a b) d (s.gIn a - s.gIn b) s

/-- AND (R134). -/
def execAnd (d a b : Reg) (s : State) : Out :=
  setsG (.and d a b) d (s.gIn a &&& s.gIn b) s

/-- OR (R134). -/
def execOr (d a b : Reg) (s : State) : Out :=
  setsG (.or d a b) d (s.gIn a ||| s.gIn b) s

/-- XOR (R134). -/
def execXor (d a b : Reg) (s : State) : Out :=
  setsG (.xor d a b) d (s.gIn a ^^^ s.gIn b) s

/-- SLL (R134). -/
def execSll (d a b : Reg) (s : State) : Out :=
  setsG (.sll d a b) d (s.gIn a <<< shAmt (s.gIn b)) s

/-- SRL (R134). -/
def execSrl (d a b : Reg) (s : State) : Out :=
  setsG (.srl d a b) d (s.gIn a >>> shAmt (s.gIn b)) s

/-- SRA (R134). -/
def execSra (d a b : Reg) (s : State) : Out :=
  setsG (.sra d a b) d ((s.gIn a).sshiftRight (shAmt (s.gIn b))) s

/-- SLT (R134). -/
def execSlt (d a b : Reg) (s : State) : Out :=
  setsG (.slt d a b) d (flag ((s.gIn a).slt (s.gIn b))) s

/-- SLTU (R134). -/
def execSltu (d a b : Reg) (s : State) : Out :=
  setsG (.sltu d a b) d (flag ((s.gIn a).ult (s.gIn b))) s

/-- MUL (R134). -/
def execMul (d a b : Reg) (s : State) : Out :=
  setsG (.mul d a b) d (s.gIn a * s.gIn b) s

/-- MULH (R134). -/
def execMulh (d a b : Reg) (s : State) : Out :=
  setsG (.mulh d a b) d (mulHiS (s.gIn a) (s.gIn b)) s

/-- MULHU (R134). -/
def execMulhu (d a b : Reg) (s : State) : Out :=
  setsG (.mulhu d a b) d (mulHiU (s.gIn a) (s.gIn b)) s

/-- DIV (R134). -/
def execDiv (d a b : Reg) (s : State) : Out :=
  setsG (.div d a b) d (divS (s.gIn a) (s.gIn b)) s

/-- DIVU (R134). -/
def execDivu (d a b : Reg) (s : State) : Out :=
  setsG (.divu d a b) d (divU (s.gIn a) (s.gIn b)) s

/-- REM (R134). -/
def execRem (d a b : Reg) (s : State) : Out :=
  setsG (.rem d a b) d (remS (s.gIn a) (s.gIn b)) s

/-- REMU (R134). -/
def execRemu (d a b : Reg) (s : State) : Out :=
  setsG (.remu d a b) d (remU (s.gIn a) (s.gIn b)) s

/-- MIN (R134). -/
def execMin (d a b : Reg) (s : State) : Out :=
  setsG (.min d a b) d (if (s.gIn a).slt (s.gIn b) then s.gIn a else s.gIn b) s

/-- MAX (R134). -/
def execMax (d a b : Reg) (s : State) : Out :=
  setsG (.max d a b) d (if (s.gIn a).slt (s.gIn b) then s.gIn b else s.gIn a) s

/-- MINU (R134). -/
def execMinu (d a b : Reg) (s : State) : Out :=
  setsG (.minu d a b) d (if (s.gIn a).ult (s.gIn b) then s.gIn a else s.gIn b) s

/-- MAXU (R134). -/
def execMaxu (d a b : Reg) (s : State) : Out :=
  setsG (.maxu d a b) d (if (s.gIn a).ult (s.gIn b) then s.gIn b else s.gIn a) s

/-- ANDN (R134). -/
def execAndn (d a b : Reg) (s : State) : Out :=
  setsG (.andn d a b) d (s.gIn a &&& ~~~(s.gIn b)) s

/-- CLZ (R134). -/
def execClz (d a : Reg) (s : State) : Out :=
  setsG (.clz d a) d (word (leadZeros (s.gIn a) 64)) s

/-- CTZ (R134). -/
def execCtz (d a : Reg) (s : State) : Out :=
  setsG (.ctz d a) d (word (trailZeros (s.gIn a) 64)) s

/-- POPC (R134). -/
def execPopc (d a : Reg) (s : State) : Out :=
  setsG (.popc d a) d (word (popCount (s.gIn a) 64)) s

/-- ADDI (R135). -/
def execAddi (d a : Reg) (imm : BitVec 15) (s : State) : Out :=
  setsG (.addi d a imm) d (s.gIn a + sext imm) s

/-- ANDI (R135). -/
def execAndi (d a : Reg) (imm : BitVec 15) (s : State) : Out :=
  setsG (.andi d a imm) d (s.gIn a &&& sext imm) s

/-- ORI (R135). -/
def execOri (d a : Reg) (imm : BitVec 15) (s : State) : Out :=
  setsG (.ori d a imm) d (s.gIn a ||| sext imm) s

/-- XORI (R135). -/
def execXori (d a : Reg) (imm : BitVec 15) (s : State) : Out :=
  setsG (.xori d a imm) d (s.gIn a ^^^ sext imm) s

/-- SLLI (R135). -/
def execSlli (d a : Reg) (sh : BitVec 6) (s : State) : Out :=
  setsG (.slli d a sh) d (s.gIn a <<< sh.toNat) s

/-- SRLI (R135). -/
def execSrli (d a : Reg) (sh : BitVec 6) (s : State) : Out :=
  setsG (.srli d a sh) d (s.gIn a >>> sh.toNat) s

/-- SRAI (R135). -/
def execSrai (d a : Reg) (sh : BitVec 6) (s : State) : Out :=
  setsG (.srai d a sh) d ((s.gIn a).sshiftRight sh.toNat) s

/-- SLTI (R135). -/
def execSlti (d a : Reg) (imm : BitVec 14) (s : State) : Out :=
  setsG (.slti d a imm) d (flag ((s.gIn a).slt (sext imm))) s

/-- SLTIU (R135). -/
def execSltiu (d a : Reg) (imm : BitVec 14) (s : State) : Out :=
  setsG (.sltiu d a imm) d (flag ((s.gIn a).ult (sext imm))) s

/-- LI (R136). -/
def execLi (d : Reg) (imm : BitVec 20) (s : State) : Out :=
  setsG (.li d imm) d (sext imm) s

/-- LIH (R136). -/
def execLih (d : Reg) (imm : BitVec 20) (s : State) : Out :=
  setsG (.lih d imm) d ((s.gIn d <<< 20) ||| zext imm) s

/-- LEA (R137). -/
def execLea (d a b : Reg) (sh : BitVec 3) (s : State) : Out :=
  setsG (.lea d a b sh) d (s.gIn a + (s.gIn b <<< sh.toNat)) s

/-- BFX (R138). -/
def execBfx (d a : Reg) (pos len : BitVec 6) (s : State) : Out :=
  setsG (.bfx d a pos len) d (fieldS (s.gIn a) pos.toNat len.toNat) s

/-- BFXU (R138). -/
def execBfxu (d a : Reg) (pos len : BitVec 6) (s : State) : Out :=
  setsG (.bfxu d a pos len) d (fieldU (s.gIn a) pos.toNat len.toNat) s

/-- BFI (R138). -/
def execBfi (d a : Reg) (pos len : BitVec 6) (s : State) : Out :=
  setsG (.bfi d a pos len) d (fieldPut (s.gIn d) (s.gIn a) pos.toNat len.toNat) s

/-- SEL (R139). -/
def execSel (d a b c : Reg) (s : State) : Out :=
  setsG (.sel d a b c) d (if s.gIn c = 0 then s.gIn b else s.gIn a) s

end Sys2Proof.Machine
end

