-- ==== Sys2Proof/Machine/Atomics.lean ====
section
/-! DEFINITION. Atomics (R298-R301), fences (R296, R297), the mailbox counter instructions (R215-R218)
and the barrier instructions (R303-R305). -/
namespace Sys2Proof.Machine

/-! ### Atomics -/

/-- The new value of R298; `n` is the width in bits. -/
def amoNew (op n old b c : Nat) : Nat :=
  match op with
  | 0 => (old + b) % 2 ^ n
  | 1 => (fadd .rne (BitVec.ofNat 32 old) (BitVec.ofNat 32 b)).toNat
  | 2 => b
  | 3 => if old = c then b else old
  | 4 => if signed n b < signed n old then b else old
  | _ => if signed n old < signed n b then b else old

/-- What g[d] receives: zero-extended for AMOFADD, else sign-extended from the width (R298). -/
def amoOld (op n old : Nat) : Word := if op = 1 then word old else BitVec.ofInt 64 (signed n old)

/-- A near atomic (R300): a load and a buffered store of the issuing chunk. -/
def amoNear (s : State) (x : Acc) (op b c : Nat) (d : Reg) : Res State := do
  let n := 8 * x.size
  let old := leVal (s.seenBytes x.dev x.size)
  let s ← (s.noteRead x).store x (maskedBytes x.dev (leBytes x.size (amoNew op n old b c)))
  .ok (s.setG d (amoOld op n old))

/-- A request that waits for its home's reply: it forms a chunk of its own, and the core waits
(R301, R305). `back` is the state before the unit, whose registers change at the reply (R43). -/
def State.request (s : State) (back : CoreT) (d : Reg) (e : Effect) : Res State := do
  if s.t.maskOpen || s.t.heldNow then .error (.wait true) else
  s.ownChunk
  .ok (((s.effect e).endAfter).updMe fun k =>
    ({ k with t := k.t.withhold back } : Core).setWaiting s.t.level
      { Waiting.idle with await := .reply d s.t.pc ⟨back, s.t, []⟩ })

/-- A far atomic (R301): waiting when d ≠ 0, else posted. -/
def amoFar (s : State) (back : CoreT) (x : Acc) (op b c : Nat) (d : Reg) : Res State :=
  let f : Far := ⟨s.cur, op, x.size = 8, x.dev, b, c, x.leaf.scope, x.ea, d ≠ 0#5, s.t.level, s.t.serial, 0⟩
  let s := s.fillTlb s.cur s.myPart x.ea x.leaf
  if d = 0#5 then
    if s.t.heldNow then .error (.wait true) else .ok ((s.effect (.far f)).endAfter)
  else s.request back d (.far f)

/-- An atomic (R298-R301). -/
def amo (i : Instr) (op : Nat) (d a b c : Reg) (far w64 : Bool) (s : State) : Out :=
  let size := if w64 then 8 else 4
  let vb := (s.gIn b).toNat % 2 ^ (8 * size)
  let vc := (s.gIn c).toNat % 2 ^ (8 * size)
  let ea := (s.gIn a).toNat
  finish s (s.doing (useOf i) fun s' => do
    let x ← s'.atomicAccess ea size !far
    if far then amoFar s' s.t x op vb vc d else amoNear s' x op vb vc d)

/-- AMOADD (R298). -/
def execAmoadd (d a b : Reg) (far w64 : BitVec 1) (s : State) : Out :=
  amo (.amoadd d a b far w64) 0 d a b 0#5 (far = 1#1) (w64 = 1#1) s
/-- AMOSWP (R298). -/
def execAmoswp (d a b : Reg) (far w64 : BitVec 1) (s : State) : Out :=
  amo (.amoswp d a b far w64) 2 d a b 0#5 (far = 1#1) (w64 = 1#1) s
/-- AMOMIN (R298). -/
def execAmomin (d a b : Reg) (far w64 : BitVec 1) (s : State) : Out :=
  amo (.amomin d a b far w64) 4 d a b 0#5 (far = 1#1) (w64 = 1#1) s
/-- AMOMAX (R298). -/
def execAmomax (d a b : Reg) (far w64 : BitVec 1) (s : State) : Out :=
  amo (.amomax d a b far w64) 5 d a b 0#5 (far = 1#1) (w64 = 1#1) s
/-- AMOFADD (R298). -/
def execAmofadd (d a b : Reg) (far : BitVec 1) (s : State) : Out :=
  amo (.amofadd d a b far) 1 d a b 0#5 (far = 1#1) false s
/-- AMOCAS (R298). -/
def execAmocas (d a b c : Reg) (far w64 : BitVec 1) (s : State) : Out :=
  amo (.amocas d a b c far w64) 3 d a b c (far = 1#1) (w64 = 1#1) s

/-! ### Fences -/

/-- Every operation of a class that a core forked before a FENCE has completed, or every packet or posted atomic that it
sent before it has arrived (R296, R297). -/
def State.classDone (s : State) (c : Nat) (b : Nat × Nat × Nat) (cls : Nat) : Bool :=
  let k := s.core c
  let later (p : Pkt) : Bool := b.1 ≤ p.seq && (p.seq < b.2.1 || b.2.2 ≤ p.seq)
  match cls with
  | 0 => k.eng.copies.all (b.1 ≤ ·.born)
  | 1 => (k.eng.mat ++ k.eng.aside).all (b.1 ≤ ·.born)
  | 2 => k.eng.mq.all (b.1 ≤ ·.born)
  | 3 => s.dvs.all fun d => d.inj.all fun j => j.core ≠ c || j.done || b.1 ≤ j.born
  | 4 => s.xmsgs.all fun x => x.core ≠ c || b.1 ≤ x.num
  | 5 => !k.t.heldNow && (k.out0 ++ k.out1).all (fun p => p.held || later p) && s.net.all fun p => p.src ≠ c + 1 || later p
  | _ => s.far.all fun f => f.core ≠ c || f.waits || b.1 ≤ f.born

/-- What the FENCE that the core issues waits for: all that its core has forked and sent when it is first issued, and what
its firing's glue-up has sent since (R297). -/
def State.fenceBounds (s : State) : Nat × Nat × Nat :=
  match (s.me.waiting s.t.level).await with
  | .fence n lo hi => (n, lo, hi)
  | _ => (s.fresh, 0, 0)

/-- The classes of a mask are done (R297). -/
def State.fenced (s : State) (cls : BitVec 7) : Bool :=
  (span 0 7).all fun i => !cls.getLsbD i || s.classDone s.cur s.fenceBounds i

/-- FENCE (R297): ends the chunk before itself, then waits for the classes of its mask. The wait stays armed while the level
is pre-empted (R27): what a firing that pre-empts it forks or sends is none of it. -/
def execFence (cls : BitVec 7) (s : State) : Out :=
  let b := s.fenceBounds
  finish s (do
    if cls ≠ 0 then s.ownChunk
    if s.fenced cls then .ok (s.updMe fun k => k.unarm s.t.level).endAfter
    else if s.t.maskOpen then .error (.wait true)
    else .ok ((s.updMe fun k =>
      { k.setWaiting s.t.level { Waiting.idle with await := .fence b.1 b.2.1 b.2.2 } with chunk := none }).stay))
/-- CHEND (R297). -/
def execChend (s : State) : Out := finish s (.ok s.endAfter)

/-! ### Mailbox counters -/

/-- MBINC's increment (R216): posted at the commit of its chunk, which it ends. -/
def State.incr (s : State) (c n v : Nat) : State :=
  (s.effect (.post ⟨agentOf s.cur 0, c, n, v % 2 ^ 32, none⟩)).endAfter

/-- The counter of MBINC's global form (R216): checked as ST.W, and in the counter region. -/
def State.globalInc (s : State) (ea v : Nat) : Res State := do
  let x ← s.access ea 4 .write
  match x.loc with
  | .counter c n => .ok ((s.fillTlb s.cur s.myPart x.ea x.leaf).incr c n v)
  | _ => fault .protWrite ea

/-- MBINC mbN, gB (R216). -/
def execMbinc (b : Reg) (n : BitVec 6) (s : State) : Out :=
  finish s (s.doing (useOf (.mbinc b n)) fun s' => .ok (s'.incr s.cur n.toNat (s.gIn b).toNat))
/-- MBINC mbN, imm (R216). -/
def execMbincImm (imm : BitVec 5) (n : BitVec 6) (s : State) : Out :=
  finish s (.ok (s.incr s.cur n.toNat imm.toNat))
/-- MBINC [gA], gB (R216). -/
def execMbincGlobal (a b : Reg) (s : State) : Out :=
  finish s (s.doing (useOf (.mbincGlobal a b)) fun s' => s'.globalInc (s.gIn a).toNat (s.gIn b).toNat)
/-- MBINC [gA], imm (R216). -/
def execMbincGlobalImm (a : Reg) (imm : BitVec 5) (s : State) : Out :=
  finish s (s.doing (useOf (.mbincGlobalImm a imm)) fun s' => s'.globalInc (s.gIn a).toNat imm.toNat)

/-- VALUE of the core's own counter. -/
def State.mbVal (s : State) (n : Nat) : Nat := FMap.get 0 s.me.mb n
/-- Its latch. -/
def State.mbLatch (s : State) (n : Nat) : Latch := FMap.get Latch.clear s.me.mbLatch n

/-- MBWAIT (R208, R217). -/
def execMbwait (d a : Reg) (n : BitVec 6) (s : State) : Out :=
  finish s (s.doing (useOf (.mbwait d a n)) fun s' =>
    if !reached32 (s.mbVal n.toNat) ((s.gIn a).toNat % 2 ^ 32) then .error (.wait true)
    else
      let l := s.mbLatch n.toNat
      if !l.ep then .ok (s'.setG d 0).endAfter
      else if s.t.cetrap then .error (.trap .counterError (word l.word) true)
      else .ok (s'.setG d (word l.word)).endAfter)
/-- MBRD (R218): the committed value, in a held firing that has executed MBSET too (log 88). -/
def execMbrd (d : Reg) (n : BitVec 6) (s : State) : Out := setsG (.mbrd d n) d (word (s.mbVal n.toNat)) s
/-- MBSET (R218): applied at the commit of its chunk, which it ends. -/
def execMbset (a : Reg) (n : BitVec 6) (s : State) : Out :=
  finish s (s.doing (useOf (.mbset a n)) fun s' =>
    .ok ((s'.effect (.mbset n.toNat ((s.gIn a).toNat % 2 ^ 32))).endAfter))
/-- MBERR (R218): the committed latch, in a held firing that has executed MBERR.C or MBSET too (log 88). -/
def execMberr (d : Reg) (n : BitVec 6) (s : State) : Out :=
  setsG (.mberr d n) d (word (s.mbLatch n.toNat).word) s
/-- MBERR.C (R218): at the commit the latch is read into g[d] and clears, in one step. A held firing goes on with the latch
as it is now: a change of the latch before its glue-up starts it again (log 81). -/
def execMberrC (d : Reg) (n : BitVec 6) (s : State) : Out :=
  finish s (s.doing (useOf (.mberrC d n)) fun s' =>
    let l := s.mbLatch n.toNat
    .ok (((if s.t.heldNow then s'.noteLines [latchLine s.cur n.toNat] else s').setG d (word l.word)).effect
      (.mberrClear n.toNat (if s.t.heldNow then none else some (s.t.level, d)))).endAfter)

/-! ### Barriers -/

/-- A barrier request (R303, R304): the object is 32 bytes, 32-byte aligned; it is performed at its home. -/
def barrier (i : Instr) (op : Nat) (d a b : Reg) (s : State) : Out :=
  let ea := (s.gIn a).toNat
  let v := (s.gIn b).toNat
  finish s (s.doing (useOf i) fun s' => do
    let x ← s'.atomicAccess ea 32 false
    (s'.fillTlb s.cur s.myPart x.ea x.leaf).request s.t d (.bar
      ⟨s.cur, op, x.dev, v, x.leaf.scope, x.ea, s.t.level, s.t.serial⟩))

/-- BAR.INIT (R304). -/
def execBarInit (a b : Reg) (s : State) : Out := barrier (.barInit a b) 0 0#5 a b s
/-- BAR.ARV (R304). -/
def execBarArv (d a b : Reg) (s : State) : Out := barrier (.barArv d a b) 1 d a b s
/-- BAR.DROP (R304). -/
def execBarDrop (d a b : Reg) (s : State) : Out := barrier (.barDrop d a b) 2 d a b s
/-- BAR.WAIT (R304). -/
def execBarWait (d a b : Reg) (s : State) : Out := barrier (.barWait d a b) 3 d a b s

end Sys2Proof.Machine
end

