-- ==== Sys2Proof/Machine/Copies.lean ====
section
/-! DEFINITION. The copy instructions (R210-R214). -/
namespace Sys2Proof.Machine

/-- The engine's two-entry issue queue is full: forked copies that have not entered flight occupy it
(R123, R197). -/
def State.copyQueueFull (s : State) : Bool := (s.me.eng.copies.filter fun c => !c.active).length ≥ 2

/-- After an engine command under MODE.PENG the core waits for its completion (R362). -/
def State.pengWait (s : State) : State :=
  if s.t.peng then s.updMe fun k => k.setWaiting k.t.level { Waiting.idle with await := .engine } else s

/-- A handle field of a command is stale at issue (R191). -/
def State.staleSeen (s : State) (h : Nat) : Bool := h ≠ 0 && (s.regionSeen s.myPart h).isNone

/-- A held firing's memory commands stall until glue-up (R311). -/
def State.notHeld (s : State) : Res Unit := if s.t.heldNow then .error (.wait true) else .ok ()

/-- CPY and CPY3 (R211). -/
def copyIssue (i : Instr) (three : Bool) (d a : Reg) (ch : Nat) (s : State) : Out :=
  finish s (s.doing (useOf i) fun s' => do
    s.notHeld
    let r ← s'.readBlock (s.gIn a).toNat 128
    let shnd := fieldAt r.2 0x10 4
    let dhnd := fieldAt r.2 0x14 4
    faultIf (s.staleSeen shnd) .staleHandle shnd
    faultIf (s.staleSeen dhnd) .staleHandle dhnd
    if s.copyQueueFull then .error (.wait true) else
    let id := FMap.get 1 s.t.nextId ch
    let c : Copy :=
      { inst := s.t.inst, part := s.myPart, user := !s.t.sup, peng := s.t.peng, ch := ch, id := id,
        three := three, desc := r.2, active := false, wins := [], regions := (none, none), perms := [],
        cnt := none, pos := 0, bytes := 0, place := none, bad := none, tlb := [], born := 0 }
    let s := (r.1.setG d (word id)).updT fun t => { t with nextId := FMap.put t.nextId ch ((id + 1) % 2 ^ 32) }
    .ok ((s.effect (.copy c)).endAfter.pengWait))

/-- CPY (R211). -/
def execCpy (d a : Reg) (ch : BitVec 2) (s : State) : Out := copyIssue (.cpy d a ch) false d a ch.toNat s
/-- CPY3 (R211). -/
def execCpy3 (d a : Reg) (ch : BitVec 2) (s : State) : Out := copyIssue (.cpy3 d a ch) true d a ch.toNat s

/-- The latch of a channel. -/
def State.chLatch (s : State) (ch : Nat) : Latch := FMap.get Latch.clear s.t.chLatch ch

/-- The CSTAT word (R213). -/
def State.cstatWord (s : State) (ch : Nat) : Word :=
  let l := s.chLatch ch
  word ((b2n l.ep) <<< 63 + (b2n l.multi) <<< 62 + l.code <<< 48
    + (s.me.eng.copies.filter (·.ch = ch)).length <<< 40 + FMap.get 0 s.me.eng.doneId ch)

/-- CWAIT (R212). -/
def execCwait (d a : Reg) (ch : BitVec 2) (s : State) : Out :=
  finish s (s.doing (useOf (.cwait d a ch)) fun s' =>
    if !reached32 (FMap.get 0 s.me.eng.doneId ch.toNat) ((s.gIn a).toNat % 2 ^ 32) then .error (.wait true)
    else if !(s.chLatch ch.toNat).ep then .ok (s'.setG d 0)
    else if s.t.cetrap then .error (.trap .counterError (s.cstatWord ch.toNat) true)
    else .ok (s'.setG d (s.cstatWord ch.toNat)))
/-- CSTAT (R213). -/
def execCstat (d : Reg) (ch : BitVec 2) (s : State) : Out :=
  setsG (.cstat d ch) d (s.cstatWord ch.toNat) s
/-- CSTAT.C (R213): the latch clears in the same step; a squash restores it. A held firing's clears at once too, and a
knock-down after its chunk is held does not restore it (log 88). -/
def execCstatC (d : Reg) (ch : BitVec 2) (s : State) : Out :=
  finish s (s.doing (useOf (.cstatC d ch)) fun s' =>
    .ok ((s'.setG d (s.cstatWord ch.toNat)).updT fun t => { t with chLatch := FMap.del t.chLatch ch.toNat }))
/-- PERM (R214): the new mask at the commit of its chunk, which it ends. A second one of a held firing reads the committed mask,
not the one that its first will install (log 88). -/
def execPerm (d a : Reg) (s : State) : Out :=
  let w := s.gIn a
  finish s (s.doing (useOf (.perm d a)) fun s' => do
    if wbits w 60 16 ≠ 0 then s.freeFault .reservedBits else
    .ok (((s'.setG d s.me.perm).effect (.perm w)).endAfter))

end Sys2Proof.Machine
end

