-- ==== Sys2Proof/Machine/Collectives.lean ====
section
/-! DEFINITION. The Dovetail and transport instructions (R342-R349). Combining, completion and packets stand
in Dovetail and Transport. -/
namespace Sys2Proof.Machine

/-- DVCFG (R343): an injection that another core forks into the context before the commit squashes the chunk (R328;
log 81). -/
def execDvcfg (d a : Reg) (grp : BitVec 6) (s : State) : Out :=
  let v := (s.gIn a).toNat
  finish s (s.doing (useOf (.dvcfg d a grp)) fun s' => do
    s.notHeld
    let r ← (if v = 0 then .ok (s', []) else s'.readBlock v 64)
    if s.dvFlight s.myPart grp.toNat ≠ 0 then s.freeFault .dovetailGroup
    else if v ≠ 0 && gBad r.2 (s.cfg s.myPart 8 40) then s.freeFault .dovetailGroup
    else .ok (((r.1.setG d (word (if v = 0 then 0 else gCount r.2))).effect (.dvcfg grp.toNat r.2) |>.noteLines [ctxLine s.myPart grp.toNat]).endAfter))

/-- Entries of the core's injection queue in use, and of the engine's two-entry issue queue behind it (R123,
R333). -/
def State.dvOccupied (s : State) : Nat :=
  let open' := match s.me.chunk with
    | some ch => (ch.eff.filter fun e => match e with | .dvinj _ => true | _ => false).length
    | none => 0
  s.dvs.foldl (fun n v => n + (v.inj.filter fun (x : DvInj) => x.core = s.cur && !x.read && !x.done).length) open'

/-- DVINJ (R344). -/
def execDvinj (d a : Reg) (s : State) : Out :=
  finish s (s.doing (useOf (.dvinj d a)) fun s' => do
    s.notHeld
    let r ← s'.readBlock (s.gIn a).toNat 64
    if s.dvOccupied ≥ 66 then .error (.wait true) else
    let x : DvInj :=
      { core := s.cur, entry := r.2, cnt := none, tlb := [], read := false, done := false, peng := s.t.peng,
        user := !s.t.sup, inst := s.t.inst, waits := false, born := 0 }
    let s'' := (r.1.setG d (word s.t.dvCount)).updT fun t => { t with dvCount := (t.dvCount + 1) % 2 ^ 32 }
    .ok ((s''.effect (.dvinj x)).endAfter.pengWait))

/-- DVEXT (R345): the pop is undone by a squash. -/
def execDvext (d : Reg) (s : State) : Out :=
  finish s (s.doing (useOf (.dvext d)) fun s' => do
    s.notHeld
    match s.t.extq with
    | [] => .error (.wait true)
    | e :: rest => .ok ((s'.updT fun t => { t with extq := rest }).putV d (stripOf e)))

/-- The DVSTAT word (R346). A context that no DVCFG has loaded since reset reads as the table's reset values give, RANK 0
among them (log 86). -/
def State.dvWord (s : State) (grp : Nat) : Nat :=
  let x := s.group s.myPart grp
  let up := !x.desc.isEmpty
  let mem := up && gMember x.desc s.cur
  let fresh := (FMap.find? (s.part s.myPart).groups grp).isNone
  (b2n up) <<< 63 + (b2n mem) <<< 62 + x.flags <<< 56 + x.cause <<< 48
    + (if fresh then 0 else if mem then gRank x.desc s.cur else 0xFFFF) <<< 32 + (sat 16 (s.dvFlight s.myPart grp)) <<< 16
    + (if up then gCount x.desc else 0)

/-- DVSTAT (R346). -/
def execDvstat (d : Reg) (grp : BitVec 6) (s : State) : Out :=
  finish s (s.doing (useOf (.dvstat d grp)) fun s' => do
    s.notHeld
    .ok (s'.setG d (word (s.dvWord grp.toNat))))
/-- DVSTAT.C (R346). -/
def execDvstatC (d : Reg) (grp : BitVec 6) (s : State) : Out :=
  finish s (s.doing (useOf (.dvstatC d grp)) fun s' => do
    s.notHeld
    .ok ((s'.setG d (word (s.dvWord grp.toNat))).effect (.dvClear grp.toNat)))

/-- XPOST (R337, R347): another registration, or a revocation, that comes before the commit squashes the chunk (log 81). -/
def execXpost (d a : Reg) (n : BitVec 6) (s : State) : Out :=
  let h := (s.gIn a).toNat % 2 ^ 32
  finish s (s.doing (useOf (.xpost d a n)) fun s' => do
    s.notHeld
    match s.regionSeen s.myPart h with
    | none => fault .staleHandle h
    | some r =>
      let regs := (s.part s.myPart).regs
      let old := (FMap.find? regs h).isSome
      if !r.w || !r.rem then s.freeFault .protWrite
      else if !old && regs.length ≥ 4096 then s.freeFault .handleTableFull
      else .ok (((s'.setG d (word (b2n old))).effect (.xpost h n.toNat) |>.noteLines [regsLine s.myPart]).endAfter))

/-- XSEND (R348). -/
def execXsend (d a : Reg) (s : State) : Out :=
  finish s (s.doing (useOf (.xsend d a)) fun s' => do
    s.notHeld
    let r ← s'.readBlock (s.gIn a).toNat 64
    let h := fieldAt r.2 0 4
    faultIf (s.staleSeen h) .staleHandle h
    let x : Xmsg :=
      { core := s.cur, part := s.myPart, inst := s.t.inst, desc := r.2, base := 0, peng := s.t.peng, user := !s.t.sup,
        sent := [], acked := [], bad := none, cnt := none, tlb := [], num := 0 }
    let s'' := (r.1.setG d (word s.t.xsCount)).updT fun t => { t with xsCount := (t.xsCount + 1) % 2 ^ 32 }
    .ok ((s''.effect (.xsend x)).endAfter.pengWait))

/-- The XCC word of a node's record (R340). -/
def Node.word (n : Node) : Nat :=
  sat 24 n.wnd <<< 40 + sat 16 n.rtt <<< 24 + min 255 (n.marks.filter id).length <<< 16 + sat 16 n.queue

/-- A node's congestion record (R340): zero without one. -/
def State.xccWord (s : State) (node : Nat) : Word :=
  match FMap.find? s.hub.nodes node with
  | none => 0
  | some q => Sys2Proof.Machine.word q.word

/-- XCC (R349). -/
def execXcc (d a : Reg) (s : State) : Out :=
  let node := (s.gIn a).toNat % 2 ^ 24
  finish s (s.doing (useOf (.xcc d a)) fun s' => do
    s.notHeld
    .ok (s'.setG d (s.xccWord node)))

end Sys2Proof.Machine
end

