-- ==== Sys2Proof/Machine/Racks.lean ====
section
/-! DEFINITION. Rack, stream and park instructions (R143-R149). -/
namespace Sys2Proof.Machine

/-- The base of the rack bound to kN; RACK_UNBOUND with XVAL k without a binding, or where its record is gone: its instance
has left the core during a pre-emption (R28, R143). -/
def State.boundRack (s : State) (k : Reg) : Res Nat :=
  match FMap.find? s.t.binds k.toNat with
  | some b => if (s.me.rack? b).isSome then .ok b else fault .rackUnbound k.toNat
  | none => fault .rackUnbound k.toNat

/-- The base of the rack that the running dry firing predicts, while it is held (R310). -/
def State.dryBase (s : State) : Option Nat :=
  if s.t.heldNow then
    match s.me.held with
    | some h => h.fir.dry
    | none => none
  else none

/-- The staging address, while the rack's head slot is the predicted tile of the running dry firing (R310). -/
def State.dryHead (s : State) (base : Nat) : Option Nat :=
  (if s.dryBase = some base && (s.me.ownMoves base).2 = 0 then s.me.held else none).map (·.staging)

/-- Lines of the n slots that the running firing pops from a rack (R289): of the staging area in place of the head slot of
a dry firing's rack, whose real tile lands later (R310, R313). -/
def State.popLines (s : State) (base : Nat) (r : Rack) (n : Nat) : List Nat :=
  let real (l : List Nat) : List Nat := l.flatMap fun i => linesOf (padOfCore s.cur + r.slotOff base i) r.slotSize
  match s.dryHead base with
  | none => real (span r.free n)
  | some va => (if n = 0 then [] else match s.translate s.cur s.myPart va with
      | some p => linesOf (p.base + va % 2 ^ p.size) r.slotSize
      | none => []) ++ real (span (r.free + 1) (n - 1))

/-- Its real tile is still to come, or waits for its compare. -/
def State.unresolved (s : State) : Bool := match s.me.held with | some h => !h.accepted | none => false

/-- The record of a bound rack as the running firing sees it: with its own moves (R127), and with the
predicted slot (R310), which is the slot of the real tile that lands while it waits for its compare (R313). -/
def State.recSeen (s : State) (base : Nat) : Res Rack :=
  match s.me.rack? base with
  | none => fault .rackUnbound 0
  | some r =>
    let m := s.me.ownMoves base
    let r := r.left
    let r := if s.dryBase = some base && s.unresolved
      then { r with nfill := r.nfill + 1, fill := (r.fill + 1) % r.n, wait := r.wait - 1 } else r
    .ok ((r.filled m.1).freed m.2)

/-- The geometry of a rack word. -/
def rackOfWord (w : Nat) (level : Nat) : Rack :=
  { sz := bits w 14 11, cntm1 := bits w 20 15, fill := 0, free := 0, nfill := 0, owner := none, level := level,
    port := none, mail := false, resv := [], senders := [], owed := [], pend := 0, defer := 0, due := 0, wait := 0 }

/-- Two racks share a byte of the scratchpad. -/
def rackOverlap (b1 : Nat) (r1 : Rack) (b2 : Nat) (r2 : Rack) : Bool :=
  b1 * 64 < b2 * 64 + r2.n * r2.slotSize && b2 * 64 < b1 * 64 + r1.n * r1.slotSize

/-- RKSET (R144). -/
def execRkset (k a : Reg) (s : State) : Out :=
  let w := (s.gIn a).toNat
  let base := bits w 10 0
  let r := rackOfWord w s.t.level
  finish s (s.doing (useOf (.rkset k a)) fun s' =>
    let bad : Res State := s.freeFault .rackUnbound
    if bits w 30 21 ≠ 0 || bits w 63 32 ≠ 0 then bad
    else if !bit w 31 then .ok (s'.updT fun t => { t with binds := FMap.del t.binds k.toNat })
    else if r.cntm1 = 0 || r.sz > 8 || base * 64 + r.n * r.slotSize > 0x1C000 then bad
    else
      let bind (s : State) := s.updT fun t => { t with binds := FMap.put t.binds k.toNat base }
      match s.me.rack? base with
      | some q => if q.sz = r.sz && q.cntm1 = r.cntm1 then .ok (bind s') else bad
      | none =>
        if (s.me.racks ++ s.t.locals).any fun (p : Nat × Rack) => rackOverlap base r p.1 p.2 then bad
        else if s.t.locals.length ≥ 16 then bad
        else .ok (bind (s'.updT fun t => { t with locals := FMap.put t.locals base r })))

/-- RKWF and RKWS (R128, R145): `have'` counts filled or free slots. -/
def rackWait (i : Instr) (k : Reg) (n : Nat) (have' : Rack → Nat) (s : State) : Out :=
  finish s (s.doing (useOf i) fun s' => do
    let b ← s.boundRack k
    let r ← s.recSeen b
    faultIf (n > r.n) .rackOverrun n
    if have' r ≥ n then .ok s' else .error (.wait true))

/-- RKWF (R145). -/
def execRkwf (k : Reg) (n : BitVec 7) (s : State) : Out := rackWait (.rkwf k n) k n.toNat (·.nfill) s
/-- RKWS (R145). -/
def execRkws (k : Reg) (n : BitVec 7) (s : State) : Out :=
  rackWait (.rkws k n) k n.toNat (·.room) s

/-- The input port of the running firing that a rack holds (R20). -/
def State.myPort (s : State) (base : Nat) : Option Nat :=
  match s.me.rack? base with
  | some r => if r.owner = some s.t.inst then r.port else none
  | none => none

/-- The consumption rate of an input port of the running firing. -/
def State.myRate (s : State) (p : Nat) : Nat :=
  match FMap.find? s.insts s.t.inst with
  | some i => inRate (aIn (s.descOfInst i) p)
  | none => 0

/-- Slots of a port the firing has freed so far. -/
def State.myFreed (s : State) (p : Nat) : Nat :=
  match s.t.fir with | some f => FMap.get 0 f.freed p | none => 0

/-- Count a free toward the port's rate; it may not go beyond it (R20, R146, R228). -/
def State.countFree (s : State) (base n : Nat) : Res State :=
  match s.myPort base with
  | none => .ok s
  | some p =>
    if s.myFreed p + n > s.myRate p then fault .rackOverrun n
    else .ok (s.updT fun t => t.updFir fun f => { f with freed := FMap.upd 0 f.freed p (· + n) })

/-- The output port of the running firing that produces into a rack of this core (R19). -/
def State.myOut (s : State) (base : Nat) : Option Nat :=
  match FMap.find? s.insts s.t.inst, s.me.rack? base with
  | some i, some r =>
    (span 0 (aNout (s.descOfInst i))).find? fun p =>
      s.outLocal i p && r.owner = some (s.outDest i p) && r.port = some (bits (aOut (s.descOfInst i) p) 18 16)
  | _, _ => none

/-- Tokens an output port has sent in this firing count toward its declared rate (R19). -/
def State.countSent (s : State) (p n : Nat) : Res State :=
  match FMap.find? s.insts s.t.inst with
  | none => .ok s
  | some i =>
    let sent := match s.t.fir with | some f => FMap.get 0 f.sent p | none => 0
    if sent + n > outRate (aOut (s.descOfInst i) p) then fault .rackOverrun n
    else .ok (s.updT fun t => t.updFir fun f => { f with sent := FMap.put f.sent p (sent + n) })

/-- RKADV (R146): tentative until the commit (R127). The slots it frees are pops, whose lines enter the read
signature (R289). -/
def execRkadv (k : Reg) (n : BitVec 7) (w : BitVec 1) (s : State) : Out :=
  let m := n.toNat
  finish s (s.doing (useOf (.rkadv k n w)) fun s' => do
    let b ← s.boundRack k
    let r ← s.recSeen b
    if w = 1#1 then
      faultIf (m > r.room) .rackOverrun m
      let s' ← (match s.myOut b with | some p => s'.countSent p m | none => .ok s')
      .ok (s'.withChunk fun ch => { ch with moves := FMap.upd (0, 0) ch.moves b fun p => (p.1 + m, p.2) })
    else
      faultIf (m > r.nfill) .rackOverrun m
      let s' ← s'.countFree b m
      let s' := s'.updT fun t =>
        if t.claimed b = 0 then t else t.setClaimed b (t.claimed b - m)
      .ok ((s'.noteLines (s.popLines b r m)).withChunk fun ch =>
        { ch with moves := FMap.upd (0, 0) ch.moves b fun p => (p.1, p.2 + m) }))

/-- RKRD's four views (R147). TFILL and TFREE have 8 bits: a larger count shows its low 8 (log 86). -/
def State.rackView (s : State) (base : Nat) (r : Rack) (sel : Nat) : Nat :=
  match sel with
  | 0 => r.word base
  | 1 =>
    match s.dryHead base with
    | some a => a
    | none => padOfCore s.cur + r.slotOff base r.free
  | 2 => padOfCore s.cur + r.slotOff base (r.fill + r.wait)
  | _ =>
    let m := match s.me.chunk with | some ch => ch.movesOf base | none => (0, 0)
    (m.1 % 256) <<< 24 + (m.2 % 256) <<< 16 + r.room <<< 8 + r.nfill

/-- RKRD (R147). -/
def execRkrd (d k : Reg) (sel : BitVec 2) (s : State) : Out :=
  finish s (s.doing (useOf (.rkrd d k sel)) fun s' => do
    let b ← s.boundRack k
    let r ← s.recSeen b
    .ok (s'.setG d (word (s.rackView b r sel.toNat))))

/-- The key of a stream register (R143); a priority-1 firing binds its own g24-g31, whose bank shows no binding (R28,
R130). -/
def streamKey (level : Nat) (t : Reg) (vec : BitVec 1) : Nat :=
  if vec = 1#1 then 32 + t.toNat else if level = 1 then 64 + t.toNat else t.toNat

/-- The stream a descriptor describes (R129). -/
def streamOf (b : List Byte) (vec : Bool) (user : Bool) (level fir : Nat) : Stream :=
  { src := fieldAt b 0 8, esz := if vec then 64 else 2 ^ (fieldAt b 8 4 % 4), sign := bit (fieldAt b 8 4) 2,
    counts := (span 0 4).map fun i => fieldAt b (0x10 + 4 * i) 4,
    strides := (span 0 4).map fun i => fieldAt b (0x20 + 8 * i) 8,
    next := 0, popped := 0, staged := [], go := false, wins := [], user := user, level := level, fir := fir, tlb := [] }

/-- The checks of a stream descriptor after its read (R148). -/
def State.streamBad (s : State) (b : List Byte) (x : Stream) (vec : Bool) : Option Cause :=
  let leaf := s.translate s.cur s.myPart x.src
  let loc := match leaf with | some p => s.locate (p.base + x.src % 2 ^ p.size) | none => .nothing
  let win := match loc with | .pad _ _ w _ => w ≠ 0 | _ => false
  if leaf.isSome && loc = .hbm then some .noDramPath
  else if x.src % x.esz ≠ 0 || x.strides.any (fun d => d % x.esz ≠ 0) || (!vec && win && x.esz ≠ 4) then some .misaligned
  else if x.counts.any (fun c => c = 0 || c > 2 ^ 24) || fieldAt b 0xC 4 ≠ 0 || fieldAt b 8 4 / 8 ≠ 0
    || (vec && fieldAt b 8 4 ≠ 0) then some .copyPattern
  else none

/-- STBIND (R148). -/
def execStbind (t a : Reg) (vec : BitVec 1) (s : State) : Out :=
  finish s (s.doing (useOf (.stbind t a vec)) fun s' => do
    let r ← s'.readBlock (s.gIn a).toNat 64
    let x := streamOf r.2 (vec = 1#1) (!s.t.sup) s.t.level s.t.serial
    match s.streamBad r.2 x (vec = 1#1) with
    | some c => s.freeFault c
    | none =>
      let key := streamKey s.t.level t vec
      let s' := r.1.updT fun c => { c with streams := FMap.put c.streams key x }
      .ok (s'.effect (.streamGo key s.t.serial)).endAfter)

/-- STUNB (R148): it ends its chunk, at whose commit the binding ends for every other agent; a squash brings it back with
the core's state. -/
def execStunb (t : Reg) (vec : BitVec 1) (s : State) : Out :=
  finish s (.ok (s.updT fun c => { c with streams := FMap.del c.streams (streamKey s.t.level t vec) }).endAfter)

/-- PARK (R133, R149): values go to the shadow bank, since no priority-1 firing runs. -/
def execPark (a : Reg) (s : State) : Out :=
  let m := (s.gIn a).toNat
  finish s (s.doing (useOf (.park a)) fun s' =>
    if s.t.special then .ok s' else
    .ok (s'.updT fun t => { t with park := (span 1 31).foldl (fun p r =>
      if bit m r && (t.bound r).isNone && (FMap.find? p r).isNone then FMap.put p r 0 else p) t.park }))
/-- UNPARK (R149): the fills leave the values in place. -/
def execUnpark (a : Reg) (s : State) : Out :=
  let m := (s.gIn a).toNat
  finish s (s.doing (useOf (.unpark a)) fun s' =>
    if s.t.special then .ok s' else
    .ok (s'.updT fun t => { t with park := t.park.filter fun (p : Nat × Nat) => !bit m p.1 }))

end Sys2Proof.Machine
end

