-- ==== Sys2Proof/Machine/Matrix.lean ====
section
/-! DEFINITION. The matrix unit's instructions (R219-R225, R228, R237-R245). A queued command forks at
the commit of its chunk; the unit's own steps stand in MatrixEngine. -/
namespace Sys2Proof.Machine

/-- A slot by number. -/
def State.slot (s : State) (n : Nat) : Slot := FMap.get Slot.free s.t.slots n

/-- The instance of the running firing may name the slot (R221). -/
def State.ownsSlot (s : State) (n : Nat) : Bool :=
  let x := s.slot n
  x.owner = some s.t.inst && !x.held

/-- A slot that a command names is checked at issue (R221). -/
def State.checkSlot (s : State) (n : Nat) : Res Unit :=
  if (s.slot n).held then fault .accHeld n
  else if !s.ownsSlot n then fault .accUnowned n
  else .ok ()

/-- A slot is free (R219). -/
def State.slotFree (s : State) (n : Nat) : Bool :=
  match FMap.find? s.t.slots n with
  | none => true
  | some x => x.owner.isNone && !x.shadow && !x.held

/-- Matrix commands issued and not yet forked. -/
def State.matPending (s : State) : List MatCmd :=
  match s.me.chunk with
  | some ch => ch.eff.filterMap fun e => match e with | .mat m => some m | _ => none
  | none => []

/-- A slot has queued or running commands. -/
def State.slotBusy (s : State) (n : Nat) : Bool :=
  (s.me.eng.mat ++ s.me.eng.aside ++ s.matPending).any (·.slot = n)

/-- The two-entry issue queue is full (R222). -/
def State.matQueueFull (s : State) : Bool :=
  (s.me.eng.mat.filter fun m => !m.started).length + s.matPending.length ≥ 2

/-- The slot a named slot's work goes to: itself, or in a held firing its shadow slot, taken from the
free set and initialised from it (R311). -/
def State.slotFor (s : State) (n : Nat) : Res (State × Nat) :=
  if !s.t.heldNow then .ok (s, n) else
  match s.me.held with
  | none => .ok (s, n)
  | some h =>
    match FMap.find? h.shadow n with
    | some m => .ok (s, m)
    | none =>
      if s.slotBusy n then .error (.wait true) else
      match lowestFrom s.slotFree 0 32 with
      | none => .error (.wait true)
      | some m =>
        let x := { s.slot n with owner := none, shadow := true }
        let s := s.updMe fun k => { k with held := k.held.map fun h => { h with shadow := FMap.put h.shadow n m } }
        .ok (s.updT fun t => { t with slots := FMap.put t.slots m x,
                                      park := t.park.filter fun (p : Nat × Nat) => p.2 ≠ m + 1 }, m)

/-- Where the slot's contents stand for a firing that only looks. -/
def State.slotSeen (s : State) (n : Nat) : Nat :=
  if s.t.heldNow then (match s.me.held with | some h => FMap.get n h.shadow n | none => n) else n

/-- A matrix command as it is queued (R222, R225). -/
def State.matCmd (s : State) (op : MatOp) (slot : Nat) : MatCmd :=
  let par := (s.slot slot).par
  { op := op, slot := slot, par := if par.isEmpty then rep 64 0#8 else par, inst := s.t.inst, part := s.myPart,
    user := !s.t.sup, peng := s.t.peng, fir := s.t.serial, frozen := 0, handler := s.t.inTrap, forked := false, started := false,
    wins := [], scale := 0, gaugeA := [], gaugeB := [], bad := none, cnt := none, regions := (none, none),
    sa := [], sb := [], tlb := [], born := 0 }

/-- Queue a command; it stalls while the queue is full. `ends`: it ends its chunk (R222). -/
def State.matPut (s : State) (op : MatOp) (slot : Nat) (ends : Bool) : Res State :=
  if s.matQueueFull then .error (.wait true) else
  let s := (s.effect (.mat (s.matCmd op slot))).pengWait
  .ok (if ends || s.t.peng then s.endAfter else s)

/-! ### Rack sources -/

/-- Claim the head slot of a rack beyond those already claimed (R228): the source of the command. -/
def State.claim (s : State) (k : Reg) (fr : Bool) : Res (State × Src) := do
  let b ← s.boundRack k
  let r ← s.recSeen b
  let c := s.t.claimed b
  if r.nfill ≤ c then .error (.wait true) else
  let s := s.updT fun t => t.setClaimed b (c + 1)
  let s ← (if fr then s.countFree b 1 else .ok s)
  let off := match (if s.dryBase = some b && (s.me.ownMoves b).2 + c = 0 then s.me.held else none) with
    | some h =>
      (match s.translate s.cur s.myPart h.staging with
       | some p => p.base + h.staging % 2 ^ p.size - padOfCore s.cur
       | none => r.slotOff b (r.free + c))
    | none => r.slotOff b (r.free + c)
  .ok (s, .rack b off r.slotSize fr)

/-- A rack-or-link field's source (R237). -/
def State.srcOf (s : State) (f : Reg) (fr : Bool) : Res (State × Src) :=
  if f.toNat < 16 then s.claim f fr else .ok (s, .link (f = 16#5))

/-- A rack-or-link field that names a rack without a binding faults, before the command waits for a slot (R228). -/
def State.srcBound (s : State) (f : Reg) : Res Unit :=
  if f.toNat < 16 then (s.boundRack f).map fun _ => () else .ok ()

/-! ### Commands -/

/-- MZERO (R239). -/
def execMzero (d : Reg) (s : State) : Out :=
  finish s (do
    s.checkSlot d.toNat
    let r ← s.slotFor d.toNat
    r.1.matPut .mzero r.2 false)

/-- MOWN (R238). -/
def execMown (d a : Reg) (s : State) : Out :=
  let want := (span 0 32).filter fun n => bit (s.gIn a).toNat n
  finish s (s.doing (useOf (.mown d a)) fun s' =>
    let no := want.filter fun n => !s.slotFree n && !s.ownsSlot n
    if !no.isEmpty then .ok (s'.setG d (word (no.foldl (fun m n => m + 2 ^ n) 0)))
    else
      let take := want.filter s.slotFree
      .ok ((s'.updT fun t =>
        { t.fillBack take with
          slots := take.foldl (fun m n => FMap.put m n { Slot.free with owner := some t.inst }) t.slots }).setG d 0))

/-- MFREE (R238). -/
def execMfree (a : Reg) (s : State) : Out :=
  let want := (span 0 32).filter fun n => bit (s.gIn a).toNat n
  finish s (s.doing (useOf (.mfree a)) fun s' => do
    allOk s.checkSlot want
    .ok (if want.isEmpty then s' else s'.effect (.mfree want)))

/-- MMA (R240). -/
def execMma (d a b : Reg) (s : State) : Out :=
  finish s (s.doing (useOf (.mma d a b)) fun s' => do
    s.checkSlot d.toNat
    let r ← s'.slotFor d.toNat
    r.1.matPut (.mma (.addr (s.gIn a).toNat) (.addr (s.gIn b).toNat)) r.2 true)

/-- LAY of the captured parameter copy (R224). -/
def State.lay (s : State) (slot : Nat) : Nat := fieldAt (s.slot slot).par 0xA 1

/-- MMAR with A in memory (R240). -/
def execMmar (d a b : Reg) (s : State) : Out :=
  finish s (s.doing (useOf (.mmar d a b)) fun s' => do
    s.checkSlot d.toNat
    let r ← s'.slotFor d.toNat
    let q ← r.1.srcOf b (bit (r.1.lay r.2) 3)
    q.1.matPut (.mma (.addr (s.gIn a).toNat) q.2) r.2 true)
/-- MMAR with A in a rack or a link (R240). -/
def execMmarAk (d a b : Reg) (s : State) : Out :=
  finish s (s.doing (useOf (.mmarAk d a b)) fun s' => do
    s.checkSlot d.toNat
    let r ← s'.slotFor d.toNat
    r.1.srcBound a
    r.1.srcBound b
    let p ← r.1.srcOf a (bit (r.1.lay r.2) 2)
    let q ← p.1.srcOf b (bit (r.1.lay r.2) 3)
    q.1.matPut (.mma p.2 q.2) r.2 true)
/-- MMAG (R230, R240): the index lanes are read at issue. -/
def execMmag (d a b c : Reg) (s : State) : Out :=
  let idx := s.vIn b
  finish s (s.doing (useOf (.mmag d a b c)) fun s' => do
    s.checkSlot d.toNat
    let r ← s'.slotFor d.toNat
    r.1.matPut (.mmag (s.gIn a).toNat idx (s.gIn c).toNat) r.2 true)
/-- MLDC (R241). -/
def execMldc (d a : Reg) (s : State) : Out :=
  finish s (s.doing (useOf (.mldc d a)) fun s' => do
    s.checkSlot d.toNat
    let r ← s'.slotFor d.toNat
    r.1.matPut (.mldc (s.gIn a).toNat) r.2 true)
/-- MDRAIN, memory form (R242). -/
def execMdrain (sl a : Reg) (s : State) : Out :=
  finish s (s.doing (useOf (.mdrain sl a)) fun s' => do
    s.notHeld
    s.checkSlot sl.toNat
    s'.matPut (.mdrain (s.gIn a).toNat) sl.toNat true)

/-- The hash of R235, its bits [23:8]. -/
def drainHash (seed dcnt i j : Nat) : Nat :=
  let h := ((seed + dcnt * 256 + 16 * i + j) * 0xB5AD4B) % 2 ^ 24
  (h ^^^ (h >>> 12)) / 256

/-- The rounding of a drained element (R234, R235). -/
def drainRm (par : List Byte) (dcnt i j : Nat) : Rm :=
  if fieldAt par 0xE 1 = 0 then .rne else .stoch (drainHash (fieldAt par 0x14 4) dcnt i j)

/-- An element of a slot's values. -/
def Slot.at (x : Slot) (i j : Nat) : Lane := at' 0#32 x.vals (16 * i + j)

/-- Row n of a slot as the register form of MDRAIN delivers it (R234). -/
def drainRow (x : Slot) (n : Nat) : VReg :=
  let fmt := fieldAt x.par 0xD 1
  Vector.ofFn fun j =>
    if fmt = 0 then x.at n j.val
    else (decodeElem fmt (encodeElem fmt (drainRm x.par x.dcnt n j.val) (Num.ofBits (x.at n j.val)))).read32

/-- MDRAIN, register form (R242). -/
def execMdrainReg (sl d : Reg) (n : BitVec 4) (s : State) : Out :=
  finish s (s.doing (useOf (.mdrainReg sl d n)) fun s' => do
    s.checkSlot sl.toNat
    let r ← s'.slotFor sl.toNat
    if s.slotBusy r.2 then .error (.wait true) else
    let x := r.1.slot r.2
    faultIf (fieldAt x.par 0xD 1 > 11 || fieldAt x.par 0xE 1 > 1) .matrixOperand sl.toNat
    let s := r.1.updT fun t => { t with slots := FMap.put t.slots r.2 { x with dcnt := (x.dcnt + 1) % 2 ^ 16 } }
    .ok (s.putV d (drainRow x n.toNat)))

/-- MPAR (R239): tentative until its chunk commits. -/
def execMpar (d a : Reg) (s : State) : Out :=
  finish s (s.doing (useOf (.mpar d a)) fun s' => do
    s.checkSlot d.toNat
    let r ← s'.slotFor d.toNat
    let b ← r.1.readBlock (s.gIn a).toNat 64
    .ok ((b.1.updT fun t => { t with slots := FMap.upd Slot.free t.slots r.2 fun x => { x with par := b.2, dcnt := 0 } }).withChunk
      fun ch => { ch with pars := ch.pars ++ [r.2] }))

/-- MSAVE (R243). -/
def execMsave (sl a : Reg) (s : State) : Out :=
  finish s (s.doing (useOf (.msave sl a)) fun s' => do
    s.notHeld
    s.checkSlot sl.toNat
    s'.matPut (.msave (s.gIn a).toNat) sl.toNat true)
/-- MREST (R243). -/
def execMrest (d a : Reg) (s : State) : Out :=
  finish s (s.doing (useOf (.mrest d a)) fun s' => do
    s.notHeld
    s.checkSlot d.toNat
    s'.matPut (.mrest (s.gIn a).toNat) d.toNat true)

/-- The MSTAT word (R244): zeros for a slot the instance does not own. -/
def State.mstatWord (s : State) (n : Nat) : Word :=
  if !s.ownsSlot n then 0 else
  let x := s.slot (s.slotSeen n)
  let pend := ((s.me.eng.mat ++ s.me.eng.aside ++ s.matPending).filter (·.slot = s.slotSeen n)).length
  word (2 ^ 63 + (b2n x.latch.ep) <<< 60 + (b2n x.latch.multi) <<< 59 + x.latch.code <<< 48
    + pend <<< 40 + x.dcnt <<< 16)

/-- MSTAT (R244). -/
def execMstat (d sl : Reg) (s : State) : Out :=
  finish s (s.doing (useOf (.mstat d sl)) fun s' => do
    faultIf (s.slot sl.toNat).held .accHeld sl.toNat
    .ok (s'.setG d (s.mstatWord sl.toNat)))
/-- MSTAT.C (R244): the latch clears at the commit of its chunk. -/
def execMstatC (d sl : Reg) (s : State) : Out :=
  finish s (s.doing (useOf (.mstatC d sl)) fun s' => do
    faultIf (s.slot sl.toNat).held .accHeld sl.toNat
    let s'' := s'.setG d (s.mstatWord sl.toNat)
    .ok (if s.ownsSlot sl.toNat then s''.effect (.mstatClear sl.toNat) else s''))

/-- What a satisfied MWAIT writes: the slots with a set latch, and the code of the lowest (R245). -/
def State.mwaitWord (s : State) (l : List Nat) : Nat :=
  let bad := l.filter fun n => (s.slot (s.slotSeen n)).latch.ep
  match bad with
  | [] => 0
  | n :: _ => bad.foldl (fun m n => m + 2 ^ n) 0 + (s.slot (s.slotSeen n)).latch.code <<< 32

/-- The slots that work on a list of named slots goes to: in a held firing each its shadow slot (R311). -/
def State.slotsFor (s : State) : List Nat → Res State
  | [] => .ok s
  | n :: r => do
    let q ← s.slotFor n
    q.1.slotsFor r

/-- MWAIT (R245). In a held firing it works on shadow slots (R311). -/
def execMwait (d a : Reg) (s : State) : Out :=
  let want := (span 0 32).filter fun n => bit (s.gIn a).toNat n
  finish s (s.doing (useOf (.mwait d a)) fun s' => do
    allOk s.checkSlot want
    let r ← s'.slotsFor want
    if want.any fun n => r.slotBusy (r.slotSeen n) then .error (.wait true) else
    let w := r.mwaitWord want
    if w ≠ 0 && s.t.cetrap then .error (.trap .counterError (word w) true)
    else .ok (r.setG d (word w)).endAfter)

/-! ### Images of a slot (R243) -/

/-- The 16 bits of a latch in an image. -/
def Latch.half (l : Latch) : Nat := (b2n l.ep) <<< 15 + (b2n l.multi) <<< 14 + l.code
/-- A latch read from them. -/
def Latch.ofHalf (x : Nat) : Latch := ⟨bit x 15, bit x 14, bits x 7 0, 0, 0⟩
/-- Values of a slot: 256 lanes. -/
def Slot.lanes (x : Slot) : List Lane := if x.vals.isEmpty then rep 256 0#32 else x.vals
/-- The parameter copy's bytes. -/
def Slot.parBytes (x : Slot) : List Byte := if x.par.isEmpty then rep 64 0#8 else x.par
/-- The MSAVE image (R243), with `tail` at 0x448. -/
def Slot.image (x : Slot) (tail : List Byte) : List Byte :=
  x.lanes.flatMap (fun v => leBytes 4 v.toNat) ++ x.parBytes ++ leBytes 4 x.side.toNat ++ leBytes 2 x.dcnt
    ++ leBytes 2 x.latch.half ++ tail ++ rep (56 - tail.length) 0#8
/-- A slot with every field an MSAVE image holds (R243). -/
def Slot.ofImage (x : Slot) (b : List Byte) : Slot :=
  { x with vals := (span 0 256).map (fun i => BitVec.ofNat 32 (fieldAt b (4 * i) 4)),
           par := (b.drop 0x400).take 64, side := BitVec.ofNat 32 (fieldAt b 0x440 4), dcnt := fieldAt b 0x444 2,
           latch := Latch.ofHalf (fieldAt b 0x446 2) }

end Sys2Proof.Machine
end

