-- ==== Sys2Proof/Machine/Placement.lean ====
section
/-! DEFINITION. Placement (R98-R100): allotments, what a core can take, the three policies, the code stores
(R119), and the moves of placed instances (R108). -/
namespace Sys2Proof.Machine

/-! ### Allotments (R388) -/

/-- The partition is allotted a cluster: die * 80 + cluster. -/
def State.hasCluster (s : State) (part die cl : Nat) : Bool := bit (s.cfg part 8 40) (80 * die + cl)
/-- The partition is allotted a memory core: die * 192 + number. -/
def State.hasMemCore (s : State) (part die m : Nat) : Bool := bit (s.cfg part 0x30 96) (192 * die + m)

/-- The core is allotted to the partition. -/
def State.allotted (s : State) (part c : Nat) : Bool :=
  s.exists' c && (if isMemCore c then s.hasMemCore part (dieOf c) ((clusterOf c % 128 - 80) * 16 + c % 16)
    else s.hasCluster part (dieOf c) (clusterOf c % 128))

/-- Allotted cores of one kind on a die, in logical order (R98, R173). -/
def State.dieCores (s : State) (part : Nat) (memory : Bool) (die : Nat) : List Nat :=
  let cls := if memory then span 80 12 else span 0 80
  (cls.flatMap fun cl => (span 0 16).map fun k => die * 2048 + cl * 16 + k).filter fun c => s.allotted part c

/-- Dies of a partition's allotment. -/
def State.allotDies (s : State) (part : Nat) (memory : Bool) : List Nat :=
  (span 0 4).filter fun d => !(s.dieCores part memory d).isEmpty

/-- Clusters of a rectangle, as die * 128 + cluster (R88). -/
def rectClusters (w : Nat) : List Nat :=
  let c0 := bits w 4 0; let r0 := bits w 8 5; let cw := bits w 13 9 + 1; let rh := bits w 17 14 + 1
  (span 0 4).flatMap fun d => (span 0 80).filterMap fun c =>
    let col := 10 * (d % 2) + c % 10
    let row := 8 * (d / 2) + c / 10
    if c0 ≤ col && col < c0 + cw && r0 ≤ row && row < r0 + rh then some (d * 128 + c) else none

/-! ### What a core can take (R99) -/

/-- Two byte ranges meet. -/
def meets (a b : Nat × Nat) : Bool := a.1 < b.1 + b.2 && b.1 < a.1 + a.2

/-- The lowest start, among the range's own and the ends of the others, at which `n` bytes fit. -/
def lowFit (lo hi n : Nat) (used : List (Nat × Nat)) : Option Nat :=
  let c := (lo :: used.map fun u => u.1 + u.2).filter fun a =>
    lo ≤ a && a + n ≤ hi && !(used.any fun u => meets (a, n) u)
  match c with
  | [] => none
  | a :: r => some (r.foldl min a)

/-- The highest start, a multiple of 64, at which `n` bytes fit below `hi`. -/
def highFit (hi n : Nat) (used : List (Nat × Nat)) : Option Nat :=
  let c := (hi :: used.map (·.1)).filterMap fun e =>
    let a := (e - n) / 64 * 64
    if n ≤ e && e ≤ hi && !(used.any fun u => meets (a, n) u) then some a else none
  match c with
  | [] => none
  | a :: r => some (r.foldl max a)

/-- Instances placed on a core. -/
def State.placedOn (s : State) (c : Nat) : List (Nat × Inst) := s.insts.filter fun p => p.2.core = some c

/-- Byte ranges of a core's racks. -/
def Core.rackRanges (k : Core) (mail : Bool) : List (Nat × Nat) :=
  (k.racks.filter fun (p : Nat × Rack) => p.2.mail = mail).map fun (p : Nat × Rack) => (p.1 * 64, p.2.n * p.2.slotSize)

/-- The record of an instance's rack word (R126). -/
def rackFromWord (w key : Nat) (port : Option Nat) (mail : Bool) : Rack :=
  { sz := bits w 14 11, cntm1 := bits w 20 15, fill := 0, free := 0, nfill := 0, owner := some key, level := 0,
    port := port, mail := mail, resv := [], senders := [], owed := [], pend := 0, defer := 0, due := 0, wait := 0 }

/-- The rack word of a message port's rack (R15, R80). -/
def mailWord (inw base : Nat) : Nat :=
  2 ^ 31 + (inSlots inw - 1) <<< 15 + bits inw 8 7 <<< 11 + base

/-- Bases, in units of 64 bytes, of an actor's message-port racks in a mailbox with used ranges (R15, R99). -/
def mailFit (desc : List Byte) : List Nat → List (Nat × Nat) → Option (FMap Nat)
  | [], _ => some []
  | p :: r, used =>
    if inRackPort (aIn desc p) then mailFit desc r used else
    let n := inSlots (aIn desc p) * inSlotSize (aIn desc p)
    match lowFit 0x1C000 0x20000 n used with
    | none => none
    | some a => (mailFit desc r ((a, n) :: used)).map fun m => FMap.put m p (a / 64)

/-- The V = 1 racks of an actor: kN and rack word (R80). -/
def actorRacks (desc : List Byte) : List (Nat × Nat) :=
  (span 0 16).filterMap fun k => if bit (aRack desc k) 31 then some (k, aRack desc k) else none

/-- Where an instance would stand on a core (R99): its mailbox racks and its state block. A draining core takes none (R381),
in the test of R83 whether a launch could ever be placed too (log 88). -/
def State.fit (s : State) (i : Inst) (c : Nat) : Option (FMap Nat × Nat) :=
  let k := s.core c
  let desc := s.descOfInst i
  let here := s.placedOn c
  let own := (actorRacks desc).map fun p => (bits p.2 10 0 * 64, (bits p.2 20 15 + 1) * (64 * 2 ^ bits p.2 14 11))
  let racks := k.rackRanges false
  if here.length ≥ 64 || k.draining || own.any (fun a => racks.any (meets a)) then none else
  match mailFit desc (span 0 (aNin desc)) (k.rackRanges true) with
  | none => none
  | some mail =>
    let blocks := here.map fun (p : Nat × Inst) => (p.2.block, aState (s.descOfInst p.2))
    if own.any (fun a => blocks.any (meets a)) then none else
    (highFit 0x1C000 (aState desc) (own ++ racks ++ blocks)).map fun b => (mail, b)

/-! ### Code stores (R119) -/

/-- An aligned 8-byte word of a code image: execute permission, HBM or window 0 (R119). -/
def State.imageWord (s : State) (part va : Nat) : Except Cause Nat :=
  match s.walk part va with
  | .error _ => .error (s.noXlate part va)
  | .ok p =>
    if !p.x then .error .protExec else
    let dev := p.base + va % 2 ^ p.size
    match s.locate dev with
    | .hbm => s.rawWord dev 8
    | .pad _ _ w _ => if w = 0 then s.rawWord dev 8 else .error .windowUndefined
    | _ => .error .windowUndefined

/-- An image's bytes, `n` words. -/
def State.readImage (s : State) (part va : Nat) : Nat → Except Cause (List Byte)
  | 0 => .ok []
  | n + 1 => do
    let w ← s.imageWord part va
    let r ← s.readImage part (va + 8) n
    .ok (leBytes 8 w ++ r)

/-- IMAGE and IMGLEN of an instance's code (R77, R78). -/
def State.imageOf (s : State) (i : Inst) : Nat × Nat :=
  if i.lslot = 0xFFF then (match (s.part i.part).sup with | some x => (x.image, x.len) | none => (0, 0))
  else match s.launchOf i with
    | some l => (fieldAt l.head 0 8, fieldAt l.head 8 4)
    | none => (0, 0)

/-- A die holds a copy of an image. -/
def State.hasCode (s : State) (die part image len : Nat) : Bool :=
  (s.die die).code.any fun c => c.part = part && c.image = image && c.bytes.length = len

/-- The die's store holds, or takes, a copy (R119): 8 MiB in all. -/
def State.loadCode (s : State) (die part image len : Nat) : Option State :=
  if s.hasCode die part image len then some s
  else if (s.die die).code.foldl (fun n c => n + c.bytes.length) 0 + len > 8388608 then none
  else match s.readImage part image (len / 8) with
    | .error _ => none
    | .ok b => some (s.updDie die fun d => { d with code := d.code ++ [⟨part, image, b⟩] })

/-- A die's copy of an image is in use (R119): a placed instance of a live launch or the supervisor actor stands on
the die and runs it, or a live launch that has the die in its set runs it. -/
def State.codeUsed (s : State) (die part image len : Nat) : Bool :=
  (s.part part).slots.any (fun (p : Nat × Launch) =>
      2 ≤ p.2.st && p.2.st ≤ 4 && p.2.dies.contains die && fieldAt p.2.head 0 8 = image && fieldAt p.2.head 8 4 = len)
    || s.insts.any fun (p : Nat × Inst) => p.2.part = part && p.2.st ≠ .exited && s.imageOf p.2 = (image, len) &&
        (match p.2.core with | some c => dieOf c = die | none => false)

/-- Copies whose last user on their die has ended are freed (R119). -/
def State.freeCode (s : State) (part : Nat) : State :=
  { s with dies := s.dies.map fun (p : Nat × Die) =>
      (p.1, { p.2 with code := p.2.code.filter fun c => c.part ≠ part || s.codeUsed p.1 part c.image c.bytes.length }) }

/-! ### Placing -/

/-- Starting credits of an instance: the slot counts of its ports' destinations (R19). -/
def State.startCredit (s : State) (i : Inst) : FMap Int :=
  let d := s.descOfInst i
  (span 0 (aNout d)).map fun p =>
    let w := aOut d p
    let dd := match s.launchOf i with
      | some l => (at' ⟨[], 0⟩ l.actors (bits w 15 8)).desc
      | none => []
    (p, (inSlots (aIn dd (bits w 18 16)) : Int))

/-- Records of an instance's racks where it stands. -/
def instRacks (key : Nat) (desc : List Byte) (mail : FMap Nat) : List (Nat × Rack) :=
  let ports := span 0 (aNin desc)
  (actorRacks desc).map (fun p =>
    (bits p.2 10 0, rackFromWord p.2 key (ports.find? fun q => inRackPort (aIn desc q) && bits (aIn desc q) 12 9 = p.1) false)) ++
  mail.map fun (p : Nat × Nat) => (p.2, rackFromWord (mailWord (aIn desc p.1) p.2) key (some p.1) true)

/-- Put an instance on a core: records, unmarked (R307, R365), block and tables, contents untouched (R100, R126). -/
def State.putInst (s : State) (key c : Nat) (mail : FMap Nat) (block : Nat) : State :=
  match FMap.find? s.insts key with
  | none => s
  | some i =>
    let rs := instRacks key (s.descOfInst i) mail
    let s := s.updCore c fun k =>
      { k.both (fun t => { t with marks := t.marks.filter fun (p : Nat × Mark) => !(rs.any (·.1 = p.1)) }) with
        part := i.part, racks := rs.foldl (fun m p => FMap.put m p.1 p.2) k.racks }
    s.updInst key fun i => { i with core := some c, mail := mail, block := block, tables := (span 0 6).map fun t => (t, c) }

/-- Place an unplaced instance on a core if the core can take it and its die can hold the code (R86, R99,
R119); the state block is zero-filled. -/
def State.tryPlace (s : State) (key c : Nat) : Option State :=
  match FMap.find? s.insts key with
  | none => none
  | some i =>
    match s.fit i c with
    | none => none
    | some f =>
      let im := s.imageOf i
      match s.loadCode (dieOf c) i.part im.1 im.2 with
      | none => none
      | some s =>
        let s := s.putInst key c f.1 f.2
        let s := s.replace (maskedBytes (padOfCore c + f.2) (rep (aState (s.descOfInst i)) 0#8))
        some (s.updInst key fun x => { x with st := .home, credit := s.startCredit i })

/-! ### Policies (R98) -/

/-- Cores listed round-robin across their dies. -/
def spreadList (cores : List Nat) : List Nat :=
  let per := (span 0 4).map fun d => cores.filter fun c => dieOf c = d
  let n := per.foldl (fun a l => max a l.length) 0
  (span 0 n).flatMap fun r => per.filterMap fun l => l[r]?

/-- Start a list at its element j. -/
def rot (l : List Nat) (j : Nat) : List Nat := if l.isEmpty then [] else l.drop (j % l.length) ++ l.take (j % l.length)

/-- The s-th of n contiguous bands; the first (count mod n) bands get one more. -/
def band (l : List Nat) (n s : Nat) : List Nat :=
  let q := l.length / n
  let r := l.length % n
  (l.drop (s * q + min s r)).take (q + b2n (s < r))

/-- The launch claims a rectangle (R78, R88). -/
def Launch.rect (l : Launch) : Bool := bit (fieldAt l.head 0x12 1) 1
/-- The slot holds a live launch. -/
def Launch.isLive (l : Launch) : Bool := 2 ≤ l.st && l.st ≤ 4

/-- Clusters that other live launches of a partition claim as rectangles (R88). -/
def State.claimed (s : State) (part lslot : Nat) : List Nat :=
  (s.part part).slots.flatMap fun (p : Nat × Launch) =>
    if p.1 ≠ lslot && p.2.isLive && p.2.rect then rectClusters (fieldAt p.2.head 0x1C 4) else []

/-- Cores that a launch's instances may take, in logical order. -/
def State.launchCores (s : State) (part lslot : Nat) (l : Launch) : List Nat :=
  let out := s.claimed part lslot
  List.filter (fun c => !out.contains (clusterOf c)) <|
  let cores := l.dies.flatMap fun d => s.dieCores part l.memory d
  if l.rect then
    let r := rectClusters (fieldAt l.head 0x1C 4)
    ((span 0 4).flatMap fun d => s.dieCores part false d).filter fun c => r.contains (clusterOf c)
  else cores

/-- Instances of a launch that stand before one in the order of R98, and how many of them share its stage. -/
def Launch.before (l : Launch) (aidx num : Nat) : Nat × Nat :=
  let st := aStage (at' ⟨[], 0⟩ l.actors aidx).desc
  (span 0 aidx).foldl (fun n a =>
    let x := at' ⟨[], 0⟩ l.actors a
    (n.1 + x.count, n.2 + if aStage x.desc = st then x.count else 0)) (num, num)

/-- The cores an instance tries, in order (R98). -/
def State.tries (s : State) (l : Launch) (i : Inst) : List Nat :=
  let cores := s.launchCores i.part i.lslot l
  let j := l.before i.aidx i.num
  match fieldAt l.head 0xF 1 with
  | 0 => cores
  | 1 => rot (spreadList cores) j.1
  | _ =>
    let n := fieldAt l.head 0xE 1
    let b := band ((cores.map clusterOf).dedup) n (aStage (s.descOfInst i))
    rot (spreadList (cores.filter fun c => b.contains (clusterOf c))) j.2

/-- The first core of a list that takes an instance. -/
def State.placeOn (s : State) (key : Nat) : List Nat → Option State
  | [] => none
  | c :: r => match s.tryPlace key c with | some t => some t | none => s.placeOn key r

/-- Place one instance by its launch's policy. -/
def State.placeOne (s : State) (key : Nat) : Option State :=
  match FMap.find? s.insts key with
  | none => none
  | some i => match s.launchOf i with
    | none => none
    | some l => s.placeOn key (s.tries l i)

/-- Place every instance of a list. -/
def State.placeAll (s : State) : List Nat → Option State
  | [] => some s
  | k :: r => match s.placeOne k with | some t => t.placeAll r | none => none

/-! ### Moves (R108) -/

/-- Accumulator slots an instance owns on a core (R219). -/
def State.ownedSlots (s : State) (c key : Nat) : List (Nat × Slot) :=
  (s.core c).committed.slots.filter fun (p : Nat × Slot) => p.2.owner = some key

/-- A core may take an instance with its slots: none of their numbers is taken there; a slot that only holds parked
values is free (R133). -/
def State.slotsFree (s : State) (c : Nat) (ns : List Nat) : Bool :=
  ns.all fun n => match FMap.find? (s.core c).committed.slots n with | none => true | some x => x.owner.isNone && !x.shadow

/-- An instance leaves its core's tables: records, slots, marks and queue entry. -/
def Core.dropInst (k : Core) (key : Nat) : Core :=
  let gone := (k.racks.filter fun (p : Nat × Rack) => p.2.owner = some key).map (·.1)
  { k.both (fun t => { t with slots := t.slots.filter fun p => p.2.owner ≠ some key,
                              marks := t.marks.filter fun p => !gone.contains p.1 }) with
    racks := k.racks.filter fun p => p.2.owner ≠ some key,
    runq := k.runq.filter (·.inst ≠ key) }

/-- Move an instance to a core with its state block, racks with contents and pointers, slots with their Kerf
status and dry-fit settings; predictor versions are dropped (R108, R260, R307, R321). -/
def State.moveInst (s : State) (key dest : Nat) : Option State :=
  match FMap.find? s.insts key with
  | none => none
  | some i =>
    match i.core with
    | none => none
    | some c =>
      let slots := s.ownedSlots c key
      if dest = c || !s.slotsFree dest (slots.map (·.1)) then none else
      match s.fit i dest with
      | none => none
      | some f =>
        let im := s.imageOf i
        match s.loadCode (dieOf dest) i.part im.1 im.2 with
        | none => none
        | some s =>
          let k := s.core c
          let d := s.descOfInst i
          let base (r : Nat × Rack) : Nat := match r.2.port with
            | some p => if r.2.mail then FMap.get 0 f.1 p else r.1
            | none => r.1
          let mine := k.racks.filter fun (p : Nat × Rack) => p.2.owner = some key
          let spans := (padOfCore dest + f.2, padOfCore c + i.block, aState d) ::
            mine.map fun r => (padOfCore dest + base r * 64, padOfCore c + r.1 * 64, r.2.n * r.2.slotSize)
          let marks := k.committed.marks.filter fun p => mine.any (·.1 = p.1)
          let s := s.updCore c fun k => k.dropInst key
          let s := s.putInst key dest f.1 f.2
          let s := s.updCore dest fun k =>
            { k.both (fun t =>
                { t.fillBack (slots.map (·.1)) with
                         slots := slots.foldl (fun m p => FMap.put m p.1 p.2) t.slots,
                         marks := marks.foldl (fun m p => FMap.put m p.1 { p.2 with vers := [] }) t.marks }) with
              racks := mine.foldl (fun m r => FMap.put m (base r) r.2) k.racks }
          some (s.carry spans)

/-- The state in which the moves that have been chosen and not yet made are made: what stands on a core then takes room that
no other move may choose (R99, R108). -/
def State.planned (s : State) : State :=
  s.insts.foldl (fun (t : State) (p : Nat × Inst) =>
    match (if p.2.st = .quiesce || p.2.st = .stream then p.2.dest else none) with
    | some d => (t.moveInst p.1 d).getD t
    | none => t) s

end Sys2Proof.Machine
end

