-- ==== Sys2Proof/Machine/Marquetry.lean ====
section
/-! DEFINITION. Hashed multiresolution grids: descriptors, registration, lookup arithmetic (R271-R277)
and the instructions of major 0x11 (R278-R285). The unit's own steps stand in MarquetryEngine. -/
namespace Sys2Proof.Machine

/-! ### Descriptors (R271, R272) -/

/-- CFG. -/
def mqCfg (d : MqReg) : Nat := fieldAt d 0 4
/-- D. -/
def mqD (d : MqReg) : Nat := bits (mqCfg d) 2 0 + 1
/-- L. -/
def mqL (d : MqReg) : Nat := bits (mqCfg d) 6 3 + 1
/-- F. -/
def mqF (d : MqReg) : Nat := 2 ^ bits (mqCfg d) 8 7
/-- TFMT. -/
def mqT (d : MqReg) : Nat := bits (mqCfg d) 9 9
/-- THND. -/
def mqThnd (d : MqReg) : Nat := fieldAt d 4 4
/-- GHND. -/
def mqGhnd (d : MqReg) : Nat := fieldAt d 8 4
/-- A level word. -/
def mqLevel (d : MqReg) (l : Nat) : Nat := fieldAt d (0x20 + 4 * l) 4
/-- N_l. -/
def mqN (d : MqReg) (l : Nat) : Nat := bits (mqLevel d l) 31 16
/-- t_l. -/
def mqLog (d : MqReg) (l : Nat) : Nat := bits (mqLevel d l) 4 0
/-- B_l. -/
def mqBase (d : MqReg) (l : Nat) : Nat := mqF d * (span 0 l).foldl (fun a j => a + 2 ^ mqLog d j) 0
/-- NTOT. -/
def mqTot (d : MqReg) : Nat := mqBase d (mqL d)
/-- The level is indexed densely (R275). -/
def mqDense (d : MqReg) (l : Nat) : Bool := (mqN d l + 1) ^ mqD d ≤ 2 ^ mqLog d l
/-- What MQDEF refuses in a descriptor (R282). -/
def mqBad (d : MqReg) : Bool :=
  bits (mqCfg d) 31 10 ≠ 0 || !zeroAt d 0xC 20 || !zeroAt d 0x60 32 || mqThnd d = 0 ||
    (span 0 16).any fun l =>
      if l < mqL d then mqN d l = 0 || mqLog d l < 4 || mqLog d l > 24 || bits (mqLevel d l) 15 5 ≠ 0
      else mqLevel d l ≠ 0

/-! ### Lookup (R274-R276) -/

/-- x0, fr and om of a coordinate at a level of resolution n (R274). -/
def mqCoord (n : Nat) (p : Lane) : Nat × Lane × Lane :=
  let p := if fle p 0#32 || (Num.ofBits p).isNan then 0#32 else p
  let p := if flt 0x3F800000#32 p then 0x3F800000#32 else p
  let pos := fmul .rne p (itof .rne n)
  let x0 := min (ftoi .rtz 0 (2 ^ 32) pos).toNat (n - 1)
  let fr := fsub .rne pos (itof .rne x0)
  (x0, fr, fsub .rne 0x3F800000#32 fr)

/-- The hash multipliers π of R275. -/
def mqPi : List Nat := [1, 0x9E3779B1, 0x85EBCA77, 0xC2B2AE3D, 0x27D4EB2F, 0x165667B1, 0xD3A2646D, 0xFD7046C5]

/-- Entry index of a corner's coordinates (R275). -/
def mqIndex (d : MqReg) (l : Nat) (xs : List Nat) : Nat :=
  if mqDense d l then xs.foldr (fun x a => x + (mqN d l + 1) * a) 0
  else (List.zipWith (fun x p => x * p % 2 ^ 32) xs mqPi).foldl (· ^^^ ·) 0 % 2 ^ mqLog d l

/-- The corners of a level: entry index and weight, ascending (R274-R276). -/
def mqCorners (d : MqReg) (l : Nat) (pt : List Lane) : List (Nat × Lane) :=
  let cs := (pt.take (mqD d)).map (mqCoord (mqN d l))
  (span 0 (2 ^ mqD d)).map fun c =>
    let picked := List.zipWith (fun (p : Nat × Lane × Lane) i =>
      if bit c i then (p.1 + 1, p.2.1) else (p.1, p.2.2)) cs (span 0 (mqD d))
    let ws := picked.map (·.2)
    (mqIndex d l (picked.map (·.1)), ws.tail.foldl (fmul .rne) (ws.headD 0#32))

/-- The table values one feature of a level sums: value number and weight, in corner order (R272, R276). -/
def mqTerms (d : MqReg) (l f : Nat) (cs : List (Nat × Lane)) : List (Nat × Lane) :=
  cs.map fun p => (mqBase d l + p.1 * mqF d + f, p.2)

/-- The adds of an MQSC in their order: value number and addend (R280, R284). -/
def mqAdds (d : MqReg) (lo hi : Nat) (pt grad : List Lane) : List (Nat × Lane) :=
  (span lo (hi + 1 - lo)).flatMap fun l =>
    (mqCorners d l pt).flatMap fun p =>
      (span 0 (mqF d)).map fun f =>
        (mqBase d l + p.1 * mqF d + f, fmul .rne p.2 (at' 0#32 grad ((l - lo) * mqF d + f)))

/-! ### Registration (R273) -/

/-- The registration set of the running firing or handler. -/
def CoreT.mqSet (t : CoreT) : FMap MqReg :=
  if t.fir1.isSome then (if t.inTrap then t.mqh1 else t.mq1) else if t.inTrap then t.mqh else t.mq0

/-- Register a descriptor. -/
def CoreT.mqPut (t : CoreT) (a : Nat) (d : MqReg) : CoreT :=
  if t.fir1.isSome then
    (if t.inTrap then { t with mqh1 := FMap.put t.mqh1 a d } else { t with mq1 := FMap.put t.mq1 a d })
  else if t.inTrap then { t with mqh := FMap.put t.mqh a d } else { t with mq0 := FMap.put t.mq0 a d }

/-- The registered descriptor at an address. -/
def State.mqAt (s : State) (a : Nat) : Option MqReg := FMap.find? s.t.mqSet a

/-! ### Instructions -/

/-- Registers that hold the values of levels LO to HI from vector register d (R283). -/
def mqSpan (d : Reg) (desc : MqReg) (w : Nat) : List Reg :=
  let n := cdiv ((bits w 7 4 + 1 - bits w 3 0) * mqF desc) 16
  (span d.toNat (min (max n 1) (16 - d.toNat))).map (BitVec.ofNat 5 ·)

/-- The registers MQLD writes and MQSC reads, as far as its descriptor and level word say. -/
def State.mqRange (s : State) (d a b : Reg) : List Reg :=
  match s.mqAt (s.gIn a).toNat with
  | some desc => mqSpan d desc (s.gIn b).toNat
  | none => [d]

/-- The first two checks of R283 and R284: the registered descriptor. -/
def State.mqCheck (s : State) (a : Nat) (w d : Nat) (grad regs : Bool) : Res MqReg :=
  match s.mqAt a with
  | none => fault .mqDescriptor a
  | some desc => do
    faultIf (grad && mqGhnd desc = 0) .mqDescriptor a
    let lo := bits w 3 0
    let hi := bits w 7 4
    faultIf (lo > hi || hi ≥ mqL desc || (regs && d + cdiv ((hi - lo + 1) * mqF desc) 16 - 1 > 15)) .mqDimension a
    .ok desc

/-- MQDEF (R282). -/
def execMqdef (d a : Reg) (s : State) : Out :=
  let g := (s.gIn a).toNat
  finish s (s.doing (useOf (.mqdef d a)) fun s' => do
    let r ← s'.readBlock g 128
    faultIf (mqBad r.2) .mqDescriptor g
    faultIf (s.regionSeen s.myPart (mqThnd r.2)).isNone .staleHandle (mqThnd r.2)
    faultIf (s.staleSeen (mqGhnd r.2)) .staleHandle (mqGhnd r.2)
    faultIf ((s.mqAt g).isNone && s.t.mqSet.length ≥ 8) .mqDescriptor g
    .ok ((r.1.updT fun t => t.mqPut g r.2).setG d (word (mqTot r.2))))

/-- The window that an address of the table lies in is as R283 asks: an element window of the table's format without
scales. An address without a translation, or one that names HBM or nothing, is left to its slot's own fault; an address of
the counter region or the I/O region, which has no window, passes, and its word is read as a slot of raw FP32 (log 86). -/
def State.mqSlotOk (s : State) (desc : MqReg) (va : Nat) : Bool :=
  match s.translate s.cur s.myPart va with
  | none => true
  | some p =>
    let loc := s.locate (p.base + va % 2 ^ p.size)
    let d := descOf s.winsIn loc
    match loc with
    | .pad _ _ w _ => w ≠ 0 && wFmt d = mqT desc && wBlk d = 0
    | _ => true

/-- The slot at which the table check of R283 fails, over the region's base and the slots that are read. -/
def State.mqBadSlot (s : State) (desc : MqReg) (r : Region) (slots : List Nat) : Option Nat :=
  if 4 * mqTot desc > r.len || !s.mqSlotOk desc r.base then slots.head? else slots.find? fun a => !s.mqSlotOk desc a

/-- The value numbers an MQLD reads, in the order of R276. -/
def mqReads (desc : MqReg) (lo hi : Nat) (pt : List Lane) : List (List (Nat × Lane)) :=
  (span lo (hi + 1 - lo)).flatMap fun l =>
    (span 0 (mqF desc)).map fun f => mqTerms desc l f (mqCorners desc l pt)

/-- A feature's sum: rne(acc + rne(w * T)) over its terms (R276). -/
def mqSum (ts : List (Lane × Lane)) : Lane :=
  ts.foldl (fun acc p => fadd .rne acc (fmul .rne p.1 p.2)) 0#32

/-- MQLD (R278, R283). -/
def execMqld (d a c b : Reg) (s : State) : Out :=
  let g := (s.gIn a).toNat
  let w := (s.gIn b).toNat
  let pt := (s.vIn c).toList
  let regs := s.mqRange d a b
  finish s (s.doing { useOf (.mqld d a c b) with wv := regs } fun s' => do
    let desc ← s.mqCheck g w d.toNat false true
    match s.regionSeen s.myPart (mqThnd desc) with
    | none => fault .staleHandle (mqThnd desc)
    | some r =>
      faultIf (!r.r) .protRead (mqThnd desc)
      let sums := mqReads desc (bits w 3 0) (bits w 7 4) pt
      let addr (n : Nat) := (r.base + 4 * n) % 2 ^ 64
      let slots := sums.flatMap fun l => l.map fun p => addr p.1
      (match s.mqBadSlot desc r slots with | some a => fault .mqDescriptor a | none => .ok ())
      let accs ← s'.slotAccs .read slots
      let vals := (List.zip (sums.flatMap fun l => l.map (·.2)) (accs.map fun x => BitVec.ofNat 32 (s'.slotIn x).bits32))
      let n := 2 ^ mqD desc
      let feats := (span 0 sums.length).map fun i => mqSum ((vals.drop (n * i)).take n)
      let s'' := s'.noteSlots accs
      .ok ((List.zip regs (span 0 regs.length)).foldl (fun s p => s.putV p.1 (stripLanes (feats.drop (16 * p.2)))) s''))

/-- Words that a command writes, with the addends of an MQSC (R280, R284). -/
def MqCmd.work (m : MqCmd) : List (Nat × Lane) :=
  if m.zero then
    (span (mqBase m.desc m.lo) (mqBase m.desc (m.hi + 1) - mqBase m.desc m.lo)).map fun n => (n, 0#32)
  else mqAdds m.desc m.lo m.hi m.pt m.grad

/-- Marquetry commands issued and not yet forked. -/
def State.mqPending (s : State) : Nat :=
  match s.me.chunk with
  | some ch => (ch.eff.filter fun e => match e with | .mq _ => true | _ => false).length
  | none => 0

/-- Queue a Marquetry command (R279): it stalls while the two-entry queue is full, and ends its chunk. -/
def State.mqQueue (s : State) (m : MqCmd) : Res State :=
  if s.me.eng.mq.length - 1 + s.mqPending ≥ 2 then .error (.wait true)
  else .ok ((s.effect (.mq m)).endAfter.pengWait)

/-- MQSC and MQZ (R284). -/
def mqCommand (zero : Bool) (d : Nat) (g w : Nat) (pt grad : List Lane) (s s' : State) : Res State := do
  s.notHeld
  let desc ← s.mqCheck g w d true (!zero)
  faultIf (s.regionSeen s.myPart (mqGhnd desc)).isNone .staleHandle (mqGhnd desc)
  s'.mqQueue
    { zero := zero, desc := desc, lo := bits w 3 0, hi := bits w 7 4, mb := bits w 13 8, pt := pt, grad := grad,
      inst := s.t.inst, part := s.myPart, user := !s.t.sup, peng := s.t.peng, forked := false, need := 4 * mqTot desc,
      base := 0, pos := 0,
      bad := none, tlb := [], born := 0 }

/-- MQSC (R284): coordinates and gradient values are captured at issue. -/
def execMqsc (d a c b : Reg) (s : State) : Out :=
  let regs := s.mqRange d a b
  let pt := (s.vIn c).toList
  let grad := regs.flatMap fun r => (s.vIn r).toList
  let g := (s.gIn a).toNat
  let w := (s.gIn b).toNat
  finish s (s.doing { useOf (.mqsc d a c b) with rv := c :: regs } fun s' =>
    mqCommand false d.toNat g w pt grad s s')
/-- MQZ (R284). -/
def execMqz (a b : Reg) (s : State) : Out :=
  let g := (s.gIn a).toNat
  let w := (s.gIn b).toNat
  finish s (s.doing (useOf (.mqz a b)) fun s' => mqCommand true 0 g w [] [] s s')

/-- The MQSTAT word (R285). -/
def mqStatWord (desc : MqReg) (l : Nat) : Nat :=
  let lv := if l < mqL desc then
      2 ^ 62 + (b2n (mqDense desc l)) <<< 61 + mqLog desc l <<< 56 + mqN desc l <<< 40 + mqBase desc l
    else 0
  2 ^ 63 + lv + bits (mqCfg desc) 2 0 <<< 37 + bits (mqCfg desc) 6 3 <<< 33 + bits (mqCfg desc) 8 7 <<< 31

/-- MQSTAT (R285). -/
def execMqstat (d a b : Reg) (s : State) : Out :=
  let v := match s.mqAt (s.gIn a).toNat with
    | some desc => word (mqStatWord desc (bits (s.gIn b).toNat 3 0))
    | none => 0
  setsG (.mqstat d a b) d v s

end Sys2Proof.Machine
end

