-- ==== Sys2Proof/Machine/System.lean ====
section
/-! DEFINITION. The system instructions: traps and the return from one (R369-R371), WFI (R372), the system
registers (R36-R41, R373), WATCH (R376), window descriptors (R187), translations (R188, R189) and region
handles (R190-R195). -/
namespace Sys2Proof.Machine

/-- The word at the pc, which XVAL receives for the causes of R52. -/
def State.thisWord (s : State) : Nat := ((s.codeWord s.t.pc.toNat).getD 0).toNat

/-- A user-mode firing faults with PRIVILEGED (R35, R51). -/
def State.privileged (s : State) : Res Unit := faultIf (!s.t.sup) .privileged s.thisWord

/-! ### TRAP, BRK and XRET -/

/-- TRAP and BRK: XPC holds the address of the instruction that follows (R370). -/
def trapOp (c : Cause) (imm : BitVec 16) (s : State) : Out :=
  .next (s.takeTrap c (zext imm) s.nextPc false s.secw)

/-- TRAP (R370). -/
def execTrap (imm : BitVec 16) (s : State) : Out := trapOp .trapInsn imm s
/-- BRK (R370). -/
def execBrk (imm : BitVec 16) (s : State) : Out := trapOp .breakpoint imm s

/-- XSTAT after XRET: SUP takes PSUP, INTRAP clears (R371). -/
def xretStat (x : Word) : Word := word (x.toNat / 32 * 32 + x.toNat % 16 / 2 * 2 + bits x.toNat 1 1)

/-- The refill tries a failed read again after an XRET (R130). -/
def Stream.retry (x : Stream) : Stream :=
  let good := x.staged.filter fun (e : Elem) => e.bad.isNone
  { x with staged := good, next := x.next - (x.staged.length - good.length) }

/-- The trapped firing goes on at XPC (R363, R371). After a WATCH_DATA trap the first instruction is not
matched (R366). -/
def State.resume (s : State) (f : Firing) : State :=
  let r := s.t.tr
  s.updMe fun k =>
    let k := k.thaw f.pri
    let t := (k.t.updTr fun x => { x with xstat := xretStat x.xstat }).unhold f.inst
    { k with t := { t with npc := r.xpc, maskOpen := if r.xstat.getLsbD 3 then true else t.maskOpen,
                           mqh := if f.pri = 1 then t.mqh else [], mqh1 := if f.pri = 1 then [] else t.mqh1,
                           streams := t.streams.map fun (p : Nat × Stream) => (p.1, p.2.retry) }.setSkips
               (bits r.xcause.toNat 7 0 = Cause.watchData.code) }

/-- XRET and XRET.K (R371): the chunk that XRET opens holds the instructions after it (R287; log 19). -/
def xret (kill : Bool) (s : State) : Out :=
  finish s (do
    s.privileged
    faultIf (!s.t.inTrap) .illegalOp s.thisWord
    s.ownChunk
    let r := s.t.tr
    match s.t.fir with
    | none => .ok s
    | some f =>
      let s := s.noChunk
      if kill then .ok ((s.stopFiring r.xcause r.xpc r.xval none).stay)
      else if f.down then .ok (((s.discard s.cur f.pri).wake f.inst).stay)
      else
        faultIf (r.xpc.toNat % 4 ≠ 0) .misaligned r.xpc.toNat
        s.checkTarget r.xpc.toNat
        .ok (s.resume f).afterThis)

/-- XRET (R371). -/
def execXret (s : State) : Out := xret false s
/-- XRET.K (R371). -/
def execXretK (s : State) : Out := xret true s

/-! ### WFI -/

/-- TIME has reached a deadline that is not 0 (R372). -/
def State.timeUp (s : State) (deadline : Nat) : Bool := deadline ≠ 0 && s.time s.cur ≥ deadline

/-- WFI (R372): the first turn arms the wait, a later one finds what has happened since. With its deadline already past it
goes on at once (log 87). The instructions after it share its chunk (R287; log 19). -/
def execWfi (d a : Reg) (s : State) : Out :=
  let level := s.t.level
  let now (deadline mask : Nat) : Nat := mask ||| (if s.timeUp deadline then 8 else 0)
  match (s.me.waiting level).await with
  | .wfi _ deadline mask =>
    if now deadline mask = 0 then .next s.stay
    else finish s (s.doing (useOf (.wfi d a)) fun s' =>
      .ok ((s'.setG d (word (now deadline mask))).updMe fun k => k.setWaiting level Waiting.idle).afterThis)
  | _ =>
    finish s (do
      s.ready (useOf (.wfi d a))
      s.ownChunk
      let deadline := (s.gIn a).toNat
      if s.timeUp deadline then .ok ((s.take (useOf (.wfi d a))).setG d 8).afterThis
      else if s.t.maskOpen then .error (.wait true)
      else .ok ((s.updMe fun k =>
        { k.setWaiting level { Waiting.idle with await := .wfi d deadline 0 } with chunk := none }).stay))

/-! ### System registers -/

/-- The kiln register (R40). -/
def State.csrKiln (s : State) : Nat :=
  let cl := s.cluster (clusterOf s.cur)
  cl.scale <<< 16 + (FMap.get ⟨0, 0, 0, false⟩ cl.kilns s.myPart).budget

/-- STAGE of the running firing (R26): zero without one. -/
def State.csrStage (s : State) : Nat :=
  match s.t.fir with
  | none => 0
  | some f =>
    match FMap.find? s.insts f.inst with
    | none => 0
    | some i => match s.launchOf i with
      | none => 0
      | some l => (fieldAt l.head 0xE 1 - 1) <<< 4 + aStage (s.descOfInst i)

/-- SPILLMAP (R36). -/
def CoreT.spillMap (t : CoreT) : Nat := t.park.foldl (fun n p => if p.1 = 0 then n else n + 2 ^ p.1) 0

/-- A system register's value (R36). -/
def State.csr (s : State) (n : Nat) : Word :=
  let r := s.t.tr
  match n with
  | 0x000 => r.xcause
  | 0x001 => r.xval
  | 0x002 => r.xpc
  | 0x003 => r.xstat
  | 0x004 => r.xvec
  | 0x005 => r.xscratch
  | 0x010 => word s.cur
  | 0x011 => word s.csrStage
  | 0x012 => word s.myPart
  | 0x020 => word s.csrKiln
  | 0x021 => r.chmax
  | 0x022 => r.mode
  | 0x030 => r.watcha
  | 0x031 => r.watchm
  | 0x040 => word s.cycle
  | 0x041 => word (s.time s.cur)
  | 0x050 => word s.t.spillMap
  | _ => 0

/-- A register that only supervisor mode writes (R36). MODE never faults (R373). -/
def csrSuper (n : Nat) : Bool := n < 6

/-- The stored chunk limit (R41). -/
def chmaxOf (w : Word) : Word := word (max 64 (min 1024 (wbits w 10 0)))
/-- WATCHM without its reserved bits (R40). -/
def watchmOf (w : Word) : Word := word (wbits w 63 60 <<< 60 + wbits w 47 0)
/-- WATCHA. -/
def watchaOf (w : Word) : Word := word (wbits w 47 0)

/-- The trap registers after a write (R9, R36-R41, R373): reserved fields and RO registers ignore it. -/
def TrapRegs.csrWrite (r : TrapRegs) (sup : Bool) (n : Nat) (w : Word) : TrapRegs :=
  match n with
  | 0x000 => { r with xcause := word (wbits w 9 0) }
  | 0x001 => { r with xval := w }
  | 0x002 => { r with xpc := w }
  | 0x003 => { r with xstat := (r.xstat &&& ~~~0xA#64) ||| (w &&& 0xA#64) }
  | 0x004 => { r with xvec := w &&& ~~~7#64 }
  | 0x005 => { r with xscratch := w }
  | 0x021 => { r with chmax := chmaxOf w }
  | 0x022 => { r with mode := word (wbits w 3 1 <<< 1 + (if sup then wbits w 0 0 else wbits r.mode 0 0)) }
  | 0x030 => { r with watcha := watchaOf w }
  | 0x031 => { r with watchm := watchmOf w }
  | _ => r

/-- Write a system register (R373). -/
def State.csrPut (s : State) (n : Nat) (w : Word) : State :=
  s.updT fun t => t.updTr fun r => r.csrWrite t.sup n w

/-- A user-mode write to a register marked S faults (R35, R373). -/
def State.csrCheck (s : State) (n : Nat) : Res Unit := if csrSuper n then s.privileged else .ok ()

/-- CSRRD (R373). -/
def execCsrrd (g : Reg) (csr : BitVec 12) (s : State) : Out := setsG (.csrrd g csr) g (s.csr csr.toNat) s
/-- CSRWR (R373). -/
def execCsrwr (g : Reg) (csr : BitVec 12) (s : State) : Out :=
  let w := s.gIn g
  finish s (do
    s.csrCheck csr.toNat
    s.doing (useOf (.csrwr g csr)) fun s' => .ok (s'.csrPut csr.toNat w))
/-- CSRSW (R373): both moves in one step. -/
def execCsrsw (g : Reg) (csr : BitVec 12) (s : State) : Out :=
  let w := s.gIn g
  finish s (do
    s.csrCheck csr.toNat
    s.doing (useOf (.csrsw g csr)) fun s' => .ok ((s'.setG g (s.csr csr.toNat)).csrPut csr.toNat w))

/-- WATCH (R376). -/
def execWatch (d a b : Reg) (s : State) : Out :=
  let wa := s.gIn a
  let wb := s.gIn b
  finish s (s.doing (useOf (.watch d a b)) fun s' =>
    .ok ((s'.setG d s.t.watchRec).updT fun t =>
      { t.updTr (fun r => { r with watcha := watchaOf wa, watchm := watchmOf wb }) with watchRec := 0xE000000000000000#64 }))

/-! ### Window descriptors -/

/-- The element window that an address names (R187): its key, scratchpad size and the address's offset in it. -/
def State.windowAt (s : State) (ea : Nat) : Res (Acc × Nat × Nat × Nat) :=
  if ea ≥ 2 ^ 48 then fault .noTranslation ea else
  match s.translate s.cur s.myPart ea with
  | none => fault (s.noXlate s.myPart ea) ea
  | some p =>
    if !s.t.sup && !p.u then fault .protRead ea
    else if !p.r then fault .protRead ea
    else
      let dev := p.base + ea % 2 ^ p.size
      match s.locate dev with
      | .pad b z w off =>
        if w = 0 || p.io then fault .windowUndefined ea
        else .ok (⟨ea, dev, 4, p, .pad b z w off⟩, windowKey b z w, z, off)
      | _ => fault .windowUndefined ea

/-- Write permission on the window's first page (R187). -/
def State.windowOwned (s : State) (ea key off : Nat) : Bool :=
  let vb := addS ea (-(off : Int))
  match s.translate s.cur s.myPart vb with
  | none => false
  | some p => p.base + vb % 2 ^ p.size = key && p.w && (s.t.sup || p.u)

/-- WINSET, write form (R187): the descriptor changes at the commit of its chunk, which it ends. -/
def execWinset (d a b : Reg) (s : State) : Out :=
  let ea := (s.gIn a).toNat
  let w := s.gIn b
  finish s (s.doing (useOf (.winset d a b)) fun s' => do
    let x ← s.windowAt ea
    let key := x.2.1
    faultIf (!s.windowOwned ea key x.2.2.2) .protWrite ea
    faultIf (wRefused x.2.2.1 w) .windowUndefined w.toNat
    let s'' := (s'.fillTlb s.cur s.myPart ea x.1.leaf).noteLines [descLine key]
    .ok (((s''.setG d (FMap.get 0 s.winsIn key)).effect (.winset key w)).endAfter))
/-- WINSET, read form (R187). -/
def execWinsetRead (d a : Reg) (s : State) : Out :=
  let ea := (s.gIn a).toNat
  finish s (s.doing (useOf (.winsetRead d a)) fun s' => do
    let x ← s.windowAt ea
    let s'' := (s'.fillTlb s.cur s.myPart ea x.1.leaf).noteLines [descLine x.2.1]
    .ok (s''.setG d (FMap.get 0 s.winsIn x.2.1)))

/-! ### Translations -/

/-- KIND of a device address (R188). -/
def locKind (l : Loc) : Nat :=
  match l with
  | .hbm => 0
  | .pad _ z _ _ => if z = 0x20000 then 1 else if z = 0x200000 then 2 else 3
  | .counter _ _ => 4
  | .io _ => 5
  | .nothing => 6

/-- The PROBE word of a leaf (R188). -/
def State.probeWord (s : State) (va : Nat) (p : Leaf) : Nat :=
  let dev := p.base + va % 2 ^ p.size
  2 ^ 63 + p.scope <<< 60 + (b2n p.io) <<< 59 + (if p.size = 16 then 0 else if p.size = 21 then 1 else 2) <<< 57
    + locKind (s.locate dev) <<< 54 + (b2n p.u) <<< 53 + (b2n p.x) <<< 52 + (b2n p.w) <<< 51 + (b2n p.r) <<< 50 + dev

/-- PROBE (R188). An entry that cannot be read fails the walk at its level. A walk that failed at level 4 has no place in the two bits that give the level: they are a free
value (log 4). -/
def execProbe (d a : Reg) (s : State) : Out :=
  let va := (s.gIn a).toNat
  finish s (s.doing (useOf (.probe d a)) fun s' =>
    match s.translate s.cur s.myPart va with
    | some p => .ok ((s'.fillTlb s.cur s.myPart va p).setG d (word (s.probeWord va p)))
    | none =>
      let level := match s.walk s.myPart va with | .error n => n % 8 | .ok _ => 0
      if level = 4 then .ok (s'.next.setG d (word ((Config.freeXval s.fresh).toNat % 4)))
      else .ok (s'.setG d (word level)))

/-- Entries that do not map an address of a partition. -/
def tlbDrop (l : List Tlb) (part : Nat) (va : Option Nat) : List Tlb :=
  l.filter fun e => match va with
    | some v => !e.hits part v
    | none => e.part ≠ part

/-- Drop translations of a partition from every TLB and from every engine (R179, R189); `va` none drops all. -/
def State.tlbDropAll (s : State) (part : Nat) (va : Option Nat) : State :=
  let f (l : List Tlb) := tlbDrop l part va
  let stream (m : FMap Stream) : FMap Stream := m.map fun (p : Nat × Stream) => (p.1, { p.2 with tlb := f p.2.tlb })
  { s with
    cores := s.cores.map fun (p : Nat × Core) =>
      let k := p.2.both fun t => { t with streams := stream t.streams }
      let g := k.eng
      (p.1, { k with tlb := f k.tlb, eng := { g with
        copies := g.copies.map fun (x : Copy) => { x with tlb := f x.tlb },
        mat := g.mat.map fun (x : MatCmd) => { x with tlb := f x.tlb },
        aside := g.aside.map fun (x : MatCmd) => { x with tlb := f x.tlb },
        mq := g.mq.map fun (x : MqCmd) => { x with tlb := f x.tlb } } }),
    clusters := s.clusters.map fun (p : Nat × Cluster) => (p.1, { p.2 with tlb := f p.2.tlb }),
    dvs := s.dvs.map fun (v : Dv) => { v with inj := v.inj.map fun (x : DvInj) => { x with tlb := f x.tlb } },
    xmsgs := s.xmsgs.map fun (x : Xmsg) => { x with tlb := f x.tlb },
    xins := s.xins.map fun (x : Xin) => { x with tlb := f x.tlb } }

/-- TLBI (R189): walks and beats of the model are steps of their own, so none is under way. -/
def execTlbi (a : Reg) (sel : BitVec 2) (s : State) : Out :=
  let va := (s.gIn a).toNat
  finish s (do
    s.privileged
    s.doing (useOf (.tlbi a sel)) fun s' => do
      s.ownChunk
      let s' := s'.noChunk
      .ok (match sel.toNat with
        | 0 => s'.tlbDropAll s.myPart (some va)
        | 1 => s'.tlbDropAll s.myPart none
        | _ => s'.updMe fun k => { k with tlb := tlbDrop k.tlb s.myPart (some va) }))

/-! ### Region handles -/

/-- Handle slots that uncommitted HNEWs of a partition hold (R193). -/
def State.newsOf (s : State) (part : Nat) : List Nat :=
  s.cores.flatMap fun (p : Nat × Core) =>
    let f (ch : Chunk) := ch.eff.filterMap fun e => match e with | .hnew n _ => some n | _ => none
    (match p.2.chunk, p.2.t.fir with
     | some ch, some g => if g.part = part then f ch else []
     | _, _ => []) ++
    (match p.2.held with | some h => if h.fir.part = part then h.chunks.flatMap f else [] | none => [])

/-- The lowest free slot above 0 (R193). -/
def State.freeHandle (s : State) (part : Nat) : Option Nat :=
  let news := s.newsOf part
  let used := (s.part part).handles
  lowestFrom (fun n => (FMap.find? used n).isNone && !news.contains n) 1
    (min (used.length + news.length + 1) (2 ^ 20 - 1))

/-- HNEW (R193). -/
def execHnew (d a b : Reg) (s : State) : Out :=
  let base := (s.gIn a).toNat
  let w := (s.gIn b).toNat
  let len := bits w 39 0
  finish s (s.doing (useOf (.hnew d a b)) fun s' => do
    faultIf (base % 64 ≠ 0) .misaligned base
    faultIf (bits w 60 40 ≠ 0 || len = 0 || len % 64 ≠ 0 || len > 0xC000000000 || base + len > 2 ^ 48) .handleRange w
    match s.freeHandle s.myPart with
    | none => fault .handleTableFull 0
    | some n =>
      let r : Region := { base := base, len := len, r := bit w 63, w := bit w 62, rem := bit w 61 }
      .ok ((s'.setG d (word (n <<< 12 + FMap.get 0 (s.part s.myPart).hgens n))).effect (.hnew n r)))

/-- A copy holds a handle. -/
def Copy.holds (x : Copy) (h : Nat) : Bool :=
  x.bad.isNone && (fieldAt x.desc 0x10 4 = h || fieldAt x.desc 0x14 4 = h)
/-- A matrix command holds a handle. -/
def MatCmd.holds (x : MatCmd) (h : Nat) : Bool :=
  x.bad.isNone && (match x.op with
    | .gauge b _ _ | .kmma b _ _ => fieldAt b 0x18 4 = h || fieldAt b 0x20 4 = h
    | _ => false)
/-- A Marquetry command holds a handle. -/
def MqCmd.holds (x : MqCmd) (h : Nat) : Bool := x.bad.isNone && fieldAt x.desc 8 4 = h
/-- LEN. -/
def Xmsg.len (x : Xmsg) : Nat := fieldAt x.desc 0x18 4
/-- UUD rather than RUD. -/
def Xmsg.uud (x : Xmsg) : Bool := bit (fieldAt x.desc 0x38 1) 0
/-- Packets of a message of some bytes: it is cut at multiples of 4,096 (R339). -/
def xPackets (len : Nat) : Nat := cdiv len 4096
/-- A transport send holds a handle. -/
def Xmsg.holds (x : Xmsg) (h : Nat) : Bool := x.bad.isNone && fieldAt x.desc 0 4 = h

/-- Engine operations of a partition that hold a handle's generation (R191, R195). No operation holds the handle 0, which
names no region (R190, R200). -/
def State.holding (s : State) (part h : Nat) : Nat :=
  if h = 0 then 0 else
  s.cores.foldl (fun n (p : Nat × Core) =>
    let g := p.2.eng
    n + (g.copies.filter fun x => x.part = part && x.holds h).length
      + ((g.mat ++ g.aside).filter fun x => x.part = part && x.holds h).length
      + (g.mq.filter fun x => x.part = part && x.holds h).length)
    ((s.xmsgs.filter fun x => x.part = part && x.holds h).length
      + (s.xins.filter fun x => x.part = part && x.rhnd = h && !x.cut).length)

/-- A revocation cuts a copy: it holds the handle and has beats left (R194). -/
def Copy.cutBy (x : Copy) (part h : Nat) : Bool := x.part = part && x.holds h && x.pos < x.total

/-- A revocation cuts a Marquetry command: it has adds or beats left (R194, R280). -/
def MqCmd.cutBy (x : MqCmd) (part h : Nat) : Bool := x.part = part && x.holds h && decide (x.pos < x.work.length)

/-- A revocation cuts a transport send: it holds the handle, and of an UUD message packets are left to send (R194, R339). -/
def Xmsg.cutBy (x : Xmsg) (part h : Nat) : Bool :=
  x.part = part && x.holds h && !(x.uud && decide (x.sent.length ≥ xPackets x.len))

/-- They stop at their next beat or add boundary, where each stands between steps; a copy whose last beat has landed, a
Marquetry command whose last word has been written and an UUD message whose every packet has left complete normally (R194,
R280, R339). -/
def State.revoke (s : State) (part h : Nat) : State :=
  { s with
    cores := s.cores.map fun (p : Nat × Core) =>
      let g := p.2.eng
      let mat (l : List MatCmd) : List MatCmd := l.map fun (x : MatCmd) =>
        if x.part = part && x.holds h then { x with bad := some .handleRevoked } else x
      (p.1, { p.2 with eng := { g with
        copies := g.copies.map fun (x : Copy) => if x.cutBy part h then { x with bad := some .handleRevoked } else x,
        mat := mat g.mat, aside := mat g.aside,
        mq := g.mq.map fun (x : MqCmd) => if x.cutBy part h then { x with bad := some .handleRevoked } else x } }),
    xmsgs := s.xmsgs.map fun (x : Xmsg) => if x.cutBy part h then { x with bad := some .handleRevoked } else x,
    xins := s.xins.map fun (x : Xin) => if x.part = part && x.rhnd = h then { x with cut := true } else x }

/-- Operations with nothing left to write or to send, which no revocation cuts (R194, R280, R339). -/
def State.landed (s : State) (part h : Nat) : Nat :=
  s.cores.foldl (fun n (p : Nat × Core) =>
    n + (p.2.eng.copies.filter fun x => x.part = part && x.holds h && !(x.cutBy part h)).length
      + (p.2.eng.mq.filter fun x => x.part = part && x.holds h && !(x.cutBy part h)).length)
    (s.xmsgs.filter fun x => x.part = part && x.holds h && !(x.cutBy part h)).length

/-- The generation advances and its slot is free, the registration ends (R337) and the operations that hold the old
generation stop at their next beat boundary, all in one step (R194). -/
def State.revokeHandle (s : State) (part h : Nat) : State :=
  ((s.revoke part h).updPart part fun p =>
    { p with handles := FMap.del p.handles (h / 4096), hgens := FMap.put p.hgens (h / 4096) ((h % 4096 + 1) % 4096),
             regs := FMap.del p.regs h }).signal 4 s.cur [regsLine part]

/-- HREV (R194): the first turn revokes; the instruction then waits for the operations that have nothing left to write to
complete, and its last turn writes the number of operations that were stopped. It waits for the glue-up of a held firing
(log 22). -/
def execHrev (d a : Reg) (s : State) : Out :=
  let level := s.t.level
  match (s.me.waiting level).await with
  | .hrev h n =>
    if s.holding s.myPart h ≠ 0 then .next s.stay
    else finish s (s.doing (useOf (.hrev d a)) fun s' =>
      .ok ((s'.setG d (word n)).updMe fun k => k.setWaiting level Waiting.idle).noChunk)
  | _ =>
    let h := (s.gIn a).toNat % 2 ^ 32
    finish s (do
      s.ready (useOf (.hrev d a))
      s.ownChunk
      s.notHeld
      faultIf (s.region s.myPart h).isNone .staleHandle h
      let all := s.holding s.myPart h
      let n := all - s.landed s.myPart h
      if all ≠ 0 && s.t.maskOpen then .error (.wait true)
      else if all = n then .ok ((((s.noChunk.revokeHandle s.myPart h).take (useOf (.hrev d a))).setG d (word n)).noChunk)
      else .ok (((s.noChunk.revokeHandle s.myPart h).updMe fun k =>
        k.setWaiting level { Waiting.idle with await := .hrev h n }).stay))

/-- The HCHK word (R195). -/
def State.hchkWord (s : State) (part h : Nat) : Nat :=
  let n := h / 4096
  let gen := FMap.get 0 (s.part part).hgens n
  let r : Option Region := match FMap.find? (s.part part).handles n with
    | some r => some r
    | none => (List.find? (fun (p : Nat × Region) => p.1 = n) s.ownNews).map fun (p : Nat × Region) => p.2
  gen <<< 48 + (min 255 (s.holding part (n * 4096 + gen))) <<< 40 +
    (match r with
     | some r => (b2n (gen = h % 4096)) <<< 63 + (b2n r.r) <<< 62 + (b2n r.w) <<< 61 + (b2n r.rem) <<< 60 + r.len
     | none => 0)

/-- HCHK (R195). -/
def execHchk (d a : Reg) (s : State) : Out :=
  setsG (.hchk d a) d (word (s.hchkWord s.myPart ((s.gIn a).toNat % 2 ^ 32))) s

end Sys2Proof.Machine
end

