-- ==== Sys2Proof/Machine/Context.lean ====
section
/-! DEFINITION. Context images (R364, R365) and the instructions CTXSAVE (R374) and CTXREST (R375). -/
namespace Sys2Proof.Machine

/-- The instance a handle names in a partition (R22, R24). -/
def State.byHandle (s : State) (part h : Nat) : Except Cause (Nat × Inst) :=
  let lslot := bits h 47 36
  let key := instKey part lslot (bits h 35 28) (bits h 27 12)
  let live : Bool := lslot = 0xFFF || (match FMap.find? (s.part part).slots lslot with
    | some l => l.st < 5
    | none => false)
  if bits h 11 0 ≠ s.genOf part lslot || !live then .error .actorExited else
  match FMap.find? s.insts key with
  | none => .error .unknownActor
  | some i => if i.st = .exited then .error .actorExited else .ok (key, i)

/-- Every engine command that an instance issued has completed (R108, R374). -/
def State.engineIdle (s : State) (key : Nat) : Bool :=
  s.cores.all (fun (p : Nat × Core) =>
    p.2.eng.copies.all (·.inst ≠ key) && p.2.eng.mat.all (·.inst ≠ key) && p.2.eng.aside.all (·.inst ≠ key)
      && p.2.eng.mq.all (·.inst ≠ key))
  && s.dvs.all (fun v => v.inj.all fun x => x.inst ≠ key || x.done) && s.xmsgs.all (·.inst ≠ key)

/-- CRC-32C, one bit (Castagnoli, reflected). -/
def crcBit : Nat → Nat → Nat
  | 0, x => x
  | n + 1, x => crcBit n (if x % 2 = 1 then (x / 2) ^^^ 0x82F63B78 else x / 2)
/-- CRC-32C of bytes (R364). -/
def crc32c (bs : List Byte) : Nat :=
  (bs.foldl (fun c b => crcBit 8 (c ^^^ b.toNat)) 0xFFFFFFFF) ^^^ 0xFFFFFFFF

/-! ### Images -/

/-- The rack records of an instance where it stands, in ascending BASE (R364). -/
def State.recordsOf (s : State) (key c : Nat) : List (Nat × Rack) :=
  (s.core c).racks.filter fun (p : Nat × Rack) => p.2.owner = some key

/-- The kN that an actor's record is bound to, 0xFF for a message port's. -/
def boundK (desc : List Byte) (base : Nat) (r : Rack) : Nat :=
  if r.mail then 0xFF else
  match (actorRacks desc).find? fun p => bits p.2 10 0 = base with
  | some p => p.1
  | none => 0xFF

/-- A rack record of an image: its head and its slots. -/
def State.rackRecord (s : State) (c : Nat) (desc : List Byte) (p : Nat × Rack) : List Byte :=
  let r := p.2
  leBytes 4 (r.word p.1) ++ leBytes 4 (boundK desc p.1 r) ++ leBytes 4 r.fill ++ leBytes 4 r.free
    ++ leBytes 4 r.nfill ++ rep 44 0#8 ++ s.bytesAt (padOfCore c + 64 * p.1) (r.n * r.slotSize)

/-- The set of owned slots as bits. -/
def slotMask (l : List (Nat × Slot)) : Nat := l.foldl (fun n p => n + 2 ^ p.1) 0

/-- An image with its CHK field set. -/
def withChk (b : List Byte) : List Byte := b.take 0x20 ++ leBytes 4 (crc32c b) ++ b.drop 0x24

/-- Bytes of the scratchpad that an image holds: its address and length for the state block and each rack. -/
def State.imageSpans (s : State) (key c : Nat) (i : Inst) : List (Nat × Nat) :=
  (padOfCore c + i.block, aState (s.descOfInst i)) ::
    (s.recordsOf key c).map fun (p : Nat × Rack) => (padOfCore c + 64 * p.1, p.2.n * p.2.slotSize)

/-- The context image of a placed instance (R364). -/
def State.contextImage (s : State) (key c : Nat) (i : Inst) : List Byte :=
  let desc := s.descOfInst i
  let racks := s.recordsOf key c
  let slots := s.ownedSlots c key
  let body := s.bytesAt (padOfCore c + i.block) (aState desc) ++ racks.flatMap (s.rackRecord c desc)
    ++ slots.flatMap fun p => p.2.image (leBytes 8 p.2.kstat.toNat)
  let head (len : Nat) : List Byte :=
    leBytes 4 1 ++ leBytes 4 len ++ leBytes 8 (s.handleOf i) ++ leBytes 4 (c + 2 ^ 31 * b2n (isMemCore c))
      ++ leBytes 1 (aStage desc) ++ leBytes 1 racks.length ++ leBytes 2 0 ++ leBytes 4 (aState desc)
      ++ leBytes 4 (slotMask slots) ++ leBytes 4 0 ++ rep 28 0#8
  withChk (head (64 + body.length) ++ body)

/-- A rack record read from an image: rack word, FILL, FREE, NFILL, slots. -/
structure ImageRack where
  /-- Rack word. -/
  word : Nat
  /-- FILL. -/
  fill : Nat
  /-- FREE. -/
  free : Nat
  /-- NFILL. -/
  nfill : Nat
  /-- The slots' bytes. -/
  data : List Byte
deriving DecidableEq, Repr

/-- The record is a message port's: its base lies in the mailbox (R15). -/
def ImageRack.mail (r : ImageRack) : Bool := bits r.word 10 0 ≥ 0x700

/-- `n` rack records from the bytes at hand, and the bytes after them; none when a reserved field is not
zero or the bytes run out. -/
def imageRacks : Nat → List Byte → Option (List ImageRack × List Byte)
  | 0, b => some ([], b)
  | n + 1, b =>
    let w := fieldAt b 0 4
    let size := (bits w 20 15 + 1) * (64 * 2 ^ bits w 14 11)
    if b.length < 64 + size || !zeroAt b 5 3 || !zeroAt b 0x14 44 then none else
    (imageRacks n (b.drop (64 + size))).map fun r =>
      (⟨w, fieldAt b 8 4, fieldAt b 0xC 4, fieldAt b 0x10 4, (b.drop 64).take size⟩ :: r.1, r.2)

/-- The slot records of a mask's slots; none when a reserved field is not zero or the length differs. -/
def imageSlots : List Nat → List Byte → Option (List (Nat × List Byte))
  | [], b => if b.isEmpty then some [] else none
  | n :: r, b =>
    if b.length < 1152 || bits (fieldAt b 0x446 2) 13 8 ≠ 0 || !zeroAt b 0x450 48 then none else
    (imageSlots r (b.drop 1152)).map fun l => (n, b.take 1152) :: l

/-- Set bits of a mask, rising. -/
def maskBits (m : Nat) : List Nat := (span 0 32).filter (bit m)

/-- What an image holds. -/
structure Image where
  /-- COORD. -/
  coord : Nat
  /-- The state block. -/
  block : List Byte
  /-- Rack records. -/
  racks : List ImageRack
  /-- Slot records. -/
  slots : List (Nat × List Byte)
deriving DecidableEq, Repr

/-- Read an image for an actor with index `aidx` (R375): none where CONTEXT_IMAGE applies. A message port's
rack may stand elsewhere in the mailbox, so its base is not compared. -/
def readImageFor (aidx : Nat) (desc b : List Byte) : Option Image :=
  let coord := fieldAt b 0x10 4
  if fieldAt b 0 4 ≠ 1 || fieldAt b 4 4 ≠ b.length || fieldAt b 0x20 4 ≠ crc32c (b.take 0x20 ++ rep 4 0#8 ++ b.drop 0x24)
    || fieldAt b 0xE 2 ≠ 0 || bits coord 30 13 ≠ 0 || !zeroAt b 0x16 2 || !zeroAt b 0x24 28
    || bits (fieldAt b 8 8) 35 28 ≠ aidx || fieldAt b 0x18 4 ≠ aState desc then none else
  match imageRacks (fieldAt b 0x15 1) (b.drop (64 + aState desc)) with
  | none => none
  | some (racks, rest) =>
    let own := (racks.filter fun r => !r.mail).map (·.word)
    let ports := (racks.filter (·.mail)).map (·.word / 2048)
    let wantOwn := (actorRacks desc).map (·.2)
    let wantPorts := ((span 0 (aNin desc)).filter fun p => !inRackPort (aIn desc p)).map fun p => mailWord (aIn desc p) 0 / 2048
    if !(own.isPerm wantOwn && ports.isPerm wantPorts) then none else
    (imageSlots (maskBits (fieldAt b 0x1C 4)) rest).map fun slots =>
      ⟨coord, (b.drop 64).take (aState desc), racks, slots⟩

/-! ### CTXSAVE -/

/-- A byte address lies where an image may be written (R374): window 0 of a scratchpad, or HBM on a memory
core. An address without a translation is left to the write's own fault. -/
def State.imagePlace (s : State) (va : Nat) : Res Unit :=
  match (if va < 2 ^ 48 then s.translate s.cur s.myPart va else none) with
  | none => .ok ()
  | some p =>
    match s.locate (p.base + va % 2 ^ p.size) with
    | .hbm => if isMemCore s.cur then .ok () else s.freeFault .contextImage
    | .pad _ _ w _ => if w = 0 then .ok () else s.freeFault .contextImage
    | _ => s.freeFault .contextImage

/-- The checks of an image's `n` blocks of 64 bytes from an address, first address first. -/
def State.imageWrites (s : State) : Nat → Nat → Res (List Acc)
  | _, 0 => .ok []
  | va, n + 1 => do
    s.imagePlace va
    let x ← s.access va 64 .write
    let r ← s.imageWrites (va + 64) n
    .ok (x :: r)

/-- The chunk that an image's bytes form. -/
def State.imageChunk (s : State) (xs : List Acc) (b : List Byte) : Chunk :=
  let w := (xs.zip (span 0 xs.length)).flatMap fun p => maskedBytes p.1.dev ((b.drop (64 * p.2)).take 64)
  { s.me.newChunk with buf := bufPut [] w, wr := (w.map fun p => p.1 / 64).dedup,
                       scope := xs.foldl (fun n x => max n x.leaf.scope) 0, sealed := true }

/-- A step-held or stopped instance (R374, R375). -/
def Inst.resting (i : Inst) : Bool := i.atStep || i.st = .stopped

/-- CTXSAVE (R374): the bytes become visible together. A byte that it cannot read faults with SPAD_UNCORRECTABLE (R379). -/
def execCtxsave (d a b : Reg) (s : State) : Out :=
  let h := (s.gIn a).toNat % 2 ^ 48
  let va := (s.gIn b).toNat
  finish s (do
    s.privileged
    s.ownChunk
    s.doing (useOf (.ctxsave d a b)) fun s' => do
      s.notHeld
      match s.byHandle s.myPart h with
      | .error c => s.freeFault c
      | .ok (key, i) =>
        match i.core with
        | none => s.freeFault .contextBusy
        | some c =>
          if !i.resting || key = s.t.inst then s.freeFault .contextBusy else
          let img := s.contextImage key c i
          faultIf (va % 256 ≠ 0) .misaligned va
          let xs ← s.imageWrites va (img.length / 64)
          if !s.engineIdle key || i.st = .stream then .error (.wait true) else
          if (s.imageSpans key c i).any (fun p => s.spoiled p.1 p.2) then s.freeFault .spadUncorrectable else
          let ch := s.imageChunk xs img
          if !s.mayCommit s.cur ch then .error (.wait false) else
          let s'' := xs.foldl (fun s x => s.fillTlb s.cur s.myPart x.ea x.leaf) s'
          .ok (((s''.setG d (word img.length)).noChunk).applyChunk s.cur none ch).afterThis)

/-! ### CTXREST -/

/-- The bytes of an image at an address: its length field, then its blocks. -/
def State.imageBytes (s : State) (va : Nat) : Nat → Res (State × List Byte)
  | 0 => .ok (s, [])
  | n + 1 => do
    let r ← s.readBlock va 64
    let q ← r.1.imageBytes (va + 64) n
    .ok (q.1, r.2 ++ q.2)

/-- The state with an instance taken off its core. -/
def State.liftInst (s : State) (key : Nat) : State :=
  match FMap.find? s.insts key with
  | none => s
  | some i =>
    match i.core with
    | none => s
    | some c => (s.updCore c fun k => k.dropInst key).updInst key fun i => { i with core := none }

/-- A core, given the state without the instance, can take it with the image's slots (R375). -/
def State.canTake (s : State) (key : Nat) (img : Image) (c : Nat) : Bool :=
  match FMap.find? s.insts key with
  | none => false
  | some i =>
    let im := s.imageOf i
    (s.fit i c).isSome && s.slotsFree c (img.slots.map (·.1)) && (s.loadCode (dieOf c) i.part im.1 im.2).isSome

/-- The core that CTXREST takes (R375), given the state without the instance. -/
def State.restoreCore (s : State) (key : Nat) (i : Inst) (img : Image) (any : Bool) : Option Nat :=
  let c := img.coord % 8192
  let ok := isMemCore c = bit img.coord 31 && s.allotted i.part c && s.canTake key img c
  if ok then some c
  else if !any then none
  else
    let cs := match s.launchOf i with
      | some l => s.tries l i
      | none => (span 0 4).flatMap fun d => s.dieCores i.part false d
    cs.find? (s.canTake key img)

/-- Give each message port of an actor its record of the image: equal shapes keep the order of their ports. -/
def matchPorts : List (Nat × Nat) → List ImageRack → List (Nat × ImageRack)
  | [], _ => []
  | (base, w) :: r, rs =>
    match rs.find? fun x => x.word / 2048 = w / 2048 with
    | none => matchPorts r rs
    | some x => (base, x) :: matchPorts r (rs.erase x)

/-- Contents of an instance's block, racks and slots from an image, where it has been put (R375). The tokens
of a restored rack count no sender, so they return no credit. -/
def State.fillFrom (s : State) (key c : Nat) (img : Image) : State :=
  match FMap.find? s.insts key with
  | none => s
  | some i =>
    let desc := s.descOfInst i
    let own := (img.racks.filter fun r => !r.mail).map fun r => (bits r.word 10 0, r)
    let ports := (span 0 (aNin desc)).filterMap fun p => (FMap.find? i.mail p).map fun b => (b, mailWord (aIn desc p) b)
    let recs := own ++ matchPorts ports (img.racks.filter (·.mail))
    let w := maskedBytes (padOfCore c + i.block) img.block ++
      recs.flatMap fun p => maskedBytes (padOfCore c + 64 * p.1) p.2.data
    let s := s.updCore c fun k =>
      { k.both (fun t => { t.fillBack (img.slots.map (·.1)) with slots := img.slots.foldl (fun m p =>
            FMap.put m p.1 { Slot.ofImage Slot.free p.2 with owner := some key, kstat := word (fieldAt p.2 0x448 8) }) t.slots }) with
        racks := recs.foldl (fun m p => FMap.upd (rackFromWord p.2.word key none false) m p.1 fun r =>
          { r with fill := p.2.fill, free := p.2.free, nfill := p.2.nfill, senders := rep p.2.nfill (0, 0, 0, 0) }) k.racks }
    s.replace w

/-- After a move off an old core the tables still name it, its forwarding entry stands, and the launch's placement
generation advances (R100, R108, R375). -/
def State.switchFrom (s : State) (key old : Nat) : State :=
  let s := match FMap.find? s.insts key with
    | some i => s.updPart i.part fun p =>
        match FMap.find? p.slots i.lslot with
        | some l => { p with slots := FMap.put p.slots i.lslot { l with pgen := (l.pgen + 1) % 65536 } }
        | none => p
    | none => s
  s.updInst key fun i =>
    { i with st := .switching, fwd := some old, dest := none, markers := [],
             tables := (span 0 6).map fun t => (t, old) }

/-- Restore an instance on a core (R375). -/
def State.restore (s : State) (key c : Nat) (old : Option Nat) (img : Image) : Option State :=
  let s := s.liftInst key
  match FMap.find? s.insts key with
  | none => none
  | some i =>
    let im := s.imageOf i
    match s.fit i c, s.loadCode (dieOf c) i.part im.1 im.2 with
    | some f, some s =>
      let s := (s.putInst key c f.1 f.2).fillFrom key c img
      let s := s.updInst key fun x =>
        { x with st := .home, busy := false, credit := if old.isNone then s.startCredit i else x.credit }
      some (match old with
        | some o => if o = c then s else s.switchFrom key o
        | none => s)
    | _, _ => none

/-- CTXREST (R375). -/
def ctxrest (i : Instr) (any : Bool) (d a b : Reg) (s : State) : Out :=
  let h := (s.gIn a).toNat % 2 ^ 48
  let va := (s.gIn b).toNat
  finish s (do
    s.privileged
    s.ownChunk
    s.doing (useOf i) fun s' => do
      s.notHeld
      match s.byHandle s.myPart h with
      | .error c => s.freeFault c
      | .ok (key, x) =>
        faultIf (va % 256 ≠ 0) .misaligned va
        let len := fieldAt (← s'.readBlock va 64).2 4 4
        if len % 64 ≠ 0 || len = 0 || len > 2 ^ 19 then s.freeFault .contextImage else
        let q ← s'.imageBytes va (len / 64)
        match readImageFor x.aidx (s.descOfInst x) q.2 with
        | none => s.freeFault .contextImage
        | some img =>
          if !(x.resting || x.st = .unplaced) then s.freeFault .contextBusy
          else if !s.engineIdle key || !(x.st = .home || x.st = .stopped || x.st = .unplaced) then .error (.wait true)
          else
            match (s.liftInst key).restoreCore key x img any with
            | none => s.freeFault .restoreShape
            | some c =>
              match (q.1.noChunk.setG d (word c)).restore key c x.core img with
              | none => s.freeFault .restoreShape
              | some s'' => .ok (s''.wake key).afterThis)

/-- CTXREST (R375). -/
def execCtxrest (d a b : Reg) (s : State) : Out := ctxrest (.ctxrest d a b) false d a b s
/-- CTXREST.ANY (R375). -/
def execCtxrestAny (d a b : Reg) (s : State) : Out := ctxrest (.ctxrestAny d a b) true d a b s

end Sys2Proof.Machine
end

