-- ==== Sys2Proof/Machine/Messages.lean ====
section
/-! DEFINITION. The message instructions (R112-R118): sends, the ends of a firing, masked windows and the
kiln's snapshots. -/
namespace Sys2Proof.Machine

/-! ### Sending -/

/-- Packets of the open chunk that wait for an outbox (R114). -/
def State.sendsPending (s : State) (high : Bool) : Nat :=
  match s.me.chunk with
  | some ch => (ch.eff.filter fun e => match e with | .send _ h => h = high | _ => false).length
  | none => 0

/-- An outbox entry is free: 8 of priority 0, 2 of priority 1 and handlers (R114). -/
def State.outboxRoom (s : State) (high : Bool) : Bool :=
  if high then s.me.out1.length + s.sendsPending true < 2 else s.me.out0.length + s.sendsPending false < 8

/-- Reserve an entry, end the chunk and leave the packet at the commit (R114). -/
def State.sendOut (s : State) (p : Pkt) : Res State :=
  let high := s.t.special
  if s.outboxRoom high then .ok ((s.effect (.send p high)).endAfter) else .error (.wait true)

/-- A packet of the running firing, without a port. -/
def State.pktOf (s : State) (b : List Byte) (eret : Nat × Nat) : Pkt :=
  ⟨s.myPart, b, s.cur + 1, (0, 0), eret, 0, 0, false, .none, false, false, 0⟩

/-- The header checks of R24 and R114 for a device sender. -/
def sendCheck (hdr : Nat) : Res Unit := do
  faultIf (bits hdr 53 51 ≠ 0) .reservedBits hdr
  faultIf (hdrMalformed hdr) .badPacketLength hdr

/-- The handle that an output port's word selects (R114). -/
def State.outHandle (s : State) (i : Inst) (w : Nat) : Nat :=
  let a := bits w 15 8
  i.lslot <<< 36 + a <<< 28 + dmap (bits w 21 20) i.num (s.countOf i.part i.lslot a) <<< 12 + s.genOf i.part i.lslot

/-- Aim a packet by OPORT (R114): 15 leaves the header's own destination; a port's OUT word gives it and one
unit of the reservation is spent. -/
def State.aim (s : State) (b : List Byte) (oport : Nat) (eret : Nat × Nat) : Res (State × Pkt) :=
  if oport = 15 then .ok (s, s.pktOf b eret) else
  match FMap.find? s.insts s.t.inst, s.t.fir with
  | some i, some f => do
    let d := s.descOfInst i
    faultIf (oport ≥ aNout d) .unknownActor oport
    let sent := FMap.get 0 f.sent oport
    faultIf (sent = outRate (aOut d oport)) .rackOverrun oport
    let w := aOut d oport
    let hdr := fieldAt b 0 8
    let hdr := bits hdr 63 51 <<< 51 + bits w 18 16 <<< 48 + s.outHandle i w
    let p := { s.pktOf (leBytes 8 hdr ++ b.drop 8) eret with sender := (f.inst + 1, oport + 1) }
    .ok (s.updT fun t => t.updFir fun g => { g with sent := FMap.put g.sent oport (sent + 1) }, p)
  | _, _ => .ok (s, s.pktOf b eret)

/-- Aligned 8-byte raw words read as LD.D reads them (R114). -/
def State.readWords (s : State) (ea : Nat) : Nat → Res (State × List Byte)
  | 0 => .ok (s, [])
  | n + 1 => do
    let x ← s.access ea 8 .read
    s.ioGate x
    let r ← ((s.noteRead x).ioSeal x).readWords (ea + 8) n
    .ok (r.1, s.rawRead x ++ r.2)

/-- The packet stored at an address (R114). -/
def State.readPacket (s : State) (ea : Nat) : Res (State × List Byte) := do
  faultIf (ea % 32 ≠ 0) .misaligned ea
  let h ← s.readWords ea 1
  sendCheck (leVal h.2)
  s.readWords ea (hdrLen (leVal h.2) / 8)

/-- The handle of the running firing's instance. -/
def State.myHandle (s : State) : Nat :=
  match FMap.find? s.insts s.t.inst with | some i => s.handleOf i | none => 0

/-- SEND (R114). -/
def execSend (a : Reg) (oport : BitVec 4) (eret : BitVec 1) (eport : BitVec 3) (s : State) : Out :=
  finish s (s.doing (useOf (.send a oport eret eport)) fun s' => do
    let r ← s'.readPacket (s.gIn a).toNat
    let p ← r.1.aim r.2 oport.toNat (if eret = 1#1 then (s.myHandle + 1, eport.toNat) else (0, 0))
    p.1.sendOut p.2)

/-- SENDP (R114). -/
def execSendp (a b c : Reg) (oport : BitVec 4) (s : State) : Out :=
  let hdr := (s.gIn a).toNat
  let pkt := leBytes 8 hdr ++ leBytes 8 (s.gIn b).toNat ++ leBytes 8 (s.gIn c).toNat ++ rep 8 0#8
  finish s (s.doing (useOf (.sendp a b c oport)) fun s' => do
    sendCheck hdr
    faultIf (hdrLen hdr ≠ 32) .badPacketLength hdr
    let p ← s'.aim pkt oport.toNat (0, 0)
    p.1.sendOut p.2)

/-! ### Ends -/

/-- The firing ends at the commit of the chunk, which ends (R20, R116); in a handler the instruction faults
with DOUBLE_TRAP. -/
def State.endHere (s : State) (kind : Nat) : Res State :=
  if s.t.inTrap then s.freeFault .doubleTrap else .ok ((s.effect (.ends kind)).endAfter)

/-- The packet of a HOP (R115): the named registers in ascending order, then zeros. -/
def hopPacket (dest pri cls : Nat) (vals : List Word) : List Byte :=
  let len := cdiv (8 + 8 * vals.length) 32
  let hdr := (len - 1) <<< 61 + pri <<< 56 + cls <<< 54 + dest % 2 ^ 51
  let b := leBytes 8 hdr ++ vals.flatMap fun v => leBytes 8 v.toNat
  b ++ rep (32 * len - b.length) 0#8

/-- The registers a HOP's mask names. -/
def hopRegs (m : Nat) : List Reg := ((span 1 31).filter fun i => bit m i).map (BitVec.ofNat 5 ·)

/-- HOP (R115). -/
def execHop (a b : Reg) (s : State) : Out :=
  let named := hopRegs (s.gIn a).toNat
  let dest := (s.gIn b).toNat
  let f := s.t.fir
  finish s (
    if s.t.inTrap then s.freeFault .doubleTrap else
    s.doing { useOf (.hop a b) with rg := a :: b :: named } fun s' => do
      faultIf (bits dest 63 51 ≠ 0) .reservedBits dest
      let pkt := hopPacket dest ((f.map (·.pri)).getD 0) ((f.map (·.cls)).getD 0) (named.map s.gIn)
      let s ← s'.sendOut (s'.pktOf pkt (0, 0))
      s.endHere 1)

/-- DONE (R116). -/
def execDone (s : State) : Out := finish s (s.endHere 0)

/-! ### Masked windows -/

/-- MASKON (R112, R117). -/
def execMaskon (s : State) : Out :=
  finish s (.ok (if s.t.special || s.t.maskOpen then s else
    s.updT fun t => { t with maskOpen := true, maskCnt := 0 }))
/-- MASKOFF (R112, R117). -/
def execMaskoff (s : State) : Out :=
  finish s (.ok (if s.t.special || !s.t.maskOpen then s else
    s.updT fun t => { t with maskOpen := false, maskCnt := 0 }))

/-! ### KILNRD -/

/-- The partition's kiln in the core's cluster. -/
def State.kiln (s : State) (c part : Nat) : Kiln := FMap.get ⟨0, 0, 0, false⟩ (s.cluster (clusterOf c)).kilns part

/-- The age of a queue entry (R101). -/
def State.age (s : State) (e : Entry) : Nat := s.cycle - e.time

/-- The snapshots of R118. -/
def State.kilnView (s : State) (sel : Nat) : Nat :=
  match sel with
  | 0 =>
    let k := s.kiln s.cur s.myPart
    k.allot <<< 48 + (s.cluster (clusterOf s.cur)).scale <<< 32 + k.low <<< 16 + k.budget
  | 1 =>
    let q := s.me.runq
    (sat 32 ((q.map s.age).foldl max 0)) <<< 32 + (q.filter (·.pri = 1)).length <<< 16 + q.length
  | 2 =>
    match s.t.fir with
    | some f => (sat 32 f.drawn) <<< 32 + (sat 16 f.waited) <<< 16 + (b2n f.aged) <<< 2 + f.cls
    | none => 0
  | _ => (s.part s.myPart).dlCount <<< 32 + (s.part s.myPart).dlCause

/-- KILNRD (R118). -/
def execKilnrd (d sel : Reg) (s : State) : Out := setsG (.kilnrd d sel) d (word (s.kilnView sel.toNat)) s

end Sys2Proof.Machine
end

