-- ==== Sys2Proof/Machine/Delivery.lean ====
section
/-! DEFINITION. Where packets go (R24, R100, R109-R111): message delivery, the overflow rings, credit returns
(R19). -/
namespace Sys2Proof.Machine

/-- An operand of the step. -/
def State.arg (s : State) (n : Nat) : Nat := at' 0 s.args n

/-- A step of the device that is not enabled changes nothing. -/
def Out.idle (s : State) : Out := .next s

/-! ### The overflow ring (R110) -/

/-- Entries of a partition's ring on a die: 256 bytes each. -/
def State.ringCap (s : State) (die part : Nat) : Nat := s.cfg part (0xA0 + 16 * die) 8 / 256
/-- Virtual address of a place of a ring. -/
def State.ringVa (s : State) (die part place : Nat) : Nat := s.cfg part (0x98 + 16 * die) 8 + 256 * place
/-- An entry with its packet's bytes as they stand in HBM: the memory cores read them there when the packet is
delivered. An entry whose page no longer translates keeps the bytes it was written with (log 15). -/
def State.ringRead (s : State) (die part : Nat) (e : RingEntry) : RingEntry :=
  match s.walk part (s.ringVa die part e.place) with
  | .ok l => { e with pkt := { e.pkt with
      bytes := s.bytesAt (l.base + s.ringVa die part e.place % 2 ^ l.size) e.pkt.bytes.length } }
  | .error _ => e
/-- A ring's entries, oldest first. -/
def State.ring (s : State) (die part : Nat) : List RingEntry :=
  (FMap.get [] (s.die die).ring part).map (s.ringRead die part)
/-- The place of the ring's next entry: the first free one from the place after the last written. -/
def State.ringPlace (s : State) (die part : Nat) : Nat :=
  let cap := s.ringCap die part
  let p := FMap.get 0 (s.die die).ringPut part % cap
  let free (n : Nat) : Bool := (FMap.get [] (s.die die).ring part).all fun e => e.place ≠ n
  (((span p (cap - p)) ++ span 0 p).find? free).getD p
/-- Virtual address of the ring's next entry. -/
def State.ringNext (s : State) (die part : Nat) : Nat := s.ringVa die part (s.ringPlace die part)
/-- Key of a reported page of a partition's ring. -/
def ringPageKey (part va : Nat) : Nat := part * 2 ^ 64 + va / 65536
/-- Where the next entry of a ring stands, when the memory cores reach its page: the ring lies in HBM (R110), and a page
elsewhere counts as unmapped (log 15). -/
def State.ringPage (s : State) (die part : Nat) : Option (Leaf × Nat) :=
  match s.walk part (s.ringNext die part) with
  | .ok l =>
    let dev := l.base + s.ringNext die part % 2 ^ l.size
    if l.r && l.w && s.locate dev = .hbm then some (l, dev) else none
  | .error _ => none
/-- The memory cores reach the page of the next entry. -/
def State.ringMapped (s : State) (die part : Nat) : Bool := (s.ringPage die part).isSome
/-- An entry cannot be read: a byte of it has an uncorrectable error (R379). -/
def State.ringBad (s : State) (die part : Nat) (e : RingEntry) : Bool :=
  match s.walk part (s.ringVa die part e.place) with
  | .ok l => s.spoiled (l.base + s.ringVa die part e.place % 2 ^ l.size) e.pkt.bytes.length
  | .error _ => false

/-- The ring has no entry left: logged once until it has drained below half (R110). The core that held the first
packet the ring could not take is the one at which that packet arrived (log 76). -/
def State.ringIsFull (s : State) (die part c : Nat) : State :=
  if (s.die die).ringFull.contains part then s
  else (s.updDie die fun d => { d with ringFull := part :: d.ringFull }).logEvent die .ringFull 0 c part

/-- The ring's next page is unmapped: the supervisor hears of it once per page (R110). -/
def State.ringUnmapped (s : State) (die part c : Nat) : State :=
  let va := s.ringNext die part
  if (s.die die).ringPages.contains (ringPageKey part va) then s
  else (s.updDie die fun d => { d with ringPages := ringPageKey part va :: d.ringPages }).tellSup (c + 1) part
    [Cause.ringUnmapped.code, va / 65536 * 65536]

/-- The entries for a packet's port in the rings of every die. -/
def State.ringsFor (s : State) (part key port : Nat) : List RingEntry :=
  (span 0 4).flatMap fun d => (s.ring d part).filter fun e => e.pkt.key = key && hdrPort e.pkt.hdr = port

/-- Every ring of a partition makes room for a new entry of a port at a place in the port's order (R109, R110). -/
def State.ringShift (s : State) (part key port ord : Nat) : State :=
  (span 0 4).foldl (fun (s : State) d => if (FMap.get [] (s.die d).ring part).isEmpty then s else s.updDie d fun x =>
    { x with ring := FMap.put x.ring part ((FMap.get [] x.ring part).map fun (e : RingEntry) =>
        if e.pkt.key = key && hdrPort e.pkt.hdr = port && e.ord ≥ ord then { e with ord := e.ord + 1 } else e) }) s

/-- A move of an instance is over: none of its packets in a partition's rings waits for a marker (R109). -/
def State.ringFree (s : State) (part key : Nat) : State :=
  (span 0 4).foldl (fun (s : State) d => if (FMap.get [] (s.die d).ring part).isEmpty then s else s.updDie d fun x =>
    { x with ring := FMap.put x.ring part ((FMap.get [] x.ring part).map fun (e : RingEntry) =>
        if e.pkt.key = key then { e with holds := false } else e) }) s

/-- The place in its port's order that a new entry takes: before the first entry of `before`, else after all of them. -/
def ringOrd (l : List RingEntry) (before : RingEntry → Bool) : Nat :=
  match (l.filter before).map (·.ord) with
  | [] => l.foldl (fun n e => max n (e.ord + 1)) 0
  | n :: r => r.foldl min n

/-- Put a packet that arrived at a core into its die's ring, its bytes in HBM as a landing write of the memory cores; of
its port's entries in all rings it stands before those of `before`, else last. The flag says whether the ring took it. A
page reported unmapped is tried again by OVERFLOW_RING_RETRY only. `holds` marks one that waits for its die's marker. -/
def State.ringAdd (s : State) (die c : Nat) (p : Pkt) (holds : Bool) (before : RingEntry → Bool) : State × Bool :=
  let q := s.ring die p.part
  if q.length ≥ s.ringCap die p.part then (s.ringIsFull die p.part c, false)
  else if (s.die die).ringPages.contains (ringPageKey p.part (s.ringNext die p.part)) then (s, false)
  else
    let place := s.ringPlace die p.part
    match s.ringPage die p.part with
    | none => (s.ringUnmapped die p.part c, false)
    | some (l, dev) =>
      let port := hdrPort p.hdr
      let ord := ringOrd (s.ringsFor p.part p.key port) before
      let s' := (s.land c l.scope 6 0 (maskedBytes dev p.bytes)).ringShift p.part p.key port ord
      (s'.updDie die fun d => { d with ring := FMap.put d.ring p.part (FMap.get [] d.ring p.part ++ [⟨c, ord, place, holds, p⟩]),
                                       ringPut := FMap.put d.ringPut p.part (place + 1) }, true)

/-! ### A packet's fate -/

/-- The table by which a packet is routed: the one of its sender's die, or of the hub die that serves (R100). -/
def State.entryTable (s : State) (p : Pkt) : Nat :=
  if p.src = 0 then (if s.hub.alive.1 then 4 else 5) else dieOf (p.src - 1)

/-- A dropped packet is a dead letter; an error packet returns when the send asked for one (R110, R111). It is routed
as a packet of the core that dropped it, its coordinate plus one in `at'`, or with 0 of the hub dies (R100). -/
def State.drop (s : State) (at' : Nat) (p : Pkt) (c : Cause) : State :=
  let s := s.deadLetter p.part c
  if p.err || p.eret.1 = 0 then s else
  let h := 1 <<< 56 + p.eret.2 <<< 48 + (p.eret.1 - 1)
  s.next.sendPkt { Pkt.fromHub p.part ([h, p.hdr, c.code, 0].flatMap (leBytes 8)) with err := true, src := at', seq := s.fresh }

/-- A migration's tables are being rewritten, or its markers are on their way (R108). -/
def Inst.moving (i : Inst) : Bool := i.st = .switching || i.st = .drain

/-- A packet that reached the new core directly waits for its die's marker (R109). -/
def State.awaitsMarker (s : State) (i : Inst) (c : Nat) (p : Pkt) : Bool :=
  i.moving && i.core = some c && i.fwd ≠ some c && !i.markers.contains (s.entryTable p)

/-- A ring holds packets for a port of an instance. -/
def State.ringHas (s : State) (die part key port : Nat) : Bool :=
  (s.ring die part).any fun e => e.pkt.key = key && hdrPort e.pkt.hdr = port

/-- A slot takes a packet (R14, R16): the bytes behind a short packet are free values. `spec` is the
speculative sender plus one. -/
def State.enterSlot (s : State) (c base : Nat) (p : Pkt) (spec : Nat) : State :=
  match (s.core c).rack? base with
  | none => s
  | some r =>
    let n := r.slotSize - p.bytes.length
    let b := p.bytes ++ (span 0 n).map fun i => Config.freeByte (s.fresh * 256 + i)
    let a := padOfCore c + r.slotOff base r.fill
    let w := maskedBytes a b
    let s := s.next.replace w
    let s := s.watchAll 6 0 none (w.map (·.1))
    let s := s.updCore c fun k =>
      (k.updRack base fun r => { r.filled 1 with senders := r.senders ++ [(p.sender.1, p.sender.2, spec, p.ts)] }).wfiEvent 1
    s.wakeCore c

/-- A message port of a placed instance has a free slot. -/
def State.slotLeft (s : State) (c base : Nat) : Bool :=
  match (s.core c).rack? base with | some r => r.nfill < r.n | none => false

/-- The checks of R24 at the receiving core, in their order: the instance and its port. -/
def State.addressee (s : State) (p : Pkt) : Except Cause (Nat × Inst × Nat) :=
  match s.byHandle p.part (hdrActor p.hdr) with
  | .error c => .error c
  | .ok (key, i) =>
    let d := s.descOfInst i
    let port := hdrPort p.hdr
    if port ≥ aNin d || inRackPort (aIn d port) then .error .unknownActor
    else if p.bytes.length > inSlotSize (aIn d port) then .error .badPacketLength
    else .ok (key, i, port)

/-- The lowest core on which a launch has an instance (R100); core 0 of die 0 where none of its instances is placed
(log 88). -/
def State.lowestCore (s : State) (i : Inst) : Nat :=
  let cs := s.insts.filterMap fun (p : Nat × Inst) => if p.2.part = i.part && p.2.lslot = i.lslot then p.2.core else none
  match cs with
  | [] => 0
  | c :: r => r.foldl min c

/-- The core at which a packet that names no live instance is resolved (R100): the lowest placed core of its launch. -/
def State.strayCore (s : State) (p : Pkt) : Nat :=
  let h := hdrActor p.hdr
  let cs := s.insts.filterMap fun (q : Nat × Inst) =>
    if q.2.part = p.part && q.2.lslot = bits h 47 36 then q.2.core else none
  match FMap.find? s.insts p.key with
  | some i => i.core.getD (s.lowestCore i)
  | none => match cs with
    | [] => 0
    | c :: r => r.foldl min c

/-- A packet reaches its destination core (R110); the flag says whether it has left the network. A packet that finds
packets of its port in a ring goes there behind them; one that follows a forwarding entry stands before those that its
die's marker still holds back (R109). -/
def State.arrive (s : State) (p : Pkt) : State × Bool :=
  match s.addressee p with
  | .error c => (s.drop (s.strayCore p + 1) p c, true)
  | .ok (key, i, port) =>
    match i.core with
    | none => s.ringAdd (dieOf (s.lowestCore i)) (s.lowestCore i) p false fun _ => false
    | some c =>
      if (s.core c).takeover then (s, false)
      else if i.st = .stream then s.ringAdd (dieOf c) c p false fun _ => false
      else
        let direct := FMap.get c i.tables (s.entryTable p) = c
        let base := s.portBase i port
        let old := i.fwd.getD c
        if direct && s.awaitsMarker i c p then s.ringAdd (dieOf c) c p true fun _ => false
        else if (span 0 4).any (fun d => s.ringHas d p.part key port) || !s.slotLeft c base then
          s.ringAdd (dieOf c) (if direct then c else old) p false fun e =>
            !direct && e.pkt.key = key && hdrPort e.pkt.hdr = port && e.holds && s.awaitsMarker i c e.pkt
        else (s.enterSlot c base p 0, true)

/-- The launch actor takes a packet: it becomes a request (R75, R76, R89). -/
def State.toLaunchActor (s : State) (p : Pkt) : State :=
  if hdrPort p.hdr ≠ 0 then s.drop 0 p .unknownActor
  else if p.bytes.length > 64 then s.drop 0 p .badPacketLength
  else
    let p := if p.src = 0 then s.stampCount p else p
    s.updPart p.part fun x => { x with reqs := x.reqs ++ [⟨p.bytes, none, p.count, none, 0, []⟩] }

/-- A firm packet is delivered; the flag says whether it has left. -/
def State.deliver (s : State) (p : Pkt) : State × Bool :=
  if hdrActor p.hdr = 0xFFF000000000 then (s.toLaunchActor p, true) else s.arrive p

/-- The depth of the held firing that an instance has (R310). -/
def State.heldDepth (s : State) (inst : Nat) : Nat :=
  s.cores.foldl (fun n (p : Nat × Core) => match p.2.held with
    | some h => if h.fir.inst = inst then h.fir.depth else n
    | none => n) 0

/-- A held packet may be delivered at once as a speculative token (R311, R315): its firing has depth 1 or 2 and
its destination stands in the cluster, with a free slot and nothing waiting before it. -/
def State.specTo (s : State) (c : Nat) (p : Pkt) : Option (Nat × Nat) :=
  let depth := s.heldDepth (p.spec - 1)
  if !p.held || p.given || depth = 0 || depth ≥ 3 || !s.nearPkt c p then none else
  match s.addressee p with
  | .error _ => none
  | .ok (key, i, port) =>
    match i.core with
    | none => none
    | some d =>
      let base := s.portBase i port
      if i.moving || i.st = .stream || (s.core d).takeover || (span 0 4).any (fun x => s.ringHas x p.part key port)
        || !s.slotLeft d base then none else some (d, base)

/-- No packet of one flow passes another (R109). -/
def inTurn (p : Pkt) (before : List Pkt) : Bool := before.all fun q => !(q.sameFlow p)

/-- MESSAGE_DELIVERY (R110): operands a kind and an index; kind 0 takes a packet of the network, 1 and 2 one of
the core's two outboxes, 3 the oldest packet of a partition's message window (R92). -/
def execMessageDelivery (s : State) : Out :=
  let n := s.arg 1
  match s.arg 0 with
  | 0 =>
    match pick s.net n with
    | none => .idle s
    | some (p, rest) =>
      if !inTurn p (s.net.take n) then .idle s else
      let r := ({ s with net := rest } : State).deliver p
      if r.2 then .next r.1 else .next { r.1 with net := s.net ++ r.1.net.drop rest.length }
  | 3 =>
    match (s.part n).window with
    | [] => .idle s
    | b :: rest =>
      let r := (s.updPart n fun p => { p with window := rest }).deliver (Pkt.fromHub n b)
      if r.2 then .next r.1 else .next (r.1.updPart n fun p => { p with window := b :: rest })
  | k =>
    let c := s.cur
    let box := if k = 1 then s.me.out0 else s.me.out1
    match pick box n with
    | none => .idle s
    | some (p, rest) =>
      let firm := (s.me.out0 ++ s.me.out1).filter fun (q : Pkt) => !q.held
      if p.held then
        match s.specTo c p with
        | none => .idle s
        | some (d, base) =>
          if !inTurn p (firm ++ (box.take n).filter fun (q : Pkt) => !q.given) then .idle s
          else .next ((s.updMe fun k => { k with out0 := replaceAt k.out0 n { p with given := true } }).enterSlot d base p p.spec)
      else if !inTurn p (firm.filter fun q => q.seq < p.seq) then .idle s
      else
        let s' := s.updMe fun x => if k = 1 then { x with out0 := rest } else { x with out1 := rest }
        let r := s'.deliver p
        if r.2 then .next r.1
        else .next (r.1.updCore c fun x => if k = 1 then { x with out0 := box } else { x with out1 := box })

/-- OVERFLOW_RING_RETRY (R110): operands a die and a partition. The write to a page that was unmapped is tried
again; one that is found mapped is reported anew if it is found unmapped later (log 88). -/
def execOverflowRingRetry (s : State) : Out :=
  let die := s.arg 0
  let part := s.arg 1
  if s.ringMapped die part then
    .next (s.updDie die fun d => { d with ringPages := d.ringPages.erase (ringPageKey part (s.ringNext die part)) })
  else .idle s

/-- A packet leaves a ring; below half of its size the ring may be reported full again (R110). -/
def State.ringTake (s : State) (die part : Nat) (rest : List RingEntry) : State :=
  s.updDie die fun d =>
    { d with ring := FMap.put d.ring part rest,
             ringFull := if 2 * rest.length < s.ringCap die part then d.ringFull.erase part else d.ringFull }

/-- OVERFLOW_RING_DELIVERY (R110): operands a die, a partition and an entry. Of one port, entries leave in the order of
their arrival, over the rings of every die; one that waits for its die's marker holds back those behind it, and packets
that follow the forwarding entry were put before it (R108, R109). An entry that cannot be read is dropped with
SPAD_UNCORRECTABLE (R379; log 15). -/
def execOverflowRingDelivery (s : State) : Out :=
  let die := s.arg 0
  let part := s.arg 1
  let n := s.arg 2
  let q := s.ring die part
  match pick q n with
  | none => .idle s
  | some (e, _) =>
    let rest := (FMap.get [] (s.die die).ring part).eraseIdx n
    if s.ringBad die part e then .next ((s.ringTake die part rest).drop (e.core + 1) e.pkt .spadUncorrectable) else
    match s.addressee e.pkt with
    | .error c => .next ((s.ringTake die part rest).drop (e.core + 1) e.pkt c)
    | .ok (key, i, port) =>
      match i.core with
      | none => .idle s
      | some c =>
        if (s.core c).takeover || i.st = .stream || (e.holds && s.awaitsMarker i c e.pkt)
          || (s.ringsFor part key port).any (fun x => x.ord < e.ord)
          || !s.slotLeft c (s.portBase i port) then .idle s
        else .next ((s.ringTake die part rest).enterSlot c (s.portBase i port) e.pkt 0)

/-- CREDIT_RETURN (R19): operand an index. A credit return reaches its sender. -/
def execCreditReturn (s : State) : Out :=
  match pick s.credits (s.arg 0) with
  | none => .idle s
  | some (x, rest) => .next ((({ s with credits := rest } : State).addCredit x.1 x.2.1 x.2.2).wake x.1)

end Sys2Proof.Machine
end

