-- ==== Sys2Proof/Machine/CopyEngine.lean ====
section
/-! DEFINITION. The copy engine's steps: copies (R196-R204), stream refills (R129, R130, R205), counter
increments (R207), walks (R177), instruction cache fills (R120, R121). -/
namespace Sys2Proof.Machine

/-! ### Completion objects -/

/-- A counter increment is applied (R207); a WFI notes it (R372). An error phase changes the counter's latch, which an
MBERR.C of a held firing has read (R218; log 81). -/
def State.applyPost (s : State) (p : Post) : State :=
  let s := s.updCore p.core fun k => (k.applyInc p).wfiEvent 0
  if p.bad.isSome then s.latchChanged p.core p.idx else s

/-- A completion's increment is applied at its counter before the steps that follow it (R199): 0 posts
nothing. -/
def State.completePost (s : State) (cnt : Option (Nat × Nat)) (agent inc : Nat) (bad : Option (Nat × Nat × Nat)) : State :=
  match cnt with
  | some (c, n) => if inc % 2 ^ 32 = 0 then s else s.applyPost ⟨agent, c, n, inc % 2 ^ 32, bad⟩
  | none => s

/-- The completion of an engine command lets the firing that waits for it go on (R362): with a fault it
takes a precise trap whose XVAL is laid out as a counter's latch. `code` holds cause, AGENT and BYTES. -/
def Core.engineDone (k : Core) (inst : Nat) (bad : Option Cause) (agent bytes : Nat) : Core :=
  let one (w : Waiting) (f : Option Firing) : Waiting :=
    match w.await, f with
    | .engine, some f =>
      if f.inst ≠ inst then w else
      match bad with
      | none => Waiting.idle
      | some c =>
        let v := Latch.word ⟨true, false, c.code, agent, min bytes (2 ^ 32 - 1)⟩
        { Waiting.idle with trap := some (c, word v, f.pc) }
    | _, _ => w
  { k with wait0 := one k.wait0 k.t.fir0, wait1 := one k.wait1 k.t.fir1 }

/-- COUNTER_INCREMENT (R207): operand an index. Increments of one agent to one counter keep their order. -/
def execCounterIncrement (s : State) : Out :=
  match pick s.posts (s.arg 0) with
  | none => .idle s
  | some (p, rest) =>
    if (s.core p.core).takeover then .idle s
    else if (s.posts.take (s.arg 0)).any fun (q : Post) => q.agent = p.agent && q.core = p.core && q.idx = p.idx then .idle s
    else .next (({ s with posts := rest } : State).applyPost p)

/-! ### Translations -/

/-- An engine's walk leaves its leaf in the cluster TLB (R177). -/
def State.engFill (s : State) (c part va : Nat) (l : Leaf) : State :=
  s.updCluster (clusterOf c) fun k => { k with tlb := tlbPutSet k.tlb ⟨part, va / 2 ^ l.size * 2 ^ l.size, l⟩ }

/-- Kept translations enter the cluster TLB (R177). -/
def State.engFills (s : State) (c : Nat) (l : List Tlb) : State :=
  l.foldl (fun s e => s.engFill c e.part e.va e.leaf) s

/-- PAGE_WALK (R177): operand a virtual address. A walk for the core's partition completes; a failed one is
not cached. -/
def execPageWalk (s : State) : Out :=
  match s.walk s.me.part (s.arg 0) with
  | .ok l => .next (s.fillTlb s.cur s.me.part (s.arg 0) l)
  | .error _ => .idle s

/-! ### The instruction cache -/

/-- The set of a line (R120). -/
def icSet (line : Nat) : Nat := line % 256
/-- A copy in a code store: partition, IMAGE and IMGLEN (R119). -/
abbrev CodeId := Nat × Nat × Nat
/-- The copy's name. -/
def Code.id (x : Code) : CodeId := (x.part, x.image, x.bytes.length)
/-- The copy that a firing fetches from. -/
def Firing.code (f : Firing) : CodeId := (f.part, f.lo, f.hi - f.lo)
/-- Key of a line of a copy in a core's cache: the line's number with the copy's name above it. -/
def icKey (x : CodeId) (line : Nat) : Nat := ((x.1 * 2 ^ 48 + x.2.1) * 2 ^ 24 + x.2.2) * 2 ^ 58 + line
/-- A core holds a line. -/
def Core.icHas (k : Core) (x : CodeId) (line : Nat) : Bool := (FMap.get [] k.icache (icSet line)).contains (icKey x line)
/-- A core uses a line: it becomes the most recently used of its set. -/
def Core.icTouch (k : Core) (x : CodeId) (line : Nat) : Core :=
  let l := FMap.get [] k.icache (icSet line)
  { k with icache := FMap.put k.icache (icSet line) (icKey x line :: l.filter (· ≠ icKey x line)) }
/-- A fill installs a line in the least recently used of the two ways; a core that holds it discards the
fill (R121). -/
def Core.icFill (k : Core) (x : CodeId) (line : Nat) : Core :=
  if k.icHas x line then k else
  { k with icache := FMap.upd [] k.icache (icSet line) fun l => icKey x line :: l.take 1 }

/-- Cores of a die that hold a placed instance of a launch using a copy (R121). -/
def State.codeUsers (s : State) (die : Nat) (x : CodeId) : List Nat :=
  (s.insts.filterMap fun (p : Nat × Inst) =>
    match p.2.core with
    | some c => if dieOf c = die && p.2.part = x.1 && s.imageOf p.2 = x.2 then some c else none
    | none => none).dedup

/-- The die fetch agent sends a fill to every core that uses the copy (R121). -/
def State.icFillAll (s : State) (die : Nat) (x : CodeId) (line : Nat) : State :=
  (s.codeUsers die x).foldl (fun s c => s.updCore c fun k => k.icFill x line) s

/-- ICACHE_FILL (R121): operands a die, the index of a copy in its code store and an address in the copy. -/
def execIcacheFill (s : State) : Out :=
  let a := s.arg 2
  match (s.die (s.arg 0)).code[s.arg 1]? with
  | some x => if x.image ≤ a && a < x.image + x.bytes.length then .next (s.icFillAll (s.arg 0) x.id (a / 64)) else .idle s
  | none => .idle s

/-! ### Stream refills -/

/-- The copy engine's side of a location (R129, R201): a scratchpad, or the cause that refuses it. A stream element in the
counter region or on an I/O page, for which R129 and R130 name no cause, has R201's for copies, at its pop (log 88). -/
def padOnly (l : Loc) (io : Bool) : Option Cause :=
  match l with
  | .hbm => some .noDramPath
  | .nothing => some .windowUndefined
  | .pad _ _ _ _ => if io then some .copyPattern else none
  | _ => some .copyPattern

/-- The slots of a stream element: four bytes each for a strip, else the element itself. -/
def Stream.slots (x : Stream) (va : Nat) : List (Nat × Nat) :=
  if x.esz = 64 then (span 0 16).map fun i => ((va + 4 * i) % 2 ^ 64, 4) else [(va, x.esz)]

/-- The value of one slot as LD.WU, LD.W or VLD receives it (R129). -/
def State.streamSlot (s : State) (x : Stream) (a : Acc) : Nat :=
  let raw := leVal ((span a.dev a.size).map s.byte)
  match a.loc with
  | .pad _ _ w _ => if w = 0 then raw else (slot32 s.byte x.wins a.dev a.loc).toNat
  | _ => raw

/-- A slot's access by the refill (R180, R205). -/
def State.streamAcc (s : State) (c : Nat) (x : Stream) (tlb : List Tlb) (va size : Nat) : Except Cause Acc :=
  let part := (s.core c).part
  match s.engXlate c part tlb va with
  | none => .error (s.noXlate part va)
  | some p =>
    match padOnly (s.locate (p.base + va % 2 ^ p.size)) p.io with
    | some e => .error e
    | none => s.engAccess c part x.user tlb x.wins false va size .read

/-- The lines of the bytes that an engine's read takes: raw bytes and the scale byte of an element. Its descriptor is the
one of its fork (R69). -/
def Acc.byteLines (x : Acc) (wins : FMap Word) : List Nat :=
  let r := x.raw wins
  linesOf r.1 r.2 ++ x.scaleLines wins

/-- The values of an element's slots, the translations kept and the lines read. -/
def State.streamSlots (s : State) (c : Nat) (x : Stream) :
    List Tlb → List (Nat × Nat) → Except Cause (List Tlb × List Nat × List Nat)
  | tlb, [] => .ok (tlb, [], [])
  | tlb, (va, n) :: r => do
    let a ← s.streamAcc c x tlb va n
    let q ← s.streamSlots c x (keepTlb tlb (s.core c).part va a.leaf) r
    .ok (q.1, s.streamSlot x a :: q.2.1, a.byteLines x.wins ++ q.2.2)

/-- Element n of a stream and the translations kept (R129, R130). -/
def State.streamElem (s : State) (c : Nat) (x : Stream) (n : Nat) : List Tlb × Elem :=
  let va := (x.src + patOff x.counts x.strides n) % 2 ^ 64
  match s.streamSlots c x x.tlb (x.slots va) with
  | .error e => (x.tlb, ⟨0, some (e, va), []⟩)
  | .ok (tlb, vs, ls) =>
    let w := if x.esz = 64 then 32 else 8 * x.esz
    let v := vs.foldr (fun v a => v + 2 ^ 32 * a) 0
    (tlb, ⟨if x.esz ≠ 64 && x.sign then (BitVec.ofInt 64 (signed w v)).toNat else v, none, ls.dedup⟩)

/-- The elements of a beat from the next one on, at most `fuel`; the first failed read ends it. -/
def State.streamBeat (s : State) (c : Nat) : Stream → Nat → Stream
  | x, 0 => x
  | x, fuel + 1 =>
    if x.next ≥ patTotal x.counts then x else
    let r := s.streamElem c x x.next
    let x := { x with tlb := r.1, staged := x.staged ++ [r.2], next := x.next + 1 }
    if r.2.bad.isSome then x else s.streamBeat c x fuel

/-- Elements that stand in a stream's staging buffer: those popped tentatively are still there (R130). -/
def Core.stagedIn (k : Core) (t : Nat) : Nat :=
  let n (x : CoreT) := match FMap.find? x.streams t with | some y => y.staged.length | none => 0
  max (max (n k.t) (n k.committed)) (match k.held with | some h => n h.start | none => 0)

/-- Elements that the next refill beat of a stream reads: at most 64 bytes, and no more than its staging buffer has room
for; none before the fork, at the end of the pattern or behind a failed read (R130, R205). -/
def State.refillRoom (s : State) (t : Nat) (x : Stream) : Nat :=
  if !x.go || x.next ≥ patTotal x.counts || x.staged.any (fun e => e.bad.isSome) then 0
  else (512 / x.esz - s.me.stagedIn t).min (max 1 (64 / x.esz))

/-- A refill beat is due on the core's engine: it is served before any channel beat (R205). -/
def State.refillDue (s : State) : Bool := s.t.streams.any fun (p : Nat × Stream) => s.refillRoom p.1 p.2 > 0

/-- STREAM_REFILL (R205): operand a stream register. One beat of at most 64 bytes lands in its staging
buffer of 512 bytes. -/
def execStreamRefill (s : State) : Out :=
  let t := s.arg 0
  match FMap.find? s.t.streams t with
  | none => .idle s
  | some x =>
    let room := s.refillRoom t x
    if s.me.takeover || room = 0 then .idle s else
    let y := s.streamBeat s.cur { x with staged := [] } room
    let s := s.engFills s.cur y.tlb
    .next (s.updMe fun k => k.both fun ct =>
      match FMap.find? ct.streams t with
      | some z =>
        if z.next ≠ x.next then ct else
        { ct with streams := FMap.put ct.streams t { z with staged := z.staged ++ y.staged, next := y.next, tlb := y.tlb } }
      | none => ct)

/-! ### Copies -/

/-- The copy that a channel moves: its oldest (R197). -/
def Engines.head (g : Engines) (ch : Nat) : Option Copy := g.copies.find? fun (x : Copy) => x.ch = ch
/-- Change the copy that a channel moves. -/
def Engines.updHead (g : Engines) (ch : Nat) (f : Copy → Copy) : Engines :=
  match g.head ch with
  | some x => { g with copies := g.copies.map fun (y : Copy) => if y.ch = ch && y.id = x.id then f y else y }
  | none => g

/-- COPY_START (R197): a copy that waited as the 33rd is in flight. -/
def execCopyStart (s : State) : Out :=
  let g := s.me.eng
  if s.me.takeover || (g.copies.filter fun (x : Copy) => x.active).length ≥ 32 then .idle s else
  match g.copies.findIdx? fun (x : Copy) => !x.active with
  | none => .idle s
  | some i => .next (s.updEng s.cur fun g => { g with copies := (g.copies.zip (span 0 g.copies.length)).map fun (p : Copy × Nat) =>
      if p.2 = i then { p.1 with active := true } else p.1 })

/-- A mask admits an issuer of the owner's partition (R204). Memory cores lie in no cluster (R3). -/
def permits (mask : Word) (owner c : Nat) : Bool :=
  mask.getLsbD 63 || (mask.getLsbD 62 && dieOf owner = dieOf c)
    || (clusterOf owner = clusterOf c && !isMemCore c && (mask.getLsbD 61 || mask.getLsbD (c % 16)))

/-- The core whose scratchpad a side lies in, when it is a core scratchpad. -/
def padCore (b z : Nat) : Option Nat :=
  if z = 0x20000 then some (bits (b - 0x100000000000) 36 35 * 2048 + bits b 34 28 * 16 + bits b 27 24) else none

/-- Where a side of a copy lies, with the checks of translation, rights and place (R180, R201, R204). -/
def State.copySide (s : State) (c : Nat) (x : Copy) (va : Nat) (write : Bool) : Except Cause (Leaf × Loc) :=
  match s.engXlate c x.part x.tlb va with
  | none => .error (s.noXlate x.part va)
  | some p =>
    if (x.user && !p.u) || (if write then !p.w else !p.r) then .error (if write then .protWrite else .protRead) else
    let l := s.locate (p.base + va % 2 ^ p.size)
    match l with
    | .nothing => .error .windowUndefined
    | .hbm =>
      if x.three then .error .copyPattern else if !isMemCore c then .error .noDramPath
      else if p.io then .error .copyPattern else .ok (p, l)
    | .pad b z _ _ =>
      if p.io then .error .copyPattern
      else if !x.three then .ok (p, l)
      else match padCore b z with
        | none => .error .copyPattern
        | some o =>
          if o = c then .error .copyPattern
          else if (s.core o).part ≠ x.part || !permits (FMap.get 0 x.perms o) o c then .error .permissionMask
          else .ok (p, l)
    | _ => .error .copyPattern

/-- The location is another core's scratchpad. -/
def otherPad (c : Nat) (l : Loc) : Bool :=
  match l with
  | .pad b z _ _ => (match padCore b z with | some o => o ≠ c | none => false)
  | _ => false

/-- The location is an element window. -/
def isElemWin (l : Loc) : Bool := match l with | .pad _ _ w _ => w ≠ 0 | _ => false

/-- The rack that a rack-mode copy fills (R203): core, base, record and the destination page's leaf. -/
def State.copyRack (s : State) (c : Nat) (x : Copy) : Except Cause (Nat × Nat × Rack × Leaf) := do
  let d ← s.copySide c x x.dst true
  match d.2 with
  | .pad b z w off =>
    match padCore b z with
    | none => .error .copyPattern
    | some o =>
      if w ≠ 0 || off ≠ 0 then .error .copyPattern else
      let base := bits x.rackw 10 0
      match (s.core o).rack? base with
      | none => .error .rackUnbound
      | some r =>
        if !bit x.rackw 31 || r.word base ≠ x.rackw then .error .rackUnbound
        else if x.rkn > r.n then .error .copyPattern
        else if r.mail || base * 64 + r.n * r.slotSize > 0x1C000 then .error .protWrite
        else .ok (o, base, r, d.1)
  | _ => .error .copyPattern

/-- The key of a copy's reservation. -/
def copyKey (c : Nat) (x : Copy) : Nat := (c * 4 + x.ch) * 2 ^ 32 + x.id

/-- COPY_RACK_RESERVE (R203 step 1): operand a channel. -/
def execCopyRackReserve (s : State) : Out :=
  let c := s.cur
  let ch := s.arg 0
  match s.me.eng.head ch with
  | none => .idle s
  | some x =>
    if s.me.takeover || !x.active || !x.rk || x.rkn = 0 || x.place.isSome then .idle s else
    match s.copyRack c x with
    | .error e => .next (s.updEng c fun g => g.updHead ch fun x => { x with bad := firstCause x.bad (some e) })
    | .ok (o, base, r, l) =>
      if r.n - r.nfill - r.reserved < x.rkn then .idle s else
      let e := patExtent x.counts x.dstr
      let beyond := e.1 < 0 || e.2 + x.esz > x.rkn * r.slotSize
      let s := s.updEng c fun g => g.updHead ch fun x =>
        { x with place := some (o, base, (r.fill + r.reserved) % r.n), tlb := keepTlb x.tlb x.part x.dst l,
                 bad := firstCause x.bad (if beyond then some .copyPattern else none) }
      .next (s.updCore o fun k => k.updRack base fun r => { r with resv := r.resv ++ [(copyKey c x, x.rkn)] })

/-- Where a copy has reserved its slots (R203): core, base, first slot and the record as it stands. The slots stay its own
whatever becomes of the destination's page. -/
def State.placed (s : State) (x : Copy) : Option (Nat × Nat × Nat × Rack) :=
  match x.place with
  | none => none
  | some (o, b, f) => ((s.core o).rack? b).map fun r => (o, b, f, r)

/-- Where destination offset o of a rack-mode copy lands (R203 step 2): a device address. -/
def rackPlace (o base : Nat) (r : Rack) (first off : Nat) : Nat :=
  padOfCore o + r.slotOff base (first + off / r.slotSize) + off % r.slotSize

/-- What one beat has gathered. -/
structure Beat where
  /-- Masked bytes to land. -/
  out : List (Nat × Byte × Byte)
  /-- Translations kept. -/
  tlb : List Tlb
  /-- Scope of the destination page. -/
  scope : Nat

/-- Move the slots of one element: pairs of a source address and a destination access (R67, R68). -/
def State.copySlots (s : State) (c : Nat) (x : Copy) (size : Nat) (dst : List Tlb → Nat → Except Cause Acc) :
    Beat → List Nat → Except Cause Beat
  | b, [] => .ok b
  | b, i :: r => do
    let a ← s.engAccess c x.part x.user b.tlb x.wins (isMemCore c) (i % 2 ^ 64) size .read
    let d ← dst b.tlb i
    let raw := !isElemWin a.loc && !isElemWin d.loc
    let w := if raw then maskedBytes d.dev (s.bytesAt a.dev size) else movedPut s.byte x.wins d (movedOf s.byte x.wins a)
    s.copySlots c x size dst
      ⟨b.out ++ w, keepTlb (keepTlb b.tlb x.part a.ea a.leaf) x.part d.ea d.leaf, max b.scope d.leaf.scope⟩ r

/-- Move one element into a beat (R198, R201, R202). -/
def State.copyElem (s : State) (c : Nat) (x : Copy) (b : Beat) (n : Nat) : Except Cause Beat := do
  let x := { x with tlb := b.tlb }
  let src := x.srcAt n
  let sl ← s.copySide c x src false
  if x.rk then
    let dl ← s.copySide c x x.dst true
    match s.placed x with
    | none => .error .rackUnbound
    | some (o, base, first, r) =>
      if !x.three && otherPad c sl.2 && o ≠ c then .error .copyPattern else
      let size := if isElemWin sl.2 then 4 else x.esz
      if isElemWin sl.2 && x.esz < 4 then .error .misaligned else
      let a := rackPlace o base r first (x.dstOff n)
      let dst (_ : List Tlb) (i : Nat) : Except Cause Acc :=
        let dev := a + (i - src)
        .ok ⟨x.dst, dev, size, dl.1, s.locate dev⟩
      s.copySlots c x size dst b ((span 0 (x.esz / size)).map fun i => src + size * i)
  else
    let dva := (x.dst + x.dstOff n) % 2 ^ 64
    let dl ← s.copySide c x dva true
    if !x.three && otherPad c sl.2 && otherPad c dl.2 then .error .copyPattern else
    let win := isElemWin sl.2 || isElemWin dl.2
    if win && x.esz < 4 then .error .misaligned else
    let size := if win then 4 else x.esz
    let dst (tlb : List Tlb) (i : Nat) : Except Cause Acc :=
      s.engAccess c x.part x.user tlb x.wins (isMemCore c) ((dva + (i - src)) % 2 ^ 64) size .write
    s.copySlots c x size dst b ((span 0 (x.esz / size)).map fun i => src + size * i)

/-- Elements of a list in a beat. -/
def State.copyElems (s : State) (c : Nat) (x : Copy) : Beat → List Nat → Except Cause Beat
  | b, [] => .ok b
  | b, n :: r => do
    let b ← s.copyElem c x b n
    s.copyElems c x b r

/-- The aligned 256-byte block of device addresses that destination element n lies in (R198). One whose page has no
translation shares a beat with no other. -/
def State.copyBlock (s : State) (c : Nat) (x : Copy) (n : Nat) : Nat :=
  if x.rk then
    match s.placed x with
    | some (o, base, first, r) => rackPlace o base r first (x.dstOff n) / 256
    | none => 2 ^ 48 + n
  else
    let va := (x.dst + x.dstOff n) % 2 ^ 64
    match s.engXlate c x.part x.tlb va with
    | some p => (p.base + va % 2 ^ p.size) / 256
    | none => 2 ^ 48 + n

/-- The elements of the next beat (R198). -/
def State.copyRun (s : State) (c : Nat) (x : Copy) : List Nat :=
  let b := s.copyBlock c x x.pos
  (span x.pos (min (256 / x.esz) (x.total - x.pos))).takeWhile fun n => s.copyBlock c x n = b

/-- A copy has a beat to move. -/
def Copy.moving (x : Copy) : Bool := x.active && x.bad.isNone && x.pos < x.total && (!x.rk || x.place.isSome)

/-- The channel whose beat the engine serves next: the first one after the last served whose copy has a beat to move
(R197; log 84). -/
def Engines.nextCh (g : Engines) : Option Nat :=
  (span 1 4).map (fun i => (g.turn + i) % 4) |>.find? fun ch => match g.head ch with | some x => x.moving | none => false

/-- COPY_BEAT (R197, R198): operand a channel, whose turn it is. The beat lands whole, or its fault stops the copy. -/
def execCopyBeat (s : State) : Out :=
  let c := s.cur
  let ch := s.arg 0
  match s.me.eng.head ch with
  | none => .idle s
  | some x =>
    if s.me.takeover || s.refillDue || s.me.eng.nextCh ≠ some ch then .idle s else
    let run := s.copyRun c x
    match s.copyElems c x ⟨[], x.tlb, 0⟩ run with
    | .error e => .next (s.updEng c fun g => { g.updHead ch fun x => { x with bad := some e } with turn := ch })
    | .ok b =>
      if s.away (b.out.map (·.1)) then .idle s else
      let s := s.updEng c fun g => { g.updHead ch fun x =>
        { x with pos := x.pos + run.length, bytes := x.bytes + run.length * x.esz, tlb := b.tlb } with turn := ch }
      .next ((s.engFills c b.tlb).land c b.scope 1 c b.out)

/-- The bytes of a failed copy's slots that no whole beat wrote are undefined (R203): free values. -/
def State.spoil (s : State) (x : Copy) : State :=
  match s.placed x with
  | some (o, base, first, r) =>
    let done := (span 0 x.pos).map x.dstOff
    let all := (span 0 (x.rkn * r.slotSize)).filter fun n => !done.any fun d => d ≤ n && n < d + x.esz
    let w := (all.zip (span 0 all.length)).map fun p =>
      (rackPlace o base r first p.1, 0xFF#8, Config.freeByte (s.fresh * 2 ^ 32 + p.2))
    s.next.replace w
  | none => s

/-- The rack fill of a completing rack-mode copy (R199 step 2, R203 step 3). -/
def State.copyFill (s : State) (c : Nat) (x : Copy) : State :=
  match s.placed x with
  | some (o, base, _, _) =>
    let s := if x.bad.isSome then s.spoil x else s
    let s := s.updCore o fun q => q.updRack base fun r =>
      { r with resv := r.resv.filter fun (p : Nat × Nat) => p.1 ≠ copyKey c x }
    s.fillRack o base x.rkn
  | none => s

/-- The reservations ahead of a rack-mode copy have been filled, and a faulted one has its slots (R203). -/
def State.copyTurn (s : State) (c : Nat) (x : Copy) : Bool :=
  !x.rk || x.rkn = 0 ||
  match x.place with
  | none => (match s.copyRack c x with | .error _ => true | .ok _ => false)
  | some _ => (match s.placed x with
    | some (_, _, _, r) => (match r.resv with | p :: _ => p.1 = copyKey c x | [] => true)
    | none => true)

/-- COPY_COMPLETION (R199, R203): operand a channel. -/
def execCopyCompletion (s : State) : Out :=
  let c := s.cur
  let ch := s.arg 0
  match s.me.eng.head ch with
  | none => .idle s
  | some x =>
    if s.me.takeover || s.cntAway x.cnt || !x.active || !(x.bad.isSome || x.pos ≥ x.total) || !s.copyTurn c x then .idle s else
    let s := s.copyFill c x
    let err : Option Cause := if x.peng then none else x.bad
    let s := s.completePost x.cnt (agentOf c 1) (fieldAt x.desc 0x1C 4) (err.map fun e => (e.code, 0, x.bytes))
    let s := match err with
      | none => s
      | some e => s.updCore c fun k => k.both fun t =>
          { t with chLatch := FMap.upd Latch.clear t.chLatch ch fun l =>
              if l.ep then { l with multi := true } else ⟨true, false, e.code, 0, 0⟩ }
    .next (s.updCore c fun k =>
      let g := k.eng
      let k := { k with eng := { g with doneId := FMap.put g.doneId ch x.id,
                                        copies := g.copies.eraseIdx (g.copies.findIdx fun (y : Copy) => y.ch = ch) } }
      let k := k.wfiEvent 2
      if x.peng then k.engineDone x.inst x.bad 0 x.bytes else k)

end Sys2Proof.Machine
end

