-- ==== Sys2Proof/Machine/Launches.lean ====
section
/-! DEFINITION. The launch instructions (R93-R97). The launch actor's own steps stand in LaunchActor. -/
namespace Sys2Proof.Machine

/-- A launch request's packet (R84, R94). -/
def launchPacket (op rec rep counta waita waitv : Nat) : List Byte :=
  leBytes 8 0x2100FFF000000000 ++ leBytes 8 op ++ leBytes 8 rec ++ leBytes 8 rep ++ leBytes 8 counta
    ++ leBytes 8 waita ++ leBytes 4 waitv ++ leBytes 12 0

/-- LAUNCH (R94): a held firing's waits for glue-up (R311). -/
def execLaunch (a b : Reg) (s : State) : Out :=
  let r := (s.gIn a).toNat
  let p := (s.gIn b).toNat
  finish s (s.doing (useOf (.launch a b)) fun s' => do
    faultIf (r % 64 ≠ 0) .misaligned r
    faultIf (p % 16 ≠ 0) .misaligned p
    s.notHeld
    s'.sendOut (s'.pktOf (launchPacket 0 r p 0 0 0) (0, 0)))

/-- LAUNCHI (R94): three raw loads of the indirect block in this chunk. A held firing's waits for
glue-up (R311). -/
def execLaunchi (a b c : Reg) (s : State) : Out :=
  let r := (s.gIn a).toNat
  let p := (s.gIn b).toNat
  let k := (s.gIn c).toNat
  finish s (s.doing (useOf (.launchi a b c)) fun s' => do
    faultIf (r % 64 ≠ 0) .misaligned r
    faultIf (p % 16 ≠ 0) .misaligned p
    faultIf (k % 32 ≠ 0) .misaligned k
    s.notHeld
    let w ← s'.readWords k 2
    let x ← w.1.access (k + 16) 4 .read
    let s'' := (w.1.noteRead x).ioSeal x
    let counta := fieldAt w.2 0 8
    faultIf (counta % 4 ≠ 0) .misaligned counta
    s''.sendOut (s''.pktOf (launchPacket 1 r p counta (fieldAt w.2 8 8) (leVal (w.1.rawRead x))) (0, 0)))

/-- STEP (R95): a priority-1 firing's acts as DONE alone (R87). -/
def execStep (s : State) : Out := finish s (s.endHere 2)

/-- Instances of an actor that the running chunk has created with ACTNEW. -/
def State.newPending (s : State) (l a : Nat) : Nat :=
  let k := s.me
  let f (ch : Chunk) := (ch.eff.filter fun e => e = .actnew l a).length
  (match k.chunk with | some ch => f ch | none => 0) +
    (if k.t.heldNow then (match k.held with | some h => h.chunks.foldl (fun n ch => n + f ch) 0 | none => 0) else 0)

/-- ACTNEW (R96): the instance comes to be at the commit; its handle is written now. Another commit that changes the
launch's counts squashes the chunk, which then counts anew (R81; log 81); a held firing, which R318 may let no conflict
knock down, waits for its glue-up first. The supervisor actor, which no launch record describes, has no NACT: LAUNCH_SHAPE
(log 85). -/
def execActnew (d a : Reg) (s : State) : Out :=
  let v := (s.gIn a).toNat
  finish s (s.doing (useOf (.actnew d a)) fun s' => do
    match FMap.find? s.insts s.t.inst with
    | none => fault .launchShape v
    | some i =>
      match s.launchOf i with
      | none => fault .launchShape v
      | some l =>
        faultIf (v ≥ l.actors.length) .launchShape v
        let n := (at' ⟨[], 0⟩ l.actors v).count + s.newPending i.lslot v
        let total := l.actors.foldl (fun t x => t + x.count) 0 + (span 0 l.actors.length).foldl (fun t x => t + s.newPending i.lslot x) 0
        s.notHeld
        faultIf (n ≥ 65536 || total ≥ 1048576) .launchShape v
        .ok ((s'.setG d (word (i.lslot <<< 36 + v <<< 28 + n <<< 12 + s.genOf i.part i.lslot))).effect (.actnew i.lslot v) |>.noteLines [actLine i.part i.lslot]))

/-- ACTEND (R96): undone with the firing. -/
def execActend (s : State) : Out :=
  finish s (.ok (s.updT fun t => t.updFir fun f => { f with actend := true }))

/-- Dies on which a launch's live instances stand. -/
def State.dmask (s : State) (part l : Nat) : Nat :=
  (span 0 4).foldl (fun m d =>
    if s.insts.any fun (p : Nat × Inst) => p.2.part = part && p.2.lslot = l && p.2.st ≠ .exited &&
        (match p.2.core with | some c => dieOf c = d | none => false)
    then m + 2 ^ d else m) 0

/-- Instances of a launch that exist before they are placed (R86). -/
def Launch.total (l : Launch) : Nat := l.actors.foldl (fun n x => n + x.count) 0

/-- Live instances of a launch. -/
def State.live (s : State) (part l : Nat) : Nat :=
  (s.insts.filter fun (p : Nat × Inst) => p.2.part = part && p.2.lslot = l && p.2.st ≠ .exited).length

/-- The LCHSTAT word (R97). -/
def State.lchWord (s : State) (part v : Nat) : Nat :=
  let l := bits v 11 0
  if s.genOf part l ≠ bits v 23 12 then 5 <<< 8 else
  match FMap.find? (s.part part).slots l with
  | none => 0
  | some x =>
    (if x.st = 1 then x.total else s.live part l) <<< 43 + (x.step % 2 ^ 16) <<< 27 + s.dmask part l <<< 20 + (bits (fieldAt x.head 0x12 1) 1 1) <<< 16
      + x.st <<< 8 + x.cause

/-- LCHSTAT (R97). -/
def execLchstat (d a : Reg) (s : State) : Out :=
  setsG (.lchstat d a) d (word (s.lchWord s.myPart (s.gIn a).toNat)) s

end Sys2Proof.Machine
end

