-- ==== Sys2Proof/Machine/DryFit.lean ====
section
/-! DEFINITION. The dry-fit and ordering instructions (R319-R324). Starting, comparing and resolving held
firings stand in HeldFirings. -/
namespace Sys2Proof.Machine

/-- The dry-fit settings of a rack as the running firing sees them (R320, R321). -/
def State.markOf (s : State) (b : Nat) : Mark := FMap.get Mark.clear s.t.marks b
/-- Change them: tentative until the chunk's commit. -/
def State.setMark (s : State) (b : Nat) (f : Mark → Mark) : State :=
  s.updT fun t => { t with marks := FMap.upd Mark.clear t.marks b f }

/-- RKPRED (R320). -/
def execRkpred (k a : Reg) (s : State) : Out :=
  let v := (s.gIn a).toNat
  finish s (s.doing (useOf (.rkpred k a)) fun s' => do
    let b ← s.boundRack k
    let r ← s.recSeen b
    faultIf s.t.special .dryfitSetup v
    if v = 0 then .ok (s'.setMark b fun m => { m with pred := false, armed := none, vers := [], anew := false }) else
    faultIf (v ≥ 16) .dryfitSetup v
    let key := windowKey (padOfCore s.cur) 0x20000 v
    let d := FMap.get 0 s.winsIn key
    let cl := clusterOf s.cur
    let n := s.marksIn cl s.cur
    faultIf (!wValid d || wbits d 9 8 ≠ 0 || r.sz > 6) .dryfitSetup v
    faultIf (!(s.markOf b).pred && (n ≥ 16 || !s.reserveRoom cl s.cur 8192)) .dryfitSetup v
    .ok ((s'.noteLines [descLine key]).setMark b fun m => { m with pred := true, fmt := wFmt d, anew := m.anew || !m.pred }))

/-- The rack is a rate-1 rack input port of the running firing's instance (R321). -/
def State.rateOnePort (s : State) (b : Nat) : Bool :=
  match FMap.find? s.insts s.t.inst with
  | none => false
  | some i =>
    let d := s.descOfInst i
    (span 0 (aNin d)).any fun p => inRackPort (aIn d p) && inRate (aIn d p) = 1 && s.portBase i p = b

/-- The staging area lies in window 0 of the core's own scratchpad, clear of every rack and of the mailbox
(R321). -/
def State.stagingOk (s : State) (v size : Nat) : Bool :=
  match s.translate s.cur s.myPart v with
  | none => false
  | some p =>
    match s.locate (p.base + v % 2 ^ p.size) with
    | .pad b _ w off =>
      b = padOfCore s.cur && w = 0 && off + size ≤ 0x1C000 &&
        !((s.me.racks ++ s.t.locals).any fun (q : Nat × Rack) =>
          off < q.1 * 64 + q.2.n * q.2.slotSize && q.1 * 64 < off + size)
    | _ => false

/-- DFIT (R321). -/
def execDfit (k a : Reg) (s : State) : Out :=
  let v := (s.gIn a).toNat
  finish s (s.doing (useOf (.dfit k a)) fun s' => do
    let b ← s.boundRack k
    let r ← s.recSeen b
    faultIf (s.t.special || !(s.markOf b).pred || !s.rateOnePort b) .dryfitSetup v
    if v = 0 then .ok (s'.setMark b fun m => { m with armed := none }) else
    faultIf (v % 64 ≠ 0 || !s.stagingOk v r.slotSize) .dryfitSetup v
    .ok (s'.setMark b fun m => { m with armed := some v, tolAbs := 0#32, tolRel := 0#32 }))

/-- DFTOL (R321). -/
def execDftol (k a : Reg) (s : State) : Out :=
  let w := s.gIn a
  let lo : Lane := w.setWidth 32
  let hi : Lane := (w >>> 32).setWidth 32
  let bad (x : Lane) := (Num.ofBits x).isNan || flt x 0#32
  finish s (s.doing (useOf (.dftol k a)) fun s' => do
    let b ← s.boundRack k
    faultIf (bad lo || bad hi) .dryfitSetup w.toNat
    .ok (s'.setMark b fun m => { m with tolAbs := lo, tolRel := hi }))

/-- The DFSTAT word (R322). -/
def State.dfWord (s : State) (b : Nat) : Nat :=
  let m := s.markOf b
  let dry := match s.me.held with | some h => h.fir.dry = some b && !h.accepted | none => false
  (b2n m.pred) <<< 63 + (b2n m.armed.isSome) <<< 62 + (b2n dry) <<< 61
    + (if m.pred then m.vers.length else 0) <<< 59 + m.acc <<< 48 + m.rej <<< 40 + m.lastCause <<< 32 + m.lastErr.toNat

/-- DFSTAT (R322). -/
def execDfstat (d k : Reg) (s : State) : Out :=
  finish s (s.doing (useOf (.dfstat d k)) fun s' => do
    let b ← s.boundRack k
    .ok (s'.setG d (word (s.dfWord b))))

/-- NEXT of the running firing's partition in its cluster (R317). -/
def State.nextOf (s : State) (c part : Nat) : Nat := FMap.get 0 (s.cluster (clusterOf c)).next part

/-- Ordered firings of a partition in a cluster, held or running: instance and timestamp (R317). -/
def State.orderedIn (s : State) (cl part : Nat) : List (Nat × Nat) :=
  s.cores.flatMap fun (p : Nat × Core) =>
    if clusterOf p.1 ≠ cl then [] else
    let one (f : Firing) : List (Nat × Nat) := match f.ord with
      | some t => if f.part = part then [(f.inst, t)] else []
      | none => []
    (match p.2.t.fir0 with | some f => one f | none => []) ++ (match p.2.held with | some h => one h.fir | none => [])

/-- R317 refuses a timestamp for an instance's firing: too old, too far ahead, or taken by a firing of another instance of
the partition, whose NEXT the cluster keeps apart from other partitions' (log 86). -/
def State.orderBad (s : State) (c part inst t : Nat) : Bool :=
  let d := (t + 2 ^ 32 - s.nextOf c part) % 2 ^ 32
  d ≥ 2 ^ 24 || (s.orderedIn (clusterOf c) part).any fun p => p.2 = t && p.1 ≠ inst

/-- A firing whose turn has not come is held from its start (R311, R317). -/
def heldOf (f : Firing) (start : CoreT) : Held :=
  { fir := f, chunks := [], shadow := [], staging := 0, tile := [], accepted := false, ended := false,
    took := [], links := ([], []), start := start, full := false, freed := [] }

/-- ORDT, op 0 (R323): the firing becomes ordered, and held until its turn; while another firing of the core is
held it waits (R311). -/
def execOrdt (a : Reg) (s : State) : Out :=
  let t := (s.gIn a).toNat % 2 ^ 32
  finish s (s.doing (useOf (.ordt a)) fun s' =>
    match s.t.fir with
    | none => .ok s'
    | some f =>
      if f.ran ≠ 0 || f.ord.isSome || s.t.special || s.orderBad s.cur f.part f.inst t then s.freeFault .orderTimestamp
      else if f.held then
        .ok ((s'.updT fun x => x.updFir fun g => { g with ord := some t }).updMe fun k =>
          { k with held := k.held.map fun h => { h with fir := { h.fir with ord := some t } } })
      else if s.nextOf s.cur f.part = t then .ok (s'.updT fun x => x.updFir fun g => { g with ord := some t })
      else if s.me.held.isSome then .error (.wait true)
      else
        let g : Firing := { f with ord := some t, held := true, depth := max f.depth 1 }
        .ok ((s'.updT fun x => x.setFir g).updMe fun k => { k with held := some (heldOf g k.open'.ckpt) }))

/-- ORDT, op 1 (R323). -/
def execOrdtReadNext (d : Reg) (s : State) : Out :=
  setsG (.ordtReadNext d) d (word (s.nextOf s.cur s.myPart)) s
/-- ORDT, op 2 (R323): NEXT changes at the commit of the chunk. -/
def execOrdtSetNext (a : Reg) (s : State) : Out :=
  finish s (s.doing (useOf (.ordtSetNext a)) fun s' =>
    if !(s.orderedIn (clusterOf s.cur) s.myPart).isEmpty then s.freeFault .orderTimestamp
    else .ok (s'.effect (.setNext ((s.gIn a).toNat % 2 ^ 32))))
/-- ORDT, op 3 (R323). -/
def execOrdtReadT (d : Reg) (s : State) : Out :=
  let v := match s.t.fir with
    | some f => (match f.ord with | some t => 2 ^ 32 + t | none => 0)
    | none => 0
  setsG (.ordtReadT d) d (word v) s

/-- ORDSEND (R324): the timestamp travels beside the packet. -/
def execOrdsend (a b : Reg) (oport : BitVec 4) (s : State) : Out :=
  let t := (s.gIn b).toNat % 2 ^ 32
  finish s (s.doing (useOf (.ordsend a b oport)) fun s' => do
    let r ← s'.readPacket (s.gIn a).toNat
    let p ← r.1.aim r.2 oport.toNat (0, 0)
    p.1.sendOut { p.2 with ts := t + 1 })

end Sys2Proof.Machine
end

