-- ==== Sys2Proof/Machine/Scheduling.lean ====
section
/-! DEFINITION. The issue choice and the start of a firing (R16-R19, R101-R103, R308-R310, R355, R356),
pre-emption (R27-R29), commits and tokens (R288, R292), the kiln (R104-R107). -/
namespace Sys2Proof.Machine

/-! ### What an instance's next firing would be -/

/-- Instances whose speculative tokens the next firing would consume (R315). -/
def State.specDeps (s : State) (i : Inst) : List Nat :=
  let d := s.descOfInst i
  match i.core with
  | none => []
  | some c => ((span 0 (aNin d)).flatMap fun p =>
      match (s.core c).rack? (s.portBase i p) with
      | some r => (r.left.senders.take (inRate (aIn d p))).filterMap fun (x : Nat × Nat × Nat × Nat) =>
          if x.2.2.1 = 0 then none else some (x.2.2.1 - 1)
      | none => []).dedup

/-- The timestamp at the head of the lowest-numbered message port that carries one (R317). -/
def State.headStamp (s : State) (i : Inst) : Option Nat :=
  let d := s.descOfInst i
  match i.core with
  | none => none
  | some c => ((span 0 (aNin d)).filterMap fun p =>
      match (if inRackPort (aIn d p) then none else (s.core c).rack? (s.portBase i p)) with
      | some r => (match r.left.senders with | x :: _ => if x.2.2.2 = 0 then none else some (x.2.2.2 - 1) | [] => none)
      | none => none).head?

/-- How a firing would start. -/
structure Start where
  /-- Base of the rack it starts dry on (R309). -/
  dry : Option Nat
  /-- Instances it depends on (R315). -/
  deps : List Nat
  /-- Its timestamp (R317). -/
  ord : Option Nat
  /-- R317 refuses the timestamp. -/
  bad : Bool
  /-- It is held (R311). -/
  held : Bool
  /-- Depth (R310). -/
  depth : Nat
deriving DecidableEq, Repr

/-- How the next firing of an instance would start on a core. Priority-1 firings are never held (R316). -/
def State.startOf (s : State) (c key : Nat) (i : Inst) : Start :=
  let high := aPri (s.descOfInst i) = 1
  let dry := if s.instReady i then none else s.dryPort i
  let deps := s.specDeps i
  let ord := if high then none else s.headStamp i
  let bad := match ord with | some t => s.orderBad c i.part key t | none => false
  let late := !bad && (match ord with | some t => s.nextOf c i.part ≠ t | none => false)
  { dry := dry, deps := deps, ord := if bad then none else ord, bad := bad,
    held := dry.isSome || !deps.isEmpty || late,
    depth := (deps.map (s.heldDepth · + 1)).foldl max (b2n (dry.isSome || late)) }

/-- A queue entry can start now: it is ready, or ready dry; a core has one held firing at a time; a firing
that a conflict knocked down does not consume the same speculative tokens again (R309, R312). -/
def State.canStart (s : State) (c : Nat) (e : Entry) : Bool :=
  match FMap.find? s.insts e.inst with
  | none => false
  | some i =>
    let st := s.startOf c e.inst i
    i.core = some c && (s.instReady i || st.dry.isSome) && (!st.held || (s.core c).held.isNone)
      && (st.deps.isEmpty || e.pri = 0) && st.deps.all (fun d => !i.barred.contains d)

/-! ### The choice (R102) -/

/-- The aging limit of a partition: 4,096 unless set, 1,024 to 65,536 (R103). -/
def State.agingLimit (s : State) (part : Nat) : Nat :=
  let v := s.cfg part 0x94 4
  if v = 0 then 4096 else max 1024 (min 65536 v)

/-- Kiln threshold of an energy class (R105). -/
def kilnThreshold (cls : Nat) : Nat := match cls with | 0 => 0 | 1 => 256 | 2 => 1024 | _ => 4096
/-- Units drawn per 64 cycles (R105). -/
def kilnUnits (cls : Nat) : Nat := match cls with | 0 => 2 | 1 => 8 | 2 => 32 | _ => 128

/-- The order among candidates: entry time, AIDX, INST, LSLOT, PARTID. -/
def State.entryRank (s : State) (e : Entry) : Nat :=
  match FMap.find? s.insts e.inst with
  | none => 0
  | some i => (((e.time * 256 + i.aidx) * 65536 + i.num) * 4096 + i.lslot) * 1024 + i.part

/-- The earliest entry of a list. -/
def State.earliest (s : State) : List Entry → Option Entry
  | [] => none
  | e :: r => match s.earliest r with
    | none => some e
    | some f => if s.entryRank f < s.entryRank e then some f else some e

/-- The partition of an entry's instance. -/
def State.entryPart (s : State) (e : Entry) : Nat := match FMap.find? s.insts e.inst with | some i => i.part | none => 0

/-- The energy class of the firing that an entry would start now (R25). -/
def State.entryCls (s : State) (e : Entry) : Nat := (s.showClass e).cls

/-- The priority-0 entry fits the kiln of its cluster (R105); on a hot die only class 0 issues (R107). -/
def State.fits (s : State) (c : Nat) (e : Entry) : Bool :=
  (s.kiln c (s.entryPart e)).budget ≥ kilnThreshold (s.entryCls e) && (!(s.die (dieOf c)).hot || s.entryCls e = 0)

/-- The choice of R102: the entry, and whether ageing chose it. -/
def State.choose (s : State) (c : Nat) : Option (Entry × Bool) :=
  let q := (s.core c).runq.filter (s.canStart c)
  match s.earliest (q.filter (·.pri = 1)) with
  | some e => some (e, false)
  | none =>
    match s.earliest (q.filter fun e => s.age e ≥ s.agingLimit (s.entryPart e)) with
    | some e => some (e, true)
    | none => (s.earliest (q.filter (s.fits c))).map fun e => (e, false)

/-! ### The start of a firing -/

/-- The predicted tile (R307, R308). -/
def predictTile (fmt : Nat) (tn tp : List Byte) : List Byte :=
  let w := fmtWidth fmt
  let n := 8 * tn.length / w
  let x := leVal tn
  let y := leVal tp
  let el (z i : Nat) : Lane := (decodeElem fmt (packedElem w z i)).toBits .rne
  let vals := (span 0 n).map fun i =>
    encodeElem fmt .rne (Num.ofBits (ffma .rne false true 0x40000000#32 (el x i) (el y i)))
  leBytes tn.length (packElems w vals + (x >>> (w * n)) <<< (w * n))

/-- XVEC of a firing's start (R356). -/
def State.startVec (s : State) (i : Inst) : Nat :=
  if i.lslot = 0xFFF then (match (s.part i.part).sup with | some x => if x.entry = 0 then 0 else x.image | none => 0)
  else match s.launchOf i with
    | some l => if l.actors.any (fun a => aEntry a.desc = 0) then 0 else fieldAt l.head 0 8
    | none => 0

/-- PENG of the launch record (R39, R78). -/
def State.startPeng (s : State) (i : Inst) : Nat :=
  match (if i.lslot = 0xFFF then none else s.launchOf i) with
  | some l => fieldAt l.head 0x12 1 % 2
  | none => 0

/-- Head slot of an input port: the staging area for the port a firing starts dry on (R18, R310). -/
def State.headAddr (s : State) (c : Nat) (i : Inst) (st : Start) (p : Nat) : Nat :=
  let base := s.portBase i p
  if st.dry = some base then (((s.core c).firmMark base).armed).getD 0
  else match (s.core c).rack? base with
    | some r => padOfCore c + r.slotOff base r.left.free
    | none => 0

/-- g1-g31 at a firing's first instruction (R18). -/
def State.startRegs (s : State) (c : Nat) (i : Inst) (st : Start) : Vector Word 32 :=
  let d := s.descOfInst i
  let msg := (span 0 (aNin d)).find? fun p => !inRackPort (aIn d p)
  let hdr := match msg with | some p => leVal (s.bytesAt (s.headAddr c i st p) 8) | none => 0
  Vector.ofFn fun n =>
    if 1 ≤ n.val && n.val ≤ 8 && n.val ≤ aNin d then word (s.headAddr c i st (n.val - 1))
    else if n.val = 9 then word (padOfCore c + i.block)
    else if n.val = 10 then word hdr
    else 0

/-- As a priority-1 firing starts, registers parked in the shadow bank move to the lowest-numbered free accumulator
slot, or are filled back when none is free (R133). A memory core has no slots. -/
def CoreT.parkAway (t : CoreT) (mem : Bool) : FMap Nat :=
  let free (n : Nat) : Bool :=
    match FMap.find? t.slots n with
    | none => true
    | some x => x.owner.isNone && !x.shadow && !x.held
  match (if mem then none else lowestFrom free 0 32) with
  | some m => t.park.map fun (p : Nat × Nat) => (p.1, if p.2 = 0 then m + 1 else p.2)
  | none => t.park.filter fun (p : Nat × Nat) => p.2 ≠ 0

/-- Write the predicted tile to its staging area (R310): a core-scope write, like any other held to R15. -/
def State.stage (s : State) (c part va : Nat) (tile : List Byte) : State :=
  match s.stagingAt c part va tile.length with
  | none => s
  | some dev => (s.replace (maskedBytes dev tile)).signal 0 c (linesOf dev tile.length)

/-- A firing starts from a queue entry (R18, R19, R310, R355). -/
def State.startFiring (s : State) (c : Nat) (e : Entry) (aged : Bool) : State :=
  match FMap.find? s.insts e.inst with
  | none => s
  | some i =>
    let d := s.descOfInst i
    let im := s.imageOf i
    let st := s.startOf c e.inst i
    let pri := aPri d
    let pc := word (im.1 + aEntry d)
    let f : Firing :=
      { inst := e.inst, part := i.part, pri := pri, cls := s.classOf i, lo := im.1, hi := im.1 + im.2, pc := pc, ran := 0,
        waited := s.age e, aged := aged, entry := e.time, drawn := 0, serial := s.fresh, cycles := 0, draws := 0, sent := [], freed := [], actend := false,
        held := st.held, dry := st.dry, ord := st.ord, depth := st.depth, deps := st.deps, down := false }
    let regs := s.startRegs c i st
    let binds : FMap Nat := (actorRacks d).foldl (fun m p => FMap.put m p.1 (bits p.2 10 0)) []
    let sup := b2n (i.lslot = 0xFFF)
    let tr (r : TrapRegs) : TrapRegs :=
      { r with mode := word (wbits r.mode 3 1 * 2 + s.startPeng i), watchm := 0, chmax := 256, xvec := word (s.startVec i),
               xstat := word (sup + 32 * b2n st.dry.isSome) }
    let tile := match st.dry with
      | some b => (match ((s.core c).firmMark b).vers with
        | x :: y :: _ => predictTile ((s.core c).firmMark b).fmt x y
        | _ => [])
      | none => []
    let staging := match st.dry with | some b => (((s.core c).firmMark b).armed).getD 0 | none => 0
    let k := s.core c
    let t := if pri = 1 then { k.t with fir1 := some f, gs := regs, tr1 := tr k.t.tr1, park := k.t.parkAway (isMemCore c) }
      else { k.t with fir0 := some f, gp := regs, tr0 := tr k.t.tr0, park := [], maskOpen := false, maskCnt := 0 }
    let t := { t with binds := binds, npc := pc }.setSkips false
    let wt : Waiting := if st.bad then { Waiting.idle with trap := some (.orderTimestamp, Config.freeXval s.fresh, pc) } else Waiting.idle
    let held := if st.held then some { heldOf f t with staging := staging, tile := tile } else k.held
    let k := ({ k with t := t, held := held, runq := k.runq.filter (·.inst ≠ e.inst) }).setWaiting pri wt
    let s := (s.next.putCore c k).updInst e.inst fun x =>
      { x with busy := true, since := none, again := false,
               credit := (span 0 (aNout d)).foldl (fun m p => FMap.upd 0 m p (· - (outRate (aOut d p) : Int))) x.credit }
    if st.dry.isSome then s.stage c i.part staging tile else s

/-- ISSUE_CHOICE (R102): the core runs no firing. -/
def execIssueChoice (s : State) : Out :=
  let k := s.me
  if k.t.fir.isSome || k.chunk.isSome || k.draining || k.takeover then .idle s else
  match s.choose s.cur with
  | some (e, aged) => .next (s.startFiring s.cur e aged)
  | none => .idle s

/-- The entry whose priority-1 firing pre-empts the priority-0 one that runs (R27, R29): the earliest that can start. -/
def State.preemptor (s : State) : Option Entry :=
  let k := s.me
  if k.t.fir0.isNone || k.t.fir1.isSome || k.t.maskOpen || k.draining || k.takeover then none
  else s.earliest (k.runq.filter fun e => e.pri = 1 && s.canStart s.cur e)

/-- PRE_EMPTION (R27, R29): the open chunk ends, and once it has committed or has been squashed the earliest
priority-1 entry starts on the shadow bank. -/
def execPreEmption (s : State) : Out :=
  match s.preemptor with
  | none => .idle s
  | some e =>
    let s := s.cutChunk s.cur
    if s.me.chunk.isSome then .next s else .next ((s.leaveSolo s.cur).startFiring s.cur e false)

/-! ### Commits and tokens -/

/-- CHUNK_COMMIT (R288): the core's ended chunk is accepted by its arbiter. -/
def execChunkCommit (s : State) : Out :=
  match s.me.chunk with
  | some ch => if ch.sealed && !s.t.heldNow then .next (s.commit s.cur) else .idle s
  | none => .idle s

/-- ARBITER_TOKEN_GRANT (R292): tokens are granted in request order. -/
def execArbiterTokenGrant (s : State) : Out :=
  match s.me.solo with
  | none => .idle s
  | some so =>
    if (FMap.get [] s.tokens (arbiter so.scope s.cur)).head? = some s.cur then
      .next (s.updMe fun k => { k with solo := some { so with granted := true } })
    else .idle s

/-! ### The kiln -/

/-- The cluster's budget was 0 at some moment of the microsecond: that of one of its partitions with an allotment was, or
none has one (R107; log 34 for a cluster of several partitions). -/
def reached0 (ks : List Kiln) : Bool := ks.any (fun k => k.allot ≠ 0 && k.hit0) || ks.foldl (fun n k => n + k.budget) 0 = 0

/-- SCALE after a microsecond (R107), from the budgets left of all partitions of the cluster. -/
def scaleAfter (scale : Nat) (ks : List Kiln) : Nat :=
  let left : Nat := ks.foldl (fun n k => n + k.budget) 0
  let allot : Nat := ks.foldl (fun n k => n + k.allot) 0
  if reached0 ks then min 3 (scale + 1)
  else if 2 * left ≥ allot then scale - 1 else scale

/-- A kiln at a microsecond boundary (R104). -/
def Kiln.replenish (k : Kiln) (allot : Nat) : Kiln :=
  let a := min allot 0xFFFF
  ⟨a, a, k.budget, a = 0⟩

/-- Kiln units of the power cap in a microsecond: 1 W is 15,625 units of 64 pJ (R5, R104). -/
def capUnits (watts : Nat) : Nat := watts * 15625

/-- Partitions with instances in a cluster, each with its kiln share (R104). -/
def State.sharers (s : State) (cl : Nat) : List (Nat × Nat) :=
  let ps := ((s.insts.filter fun (p : Nat × Inst) => p.2.st ≠ .exited &&
    (match p.2.core with | some c => clusterOf c = cl | none => false)).map fun (p : Nat × Inst) => p.2.part).dedup
  ps.map fun p => (p, s.cfg p 0x90 4 % 65536)

/-- A cluster's allotment split in proportion to kiln shares, rounded down (R104). With every share 0 the manual gives
no proportion: each part is a free value, at most what the parts before it have left of the allotment (log 77). -/
def State.splitAllot (s : State) (cl a : Nat) : List (Nat × Nat) :=
  let sh := s.sharers cl
  let sum := sh.foldl (fun n p => n + p.2) 0
  if sum ≠ 0 then sh.map fun p => (p.1, a * p.2 / sum) else
  (sh.foldl (fun (x : List (Nat × Nat) × Nat) p =>
    let n := (Config.freeXval (s.fresh * 65536 + p.1)).toNat % (x.2 + 1)
    (x.1 ++ [(p.1, n)], x.2 - n)) ([], a)).1

/-- A cluster's kilns at a microsecond boundary: `al` holds the new allotments of the partitions with instances there,
every other has none and no record (R104). SCALE and the record of the last 16 microseconds follow the one just ended (R107, R108). -/
def Cluster.replenish (k : Cluster) (al : List (Nat × Nat)) : Cluster :=
  let old := k.kilns.map (·.2)
  { k with scale := scaleAfter k.scale old, hist := (reached0 old :: k.hist).take 16,
           kilns := al.foldl (fun (m : FMap Kiln) p => FMap.put m p.1 ((FMap.get ⟨0, 0, 0, false⟩ k.kilns p.1).replenish p.2)) [] }

/-- The same while the die's system controller switches to new firmware: every allotment stays (R391). -/
def Cluster.holdAllot (k : Cluster) : Cluster :=
  k.replenish ((k.kilns.map (·.1)).dedup.map fun p => (p, (FMap.get ⟨0, 0, 0, false⟩ k.kilns p).allot))

/-- Pairs of a list. -/
def pairsOf : List Nat → List (Nat × Nat)
  | a :: b :: r => (a, b) :: pairsOf r
  | _ => []

/-- The largest class of a firing of an instance: that of the packets it consumes, or its declared one (R25). -/
def State.topClass (s : State) (i : Inst) : Nat :=
  let d := s.descOfInst i
  if (span 0 (aNin d)).any fun p => !inRackPort (aIn d p) then 3 else aCls d

/-- Units that the work which issues whatever the budget says may draw in 64 cycles of a core, which runs one firing at a
time (R5, R105): priority-1 firings, class-0 ones, and ones that have reached their aging limit, or reach it within the
microsecond. -/
def State.freeRate (s : State) (c : Nat) : Nat :=
  let k := s.core c
  let run := (k.t.fir0.toList ++ k.t.fir1.toList).filterMap fun (f : Firing) =>
    if f.pri = 1 || f.aged || f.cls = 0 then some (kilnUnits f.cls) else none
  let here := (s.placedOn c).map fun (p : Nat × Inst) =>
    if aPri (s.descOfInst p.2) = 1 then kilnUnits (s.topClass p.2) else kilnUnits 0
  let aged := k.runq.filterMap fun e =>
    if e.pri = 0 && s.age e + 800 ≥ s.agingLimit (s.entryPart e) then some (kilnUnits (s.entryCls e)) else none
  (run ++ here ++ aged).foldl max 0

/-- What that work may draw on a die in a microsecond, in which a firing draws at most 13 times (R5, R105; log 77). -/
def State.freeDraws (s : State) (die : Nat) : Nat :=
  s.cores.foldl (fun n (p : Nat × Core) => if dieOf p.1 = die then n + 13 * s.freeRate p.1 else n) 0

/-- The shares of the four dies, each a budget and the reserve below which it stands, lie within the power cap, and the
cluster allotments of each die within its budget (R5, R104). Each reserve covers what the work that the kiln does not gate
may draw (R5). A die whose system controller switches to new firmware keeps
the budget of its last allotments, which stay (R391). -/
def State.kilnPlanOk (s : State) (dies clusters : List (Nat × Nat)) : Bool :=
  dies.length = 4 && (dies.zip (span 0 4)).all (fun p => 0 < p.1.2 && s.freeDraws p.2 ≤ p.1.2) && dies.foldl (fun n p => n + p.1 + p.2) 0 ≤ capUnits s.hub.cap &&
    (dies.zip (span 0 4)).all fun p =>
      if s.hub.switching.contains p.2 then p.1.1 = (s.die p.2).budget
      else clusters.foldl (fun n q => if q.1 / 128 = p.2 then n + q.2 else n) 0 ≤ p.1.1

/-- A cluster after a replenishment. A hot die's clusters get nothing (R107). -/
def State.replenished (s : State) (clusters : List (Nat × Nat)) (cl : Nat) : Cluster :=
  let k := s.cluster cl
  if s.hub.switching.contains (cl / 128) then k.holdAllot
  else
    let a := match clusters.find? fun q => q.1 = cl with | some q => q.2 | none => 0
    k.replenish (s.splitAllot cl (if (s.die (cl / 128)).hot then 0 else a))

/-- Every cluster of the package, and the groups of memory cores, whose kilns the model keeps in the same way (R3;
log 77). -/
def allClusters : List Nat := (span 0 4).flatMap fun d => span (d * 128) 92

/-- KILN_REPLENISHMENT (R5, R104, R107): operands the budget and the reserve of each of the four dies, then pairs of a
cluster and its allotment, which the system controller chooses within the power cap: the manual gives no formula
(log 77). A cluster that is not named gets none. -/
def execKilnReplenishment (s : State) : Out :=
  let dies := pairsOf (s.args.take 8)
  let clusters := pairsOf (s.args.drop 8)
  if !s.kilnPlanOk dies clusters then .idle s else
  .next ((dies.zip (span 0 4)).foldl (fun (s : State) p => s.updDie p.2 fun d => { d with budget := p.1.1 })
    { s.next with clusters := allClusters.map fun cl => (cl, s.replenished clusters cl) })

/-- A draw (R105, R106): the partition's budget in the cluster falls, to 0 at the lowest, and the record of the firing
with the number `fir` counts it. -/
def State.draw (s : State) (c part fir units : Nat) : State :=
  let s := s.updCluster (clusterOf c) fun k =>
    { k with kilns := FMap.upd ⟨0, 0, 0, false⟩ k.kilns part fun x =>
        { x with budget := x.budget - units, hit0 := x.hit0 || x.budget ≤ units } }
  let count (f : Option Firing) : Option Firing := f.map fun f => if f.serial = fir then { f with drawn := f.drawn + units } else f
  s.updCore c fun k => k.both fun t => { t with fir0 := count t.fir0, fir1 := count t.fir1 }

/-- 64 more cycles of the firing that holds the core have passed. -/
def Firing.drawDue (f : Firing) : Bool := 64 * (f.draws + 1) ≤ f.cycles

/-- KILN_DRAW (R105): 64 more cycles of the firing that holds the core. -/
def execKilnDraw (s : State) : Out :=
  match s.t.fir with
  | some f =>
    if !f.drawDue then .idle s else
    .next ((s.updMe fun k => k.both fun t => t.updFir fun f => { f with draws := f.draws + 1 }).draw s.cur f.part f.serial
      (kilnUnits f.cls))
  | none => .idle s

/-- Multiply-accumulates of a command are counted at a rate; each 1,024 make a draw due (R105). -/
def Engines.addMacs (g : Engines) (rate : Nat) (m : MatCmd) (n : Nat) : Engines :=
  if n = 0 then g else
  let v := FMap.get 0 g.macs rate + n
  { g with macs := FMap.put g.macs rate (v % 1024), due := g.due ++ rep (v / 1024) ⟨rate, m.part, m.fir⟩ }

/-- MAC_COUNT_DRAW (R105): a count has reached 1,024. -/
def execMacCountDraw (s : State) : Out :=
  match s.me.eng.due with
  | [] => .idle s
  | x :: r => .next ((s.updEng s.cur fun g => { g with due := r }).draw s.cur x.part x.fir x.units)

/-- AGING_LIMIT (R101): an entry of the core's queue reaches the limit. -/
def execAgingLimit (s : State) : Out :=
  .next (s.updMe fun k => { k with runq := k.runq.map fun e => { e with aged := e.aged || s.age e ≥ s.agingLimit (s.entryPart e) } })

/-- Partitions with instances on a die. -/
def State.partsOn (s : State) (die : Nat) : List Nat :=
  ((s.insts.filter fun (p : Nat × Inst) => p.2.st ≠ .exited &&
    (match p.2.core with | some c => dieOf c = die | none => false)).map fun (p : Nat × Inst) => p.2.part).dedup

/-- THERMAL_LIMIT (R107, R392): operand a die. Its allotments are zero from the next replenishment. -/
def execThermalLimit (s : State) : Out :=
  let die := s.arg 0
  if (s.die die).hot then .idle s else
  .next ((s.partsOn die).foldl (fun s p => s.tellSup 0 p [Cause.thermalLimit.code]) (s.updDie die fun d => { d with hot := true }))

/-- THERMAL_LIMIT_CLEAR (R392): operand a die. -/
def execThermalLimitClear (s : State) : Out := .next (s.updDie (s.arg 0) fun d => { d with hot := false })

end Sys2Proof.Machine
end

