-- ==== Sys2Proof/Machine/LaunchActor.lean ====
section
/-! DEFINITION. The launch actors (R74-R97): the host's message window, requests and their replies, the checks of
a record, launches that wait, run, step, change their die set and end. -/
namespace Sys2Proof.Machine

/-! ### The message window (R91, R92) -/

/-- The first failure of a write to PKT. -/
def pktFault (start : Nat) (whole : Bool) (b : List Byte) : Option Cause :=
  let h := pktHeader b
  if start ≠ 0 || !whole || b.length ≠ hdrLen h then some .badPacketLength
  else if bits h 53 51 ≠ 0 then some .reservedBits
  else if hdrMalformed h then some .badPacketLength
  else none

/-- The host reaches the package over PCIe: bring-up has passed link-up (R393), and a hub die carries the functions. -/
def State.pcieUp (s : State) : Bool := s.hub.bringup ≥ 6 && (s.hub.alive.1 || s.hub.alive.2)

/-- What a read of 8 bytes of the message window returns (R9, R91): PKT and the reserved area read zero. -/
def State.windowWord (s : State) (part off : Nat) : Word :=
  if off = 0x100 then (s.part part).errstat else if off = 0x108 then (s.part part).accepted else 0

/-- The host reads its message window. -/
def State.hostReads (s : State) (part off : Nat) : State :=
  s.updPart part fun p => { p with hostRead := s.windowWord part off }

/-- PKT (R92): operands a partition, the offset at which the write starts and whether every byte is enabled; the
bytes arrive with the step. With a full queue the write waits. A fourth operand other than 0 makes it a read at the
offset. -/
def execPkt (s : State) : Out :=
  let part := s.arg 0
  if !s.pcieUp then .idle s else
  if s.arg 3 ≠ 0 then .next (s.hostReads part (s.arg 1 % 0x100)) else
  match pktFault (s.arg 1) (s.arg 2 ≠ 0) s.payload with
  | some c => .next (s.updPart part fun p =>
      let drops := wbits p.errstat 31 16
      { p with errstat := word ((min 65535 (drops + 1)) <<< 16 + 256 + c.code) })
  | none =>
    if (s.part part).window.length ≥ 64 then .idle s else
    .next (s.updPart part fun p => { p with window := p.window ++ [s.payload], accepted := p.accepted + 1 })

/-- ERRSTAT (R91): operands a partition and the written value; a third other than 0 makes it a read of the window at
that offset. -/
def execErrstat (s : State) : Out :=
  if !s.pcieUp then .idle s else
  if s.arg 2 ≠ 0 then .next (s.hostReads (s.arg 0) (s.arg 2)) else
  if bit (s.arg 1) 8 then .next (s.updPart (s.arg 0) fun p => { p with errstat := p.errstat &&& ~~~0x100#64 }) else .idle s

/-! ### Writes and posts of the hub dies -/

/-- The check of a counter address by the launch actor (R396), in supervisor mode. -/
def State.hubCounter (s : State) (part va : Nat) : Except Cause (Nat × Nat) :=
  match s.walk part va with
  | .error _ => .error (s.noXlate part va)
  | .ok p =>
    if !p.w then .error .protWrite else
    let dev := p.base + va % 2 ^ p.size
    if dev % 4 ≠ 0 then .error .misaligned else
    match s.locate dev with
    | .counter c n => .ok (c, n)
    | _ => .error .copyPattern

/-- The counter that an indirect launch waits on (R89): it is read, so its page needs R. An address that names no
counter refuses the launch (log 75). -/
def State.waitCounter (s : State) (part va : Nat) : Except Cause (Nat × Nat) :=
  match s.walk part va with
  | .error _ => .error (s.noXlate part va)
  | .ok p =>
    if !p.r then .error .protRead else
    match s.locate (p.base + va % 2 ^ p.size) with
    | .counter c n => .ok (c, n)
    | _ => .error .copyPattern

/-- The agent number of the hub dies' posts (R207). -/
def hubAgent (part : Nat) : Nat := 2 ^ 20 + part

/-- Post +1 to a counter that was checked. -/
def State.hubInc (s : State) (part : Nat) (cnt : Option (Nat × Nat)) : State :=
  match cnt with
  | some k => s.post ⟨hubAgent part, k.1, k.2, 1, none⟩
  | none => s

/-- The counter that an address names, when it passes the check of R396; none for 0. -/
def State.hubTarget (s : State) (part va : Nat) : Option (Nat × Nat) :=
  if va = 0 then none else match s.hubCounter part va with | .ok k => some k | .error _ => none

/-- A write of the hub dies to raw bytes, when the page allows it: it takes its place as it lands (R76). No byte of a
mailbox is written (R15), and a write that the page does not allow is dropped (log 75). -/
def State.hubWrite (s : State) (part va : Nat) (b : List Byte) : State :=
  match s.walk part va with
  | .error _ => s
  | .ok p =>
    if !p.w then s else
    let dev := p.base + va % 2 ^ p.size
    let go := (s.replace (maskedBytes dev b)).signal 3 0 (linesOf dev b.length)
    match s.locate dev with
    | .hbm => go
    | .pad _ _ 0 _ => if inMailbox 0 (s.locate dev) b.length then s else go
    | _ => s

/-- The reply (R85): word 0, then +1 to the counter that word 1 named. Where word 0 cannot be written the counter is
still posted (log 75). -/
def State.reply (s : State) (part repa : Nat) (repc : Option (Nat × Nat)) (w : Nat) : State :=
  if repa = 0 then s else (s.hubWrite part repa (leBytes 8 w)).hubInc part repc

/-- A reply block lies in the scratchpad of a core that a spare takes over: the reply waits (R383). -/
def State.replyAway (s : State) (part repa : Nat) : Bool :=
  repa ≠ 0 && (match s.walk part repa with | .ok p => s.away [p.base + repa % 2 ^ p.size] | .error _ => false)

/-- The counter that word 1 of a reply block names, read and checked with the request (R85, R396); none where the word
cannot be read or fails the check. -/
def State.replyCounter (s : State) (part repa : Nat) : Option (Nat × Nat) :=
  if repa = 0 then none else match s.hubWord part (repa + 8) 8 with | .ok w => s.hubTarget part w | .error _ => none

/-! ### Requests (R84) -/

/-- OP of a request. -/
def reqOp (b : List Byte) : Nat := fieldAt b 8 1
/-- RECA. -/
def reqRec (b : List Byte) : Nat := fieldAt b 0x10 8
/-- REPA. -/
def reqRep (b : List Byte) : Nat := fieldAt b 0x18 8
/-- COUNTA. -/
def reqCount (b : List Byte) : Nat := fieldAt b 0x20 8
/-- WAITA. -/
def reqWait (b : List Byte) : Nat := fieldAt b 0x28 8
/-- WAITV. -/
def reqVal (b : List Byte) : Nat := fieldAt b 0x30 4

/-- A nonzero reserved field, an unknown OP or a misaligned address (R84). Of an end request bits [63:24] of RECA count
as reserved; the PRI, ECLS and NSUCC of a request's header are not compared with R84's (log 75). -/
def reqBad (b : List Byte) : Bool :=
  let op := reqOp b
  b.length ≠ 64 || !zeroAt b 9 7 || op > 2 || reqRep b % 16 ≠ 0 || !zeroAt b 0x34 12
    || (if op = 2 then reqRec b ≥ 2 ^ 24 else reqRec b % 64 ≠ 0)
    || (if op = 1 then reqCount b % 4 ≠ 0 || reqWait b % 4 ≠ 0 else reqCount b ≠ 0 || reqWait b ≠ 0 || reqVal b ≠ 0)

/-! ### The record (R78-R83) -/

/-- NACT. -/
def hNact (h : List Byte) : Nat := fieldAt h 0xC 2
/-- The header's fields lie in the ranges of R78. -/
def headOk (h : List Byte) : Bool :=
  let len := fieldAt h 8 4
  let flags := fieldAt h 0x12 1
  let lo := fieldAt h 0x10 1
  let hi := fieldAt h 0x11 1
  let rect := bit flags 1
  fieldAt h 0 8 % 64 = 0 && 8 ≤ len && len ≤ 8388608 && len % 8 = 0 && 1 ≤ hNact h && hNact h ≤ 256
    && 1 ≤ fieldAt h 0xE 1 && fieldAt h 0xE 1 ≤ 16 && fieldAt h 0xF 1 ≤ 2
    && (if rect then lo = 0 && hi = 0 else 1 ≤ lo && lo ≤ hi && hi ≤ 4) && flags < 4 && zeroAt h 0x13 1
    && fieldAt h 0x14 4 ≤ 4096 && fieldAt h 0x18 4 ≤ 65536
    && (if rect then fieldAt h 0x1C 4 < 2 ^ 18 else fieldAt h 0x1C 4 = 0) && zeroAt h 0x28 24

/-- Slots of the rack that holds an input port: 0 where a rack port names no rack. -/
def portSlots (d : List Byte) (p : Nat) : Nat :=
  let w := aIn d p
  if inRackPort w then (let r := aRack d (bits w 12 9); if bit r 31 then bits r 20 15 + 1 else 0) else inSlots w

/-- A rack word of R80. -/
def rackOk (w : Nat) : Bool :=
  w = 0 || (bit w 31 && bits w 30 21 = 0 && 1 ≤ bits w 20 15 && bits w 14 11 ≤ 8
    && bits w 10 0 * 64 + (bits w 20 15 + 1) * (64 * 2 ^ bits w 14 11) ≤ 0x1C000)

/-- An input-port word of R80, with the rate limit of R13. -/
def inOk (d : List Byte) (p : Nat) : Bool :=
  let w := aIn d p
  if p ≥ aNin d then w = 0 else bits w 15 13 = 0 && (if inRackPort w then bits w 8 7 = 0 else bits w 8 7 ≠ 3) && inRate w ≤ portSlots d p

/-- An output-port word of R80, with its destination (R83) and the rate limit of R13. -/
def outOk (descs : List (List Byte)) (d : List Byte) (p : Nat) : Bool :=
  let w := aOut d p
  if p ≥ aNout d then w = 0 else
  let x := at' [] descs (bits w 15 8)
  bits w 31 22 = 0 && bits w 21 20 ≠ 3 && !bit w 19 && !bit w 7 && outRate w ≤ 64 && bits w 15 8 < descs.length
    && bits w 18 16 < aNin x && !inRackPort (aIn x (bits w 18 16)) && outRate w ≤ portSlots x (bits w 18 16)

/-- An actor descriptor of R79 and R80. -/
def descOk (h : List Byte) (descs : List (List Byte)) (d : List Byte) : Bool :=
  aEntry d % 8 = 0 && aEntry d < fieldAt h 8 4 && fieldAt d 4 1 < 8 && aStage d < fieldAt h 0xE 1 && 1 ≤ aNin d
    && aNin d ≤ 8 && aNout d ≤ 8 && 1 ≤ aPergrp d && aPergrp d ≤ 65536 && aState d % 64 = 0 && aState d ≤ 65536
    && (span 0 16).all (fun k => rackOk (aRack d k)) && (span 0 8).all (inOk d) && (span 0 8).all (outOk descs d)

/-- The instance limits of R81 for a group count. -/
def countsOk (descs : List (List Byte)) (groups : Nat) : Bool :=
  descs.all (fun d => groups * aPergrp d ≤ 65536) && descs.foldl (fun n d => n + groups * aPergrp d) 0 ≤ 1048576

/-- An initial token (R82, R83) for a group count. -/
def tokenOk (descs : List (List Byte)) (groups : Nat) (b : List Byte) : Bool :=
  let h := pktHeader b
  let d := at' [] descs (bits h 35 28)
  bits h 53 51 = 0 && !hdrMalformed h && bits h 35 28 < descs.length && bits h 27 12 < groups * aPergrp d
    && hdrPort h < aNin d && !inRackPort (aIn d (hdrPort h))

/-- The initial tokens, packed one after another. -/
def State.readTokens (s : State) (part va : Nat) : Nat → Except Cause (List (List Byte))
  | 0 => .ok []
  | n + 1 => do
    let h ← s.hubWord part va 8
    let b ← s.hubRead part va (hdrLen h / 8)
    let r ← s.readTokens part (va + hdrLen h) n
    .ok (b :: r)

/-- Actor descriptors. -/
def State.readDescs (s : State) (part va : Nat) : Nat → Except Cause (List (List Byte))
  | 0 => .ok []
  | n + 1 => do
    let d ← s.hubRead part va 16
    let r ← s.readDescs part (va + 128) n
    .ok (d :: r)

/-- Read a record; the header's own ranges come first, since they say how much to read. -/
def State.readRecord (s : State) (part va : Nat) : Except Cause Record := do
  let h ← s.hubRead part va 8
  if !headOk h then .error .launchShape else
  let ds ← s.readDescs part (va + 64) (hNact h)
  let ts ← s.readTokens part (va + 64 + 128 * hNact h) (fieldAt h 0x14 4)
  .ok ⟨h, ds, ts, none⟩

/-- The image is one of the partition's memory images (R173). -/
def State.memoryImage (s : State) (part : Nat) (h : List Byte) : Bool :=
  (span 0 8).any fun i => s.cfg part (0xD8 + 16 * i) 8 = fieldAt h 0 8 && s.cfg part (0xE0 + 16 * i) 8 = fieldAt h 8 4
    && fieldAt h 8 4 ≠ 0

/-! ### Placing a launch (R86) -/

/-- A launch as its slot holds it. -/
def newLaunch (r : Record) (groups : Nat) (memory : Bool) (dies : List Nat) (repa : Nat) (repc : Option (Nat × Nat)) : Launch :=
  { st := 3, cause := 0, head := r.head, actors := r.descs.map fun d => ⟨d, groups * aPergrp d⟩, dies := dies, step := 0,
    repa := repa, repc := repc, compl := r.compl, pgen := 0, endRep := [], mask := 0, ending := false, memory := memory }

/-- A new instance. -/
def newInst (part lslot aidx num : Nat) : Inst :=
  { part := part, lslot := lslot, aidx := aidx, num := num, core := none, st := .unplaced, atStep := false, busy := false,
    credit := [], block := 0, mail := [], since := none, noDry := none, barred := [], again := false, tables := [], fwd := none, dest := none,
    markers := [], forced := false }

/-- The instances of a launch, in ascending AIDX and INST. -/
def launchInsts (part lslot : Nat) (l : Launch) : List (Nat × Inst) :=
  (span 0 l.actors.length).flatMap fun a => (span 0 (at' ⟨[], 0⟩ l.actors a).count).map fun n =>
    (instKey part lslot a n, newInst part lslot a n)

/-- A launch takes a slot, whose generation advances (R86). -/
def State.takeSlot (s : State) (part lslot : Nat) (l : Launch) : State :=
  s.updPart part fun p =>
    { p with slots := FMap.put p.slots lslot l, gens := FMap.upd 0 p.gens lslot fun g => (g + 1) % 4096 }

/-- Every die of a list holds, or takes, a copy of an image (R119). -/
def State.loadAll (s : State) (part image len : Nat) : List Nat → Option State
  | [] => some s
  | d :: r => match s.loadCode d part image len with | some t => t.loadAll part image len r | none => none

/-- A launch's instances are created and placed on a die set, each die of which takes its code (R86, R119). A set with a
die whose code store has no room does not serve, as one with too few free cores does not (log 85). -/
def State.tryDies (s : State) (part lslot : Nat) (l : Launch) : Option State :=
  let is := launchInsts part lslot l
  let s := s.updPart part fun p => { p with slots := FMap.put p.slots lslot l }
  let s := { s with insts := is.foldl (fun (m : FMap Inst) (p : Nat × Inst) => FMap.put m p.1 p.2) s.insts }
  match s.loadAll part (fieldAt l.head 0 8) (fieldAt l.head 8 4) l.dies with
  | some s => s.placeAll (is.map (·.1))
  | none => none

/-- The die sets of step 3: the lowest-numbered dies, from the smaller of DMAX and the allotment's count down to
DMIN; a rectangle's own dies. -/
def State.dieSets (s : State) (part : Nat) (h : List Byte) (memory : Bool) : List (List Nat) :=
  let all := s.allotDies part memory
  if bit (fieldAt h 0x12 1) 1 then [((rectClusters (fieldAt h 0x1C 4)).map (· / 128)).dedup]
  else
    let hi := min (fieldAt h 0x11 1) all.length
    let lo := fieldAt h 0x10 1
    ((span lo (hi + 1 - lo)).reverse).map all.take

/-- The first die set that serves. -/
def State.trySets (s : State) (part lslot : Nat) (l : Launch) : List (List Nat) → Option State
  | [] => none
  | d :: r => match s.tryDies part lslot { l with dies := d } with
    | some t => some t
    | none => s.trySets part lslot l r

/-- The state without the launches of any partition: what remains of a core's tables is the supervisors'
(R15, R83). -/
def State.bare (s : State) : State :=
  let gone := (s.insts.filter fun (p : Nat × Inst) => p.2.lslot ≠ 0xFFF).map (·.1)
  let keep (r : Nat × Rack) : Bool := match r.2.owner with | some k => !gone.contains k | none => false
  let sup (c : Code) : Bool := match (s.part c.part).sup with
    | some x => x.image = c.image && x.len = c.bytes.length
    | none => false
  { s with insts := s.insts.filter fun (p : Nat × Inst) => p.2.lslot = 0xFFF,
           cores := s.cores.map fun (p : Nat × Core) => (p.1, { p.2 with racks := p.2.racks.filter keep }),
           parts := s.parts.map fun (p : Nat × Part) => (p.1, { p.2 with slots := [] }),
           dies := s.dies.map fun (p : Nat × Die) => (p.1, { p.2 with code := p.2.code.filter sup }) }

/-- The lowest-numbered free launch slot (R86). -/
def State.freeSlot (s : State) (part : Nat) : Option Nat :=
  lowestFrom (fun l => match FMap.find? (s.part part).slots l with | none => true | some x => x.st = 0 || x.st ≥ 5) 0 0xFFF

/-- A rectangle holds clusters busy with other launches: their instances stand there, or a live rectangle claims them
(R88). -/
def State.rectBusy (s : State) (part lslot w : Nat) : Bool :=
  let cs := rectClusters w
  (s.claimed part lslot).any cs.contains ||
  s.insts.any fun (p : Nat × Inst) => p.2.lslot ≠ 0xFFF &&
    (match p.2.core with | some c => cs.contains (clusterOf c) | none => false)

/-- Column and row of a cluster in the package mesh (R88). -/
def meshPos (k : Nat) : Nat × Nat := (10 * (k / 128 % 2) + k % 128 % 10, 8 * (k / 128 / 2) + k % 128 / 10)

/-- The mesh links inside a rectangle: 2 * cluster key to the east, 2 * key + 1 to the south (R88). -/
def rectLinks (w : Nat) : List Nat :=
  let cs := rectClusters w
  let has (x y : Nat) : Bool := cs.any fun k => meshPos k = (x, y)
  cs.flatMap fun k =>
    let p := meshPos k
    (if has (p.1 + 1) p.2 then [2 * k] else []) ++ (if has p.1 (p.2 + 1) then [2 * k + 1] else [])

/-- The launch actor loads the routing tables of every link inside a rectangle (R88); what a table holds is a free
value of the rectangle and the link (log 80). -/
def State.loadRoutes (s : State) (w : Nat) : State :=
  { s with routes := (rectLinks w).foldl (fun m l => FMap.put m l (Config.routing w l)) s.routes }

/-- A token of a LAUNCHI whose count is 0 names no instance, and none is delivered: its other fields are checked all
the same (R83, R89). -/
def tokenForm (descs : List (List Byte)) (b : List Byte) : Bool :=
  let h := pktHeader b
  let d := at' [] descs (bits h 35 28)
  bits h 53 51 = 0 && !hdrMalformed h && bits h 35 28 < descs.length && hdrPort h < aNin d && !inRackPort (aIn d (hdrPort h))

/-- The checks of R83 on a record that has been read, for a group count; `own` when the count is LAUNCHI's: its own
cause comes last but for the placement, since it is the answer only when nothing else is wrong. -/
def State.recordFault (s : State) (part : Nat) (r : Record) (groups : Nat) (own : Bool) : Option Cause :=
  let h := r.head
  let rect := bit (fieldAt h 0x12 1) 1
  let w := fieldAt h 0x1C 4
  let memory := s.memoryImage part h
  let compl := fieldAt h 0x20 8
  if rect && part > 1 then some .securityViolation
  else if !r.descs.all (descOk h r.descs) then some .launchShape
  else if !own && !countsOk r.descs groups then some .launchShape
  else if !r.tokens.all (fun b => if groups = 0 && own then tokenForm r.descs b else tokenOk r.descs groups b) then
    some .launchShape
  else if rect && (memory || bits w 4 0 + bits w 13 9 > 19 || bits w 8 5 + bits w 17 14 > 15
      || !(rectClusters w).all (fun c => s.hasCluster part (c / 128) (c % 128))) then some .launchShape
  else if !rect && (s.allotDies part memory).length < fieldAt h 0x10 1 then some .launchShape
  else
    match (if compl = 0 then .ok (0, 0) else s.hubCounter part compl) with
    | .error c => some c
    | .ok _ =>
      match s.readImage part (fieldAt h 0 8) (fieldAt h 8 4 / 8) with
      | .error c => some c
      | .ok _ =>
        let l := newLaunch r groups memory [] 0 none
        if own && !countsOk r.descs groups then some .indirectRange
        else if (s.bare.trySets part 0 l (s.dieSets part h memory)).isNone then some .launchShape else none

/-- The initial tokens of a launch, with its slot and generation (R82). -/
def State.tokenPkts (s : State) (part lslot : Nat) (ts : List (List Byte)) : List Pkt :=
  ts.map fun b =>
    let h := pktHeader b
    let h := bits h 63 48 <<< 48 + lslot <<< 36 + bits h 35 12 <<< 12 + s.genOf part lslot
    Pkt.fromHub part (leBytes 8 h ++ b.drop 8)

/-- Tokens are delivered in record order, until one finds no room: the state, and those that are left (R82). -/
def State.sendTokens (s : State) : List Pkt → State × List Pkt
  | [] => (s, [])
  | p :: r =>
    let d := s.deliver p
    if d.2 then d.1.sendTokens r else (d.1, p :: r)

/-- The reply word of a running launch (R85). -/
def State.runWord (s : State) (part lslot mask : Nat) : Nat := s.genOf part lslot <<< 52 + lslot <<< 40 + mask <<< 36

/-- The record that a request names, read and checked once (R83, R86). -/
def State.checkedRecord (s : State) (part : Nat) (q : Req) (groups : Option Nat) : Except Cause Record :=
  match q.kept with
  | some r => .ok r
  | none =>
    match s.readRecord part (reqRec q.bytes) with
    | .error c => .error c
    | .ok r =>
      match s.recordFault part r (groups.getD (fieldAt r.head 0x18 4)) groups.isSome with
      | some c => .error c
      | none => .ok { r with compl := s.hubTarget part (fieldAt r.head 0x20 8) }

/-- A launch is refused with a cause (R83); the slot that a waiting launch has taken shows it (R97). -/
def State.refuse (s : State) (part : Nat) (q : Req) (c : Cause) : State :=
  let s := s.reply part (reqRep q.bytes) q.repc c.code
  if q.slot = 0 then s else
  s.updPart part fun p =>
    match FMap.find? p.slots (q.slot - 1) with
    | some l => { p with slots := FMap.put p.slots (q.slot - 1) { l with st := 6, cause := c.code } }
    | none => p

/-- The cause of a failing read of the image for the dies of the largest set, where one of them holds no copy (R119). -/
def State.imageFault (s : State) (part : Nat) (h : List Byte) (sets : List (List Nat)) : Option Cause :=
  let len := fieldAt h 8 4
  if (sets.headD []).all fun d => s.hasCode d part (fieldAt h 0 8) len then none else
  match s.readImage part (fieldAt h 0 8) (len / 8) with
  | .error c => some c
  | .ok _ => none

/-- Steps 4 and 5 of R86 for a placed launch: the tokens that are left are delivered, and once none is left the launch
runs and its reply is written; until then the request waits. -/
def State.finishLaunch (s : State) (part : Nat) (q : Req) : State × Option Req :=
  let lslot := q.slot - 1
  let r := s.sendTokens q.tokens
  if !r.2.isEmpty then (r.1, some { q with tokens := r.2 }) else
  match FMap.find? (r.1.part part).slots lslot with
  | none => (r.1, none)
  | some l =>
    let s := r.1.updPart part fun p => { p with slots := FMap.put p.slots lslot { l with st := if l.st = 2 then 3 else l.st } }
    (s.reply part (reqRep q.bytes) q.repc (s.runWord part lslot l.mask), none)

/-- A launch with a slot and a placement: its instances may fire as soon as their tokens arrive (R86). -/
def State.launched (s : State) (part lslot : Nat) (q : Req) (l : Launch) (tokens : List (List Byte)) : State × Option Req :=
  let m := s.dmask part lslot
  let s := s.updPart part fun p => { p with slots := FMap.upd l p.slots lslot fun x => { x with mask := m, st := 2 } }
  let s := (launchInsts part lslot l).foldl (fun s p => s.wake p.1) s
  s.finishLaunch part { q with slot := lslot + 1, tokens := s.tokenPkts part lslot tokens }

/-- A launch is tried (R86): the new state, with the request while it must wait. It waits without a slot while every
slot is taken, in the slot it has taken while other launches' instances hold its cores or a die's code store has no room
(R119), and, once placed, while a token finds no room. `bad` lists the mesh links whose routing tables do not read back
as they were loaded (R88). A GROUPS of 0 in the record of a direct LAUNCH is taken as R89 takes a count of 0 (log 85). -/
def State.launch (s : State) (part : Nat) (q : Req) (groups : Option Nat) (bad : List Nat) : State × Option Req :=
  if !q.tokens.isEmpty then s.finishLaunch part q else
  match s.checkedRecord part q groups with
  | .error c => (s.refuse part q c, none)
  | .ok r =>
    let n := groups.getD (fieldAt r.head 0x18 4)
    let w := fieldAt r.head 0x1C 4
    let s0 := s
    let q0 := q
    let q := { q with kept := some r, count := match groups with | some g => .known g | none => q.count }
    match (if q.slot = 0 then s.freeSlot part else some (q.slot - 1)) with
    | none => (s, some q)
    | some lslot =>
      let memory := s.memoryImage part r.head
      let l := newLaunch r n memory [] (reqRep q.bytes) q.repc
      let s := if q.slot = 0 then s.takeSlot part lslot { l with st := if n = 0 then 5 else 1 } else s
      if n = 0 then
        ((s.hubInc part r.compl).reply part (reqRep q.bytes) q.repc (s.runWord part lslot 0), none)
      else
        let sets := s.dieSets part r.head memory
        match s.imageFault part r.head sets with
        | some c => (s0.refuse part q0 c, none)
        | none =>
          match (if l.rect && s.rectBusy part lslot w then none else s.trySets part lslot l sets) with
          | none => (s, some { q with slot := lslot + 1 })
          | some s =>
            if !l.rect then s.launched part lslot q l r.tokens
            else if (rectLinks w).any bad.contains then ((s0.loadRoutes w).refuse part q0 .launchShape, none)
            else (s.loadRoutes w).launched part lslot q l r.tokens

/-- A launch that can proceed does; another waits in the launch actor (R75, R86). -/
def State.launchOrWait (s : State) (part : Nat) (q : Req) (groups : Option Nat) (bad : List Nat) : State :=
  match s.launch part q groups bad with
  | (s, none) => s
  | (s, some q) => s.updPart part fun p => { p with waiting := p.waiting ++ [q] }

/-- The oldest request, taken from the queue, with word 1 of its reply block (R75, R85), once its reply block can be written
(R383; log 57). -/
def State.takeReq (s : State) (part : Nat) : Option (State × Req) :=
  match (s.part part).reqs with
  | [] => none
  | q :: r => if s.replyAway part (reqRep q.bytes) then none else some (s.updPart part fun p => { p with reqs := r }, { q with repc := s.replyCounter part (reqRep q.bytes) })

/-- LAUNCH_REQUEST (R86): operands a partition and the mesh links that read back wrong (R88). The oldest request asks
for a launch, or is malformed (R84): it is answered, unless the address of its reply block is itself misaligned
(log 75). -/
def execLaunchRequest (s : State) : Out :=
  let part := s.arg 0
  match s.takeReq part with
  | none => .idle s
  | some (s', q) =>
    if reqBad q.bytes then
      let repa := reqRep q.bytes
      .next (if repa % 16 = 0 then s'.reply part repa q.repc Cause.launchShape.code else s')
    else if reqOp q.bytes = 0 then .next (s'.launchOrWait part q none (s.args.drop 1)) else .idle s

/-! ### Indirect launches (R89) -/

/-- The group count of an indirect launch is known: it is launched or refused. -/
def State.countKnown (s : State) (part : Nat) (q : Req) (n : Except Cause Nat) (bad : List Nat) : State :=
  match n with
  | .ok n => s.launchOrWait part q (some n) bad
  | .error c => s.refuse part q c

/-- INDIRECT_LAUNCH (R89): operands a partition and the mesh links that read back wrong. The oldest request is an
indirect launch: with a counter wait it waits, else its count is the one read at the commit or the arrival, or that
read's cause refuses it. -/
def execIndirectLaunch (s : State) : Out :=
  let part := s.arg 0
  match s.takeReq part with
  | none => .idle s
  | some (s', q) =>
    if reqBad q.bytes || reqOp q.bytes ≠ 1 then .idle s
    else if reqWait q.bytes ≠ 0 then .next (s'.updPart part fun p => { p with indirect := p.indirect ++ [q] })
    else .next (s'.countKnown part q
      (match q.count with
       | .known n => .ok n
       | .unread c => .error c
       | .none => s.hubWord part (reqCount q.bytes) 4) (s.args.drop 1))

/-- A counter's committed value. -/
def State.counterVal (s : State) (k : Nat × Nat) : Nat := FMap.get 0 (s.core k.1).mb k.2

/-- INDIRECT_LAUNCH_ELIGIBLE (R89): operands a partition, an index and the mesh links that read back wrong. The counter wait is satisfied, and the
count is read once; a wait on an address that names no counter refuses the launch with its cause. -/
def execIndirectLaunchEligible (s : State) : Out :=
  let part := s.arg 0
  match pick (s.part part).indirect (s.arg 1) with
  | none => .idle s
  | some (q, rest) =>
    if s.replyAway part (reqRep q.bytes) then .idle s else
    let s' := s.updPart part fun p => { p with indirect := rest }
    match s.waitCounter part (reqWait q.bytes) with
    | .error c => .next (s'.countKnown part q (.error c) [])
    | .ok k =>
      if !reached32 (s.counterVal k) (reqVal q.bytes) then .idle s
      else .next (s'.countKnown part q (s.hubWord part (reqCount q.bytes) 4) (s.args.drop 2))

/-- WAITING_LAUNCH_PROCEEDS (R86): operands a partition, an index and the mesh links that read back wrong. A launch
that waited is placed, or delivers the tokens it has left. -/
def execWaitingLaunchProceeds (s : State) : Out :=
  let part := s.arg 0
  match pick (s.part part).waiting (s.arg 1) with
  | none => .idle s
  | some (q, rest) =>
    if s.replyAway part (reqRep q.bytes) then .idle s else
    let s' := s.updPart part fun p => { p with waiting := rest }
    match s'.launch part q (match q.count with | .known n => some n | _ => none) (s.args.drop 2) with
    | (s', none) => .next s'
    | (s', some q) => .next (s'.updPart part fun p => { p with waiting := replaceAt (s.part part).waiting (s.arg 1) q })

/-! ### Ends (R90) -/

/-- Keys of a launch's instances. -/
def State.instsOf (s : State) (part lslot : Nat) : List Nat :=
  (s.insts.filter fun (p : Nat × Inst) => p.2.part = part && p.2.lslot = lslot).map (·.1)

/-- The live launch that a slot and generation name. -/
def State.liveLaunch (s : State) (part lslot gen : Nat) : Option Launch :=
  match FMap.find? (s.part part).slots lslot with
  | some l => if l.isLive && s.genOf part lslot = gen then some l else none
  | none => none

/-- Every instance of an ending launch without a firing in progress exits. -/
def State.exitIdle (s : State) (part lslot : Nat) : State :=
  (s.instsOf part lslot).foldl (fun s key =>
    match FMap.find? s.insts key with
    | some i => if i.busy || i.st = .exited then s else s.exitInst key
    | none => s) s

/-- Held dry firings of a launch's instances are knocked down. -/
def State.downDry (s : State) (part lslot : Nat) : State :=
  s.cores.foldl (fun s (p : Nat × Core) =>
    match (s.core p.1).held with
    | some h =>
      (match FMap.find? s.insts h.fir.inst with
       | some i => if i.part = part && i.lslot = lslot && h.fir.dry.isSome then State.knockDown 8 s p.1 false else s
       | none => s)
    | none => s) s

/-- END_REQUEST (R90): operand a partition. The oldest request ends a launch: queued firings are discarded, dry
ones knocked down, running ones run to their end. -/
def execEndRequest (s : State) : Out :=
  let part := s.arg 0
  match s.takeReq part with
  | none => .idle s
  | some (s', q) =>
    if reqBad q.bytes || reqOp q.bytes ≠ 2 then .idle s else
    let lslot := bits (reqRec q.bytes) 11 0
    match s'.liveLaunch part lslot (bits (reqRec q.bytes) 23 12) with
    | none => .next (s'.reply part (reqRep q.bytes) q.repc Cause.actorExited.code)
    | some l =>
      let l := { l with ending := true, endRep := l.endRep ++ [(reqRep q.bytes, q.repc)] }
      let s := s'.updPart part fun p => { p with slots := FMap.put p.slots lslot l }
      .next ((s.downDry part lslot).exitIdle part lslot)

/-- Tokens of a launch are still to be delivered: its reply comes first (R86). -/
def State.unreplied (s : State) (part lslot : Nat) : Bool :=
  (s.part part).waiting.any fun q => q.slot = lslot + 1 && !q.tokens.isEmpty

/-- LAUNCH_END (R90): operands a partition and a slot. Every instance has exited and every engine command of the
launch's firings has completed; an end request's reply waits for the same, and follows COMPL's post (log 85). -/
def execLaunchEnd (s : State) : Out :=
  let part := s.arg 0
  let lslot := s.arg 1
  match FMap.find? (s.part part).slots lslot with
  | none => .idle s
  | some l =>
    if !l.isLive || s.unreplied part lslot then .idle s else
    let s' := if l.ending then s.exitIdle part lslot else s
    let keys := s'.instsOf part lslot
    if s'.live part lslot ≠ 0 || !keys.all s'.engineIdle || l.endRep.any (fun r => s.replyAway part r.1) then .next s' else
    let s' := s'.hubInc part l.compl
    let s' := l.endRep.foldl (fun s r => s.reply part r.1 r.2 (s.runWord part lslot l.mask)) s'
    let l := { l with st := 5 }
    let s' := s'.updPart part fun p => { p with slots := FMap.put p.slots lslot l }
    let s' := { s' with insts := s'.insts.filter fun p => !keys.contains p.1,
                        credits := s'.credits.filter fun x => !keys.contains x.1 }
    .next (s'.freeCode part)

/-! ### Steps (R87) -/

/-- Live priority-0 instances of a launch. -/
def State.steppers (s : State) (part lslot : Nat) : List (Nat × Inst) :=
  s.insts.filter fun (p : Nat × Inst) => p.2.part = part && p.2.lslot = lslot && p.2.st ≠ .exited && aPri (s.descOfInst p.2) = 0

/-- Every live priority-0 instance has executed STEP and its firing has resolved. -/
def State.allStepped (s : State) (part lslot : Nat) : Bool :=
  let is := s.steppers part lslot
  !is.isEmpty && is.all fun (p : Nat × Inst) => p.2.atStep && !p.2.busy

/-- STEP_ADVANCE (R87): operands a partition and a slot. No held instance is on its way to another core. -/
def execStepAdvance (s : State) : Out :=
  let part := s.arg 0
  let lslot := s.arg 1
  match FMap.find? (s.part part).slots lslot with
  | none => .idle s
  | some l =>
    let is := s.steppers part lslot
    if !l.isLive || !s.allStepped part lslot
        || is.any (fun (p : Nat × Inst) => p.2.st = .quiesce || p.2.st = .stream || p.2.st = .switching) then .idle s else
    let l := { l with st := 3, step := (l.step + 1) % 65536 }
    let s := s.updPart part fun p => { p with slots := FMap.put p.slots lslot l }
    .next (is.foldl (fun s p => (s.updInst p.1 fun i => { i with atStep := false }).wake p.1) s)

/-- Microseconds of the last 16 in which a cluster's budget reached 0 (R108). -/
def State.heat (s : State) (cl : Nat) : Nat := ((s.cluster cl).hist.filter fun b => b).length

/-- Of a list of cores those with room for an instance, beside what other moves have chosen (R99, R108). -/
def State.roomy (s : State) (i : Inst) (cores : List Nat) : List Nat :=
  let t := s.planned
  cores.filter fun c => i.core ≠ some c && (t.fit i c).isSome

/-- A list of cores, those of the coolest clusters first, where the budget reached 0 in the fewest of the last 16
microseconds (R108; log 78). -/
def State.byHeat (s : State) (cores : List Nat) : List Nat :=
  (span 0 17).flatMap fun n => cores.filter fun d => s.heat (clusterOf d) = n

/-- Of a list of cores those with room for an instance in the coolest clusters (R108; log 78). -/
def State.coolest (s : State) (i : Inst) (cores : List Nat) : List Nat :=
  let room := s.byHeat (s.roomy i cores)
  room.filter fun d => room.head?.any fun e => s.heat (clusterOf d) = s.heat (clusterOf e)

/-- A held instance is chosen for a move to a core that has room (R108). -/
def State.quiesce (s : State) (key : Nat) (cores : List Nat) : Option State :=
  match FMap.find? s.insts key with
  | none => none
  | some i =>
    match (s.roomy i cores).head? with
    | none => none
    | some c => some (s.updInst key fun i => { i with st := .quiesce, dest := some c })

/-- Every instance of a list is chosen, each beside the choices before it. -/
def State.quiesceAll (s : State) (cores : State → Inst → List Nat) : List (Nat × Inst) → Option State
  | [] => some s
  | p :: r => match s.quiesce p.1 (cores s p.2) with | some s => s.quiesceAll cores r | none => none

/-- DIE_SET_CHANGE (R87): operands a partition, a slot and a mask of dies. Between the last STEP and the advance
the die set changes within DMIN and DMAX, each of its dies takes the code (R119), and held instances of withdrawn dies
move to the coolest clusters with room (R108); priority-1 instances, which take no
part in steps, stay where they are (log 75). -/
def execDieSetChange (s : State) : Out :=
  let part := s.arg 0
  let lslot := s.arg 1
  let dies := (span 0 4).filter (bit (s.arg 2))
  match FMap.find? (s.part part).slots lslot with
  | none => .idle s
  | some l =>
    let is := s.steppers part lslot
    if !l.isLive || l.rect || !s.allStepped part lslot || dies.length < fieldAt l.head 0x10 1 || dies.length > fieldAt l.head 0x11 1
        || !dies.all (fun d => (s.allotDies part l.memory).contains d) then .idle s else
    let l := { l with dies := dies, st := 4 }
    let off := is.filter fun (p : Nat × Inst) => p.2.st = .home && (match p.2.core with | some c => !dies.contains (dieOf c) | none => false)
    match (s.updPart part fun p => { p with slots := FMap.put p.slots lslot l }).loadAll part
        (fieldAt l.head 0 8) (fieldAt l.head 8 4) dies with
    | none => .idle s
    | some t => match t.quiesceAll (fun t i => t.coolest i (t.tries l i)) off with
      | some t => .next t
      | none => .idle s

/-- PLACEMENT_RUN (R98): operand a partition. Instances added by ACTNEW are placed. -/
def execPlacementRun (s : State) : Out :=
  let new := s.insts.filter fun (p : Nat × Inst) => p.2.part = s.arg 0 && p.2.st = .unplaced
  .next (new.foldl (fun s p => ((s.placeOne p.1).getD s).wake p.1) s)

end Sys2Proof.Machine
end

