-- ==== Sys2Proof/Machine/Migration.lean ====
section
/-! DEFINITION. The states of a move (R108, R109). Every step names an instance by its key. -/
namespace Sys2Proof.Machine

/-- The cores an instance may move to: those of its launch (R98, R173), or its partition's compute cores. -/
def State.homes (s : State) (i : Inst) : List Nat :=
  match s.launchOf i with
  | some l => s.launchCores i.part i.lslot l
  | none => (span 0 4).flatMap fun d => s.dieCores i.part false d

/-- The cores that an instance which leaves its core may move to (R108): its homes outside the hot cluster that it leaves;
off a draining core, any other of its homes; the neighbour of a memory core that is retired (R385). -/
def State.targets (s : State) (i : Inst) (c : Nat) (leaving : Bool) : List Nat :=
  if leaving && isMemCore c then [Nat.xor c 1].filter (s.allotted i.part)
  else (s.homes i).filter fun d => d ≠ c && (leaving || clusterOf d ≠ clusterOf c)

/-- The scheduler's choice among them (R108): those with room, in the coolest clusters, where the budget reached 0 in the
fewest of the last 16 microseconds (log 78). -/
def State.coolCores (s : State) (i : Inst) (c : Nat) (leaving : Bool) : List Nat := s.coolest i (s.targets i c leaving)

/-- MIGRATION_QUIESCE (R108): operands an instance and a core. The instance is held at a step boundary in a hot
cluster, whose budget reached 0 in at least 8 of the last 16 microseconds, or its core is draining. -/
def execMigrationQuiesce (s : State) : Out :=
  let key := s.arg 0
  let dest := s.arg 1
  match FMap.find? s.insts key with
  | none => .idle s
  | some i =>
    let c := i.core.getD 0
    let leaving : Bool := i.core.isSome && (s.core c).draining
    if i.st ≠ .home || i.busy || i.core.isNone || !(leaving || (i.atStep && s.heat (clusterOf c) ≥ 8))
        || !(s.coolCores i c leaving).contains dest then .idle s else
    match s.quiesce key [dest] with
    | some s' => .next (s'.updInst key fun x => { x with forced := leaving })
    | none => .idle s

/-- MIGRATION_STREAM (R108): every engine command of the instance has completed, and it is swapped out. -/
def execMigrationStream (s : State) : Out :=
  let key := s.arg 0
  match FMap.find? s.insts key with
  | none => .idle s
  | some i =>
    match i.core with
    | none => .idle s
    | some c =>
      if i.st ≠ .quiesce || i.busy || !s.engineIdle key then .idle s else
      .next ((s.updInst key fun x => { x with st := .stream }).updCore c fun k => { k with runq := k.runq.filter (·.inst ≠ key) })

/-- The move to the first core of a list that takes the instance. -/
def State.moveTo (s : State) (key : Nat) : List Nat → Option State
  | [] => none
  | c :: r => match s.moveInst key c with | some t => some t | none => s.moveTo key r

/-- MIGRATION_SWITCH (R108): the stream has completed. The instance goes to the core that was chosen, or where that one
takes it no longer to the coolest other one that does (log 78). The old core's forwarding entry stands, and the tables are
rewritten one by one. -/
def execMigrationSwitch (s : State) : Out :=
  let key := s.arg 0
  match FMap.find? s.insts key with
  | none => .idle s
  | some i =>
    match i.core with
    | none => .idle s
    | some old =>
      if i.st ≠ .stream then .idle s else
      match s.moveTo key ((i.dest.toList ++ s.byHeat (s.roomy i (s.targets i old i.forced))).filter fun d => s.allotted i.part d) with
      | some s' => .next (s'.switchFrom key old)
      | none => .idle s

/-- PLACEMENT_TABLE_REWRITE (R109): operands an instance and a table, 0-3 of the dies and 4-5 of the hub dies.
After the sixth the instance drains. -/
def execPlacementTableRewrite (s : State) : Out :=
  let key := s.arg 0
  match FMap.find? s.insts key with
  | none => .idle s
  | some i =>
    match i.core with
    | none => .idle s
    | some c =>
      if i.st ≠ .switching || s.arg 1 > 5 then .idle s else
      let t := FMap.put i.tables (s.arg 1) c
      let done := (span 0 6).all fun n => FMap.find? t n = some c
      .next ((s.updInst key fun x => { x with tables := t, st := if done then .drain else .switching }).wake key)

/-- DRAIN_MARKER (R109): operands an instance and a table. The marker of a rewritten table reaches the new
core, which no longer holds back that die's packets. -/
def execDrainMarker (s : State) : Out :=
  let key := s.arg 0
  let n := s.arg 1
  match FMap.find? s.insts key with
  | none => .idle s
  | some i =>
    if !i.moving || i.markers.contains n || i.core.isNone || FMap.find? i.tables n ≠ i.core then .idle s
    else .next (s.updInst key fun x => { x with markers := n :: x.markers })

/-- DRAIN_MESSAGE (R109): all six markers have arrived, and the old core frees its forwarding entry. -/
def execDrainMessage (s : State) : Out :=
  let key := s.arg 0
  match FMap.find? s.insts key with
  | none => .idle s
  | some i =>
    if i.st ≠ .drain || !(span 0 6).all i.markers.contains then .idle s
    else .next (((s.ringFree i.part key).updInst key fun x =>
      { x with st := .home, fwd := none, dest := none, markers := [], forced := false }).wake key)

end Sys2Proof.Machine
end

