-- ==== Sys2Proof/Machine/Service.lean ====
section
/-! DEFINITION. Service steps: precise traps and deadlines (R357, R372), repairs (R379), the retirement of
units (R381-R387). -/
namespace Sys2Proof.Machine

/-! ### Traps that wait, and deadlines -/

/-- The precise trap that the running firing takes before it issues again (R301, R305, R317, R362). -/
def State.dueTrap (s : State) : Option (Cause × Word × Word) := (s.me.waiting s.t.level).trap

/-- The word that raised it is the second of its unit (R37): after an engine command XPC names the instruction
that follows, and the command is the first member of a pair there or a lone word. A trap that comes with a home's reply
shows 0, whatever the word's place (R378; log 16). -/
def State.dueSecw (s : State) (xpc : Word) : Bool :=
  match s.t.fir with
  | none => false
  | some f =>
    if f.ran = 0 then xpc.getLsbD 2
    else f.pc = xpc && !xpc.getLsbD 2 && !(match s.codeWord (xpc.toNat - 8) with | some w => w.getLsbD 31 | none => false)

/-- Take it (R357). The wait ends once the trap has been taken. -/
def State.takeDue (s : State) (c : Cause) (xval xpc : Word) : State :=
  let level := s.t.level
  let s' := s.takeTrap c xval xpc false (s.dueSecw xpc)
  if s'.me.chunk.isSome then s' else s'.updMe fun k => k.setWaiting level Waiting.idle

/-- PRECISE_TRAP (R357): a trap whose cause came with a reply, an engine command under PENG or a firing's start
is taken at its instruction. A trap that an instruction raises is taken with that instruction. -/
def execPreciseTrap (s : State) : Out :=
  match s.dueTrap with
  | some (c, v, pc) => .next (s.takeDue c v pc).endStay
  | none => .idle s

/-- WFI_DEADLINE (R372): TIME reaches the deadline of a wait of the core; bit 3 is noted. -/
def execWfiDeadline (s : State) : Out :=
  let one (w : Waiting) : Waiting :=
    match w.await with
    | .wfi d deadline m => if s.timeUp deadline then { w with await := .wfi d deadline (m ||| 8) } else w
    | _ => w
  .next (s.updMe fun k => { k with wait0 := one k.wait0, wait1 := one k.wait1 })

/-! ### Repairs (R379) -/

/-- KIND of a core in an event-log entry (R380). -/
def coreKind (c : Nat) : Nat := if isMemCore c then 1 else 0

/-- Cycles in a second: 800 MHz. -/
def oneSecond : Nat := 800000000

/-- A core records a repair (R381). -/
def State.noteRepair (s : State) (c : Nat) : State :=
  s.updCore c fun k => { k with repairs := (s.cycle :: k.repairs).take 8 }

/-- Bytes become uncorrectable. -/
def State.spoilBytes (s : State) (a n : Nat) : State :=
  { s with poison := s.poison ++ (span a n).filter fun x => !s.poison.contains x }

/-- UNIT of a pseudo-channel (R380). -/
def pchUnit (stack pch : Nat) : Nat := stack * 1024 + pch

/-- UNIT of the pseudo-channel on which an HBM address lies: stacks of 0x18_0000_0000 bytes, interleaved in 256-byte lines
over 96 channels (R169). -/
def unitOfHbm (a : Nat) : Nat := pchUnit (a / 0x1800000000) (a % 0x1800000000 / 256 % 96)

/-- SOFT_ERROR_REPAIR (R379): operands the row of the table and, by row,
0, pipeline: the core, whose open chunk is squashed without counting toward solo mode;
1, matrix command: the core, whose started command runs again from its start;
2, Marquetry or die-scratchpad add: the core whose add is sent again;
3, flits: KIND, 0-8, and UNIT of the link, which replays the flit, and the die in whose log it stands (log 33);
4, single-bit error of an SRAM: the core of the array and an address, corrected in place;
5, double-bit error of a scratchpad: the core of the array and the raw device address of the 8-byte word;
6, error of an instruction cache: the core and a line, which is refilled;
7, HBM error corrected: UNIT and an address;
8, HBM sector that cannot be corrected: UNIT and an address.
A UNIT that names no core, or another pseudo-channel than the one on which the address lies (R169), is no repair. -/
def execSoftErrorRepair (s : State) : Out :=
  let u := s.arg 1
  let x := s.arg 2
  if (match s.arg 0 with | 3 => false | 7 | 8 => !(x < 0xC000000000 && u = unitOfHbm x) | _ => !s.exists' u) then .idle s else
  let fixed (s : State) (kind info : Nat) : State := s.logEvent (dieOf u) .softCorrected kind u info
  match s.arg 0 with
  | 0 => if (s.core u).chunk.isNone then .idle s
    else .next (fixed ((s.squash u false).noteRepair u) (coreKind u) 1)
  | 1 => match (s.core u).eng.mat with
    | m :: _ => if m.started then .next (fixed (s.noteRepair u) (coreKind u) 1) else .idle s
    | [] => .idle s
  | 2 => if (s.core u).eng.mq.isEmpty then .idle s else .next (fixed (s.noteRepair u) (coreKind u) 1)
  | 3 => .next (s.logEvent (s.arg 3 % 4) .softCorrected (u % 9) (x % 8192) 1)
  | 4 => .next (fixed (s.noteRepair u) 8 x)
  | 5 => .next (((s.noteRepair u).spoilBytes (x / 8 * 8) 8).logEvent (dieOf u) .spadUncorrectable 8 u x)
  | 6 => .next (fixed ((s.noteRepair u).updCore u fun k =>
      { k with icache := FMap.upd [] k.icache (icSet x) fun l => l.filter fun n => n % 2 ^ 58 ≠ x }) 8 x)
  | 7 => .next (s.logEvent (u / 2048 % 4) .softCorrected 3 u x)
  | 8 => .next ((s.spoilBytes (x / 32 * 32) 32).logEvent (u / 2048 % 4) .spadUncorrectable 3 u x)
  | _ => .idle s

/-- SCRUB (R379): lines and sectors are read and rewritten; what could be corrected was never visible. -/
def execScrub (s : State) : Out := .next s

/-! ### Retirement (R381-R385) -/

/-- A core has recorded 8 repairs within 1 s (R381). -/
def Core.worn (k : Core) (now : Nat) : Bool :=
  k.repairs.length ≥ 8 && k.repairs.all fun t => decide (now < t + oneSecond)

/-- UNIT_DRAINING (R381): operand a core. It takes no new firing from now on. -/
def execUnitDraining (s : State) : Out :=
  let c := s.arg 0
  if (s.core c).draining || !(s.core c).worn s.cycle then .idle s
  else .next (s.updCore c fun k => { k with draining := true })

/-- Cores of a unit: itself, or the sixteen of a cluster. -/
def unitCores (kind unit : Nat) : List Nat := if kind = 2 then span (unit / 16 * 16) 16 else [unit]

/-- Stop the firing of a level of the step's core, whose unit failed (R382): XVAL is a free value. -/
def State.stopLevel (s : State) : State :=
  match s.t.fir with
  | none => s
  | some f => s.stopFiring (xcauseOf .unitRetired false false) f.pc (Config.freeXval s.fresh) none

/-- What a failed core loses (R382): its open chunk is squashed, the instances of its firings are stopped, a running held
one among them, and held work that has ended is knocked down. -/
def State.failCore (s : State) (c : Nat) : State :=
  let old := s.cur
  let s := (s.squash c false).leaveSolo c
  let s := ({ s with cur := c } : State).stopLevel
  let s := s.stopLevel
  State.knockDown 8 { s with cur := old } c false

/-- A register of a spare after a takeover: the values are not carried over, so they are free (R383). -/
def spareLane (fresh n : Nat) : Lane := (Config.freeXval (fresh * 1024 + n)).truncate 32

/-- A spare takes a core's coordinate (R383): what the takeover does not copy starts as on a core that has
run nothing. -/
def Core.spare (k : Core) (fresh : Nat) : Core :=
  let t := k.t
  { k with
    t := { CoreT.reset with
      slots := t.slots, nextId := t.nextId, chLatch := t.chLatch, extq := t.extq, dvCount := t.dvCount, xsCount := t.xsCount,
      v := Vector.ofFn fun i => Vector.ofFn fun j => spareLane fresh (i.val * 16 + j.val),
      sd := Vector.ofFn fun i => spareLane fresh (256 + i.val) },
    chunk := none, squashed := 0, squashed1 := 0, held := none, solo := none, runq := [], wait0 := Waiting.idle, wait1 := Waiting.idle,
    pendImp := [], tlb := [], icache := [], draining := false, repairs := [], takeover := true, stayed := false, second := false }

/-- A core without a spare (R384): its coordinate names nothing, and its counters and channels are lost. Packets
that its chunks committed are on their way. -/
def State.loseCore (s : State) (c : Nat) : State :=
  let k := s.core c
  { s with net := s.net ++ k.out1 ++ k.out0, cores := FMap.del s.cores c }

/-- Cores to which an instance is re-placed (R384, R385): the neighbour of a memory core, else those that
CTXREST with ANY tries. -/
def State.refuge (s : State) (c : Nat) (i : Inst) : List Nat :=
  (if isMemCore c then [Nat.xor c 1] else []) ++
    (match s.launchOf i with | some l => s.tries l i | none => []) ++ s.homes i

/-- Re-place an instance of a core that is gone; the supervisor's log shows that it had to be re-placed. A
stopped or held instance stays so. An instance that no core takes is stopped. -/
def State.rePlace (s : State) (c key : Nat) : State :=
  match FMap.find? s.insts key with
  | none => s
  | some i =>
    let s := s.logEvent (dieOf c) .restoreShape (coreKind c) c i.part
    let st := i.st
    match s.moveTo key ((s.refuge c i).filter fun d => s.allotted i.part d) with
    | some s' => (s'.switchFrom key c).updInst key fun x => if st = .stopped then { x with st := .stopped } else x
    | none => s.updInst key fun x => { x with st := .stopped }

/-- Word 0 of a die's newest log entry. -/
def State.lastLog (s : State) (die : Nat) : Nat := match (s.die die).log with | e :: _ => e.1.toNat | [] => 0

/-- A retirement is logged (R380): the partition stands in INFO. -/
def State.logRetired (s : State) (die kind unit part : Nat) : State := s.logEvent die .unitRetired kind unit part

/-- Partitions with a supervisor actor. -/
def State.supParts (s : State) : List Nat := (s.parts.filter fun (p : Nat × Part) => p.2.sup.isSome).map (·.1)

/-- A pseudo-channel is retired (R386): its lines are copied to the stack's reserve, and every access sees each line
whole meanwhile. A second one of the stack is logged, and the supervisor actors hear of it. -/
def State.retireChannel (s : State) (stack pch : Nat) : State :=
  let id := stack * 128 + pch
  if stack > 7 || pch > 95 || s.hub.retired.contains id || s.hub.moving.contains id then s else
  let s := s.logRetired (stack / 2) 3 (pchUnit stack pch) 0
  if (s.hub.retired ++ s.hub.moving).any fun n => n / 128 = stack then
    s.supParts.foldl (fun (s : State) p => s.tellSup 0 p [s.lastLog (stack / 2)]) s
  else { s with hub := { s.hub with moving := id :: s.hub.moving } }

/-- The pseudo-channel that a memory core serves (R170): core m = 96 j + p of a die serves channel p of its stack j. -/
def channelOf (core : Nat) : Nat × Nat := (core / 2048 * 2 + (core % 2048 - 1280) / 96, (core % 2048 - 1280) % 96)

/-- A memory core is gone: its neighbour serves its channel; a pair that is gone retires both channels (R385). -/
def State.pairGone (s : State) (unit : Nat) : State :=
  if s.hub.units.contains (1, Nat.xor unit 1) then
    (s.retireChannel (channelOf unit).1 (channelOf unit).2).retireChannel (channelOf unit).1 (channelOf (Nat.xor unit 1)).2
  else s

/-- Units of a kind that stand ready to replace one: spare cores of the cluster, spare clusters of the die. -/
def State.sparesFor (s : State) (kind unit : Nat) : Nat :=
  match kind with
  | 0 => (s.cluster (clusterOf unit)).spares
  | 2 => (s.die (dieOf unit)).spares
  | _ => 0

/-- A spare is used. A spare cluster takes the coordinate only: the spare cores left of the cluster it replaces are the
ones that stay in store (R1; log 79). -/
def State.useSpare (s : State) (kind unit : Nat) : State :=
  if kind = 0 then s.updCluster (clusterOf unit) fun k => { k with spares := k.spares - 1 }
  else s.updDie (dieOf unit) fun d => { d with spares := d.spares - 1 }

/-- A unit is retired for good. -/
def State.goneUnit (s : State) (kind unit : Nat) : State := { s with hub := { s.hub with units := (kind, unit) :: s.hub.units } }

/-- Retire a unit without a spare (R384, R385): its instances are re-placed, and their supervisors hear of it. -/
def State.retireBare (s : State) (kind unit : Nat) : State :=
  let cs := unitCores kind unit
  let mine := s.insts.filter fun (p : Nat × Inst) => match p.2.core with | some c => cs.contains c | none => false
  let w := s.lastLog (dieOf unit)
  let s := s.goneUnit kind unit
  let s := mine.foldl (fun (s : State) (p : Nat × Inst) => s.rePlace (p.2.core.getD 0) p.1) s
  let s := cs.foldl State.loseCore s
  let s := (mine.map fun p => p.2.part).dedup.foldl (fun (s : State) p => s.tellSup 0 p [w]) s
  if kind = 1 then s.pairGone unit else s

/-- Retire a core, memory core or cluster: its firings have been stopped or have ended. -/
def State.retire (s : State) (kind unit : Nat) : State :=
  let s := s.logRetired (dieOf unit) kind unit (s.core unit).part
  if s.sparesFor kind unit > 0 then
    let s := s.useSpare kind unit
    ((unitCores kind unit).filter s.exists').foldl (fun (s : State) c => s.next.updCore c fun k => k.spare s.fresh) s
  else s.retireBare kind unit

/-- The unit's cores are drained: no firing runs, and no instance that could move stands there while another core would
take it. A stopped instance, which never fires, moves with the retirement itself (R383, R384). -/
def State.drained (s : State) (kind unit : Nat) : Bool :=
  ((unitCores kind unit).filter s.exists').all fun c =>
    let k := s.core c
    k.draining && k.t.fir0.isNone && k.t.fir1.isNone && k.chunk.isNone && k.held.isNone &&
      (s.placedOn c).all fun p => p.2.st = .stopped ||
        (s.coolCores p.2 c true).all fun d => (unitCores kind unit).contains d

/-- The unit is visible and not already being replaced; a cluster may have lost some of its cores. -/
def State.unitUp (s : State) (kind unit : Nat) : Bool :=
  kind ≤ 2 && (kind ≠ 2 || clusterOf unit % 128 < 80) && (kind ≠ 1 || isMemCore unit) && (kind ≠ 0 || !isMemCore unit)
    && (unitCores kind unit).any s.exists' && (unitCores kind unit).all fun c => !(s.core c).takeover

/-- UNIT_RETIRE (R381-R385): operands KIND, UNIT and whether the unit failed at once rather than drained. -/
def execUnitRetire (s : State) : Out :=
  let kind := s.arg 0
  let unit := if kind = 2 then s.arg 1 / 16 * 16 else s.arg 1
  if !s.unitUp kind unit then .idle s
  else if s.arg 2 ≠ 0 then
    .next ((((unitCores kind unit).filter s.exists').foldl State.failCore s).retire kind unit)
  else if s.drained kind unit then .next (s.retire kind unit) else .idle s

/-- SPARE_TAKEOVER_COMPLETE (R383): operands KIND and UNIT. The spare runs, and what was held is delivered. -/
def execSpareTakeoverComplete (s : State) : Out :=
  let cs := (unitCores (s.arg 0) (s.arg 1)).filter fun c => (s.core c).takeover
  .next (cs.foldl (fun (s : State) c => (s.updCore c fun k => { k with takeover := false }).wakeCore c) s)

/-! ### Pseudo-channels, lanes, regulators (R386, R387) -/

/-- PSEUDO_CHANNEL_RETIRE (R386): operands a stack, 0-7, and a pseudo-channel, 0-95. -/
def execPseudoChannelRetire (s : State) : Out := .next (s.retireChannel (s.arg 0) (s.arg 1))

/-- PSEUDO_CHANNEL_REDIRECT (R386): operands a stack and a pseudo-channel. No device address changes. -/
def execPseudoChannelRedirect (s : State) : Out :=
  let id := s.arg 0 * 128 + s.arg 1
  if !s.hub.moving.contains id then .idle s else
  .next { s with hub := { s.hub with moving := s.hub.moving.filter (· ≠ id), retired := id :: s.hub.retired } }

/-- A retirement of a unit that belongs to no compute die, in the log of die 0; UNIT is a free value. -/
def State.logHub (s : State) (kind : Nat) : State :=
  s.next.logRetired 0 kind ((Config.freeXval s.fresh).toNat % 8192) 0

/-- A port loses a lane (R387). -/
def State.loseLane (s : State) (port : Nat) : State := { s with hub := { s.hub with lanes := FMap.upd 0 s.hub.lanes port (· + 1) } }
/-- A regulator loses a phase (R387). -/
def State.losePhase (s : State) (n : Nat) : State := { s with hub := { s.hub with phases := FMap.upd 0 s.hub.phases n (· + 1) } }

/-- The hub die can carry functions: it is in service and its links are up. -/
def Hub.sound (h : Hub) (n : Nat) : Bool := !h.units.contains (6, n) && (if n = 0 then h.links.1 else h.links.2)
/-- The hub die carries functions: it has not handed them over for an update (R391), or the other one cannot carry them
(R2). -/
def Hub.carries (h : Hub) (n : Nat) : Bool := h.sound n && (h.updating.head? ≠ some n || !h.sound (1 - n))
/-- Which hub dies carry functions follows from their links, their retirement and an update under way. -/
def Hub.settle (h : Hub) : Hub := { h with alive := (h.carries 0, h.carries 1) }
/-- Set whether its links are up. -/
def Hub.setLinks (h : Hub) (n : Nat) (b : Bool) : Hub :=
  { h with links := if n = 0 then (b, h.links.2) else (h.links.1, b) }

/-- A hub die is retired (KIND 6), or its links go down (KIND 5), for good when the link itself is retired: the other one
carries every function (R2, R387). The entry stands in die 0's log, and UNIT is the hub die's number (log 79). -/
def State.loseHub (s : State) (kind n : Nat) (forGood : Bool) : State :=
  let h := if kind = 6 then s.hub else s.hub.setLinks n false
  let h := if forGood then { h with units := (kind, n) :: h.units } else h
  ({ s with hub := h.settle } : State).logRetired 0 kind n 0

/-- LANE_FAILURE (R387): operand a port, 0-7. The spare lane replaces the first lane lost, and the port narrows
from the second on. -/
def execLaneFailure (s : State) : Out :=
  let port := s.arg 0
  if port > 7 || FMap.get 0 s.hub.lanes port ≥ 9 then .idle s else
  .next ((s.loseLane port).logHub 4)

/-- REGULATOR_PHASE_LOSS (R387): operand a regulator. Nothing that a program can see changes. -/
def execRegulatorPhaseLoss (s : State) : Out :=
  .next ((s.losePhase (s.arg 0)).logHub 7)

end Sys2Proof.Machine
end

