-- ==== Sys2Proof/Machine/ConfigRecord.lean ====
section
/-! DEFINITION. Configuration records (R388, R389), the supervisor actor's installation (R77), and writes to the
I/O region (R182). -/
namespace Sys2Proof.Machine

/-! ### Fields of the record -/

/-- Fields that a write may change: offset and size. The retirement request and the last word have their own
effects; every other byte of the record is reserved. -/
def recordFields : List (Nat × Nat) :=
  [(0x000, 8), (0x008, 40), (0x030, 96), (0x090, 4), (0x094, 4), (0x098, 64), (0x0D8, 128), (0x158, 4), (0x160, 8),
   (0x168, 8), (0x170, 8), (0x178, 4), (0x17C, 4), (0x180, 4)]

/-- Bytes of a field after a write of `b` at record offset `off`. -/
def overlayField (old : List Byte) (fo : Nat) (b : List Byte) (off : Nat) : List Byte :=
  (old.zip (span 0 old.length)).map fun p =>
    let a := fo + p.2
    if off ≤ a && a < off + b.length then at' 0#8 b (a - off) else p.1

/-- A field's bytes. -/
def State.cfgBytes (s : State) (part fo n : Nat) : List Byte := (span fo n).map fun i => FMap.get 0#8 (s.part part).cfg i

/-- Store a field. -/
def State.putCfg (s : State) (part fo : Nat) (b : List Byte) : State :=
  s.updPart part fun p =>
    { p with cfg := (b.zip (span fo b.length)).foldl (fun (m : FMap Byte) q => FMap.set 0#8 m q.2 q.1) p.cfg }

/-- The error bit of a record is set (R388). -/
def State.recordError (s : State) (part : Nat) : State :=
  s.putCfg part 0x3F8 [BitVec.ofNat 8 (s.cfg part 0x3F8 1 ||| 1)]

/-- The partition holds a live launch. -/
def State.partLive (s : State) (part : Nat) : Bool := (s.part part).slots.any fun (p : Nat × Launch) => p.2.isLive

/-! ### Allotments (R389) -/

/-- First core of cluster bit n of a record. -/
def clusterBit (n : Nat) : Nat := n / 80 * 2048 + n % 80 * 16
/-- Core of memory-core bit n of a record. -/
def memBit (n : Nat) : Nat := n / 192 * 2048 + (80 + n % 192 / 16) * 16 + n % 16

/-- Cores of unit n of an allotment field. -/
def allotCores (mem : Bool) (n : Nat) : List Nat := if mem then [memBit n] else span (clusterBit n) 16

/-- Another partition holds the unit. -/
def State.othersUnit (s : State) (part : Nat) (mem : Bool) (n : Nat) : Bool :=
  s.parts.any fun (p : Nat × Part) => p.1 ≠ part && bit (if mem then s.cfg p.1 0x30 96 else s.cfg p.1 8 40) n

/-- Clear what a core holds for its former partition, its counts of multiply-accumulates too (R105, R389). -/
def Core.clear (k : Core) (part : Nat) : Core :=
  { k with
    t := { k.t with v := Vector.replicate 16 VReg.zero, sd := Vector.replicate 8 0, slots := [], chLatch := [], marks := [],
                    binds := [], locals := [], streams := [], park := [] },
    eng := { k.eng with macs := [] },
    racks := [], mb := [], mbLatch := [], perm := 0, icache := [], part := part, owned := true }

/-- Zero-fill a scratchpad of a size and return its element-window descriptors to V = 0. -/
def State.clearPad (s : State) (base size : Nat) : State :=
  { s with mem := s.mem.filter fun (p : Nat × Byte) => !(base ≤ p.1 && p.1 < base + size),
           wins := s.wins.filter fun (p : Nat × Word) => !(base ≤ p.1 && p.1 < base + 16 * windowStride size),
           poison := s.poison.filter fun a => !(base ≤ a && a < base + size) }

/-- Partitions from which cores pass to another. -/
def State.losers (s : State) (part : Nat) (cs : List Nat) : List Nat :=
  ((cs.filter fun c => (s.core c).owned && (s.core c).part ≠ part).map fun c => (s.core c).part).dedup

/-- Cores of a partition pass to another: the group contexts that were loaded before its allotment lost one of them are
loaded no longer (R352), but for those with pieces in flight, which are never released (R328; log 79). -/
def State.dropContexts (s : State) (cs : List Nat) (part : Nat) : State :=
  s.updPart part fun x => { x with groups := x.groups.filter fun (p : Nat × Group) =>
    !(p.2.lost.any cs.contains) || s.dvFlight part p.1 ≠ 0 }

/-- A partition's allotment loses cores and gains others: each context loaded so far notes what it has lost (R352). -/
def State.ageContexts (s : State) (part : Nat) (gone come : List Nat) : State :=
  s.updPart part fun x => { x with groups := x.groups.map fun (p : Nat × Group) =>
    (p.1, { p.2 with lost := (p.2.lost ++ gone).dedup.filter fun c => !come.contains c }) }

/-- A unit passes to a partition: cleared unless it is that partition's already (R389). -/
def State.passUnit (s : State) (part : Nat) (mem : Bool) (n : Nat) : State :=
  let cs := allotCores mem n
  if cs.all fun c => (s.core c).owned && (s.core c).part = part then s else
  let s := (s.losers part cs).foldl (fun (s : State) p => s.dropContexts cs p) s
  let s := cs.foldl (fun (s : State) c => (s.clearPad (padOfCore c) 0x20000).updCore c fun k => k.clear part) s
  if mem then s else
  let cl := clusterOf (clusterBit n)
  (s.clearPad (padOfCluster cl) 0x200000).updCluster cl fun k => { k with next := [], overflow := [] }

/-- A new allotment may be written: every unit that it names is visible, though a cluster may have lost some of its cores,
and no other partition's, and no unit that it gains or loses holds a placed instance. -/
def State.allotOk (s : State) (part : Nat) (mem : Bool) (old new : Nat) : Bool :=
  (span 0 (if mem then 768 else 320)).all fun n =>
    (bit old n = bit new n || (allotCores mem n).all fun c => (s.placedOn c).isEmpty)
      && (!bit new n || ((allotCores mem n).any s.exists' && !s.othersUnit part mem n))

/-! ### The supervisor actor (R77) -/

/-- Key of a partition's supervisor actor. -/
def supKey (part : Nat) : Nat := instKey part 0xFFF 1 0

/-- Remove the supervisor actor: a firing of it is discarded, and packets in its rack are dead letters; their cause is
UNKNOWN_ACTOR, as of packets that come later (R77; log 75). -/
def State.removeSup (s : State) (part : Nat) : State :=
  let key := supKey part
  let s := match FMap.find? s.insts key with
    | none => s
    | some i =>
      match i.core with
      | none => s
      | some c =>
        let s := if i.busy then s.discard c 1 else s
        let n := (s.core c).racks.foldl (fun (n : Nat) (p : Nat × Rack) => if p.2.owner = some key then n + p.2.nfill else n) 0
        let s := (span 0 n).foldl (fun (s : State) _ => s.deadLetter part .unknownActor) s
        s.updCore c fun k => k.dropInst key
  ({ s with insts := FMap.del s.insts key } : State).updPart part fun p => { p with sup := none }

/-- The fields of the supervisor actor are valid. -/
def State.supOk (s : State) (part : Nat) : Bool :=
  let img := s.cfg part 0x170 8
  let len := s.cfg part 0x178 4
  let entry := s.cfg part 0x17C 4
  let core := s.cfg part 0x180 4 % 8192
  img ≠ 0 && img % 64 = 0 && 8 ≤ len && len ≤ 8388608 && len % 8 = 0 && entry % 8 = 0 && entry < len && !isMemCore core && s.allotted part core

/-- The supervisor actor that the record describes. -/
def State.wantedSup (s : State) (part : Nat) : Sup :=
  ⟨s.cfg part 0x170 8, s.cfg part 0x178 4, s.cfg part 0x17C 4, s.cfg part 0x180 4 % 8192⟩

/-- The record asks for another supervisor actor than the one installed: SUPIMG is 0 with one installed, or the fields are
valid and describe one that is not installed (R77). -/
def State.supDue (s : State) (part : Nat) : Bool :=
  if s.cfg part 0x170 8 = 0 then (s.part part).sup.isSome
  else s.supOk part && (s.part part).sup ≠ some (s.wantedSup part)

/-- Install or remove the supervisor actor after a write to the record, whichever field it wrote: a write that leaves
SUPIMG nonzero and the fields valid installs the actor they describe, unless it is installed already. Fields that are not
valid leave the old installation as it is, and set the error bit when the write was one to them (`own`) (R77; log 61). So do
valid ones whose core has no room for the actor, whose die's code store has none, or whose image cannot be read: they are
tried again at the next write to the record, and not before (log 88). -/
def State.settleSup (s : State) (part : Nat) (own : Bool) : State :=
  let fail := if own then s.recordError part else s
  if !s.supDue part then (if s.cfg part 0x170 8 ≠ 0 && !s.supOk part then fail else s)
  else if s.cfg part 0x170 8 = 0 then (s.removeSup part).freeCode part
  else
    let key := supKey part
    let s' := (s.removeSup part).updPart part fun p => { p with sup := some (s.wantedSup part) }
    let s' := { s' with insts := FMap.put s'.insts key (newInst part 0xFFF 1 0) }
    match s'.tryPlace key (s.cfg part 0x180 4 % 8192) with
    | some t => t.freeCode part
    | none => fail

/-! ### Retirement requests -/

/-- The unit that a request names is visible, not retired before, and no other partition's (R388). UNIT of a lane is 9 * port + lane, of a
link and of a hub die its number, of an SRAM array its core's coordinate (log 79); the last hub die or link that is left
is not retired. -/
def State.mayRetire (s : State) (part kind unit : Nat) : Bool :=
  match kind with
  | 0 | 1 | 2 => s.unitUp kind (if kind = 2 then unit / 16 * 16 else unit)
    && (unitCores kind unit).all fun c => !(s.parts.any fun (p : Nat × Part) => p.1 ≠ part && s.allotted p.1 c)
  | 3 => unit / 1024 ≤ 7 && unit % 1024 ≤ 95 && !(s.hub.retired ++ s.hub.moving).contains (unit / 1024 * 128 + unit % 1024)
  | 4 => unit < 72 && !s.hub.units.contains (4, unit) && FMap.get 0 s.hub.lanes (unit / 9) < 9
  | 5 => unit < 2 && !s.hub.units.contains (5, unit) && s.hub.sound (1 - unit)
  | 6 => unit < 2 && !s.hub.units.contains (6, unit) && s.hub.sound (1 - unit)
  | 7 => true
  | 8 => s.exists' unit && !s.hub.units.contains (8, unit) && !(s.parts.any fun (p : Nat × Part) => p.1 ≠ part && s.allotted p.1 unit)
  | _ => false

/-- A request is taken (R381, R388): the unit's cores drain, a pseudo-channel's lines move, a lane or a regulator phase is
lost (R387), and a link or a hub die leaves the hub functions to the other (R2). An SRAM array is logged. -/
def State.requestRetire (s : State) (kind unit : Nat) : State :=
  match kind with
  | 0 | 1 | 2 => (unitCores kind unit).foldl (fun (s : State) c =>
      if s.exists' c then s.updCore c fun k => { k with draining := true } else s) s
  | 3 => s.retireChannel (unit / 1024) (unit % 1024)
  | 4 => ((s.loseLane (unit / 9)).goneUnit 4 unit).logRetired 0 4 unit 0
  | 5 => s.loseHub 5 unit true
  | 6 => s.loseHub 6 unit true
  | 7 => (s.losePhase unit).logRetired 0 7 unit 0
  | _ => (s.goneUnit kind unit).logRetired (dieOf unit) kind unit 0

/-! ### A write -/

/-- Write one field of a record, with the checks of R388. -/
def State.writeField (s : State) (part : Nat) (b : List Byte) (off : Nat) (f : Nat × Nat) : State :=
  if off + b.length ≤ f.1 || f.1 + f.2 ≤ off then s else
  let new := overlayField (s.cfgBytes part f.1 f.2) f.1 b off
  let put := s.putCfg part f.1 new
  if f.1 = 0x168 then
    let w := leVal new
    let kind := bits w 55 52
    let unit := bits w 44 32
    -- KIND and UNIT are the fields of the request; the others are reserved, and read zero (R9)
    let put := s.putCfg part f.1 (leBytes 8 (kind <<< 52 + unit <<< 32))
    if off + b.length ≤ 0x16C then put
    else if s.mayRetire part kind unit then put.requestRetire kind unit else s.recordError part
  else if f.1 ≠ 0x90 && f.1 ≠ 0x94 && s.partLive part then s.recordError part
  else if f.1 = 8 || f.1 = 0x30 then
    let mem : Bool := f.1 = 0x30
    let old := s.cfg part f.1 f.2
    if !s.allotOk part mem old (leVal new) then s.recordError part
    else
      let gone := (span 0 (8 * f.2)).filter fun n => bit old n && !bit (leVal new) n
      let come := (span 0 (8 * f.2)).filter fun n => bit (leVal new) n && !bit old n
      let put := put.ageContexts part (gone.flatMap (allotCores mem)) (come.flatMap (allotCores mem))
      come.foldl (fun (s : State) n => s.passUnit part mem n) put
  else if f.1 = 0x180 then
    let c := leVal new % 8192
    if (isMemCore c || !s.exists' c || (s.parts.any fun (p : Nat × Part) => p.1 ≠ part && s.allotted p.1 c))
    then s.recordError part
    else s.putCfg part f.1 (leBytes 4 c)
  else put

/-- A write to a partition's record (R388). -/
def State.writeRecord (s : State) (part off : Nat) (b : List Byte) : State :=
  let s := recordFields.foldl (fun (s : State) f => s.writeField part b off f) s
  let s := if off ≤ 0x3F8 && 0x3F8 < off + b.length && (at' 0#8 b (0x3F8 - off)).getLsbD 0 then s.putCfg part 0x3F8 [0#8] else s
  s.settleSup part (off < 0x184 && 0x170 < off + b.length && !s.partLive part)

/-- A write to the I/O region by a partition (R388): records and the update mailbox are written by partitions 0
and 1 only. -/
def State.writeIo (s : State) (writer a : Nat) (b : List Byte) : State :=
  let part := a / 0x100000
  let o := a % 0x100000
  if writer > 1 || part > 385 then s
  else if o < 0x400 then s.writeRecord part o b
  else if 0x1000 ≤ o && o < 0x1008 && part < 2 then
    let new := overlayField (leBytes 8 s.hub.mailbox.1) 0x1000 b o
    { s with hub := { s.hub with mailbox := (leVal new, s.hub.mailbox.2), posted := true } }
  else s

/-- A physical function sets the power cap, between 600 W and 1,800 W (R392). The manual gives no register for it: it
comes as an operand (log 79). -/
def State.setCap (s : State) (writer watts : Nat) : State :=
  if writer ≤ 1 && 600 ≤ watts && watts ≤ 1800 then { s with hub := { s.hub with cap := watts } } else s

/-- CONFIG_RECORD_WRITE (R388, R182): without operands the oldest store of the cores to the I/O region is
performed; with a writing partition, a partition and an offset the write comes over PCIe, its bytes with the
step; with a writing partition and a number of watts alone the power cap is set (R392). Records are written once the PCIe
link is up (R393). -/
def execConfigRecordWrite (s : State) : Out :=
  match s.args with
  | [] => match s.iow with
    | [] => .idle s
    | w :: r => .next (({ s with iow := r } : State).writeIo w.part (w.addr - 0x500000000000) w.bytes)
  | [w, n] => if s.pcieUp then .next (s.setCap w n) else .idle s
  | _ =>
    if !s.pcieUp then .idle s
    else .next (s.writeIo (s.arg 0) (s.arg 1 * 0x100000 + s.arg 2 % 0x100000) s.payload)

/-- UNIT_RETIREMENT_REQUEST (R388): operands a writing partition, a partition and the word. -/
def execUnitRetirementRequest (s : State) : Out :=
  if !s.pcieUp then .idle s
  else .next (s.writeIo (s.arg 0) (s.arg 1 * 0x100000 + 0x168) (leBytes 8 (s.arg 2)))

/-- CONFIG_ERROR_CLEAR (R388): operands a writing partition and a partition. -/
def execConfigErrorClear (s : State) : Out :=
  if !s.pcieUp then .idle s else .next (s.writeIo (s.arg 0) (s.arg 1 * 0x100000 + 0x3F8) [1#8])

end Sys2Proof.Machine
end

