-- ==== Sys2Proof/Machine/Control.lean ====
section
/-! DEFINITION. Control transfer (R140-R142). The address of the instruction is the firing's pc; where
control goes next stands in the state as R45 gives it until a transfer changes it. -/
namespace Sys2Proof.Machine

/-- A word offset from the instruction (R45, R47). -/
def State.target {n : Nat} (s : State) (off : BitVec n) : Nat := (s.t.pc + (sext off <<< 2)).toNat

/-- A conditional branch (R141): the target is checked only when it is taken. -/
def branch (i : Instr) (taken : Bool) (off : BitVec 12) (s : State) : Out :=
  finish s (s.doing (useOf i) fun s' => do
    if taken then
      s.checkTarget (s.target off)
      .ok (s'.goto (s.target off))
    else .ok s')

/-- JAL (R140). -/
def execJal (link : Reg) (off : BitVec 20) (s : State) : Out :=
  finish s (s.doing (useOf (.jal link off)) fun s' => do
    s.checkTarget (s.target off)
    .ok ((s'.setG link s.nextPc).goto (s.target off)))
/-- J (R140). -/
def execJ (off : BitVec 20) (s : State) : Out :=
  finish s (s.doing (useOf (.j off)) fun s' => do
    s.checkTarget (s.target off)
    .ok (s'.goto (s.target off)))
/-- BEQ (R141). -/
def execBeq (a b : Reg) (off : BitVec 12) (s : State) : Out :=
  branch (.beq a b off) (s.gIn a == s.gIn b) off s
/-- BNE (R141). -/
def execBne (a b : Reg) (off : BitVec 12) (s : State) : Out :=
  branch (.bne a b off) (s.gIn a != s.gIn b) off s
/-- BLT (R141). -/
def execBlt (a b : Reg) (off : BitVec 12) (s : State) : Out :=
  branch (.blt a b off) ((s.gIn a).slt (s.gIn b)) off s
/-- BGE (R141). -/
def execBge (a b : Reg) (off : BitVec 12) (s : State) : Out :=
  branch (.bge a b off) (!(s.gIn a).slt (s.gIn b)) off s
/-- BLTU (R141). -/
def execBltu (a b : Reg) (off : BitVec 12) (s : State) : Out :=
  branch (.bltu a b off) ((s.gIn a).ult (s.gIn b)) off s
/-- BGEU (R141). -/
def execBgeu (a b : Reg) (off : BitVec 12) (s : State) : Out :=
  branch (.bgeu a b off) (!(s.gIn a).ult (s.gIn b)) off s

/-- Where JALR and JR go (R142): the offset counts words. -/
def State.regTarget (s : State) (a : Reg) (off : BitVec 13) : Nat := (s.gIn a + (sext off <<< 2)).toNat

/-- JALR (R142). -/
def execJalr (d a : Reg) (off : BitVec 13) (s : State) : Out :=
  let g := s.regTarget a off
  finish s (s.doing (useOf (.jalr d a off)) fun s' => do
    faultIf (g % 4 ≠ 0) .misaligned g
    s.checkTarget g
    .ok ((s'.setG d s.nextPc).goto g))
/-- JR (R142). -/
def execJr (a : Reg) (off : BitVec 13) (s : State) : Out :=
  let g := s.regTarget a off
  finish s (s.doing (useOf (.jr a off)) fun s' => do
    faultIf (g % 4 ≠ 0) .misaligned g
    s.checkTarget g
    .ok (s'.goto g))
/-- LOOP (R142). -/
def execLoop (d a : Reg) (off : BitVec 13) (s : State) : Out :=
  let cnt := s.gIn a - 1
  finish s (s.doing (useOf (.loop d a off)) fun s' => do
    if cnt = 0 then .ok (s'.setG d cnt)
    else
      s.checkTarget (s.target off)
      .ok ((s'.setG d cnt).goto (s.target off)))

end Sys2Proof.Machine
end

