-- ==== Sys2Proof/Machine/Flags.lean ====
section
/-! DEFINITION. The IEEE 754 exceptions of an encoding (R70) and the flags a Dovetail node raises (R331, R333).
No instruction of a core has flags: FP instructions report none (R151). -/
namespace Sys2Proof.Machine

/-- A format with a NaN (R59). -/
def hasNan (fmt : Nat) : Bool := !(fmt = 6 || fmt = 7 || fmt = 8 || fmt = 10 || fmt = 11)

/-- The FP32 pattern is a signalling NaN (R159). -/
def isSnan (b : Lane) : Bool := (Num.ofBits b).isNan && !b.getLsbD 22

/-- Two values are equal as numbers, with the sign of zero ignored. -/
def Num.same (x y : Num) : Bool := x.eq y || (x.isNan && y.isNan)

/-- The exceptions of R70, as bits: 1 invalid, 2 overflow, 4 underflow, 8 inexact. `src` tells a
signalling source pattern. -/
def encodeFlags (fmt : Nat) (rm : Rm) (x : Num) : Nat :=
  let r := decodeElem fmt (encodeElem fmt rm x)
  match x with
  | .nan b => if !hasNan fmt || isSnan b then 1 else 0
  | .inf _ => if x.same r then 0 else 2
  | .fin _ m e =>
    let inexact := !(x.same r)
    let sat : Bool := match fmt with
      | 5 => dyCmp m e 1 12 = .gt
      | 9 => dyCmp m e 1 8 = .gt
      | 6 | 11 => (match x.toInt rm with | some v => clampInt (fmtWidth fmt) v ≠ v | none => false)
      | f => decide (magCodeS rm (shapeOf f) x.neg? m e > (shapeOf f).maxCode)
    let sh := shapeOf fmt
    let tiny := !(fmt = 5 || fmt = 9 || fmt = 6 || fmt = 11) && m ≠ 0 &&
      (let top := (m.log2 : Int) + e
       let q := top - sh.fb
       let s := if q ≤ e then m <<< (e - q).toNat else roundMag rm x.neg? m (q - e).toNat
       dyCmp s q 1 (1 - (sh.bias : Int)) = .lt)
    (if sat then 2 else 0) + (if tiny && inexact then 4 else 0) + (if inexact then 8 else 0)

/-- The flags NV, OF, UF and NX in the places of R333, from the exceptions of R70. -/
def dvFlags (f : Nat) : Nat := 8 * b2n (bit f 0) + 4 * b2n (bit f 1) + 2 * b2n (bit f 2) + b2n (bit f 3)

end Sys2Proof.Machine
end

