-- ==== Sys2Proof/Machine/Dovetail.lean ====
section
/-! DEFINITION. The Dovetail tree's steps (R326-R335): partials arrive at its nodes, and instances complete. -/
namespace Sys2Proof.Machine

/-! ### Combining (R331) -/

/-- Combine two elements of 32-bit integers (R326). -/
def dvInt (op a b : Nat) : Nat :=
  match op with
  | 0 => (a + b) % 2 ^ 32
  | 1 => if signed 32 b < signed 32 a then b else a
  | 2 => if signed 32 a < signed 32 b then b else a
  | 3 => a &&& b
  | 4 => a ||| b
  | _ => a ^^^ b

/-- Combine two elements of FP32 or, with the flag, BF16: the value and the flags. -/
def dvFloat (op : Nat) (bf : Bool) (a b : Nat) : Nat × Nat :=
  let sh := if bf then 16 else 0
  let x := BitVec.ofNat 32 (a <<< sh)
  let y := BitVec.ofNat 32 (b <<< sh)
  let nv := if isSnan x || isSnan y then 8 else 0
  match op with
  | 0 =>
    let s := (Num.ofBits x).add .rne (Num.ofBits y)
    if s.isNan then (qnan.toNat >>> sh, if nv = 0 && ((Num.ofBits x).isNan || (Num.ofBits y).isNan) then 0 else 8)
    else (encodeElem (b2n bf) .rne s, nv ||| dvFlags (encodeFlags (b2n bf) .rne s))
  | 1 => ((fmin x y).toNat >>> sh, nv)
  | _ => ((fmax x y).toNat >>> sh, nv)

/-- Combine two elements of a group's type: the value and the flags NV OF UF NX. -/
def dvOne (d : List Byte) (a b : Nat) : Nat × Nat :=
  if gType d = 0 then (dvInt (gOp d) a b, 0) else dvFloat (gOp d) (gType d = 2) a b

/-- Combine an arriving partial into a running value, one element at a time. -/
def dvCombine (d : List Byte) : List Nat → List Nat → List Nat × Nat
  | a :: r, b :: q => let x := dvOne d a b; let y := dvCombine d r q; (x.1 :: y.1, x.2 ||| y.2)
  | _, _ => ([], 0)

/-- Bytes of an element. -/
def gWidth (d : List Byte) : Nat := if gType d = 2 then 2 else 4
/-- The elements of a piece. -/
def dvElems (d b : List Byte) : List Nat := (span 0 (b.length / gWidth d)).map fun i => fieldAt b (gWidth d * i) (gWidth d)

/-! ### Nodes (R326, R334) -/

/-- Key of a die's node. -/
def dieNode (die : Nat) : Nat := 0x10000 + die
/-- Key of the root. -/
def rootNode : Nat := 0x20000
/-- Member clusters on a die. -/
def gOnDie (d : List Byte) (die : Nat) : Nat := popBelow (gClusters d) (80 * (die + 1)) - popBelow (gClusters d) (80 * die)
/-- Dies with members. -/
def gDies (d : List Byte) : List Nat := (span 0 4).filter fun n => gOnDie d n ≠ 0
/-- The node that holds an instance's result: the root when the members lie on more than one die. -/
def gTop (d : List Byte) : Nat := match gDies d with | [n] => dieNode n | _ => rootNode
/-- Partials that a node combines. A broadcast carries the owner's contribution alone. -/
def gExpect (d : List Byte) (coll node : Nat) : Nat :=
  if coll = 2 then 1
  else if node = rootNode then (gDies d).length
  else if node ≥ 0x10000 then gOnDie d (node - 0x10000)
  else popBelow (gMask d) 16

/-- COLL of an instance. -/
def Dv.coll (v : Dv) : Nat := match v.inj with | x :: _ => eColl x.entry | [] => 0
/-- Effective owner of an instance (R329). -/
def Dv.owner (v : Dv) (d : List Byte) : Nat := match v.inj with | x :: _ => eOwner d x.entry | [] => 0
/-- The value of a node that has all its partials. -/
def Dv.full (v : Dv) (d : List Byte) (node : Nat) : Option (List Nat) :=
  match FMap.find? v.nodes node with
  | some x => if x.got.length ≥ gExpect d v.coll node then some x.vals else none
  | none => none

/-- A partial arrives at a node. -/
def Dv.arrive (v : Dv) (d : List Byte) (node child : Nat) (vals : List Nat) : Dv :=
  match FMap.find? v.nodes node with
  | none => { v with nodes := FMap.put v.nodes node ⟨[child], vals⟩ }
  | some x =>
    let r := dvCombine d x.vals vals
    { v with nodes := FMap.put v.nodes node ⟨x.got ++ [child], r.1⟩, flags := v.flags ||| r.2 }

/-- A child's partial has arrived already. -/
def Dv.has (v : Dv) (node child : Nat) : Bool :=
  match FMap.find? v.nodes node with | some x => x.got.contains child | none => false

/-- Replace an instance. -/
def State.putDv (s : State) (n : Nat) (v : Dv) : State := { s with dvs := replaceAt s.dvs n v }

/-- Device address of a 64-byte block of a member's range, with its leaf, by the kept translations. -/
def State.dvPlace (s : State) (part : Nat) (x : DvInj) (va : Nat) : Option (Nat × Leaf) :=
  (s.engXlate x.core part x.tlb va).map fun l => (l.base + va % 2 ^ l.size, l)

/-- A member's contribution as memory holds it now (R332 step 1); none when a byte has an uncorrectable error. -/
def State.dvRead (s : State) (part : Nat) (x : DvInj) : Option (List Byte) :=
  let as := (span 0 (eLen x.entry / 64)).filterMap fun i => s.dvPlace part x (eSrc x.entry + 64 * i)
  if as.any fun p => s.poison.any fun a => p.1 ≤ a && a < p.1 + 64 then none
  else some (as.flatMap fun p => s.bytesAt p.1 64)

/-- A member's contribution arrives at its cluster node, and its queue entry is free (R333). A failed instance combines no
more: the entry alone goes. -/
def State.dvContribute (s : State) (n : Nat) (v : Dv) (d : List Byte) (node core : Nat) : Out :=
  match v.inj.findIdx? fun (x : DvInj) => x.core = core && !x.read && !x.done with
  | none => .idle s
  | some i =>
    match v.inj[i]? with
    | none => .idle s
    | some x =>
      if clusterOf core ≠ node || x.waits then .idle s else
      let v := { v with inj := replaceAt v.inj i { x with read := true } }
      let v := if v.bad.isSome || !eReads d x.entry (gRank d core) then v else
        match s.dvRead v.part x with
        | none => { v with bad := some .spadUncorrectable }
        | some b => v.arrive d node core (dvElems d b)
      .next ((s.putDv n v).dvAdmit core)

/-- DOVETAIL_COMBINE (R331): operands an instance, a node and the core, cluster or die whose partial arrives.
Nodes combine in the order in which their partials arrive. -/
def execDovetailCombine (s : State) : Out :=
  let n := s.arg 0
  let node := s.arg 1
  let child := s.arg 2
  match s.dvs[n]? with
  | none => .idle s
  | some v =>
    let d := (s.group v.part v.grp).desc
    if v.alone then .idle s
    else if node < 0x10000 then s.dvContribute n v d node child
    else if v.bad.isSome then .idle s
    else
      let from' := if node = rootNode then dieNode child else child
      let fits := if node = rootNode then decide (child < 4) && gTop d = rootNode
        else decide (child < 0x10000) && node = dieNode (child / 128)
      match v.full d from' with
      | none => .idle s
      | some vals => if !fits || v.has node child then .idle s else .next (s.putDv n (v.arrive d node child vals))

/-! ### Completion (R332, R344) -/

/-- The result has reached the top of the tree. -/
def Dv.result (v : Dv) (d : List Byte) : Option (List Byte) :=
  if v.alone || v.bad.isSome then none
  else (v.full d (gTop d)).map fun x => x.flatMap (leBytes (gWidth d))

/-- The result is written to a member's DST, a beat for each 64 bytes, at its page's scope. -/
def State.dvDeliver (s : State) (v : Dv) (d : List Byte) (data : List Byte) (x : DvInj) : State :=
  if !eWrites d x.entry (gRank d x.core) then s else
  (span 0 (data.length / 64)).foldl (fun (s : State) i =>
    match s.dvPlace v.part x (eDst x.entry + 64 * i) with
    | some p => s.land x.core p.2.scope 4 0 (maskedBytes p.1 ((data.drop (64 * i)).take 64))
    | none => s) s

/-- The members whose results every other member's post follows: the owner, and rank 0 outside
reduce-to-owner, whose DST the notice names (R332, R335). -/
def Dv.leads (v : Dv) (d : List Byte) (x : DvInj) : Bool :=
  !v.alone && (gRank d x.core = v.owner d || (v.coll ≠ 0 && gRank d x.core = 0))

/-- The notice of a completed piece (R335). -/
def Dv.notice (v : Dv) (d : List Byte) : List Byte :=
  let who := if v.coll = 0 then v.owner d else 0
  let dst := match v.inj.find? fun (x : DvInj) => gRank d x.core = who with | some x => eDst x.entry | none => 0
  let cause := match v.bad with | some c => c.code | none => 0
  ([2 ^ 56 + gNotify d, v.grp + v.coll <<< 8 + v.piece <<< 16 + v.flags <<< 32 + cause <<< 40, dst, 0]).flatMap (leBytes 8)

/-- What an instance does once, at its first completion: the leading results land, the context's flags and
cause are kept, and the notice leaves. An injection that fails alone leaves its cause in the context that it names (R344,
R346). -/
def State.dvFirst (s : State) (n : Nat) (v : Dv) (d : List Byte) : State :=
  if v.noticed || v.grp > 63 then s else
  let s := match v.result d with
    | some b => (v.inj.filter (v.leads d)).foldl (fun (s : State) x => s.dvDeliver v d b x) s
    | none => s
  let s := s.updPart v.part fun p => { p with groups := FMap.upd Group.none p.groups v.grp fun g =>
    { g with flags := g.flags ||| v.flags,
             cause := if g.cause = 0 then (match v.bad with | some c => c.code | none => 0) else g.cause } }
  let s := if v.alone || gNotify d = 0 then s else s.sendPkt (Pkt.fromHub v.part (v.notice d))
  s.putDv n { v with noticed := true }

/-- The extraction entry (R333). -/
def Dv.extract (v : Dv) (x : DvInj) : List Byte :=
  leBytes 1 v.grp ++ leBytes 1 (eColl x.entry) ++ leBytes 2 v.piece ++ leBytes 4 (eLen x.entry) ++ leBytes 1 v.flags
    ++ leBytes 1 (match v.bad with | some c => c.code | none => 0) ++ rep 6 0#8 ++ leBytes 8 (eDst x.entry) ++ rep 40 0#8

/-- An extraction queue has no room: an entry popped tentatively still stands (R333, R345). -/
def Core.extFull (k : Core) : Bool := max k.t.extq.length k.committed.extq.length ≥ 64

/-- A member's completion: its own result, extraction entry and post (R332). -/
def State.dvMember (s : State) (v : Dv) (d : List Byte) (x : DvInj) : State :=
  let s := match v.result d with
    | some b => if v.leads d x then s else s.dvDeliver v d b x
    | none => s
  let s := if !v.alone && gXq d then
      s.updCore x.core fun k => k.both fun t => { t with extq := t.extq ++ [v.extract x] }
    else s
  let err := if x.peng then none else v.bad
  let s := match x.cnt with
    | some (c, m) => s.applyPost ⟨agentOf x.core 4, c, m, eInc x.entry % 2 ^ 32, err.map fun e => (e.code, 4, 0)⟩
    | none => s
  if x.peng then s.updCore x.core fun k => k.engineDone x.inst v.bad 4 0 else s

/-- DOVETAIL_COMPLETION (R332): operands an instance and a member's core. Every member has injected, and the
result stands at the top of the tree or the instance has failed. -/
def execDovetailCompletion (s : State) : Out :=
  let n := s.arg 0
  let c := s.arg 1
  match s.dvs[n]? with
  | none => .idle s
  | some v =>
    let d := if v.alone then [] else (s.group v.part v.grp).desc
    match v.inj.findIdx? fun (x : DvInj) => x.core = c && !x.done && !x.waits with
    | none => .idle s
    | some i =>
      match v.inj[i]? with
      | none => .idle s
      | some x =>
        let all := v.alone || v.inj.length ≥ gCount d
        let lands := (v.inj.filter fun (y : DvInj) => y.core = c || v.leads d y).flatMap fun (y : DvInj) =>
          if v.bad.isNone && eWrites d y.entry (gRank d y.core) then
            (span 0 (eLen y.entry / 64)).filterMap fun i => (s.dvPlace v.part y (eDst y.entry + 64 * i)).map (·.1)
          else []
        if (s.core c).takeover || s.cntAway x.cnt || s.away lands then .idle s else
        if !all || (v.bad.isNone && (v.result d).isNone) || (!v.alone && gXq d && (s.core c).extFull) then .idle s else
        let s := s.dvFirst n v d
        let v := { v with inj := replaceAt v.inj i { x with done := true, read := true }, noticed := true }
        let s := if v.inj.all (·.done) then { s with dvs := s.dvs.eraseIdx n } else s.putDv n v
        .next ((s.dvMember v d x).dvAdmit c)

end Sys2Proof.Machine
end

