-- ==== Sys2Proof/Machine/FarHome.lean ====
section
/-! DEFINITION. What a home does (R301-R305, R377): far atomics, barrier requests, and their replies. -/
namespace Sys2Proof.Machine

/-! ### Homes -/

/-- The core whose atomic handler performs an operation at an address; none for a die scratchpad's adders
(R301). -/
def State.homeOf (s : State) (a : Nat) : Option Nat :=
  match s.locate a with
  | .pad b z _ off =>
    if z = 0x20000 then some (bits (b - 0x100000000000) 36 35 * 2048 + bits b 34 28 * 16 + bits b 27 24)
    else if z = 0x200000 then some (bits (b - 0x200000000000) 36 35 * 2048 + bits b 34 28 * 16 + bits off 9 6)
    else none
  | _ => none

/-- The handler is a priority-1 firing of its core: it waits for a masked window to close, for another priority-1 firing to
end, and for a takeover (R29, R301, R383; log 83). -/
def State.homeFree (s : State) (a : Nat) : Bool :=
  match s.homeOf a with
  | some h => !(s.core h).t.maskOpen && (s.core h).t.fir1.isNone && !(s.core h).takeover
  | none => true

/-- What performs an atomic at an address: a core's handler, or the adders of a die scratchpad, from 8,192 up (R301). -/
def State.homeKey (s : State) (a : Nat) : Nat := (s.homeOf a).getD (8192 + a / 2 ^ 33)

/-- It pre-empts the priority-0 firing of its core: the open chunk ends first (R27), and then the registers parked in the
shadow bank move away (R133). -/
def State.enterHome (s : State) (a : Nat) : State :=
  match s.homeOf a with
  | some h =>
    let s := if (s.core h).chunk.isNone then s else (s.cutChunk h).leaveSolo h
    if (s.core h).chunk.isSome || (s.core h).t.park.isEmpty then s
    else s.updCore h fun k => k.both fun t => { t with park := t.parkAway (isMemCore h) }
  | none => s

/-- That chunk still waits for its arbiter. -/
def State.homeWaits (s : State) (a : Nat) : Bool :=
  match s.homeOf a with
  | some h => (s.core h).chunk.isSome
  | none => false

/-- A byte of an object has an uncorrectable error (R301, R305). -/
def State.badBytes (s : State) (a n : Nat) : Bool := s.poison.any fun x => a ≤ x && x < a + n

/-- A reply is on its way to the firing that waits for it. -/
def State.reply' (s : State) (c level fir : Nat) (v : Nat) (bad : Option (Cause × Nat)) : State :=
  s.updCore c fun k =>
    let w := k.waiting level
    if !(if level = 1 then k.t.fir1 else k.t.fir0).any (·.serial = fir) then k else
    match w.await with
    | .reply _ _ _ => k.setWaiting level { w with reply := some (v, bad) }
    | _ => k

/-- The reply reaches the core: the unit's effect takes place and g[d] is written, or it has none and the firing takes a
precise trap at its instruction (R43, R301, R305). -/
def State.takeReply (s : State) (level : Nat) : Out :=
  let k := s.me
  let w := k.waiting level
  match w.await, w.reply with
  | .reply d pc u, some (v, bad) =>
    match bad with
    | none =>
      .next (u.push.foldl (fun s p => s.landPush s.cur p)
        (s.putMe ((k.both fun t => (t.complete u level).setGAt level d (word v)).setWaiting level Waiting.idle)))
    | some (c, x) =>
      let k := k.both fun t => t.restore u
      .next (s.putMe (k.setWaiting level { Waiting.idle with trap := some (c, word x, pc) }))
  | _, _ => .idle s

/-! ### Far atomics -/

/-- A far atomic is performed: its one place in the commit order, and its reply, or the error that it meets (R301). -/
def State.farAt (s : State) (f : Far) : State :=
  let size := if f.w64 then 8 else 4
  if s.badBytes f.addr size then
    if f.waits then s.reply' f.core f.level f.fir 0 (some (.spadUncorrectable, f.va))
    else s.updCore f.core fun k => k.pendImprecise .spadUncorrectable (word f.va) f.fir
  else
    let old := leVal (s.bytesAt f.addr size)
    let new := amoNew f.op (8 * size) old f.b f.c
    let s := s.land f.core f.scope 2 f.core (maskedBytes f.addr (leBytes size new))
    if f.waits then s.reply' f.core f.level f.fir (amoOld f.op (8 * size) old).toNat none else s

/-- The same handler goes on with the oldest atomic queued at its home, at most `fuel` more (R301). -/
def State.farMore (s : State) (home : Nat) : Nat → State
  | 0 => s
  | fuel + 1 =>
    match pick s.far (s.far.findIdx fun (g : Far) => s.homeOf g.addr = some home) with
    | none => s
    | some (f, rest) => (({ s with far := rest } : State).farAt f).farMore home fuel

/-- FAR_ATOMIC (R301): operands an index, and how many more of the atomics queued at the same home the handler's firing
performs, up to 15. Atomics of one core to one home keep their order. -/
def execFarAtomic (s : State) : Out :=
  let n := s.arg 0
  match pick s.far n with
  | none => .idle s
  | some (f, rest) =>
    if (s.far.take n).any (fun (g : Far) => g.core = f.core && s.homeKey g.addr = s.homeKey f.addr) || !s.homeFree f.addr then .idle s else
    let s' := s.enterHome f.addr
    if s'.homeWaits f.addr then .next s' else
    let s' := ({ s' with far := rest ++ s'.far.drop s.far.length } : State).farAt f
    .next (match s.homeOf f.addr with
      | some h => s'.farMore h (min 15 (s.arg 1))
      | none => s')

/-- FAR_ATOMIC_REPLY (R301): operand the priority level. -/
def execFarAtomicReply (s : State) : Out := s.takeReply (s.arg 0)

/-! ### Barriers -/

/-- A barrier object (R302). -/
structure Bar where
  /-- MEMBERS. -/
  members : Nat
  /-- ARRIVED. -/
  arrived : Nat
  /-- PHASE. -/
  phase : Nat
deriving DecidableEq, Repr

/-- The object at an address. -/
def State.bar (s : State) (a : Nat) : Bar :=
  ⟨leVal (s.bytesAt a 8), leVal (s.bytesAt (a + 8) 8), leVal (s.bytesAt (a + 16) 4)⟩

/-- A mask without bit i. -/
def clearBit (m i : Nat) : Nat := if bit m i then m - 2 ^ i else m
/-- A mask with bit i. -/
def putBit (m i : Nat) : Nat := if bit m i then m else m + 2 ^ i

/-- The operation on the object, before a phase completes: the object and the reply, or the refusal (R304). -/
def Bar.apply (o : Bar) (op b : Nat) : Except Cause (Bar × Nat) :=
  let i := b % 64
  match op with
  | 0 => .ok ({ o with members := b, arrived := 0 }, 0)
  | 1 => if !bit o.members i || bit o.arrived i then .error .barrierOver
    else .ok ({ o with arrived := putBit o.arrived i }, (o.phase + 1) % 2 ^ 32)
  | _ => if !bit o.members i then .error .barrierDrop
    else .ok ({ o with members := clearBit o.members i, arrived := clearBit o.arrived i }, (o.phase + 1) % 2 ^ 32)

/-- The phase completes when every member has arrived (R304). -/
def Bar.settle (o : Bar) : Bar × Bool :=
  if o.arrived &&& o.members = o.members then ({ o with phase := (o.phase + 1) % 2 ^ 32, arrived := 0 }, true) else (o, false)

/-- The fields that an operation writes. -/
def Bar.writes (o : Bar) (a op : Nat) (done : Bool) : List (Nat × Byte × Byte) :=
  (if op = 1 then [] else maskedBytes a (leBytes 8 o.members)) ++ maskedBytes (a + 8) (leBytes 8 o.arrived)
    ++ (if done then maskedBytes (a + 16) (leBytes 4 o.phase) else [])

/-- A held BAR.WAIT is satisfied (R304). -/
def State.waitOver (s : State) (q : BarReq) : Bool := reached32 (s.bar q.addr).phase (q.b % 2 ^ 32)

/-- The home re-examines the BAR.WAITs that it holds on the object it has just acted on, and releases those that
are satisfied (R304). -/
def State.releaseWaits (s : State) (a : Nat) : State :=
  let released (q : BarReq) : Bool := q.addr = a && s.waitOver q
  (s.barHeld.filter released).foldl (fun (s : State) q => s.reply' q.core q.level q.fir (s.bar q.addr).phase none)
    { s with barHeld := s.barHeld.filter fun q => !released q }

/-- A request at its home (R304, R305, R377). -/
def State.barrierAt (s : State) (q : BarReq) : State :=
  if s.badBytes q.addr 20 then s.reply' q.core q.level q.fir 0 (some (.spadUncorrectable, q.va))
  else if q.op = 3 then ({ s with barHeld := s.barHeld ++ [q] } : State).releaseWaits q.addr
  else
    match (s.bar q.addr).apply q.op q.b with
    | .error e => s.reply' q.core q.level q.fir 0 (some (e, q.va))
    | .ok (o, v) =>
      let r := o.settle
      let s := s.land q.core q.scope 2 q.core (r.1.writes q.addr q.op r.2)
      (s.reply' q.core q.level q.fir v none).releaseWaits q.addr

/-- BARRIER_REQUEST (R304): operand an index. It is performed at its home, which then re-examines the waits it
holds on the object; a plain store releases none by itself. -/
def execBarrierRequest (s : State) : Out :=
  match pick s.bars (s.arg 0) with
  | none => .idle s
  | some (q, rest) =>
    if !s.homeFree q.addr then .idle s else
    let s' := s.enterHome q.addr
    if s'.homeWaits q.addr then .next s'
    else .next (({ s' with bars := rest ++ s'.bars.drop s.bars.length } : State).barrierAt q)

/-- BARRIER_REPLY (R305): operand the priority level. -/
def execBarrierReply (s : State) : Out := s.takeReply (s.arg 0)

end Sys2Proof.Machine
end

