-- ==== Sys2Proof/Machine/FloatScalar.lean ====
section
/-! DEFINITION. Scalar floating point (R150-R160): FP32 in bits [31:0] of a general register, results
zero-extended, rounded once by MODE.FRM. -/
namespace Sys2Proof.Machine

/-- The FP32 operand in a general register (R150). -/
def State.fIn (s : State) (r : Reg) : Lane := (s.gIn r).truncate 32
/-- The rounding mode in force at issue (R151). -/
def State.rm (s : State) : Rm := s.t.frm

/-- FADD (R157). -/
def execFadd (d a b : Reg) (s : State) : Out :=
  setsG (.fadd d a b) d (zext (fadd s.rm (s.fIn a) (s.fIn b))) s

/-- FSUB (R157). -/
def execFsub (d a b : Reg) (s : State) : Out :=
  setsG (.fsub d a b) d (zext (fsub s.rm (s.fIn a) (s.fIn b))) s

/-- FMUL (R157). -/
def execFmul (d a b : Reg) (s : State) : Out :=
  setsG (.fmul d a b) d (zext (fmul s.rm (s.fIn a) (s.fIn b))) s

/-- FDIV (R157). -/
def execFdiv (d a b : Reg) (s : State) : Out :=
  setsG (.fdiv d a b) d (zext (fdiv s.rm (s.fIn a) (s.fIn b))) s

/-- FMIN (R157). -/
def execFmin (d a b : Reg) (s : State) : Out :=
  setsG (.fmin d a b) d (zext (fmin (s.fIn a) (s.fIn b))) s

/-- FMAX (R157). -/
def execFmax (d a b : Reg) (s : State) : Out :=
  setsG (.fmax d a b) d (zext (fmax (s.fIn a) (s.fIn b))) s

/-- FSQRT (R157). -/
def execFsqrt (d a : Reg) (s : State) : Out :=
  setsG (.fsqrt d a) d (zext (fsqrt s.rm (s.fIn a))) s

/-- FEQ (R152, R157). -/
def execFeq (d a b : Reg) (s : State) : Out :=
  setsG (.feq d a b) d (flag (feq (s.fIn a) (s.fIn b))) s

/-- FLT (R152, R157). -/
def execFlt (d a b : Reg) (s : State) : Out :=
  setsG (.flt d a b) d (flag (flt (s.fIn a) (s.fIn b))) s

/-- FLE (R152, R157). -/
def execFle (d a b : Reg) (s : State) : Out :=
  setsG (.fle d a b) d (flag (fle (s.fIn a) (s.fIn b))) s

/-- FABS (R157). -/
def execFabs (d a : Reg) (s : State) : Out :=
  setsG (.fabs d a) d (zext (fabsBits (s.fIn a))) s

/-- FNEG (R157). -/
def execFneg (d a : Reg) (s : State) : Out :=
  setsG (.fneg d a) d (zext (fnegBits (s.fIn a))) s

/-- FTOI (R158). -/
def execFtoi (d a : Reg) (s : State) : Out :=
  setsG (.ftoi d a) d (BitVec.ofInt 64 (ftoi s.rm (-2 ^ 63) (2 ^ 63 - 1) (s.fIn a))) s

/-- FTOIU (R158). -/
def execFtoiu (d a : Reg) (s : State) : Out :=
  setsG (.ftoiu d a) d (BitVec.ofInt 64 (ftoi s.rm 0 (2 ^ 64 - 1) (s.fIn a))) s

/-- ITOF (R158). -/
def execItof (d a : Reg) (s : State) : Out :=
  setsG (.itof d a) d (zext (itof s.rm (s.gIn a).toInt)) s

/-- ITOFU (R158). -/
def execItofu (d a : Reg) (s : State) : Out :=
  setsG (.itofu d a) d (zext (itof s.rm (s.gIn a).toNat)) s

/-- FCLASS (R159). -/
def execFclass (d a : Reg) (s : State) : Out :=
  setsG (.fclass d a) d (word (fclass (s.fIn a))) s

/-- FMADD (R160). -/
def execFmadd (d a b c : Reg) (s : State) : Out :=
  setsG (.fmadd d a b c) d (zext (ffma s.rm false false (s.fIn a) (s.fIn b) (s.fIn c))) s

/-- FMSUB (R160). -/
def execFmsub (d a b c : Reg) (s : State) : Out :=
  setsG (.fmsub d a b c) d (zext (ffma s.rm false true (s.fIn a) (s.fIn b) (s.fIn c))) s

/-- FNMADD (R160). -/
def execFnmadd (d a b c : Reg) (s : State) : Out :=
  setsG (.fnmadd d a b c) d (zext (ffma s.rm true true (s.fIn a) (s.fIn b) (s.fIn c))) s

/-- FNMSUB (R160). -/
def execFnmsub (d a b c : Reg) (s : State) : Out :=
  setsG (.fnmsub d a b c) d (zext (ffma s.rm true false (s.fIn a) (s.fIn b) (s.fIn c))) s

end Sys2Proof.Machine
end

