-- ==== Sys2Proof/Machine/HeldFirings.lean ====
section
/-! DEFINITION. Resolving held firings (R313-R318): the tolerance compare and glue-up. -/
namespace Sys2Proof.Machine

/-- The elements of a tile (R307). -/
def tileElems (fmt : Nat) (b : List Byte) : List Num :=
  let w := fmtWidth fmt
  let x := leVal b
  (span 0 (8 * b.length / w)).map fun i => decodeElem fmt (packedElem w x i)

/-- A NaN or an infinity. -/
def Num.wild (x : Num) : Bool := match x with | .fin _ _ _ => false | _ => true

/-- err, mx and bad of R313. -/
def tileCompare (real pred : List Num) : Lane × Lane × Bool :=
  (real.zip pred).foldl (fun (a : Lane × Lane × Bool) p =>
    (fmax a.1 (fabsBits ((p.1.add .rne p.2.negate).toBits .rne)), fmax a.2.1 (fabsBits (p.1.toBits .rne)),
     a.2.2 || p.1.wild || p.2.wild)) (0#32, 0#32, false)

/-- The verdict of R313, with err. -/
def tileVerdict (m : Mark) (real pred : List Byte) : Bool × Lane :=
  let r := tileCompare (tileElems m.fmt real) (tileElems m.fmt pred)
  let bound := fadd .rne m.tolAbs (fmul .rne m.tolRel r.2.1)
  (!r.2.2 && fle r.1 bound, r.1)

/-- The verdict on the real tile of a core's dry firing, and LASTERR. A tile with an uncorrectable error (R379) is
rejected, and LASTERR is then a free value (log 88). -/
def State.tileJudged (s : State) (b : Nat) (r : Rack) (h : Held) : Bool × Lane :=
  let a := padOfCore s.cur + r.slotOff b r.fill
  if s.spoiled a r.slotSize then (false, (Config.freeXval s.fresh).setWidth 32)
  else tileVerdict (s.me.firmMark b) (s.bytesAt a r.slotSize) h.tile

/-- TOLERANCE_COMPARE (R313, R315): the real tile of the core's dry firing has landed. An accepted firing waits
for its glue-up; a rejected one is knocked down. The fill then takes its place (a knock-down gives it that itself). -/
def execToleranceCompare (s : State) : Out :=
  let c := s.cur
  match s.me.held with
  | none => .idle s
  | some h =>
    match h.fir.dry with
    | none => .idle s
    | some b =>
      match s.me.rack? b with
      | none => .idle s
      | some r =>
        if h.accepted || r.wait = 0 then .idle s else
        let v := s.tileJudged b r h
        let s := s.next.updMe fun k => k.both fun t =>
          { t with marks := FMap.upd Mark.clear t.marks b fun m =>
              { m with acc := if v.1 then min 255 (m.acc + 1) else m.acc,
                       rej := if v.1 then m.rej else min 255 (m.rej + 1), lastErr := v.2 } }
        .next (if v.1 then
            (s.updMe fun k => { k with held := k.held.map fun h => { h with accepted := true } }).fillWaiting c b
          else State.knockDown 8 s c false)

/-- GLUE_UP (R314, R317): the core's held firing glues up when its conditions hold. -/
def execGlueUp (s : State) : Out :=
  match s.me.held with
  | none => .idle s
  | some h => if s.mayGlue s.cur h then .next (s.glueUp s.cur) else .idle s

end Sys2Proof.Machine
end

