-- ==== Sys2Proof/Machine/Hubs.lean ====
section
/-! DEFINITION. The hub dies' own steps: failover (R2, R387), firmware updates (R391), attestation (R390) and
bring-up (R393). -/
namespace Sys2Proof.Machine

/-! ### Hub dies (R2) -/

/-- The hub die carries functions. -/
def Hub.isAlive (h : Hub) (n : Nat) : Bool := if n = 0 then h.alive.1 else h.alive.2
/-- Its links are up. -/
def Hub.linksUp (h : Hub) (n : Nat) : Bool := if n = 0 then h.links.1 else h.links.2

/-- HUB_FAILOVER (R2): operands a hub die and whether it is retired rather than its links down. The other one
carries every function, also where it had handed its own over for an update; with none left that could carry them the
manual says nothing. The entry's UNIT is the hub die's number (log 79). -/
def execHubFailover (s : State) : Out :=
  let n := s.arg 0 % 2
  let gone : Bool := s.arg 1 ≠ 0
  if s.hub.units.contains (6, n) || (!gone && !s.hub.linksUp n) then .idle s
  else if !s.hub.sound (1 - n) then .fault .noHub
  else .next (s.loseHub (if gone then 6 else 5) n gone)

/-- HUB_LINKS_RESTORED (R2): operand a hub die. Both share the functions again. A link that was retired stays down. -/
def execHubLinksRestored (s : State) : Out :=
  let n := s.arg 0 % 2
  if s.hub.units.contains (6, n) || s.hub.units.contains (5, n) || s.hub.linksUp n then .idle s
  else .next { s with hub := (s.hub.setLinks n true).settle }

/-! ### Firmware (R390, R391) -/

/-- The image at an address of HBM: its bytes that are not 0, by offset. The manual gives no format, so it is all that
stands from there on. -/
def State.imageAt (s : State) (a : Nat) : FMap Byte :=
  (s.mem.filter fun (p : Nat × Byte) => a ≤ p.1 && p.1 < 0xC000000000).map fun (p : Nat × Byte) => (p.1 - a, p.2)

/-- FIRMWARE_UPDATE (R391): the image posted to the mailbox is verified. A rejected one is never run, and the
status word holds the cause: SPAD_UNCORRECTABLE where it cannot be read (R379), else a free value other than 0. An accepted one is taken by the first hub die,
which hands its functions over while the other can carry them. -/
def execFirmwareUpdate (s : State) : Out :=
  let h := s.hub
  let a := h.mailbox.1
  let b := s.imageAt a
  if !h.posted || !h.updating.isEmpty || !h.switching.isEmpty then .idle s
  else if s.poison.any fun x => a ≤ x && x < 0xC000000000 then
    .next { s with hub := { h with posted := false, mailbox := (a, Cause.spadUncorrectable.code) } }
  else if Config.imageVerdict b ≠ 0 then .next { s with hub := { h with posted := false, mailbox := (a, Config.imageVerdict b) } }
  else if Config.imageVersion b < h.secver then
    .next { s.next with hub := { h with posted := false, mailbox := (a, 1 + (Config.freeXval s.fresh).toNat % (2 ^ 64 - 1)) } }
  else if !h.sound 0 || !h.sound 1 then .idle s
  else .next { s with hub := ({ h with posted := false, image := b, updating := [0, 1] } : Hub).settle }

/-- HUB_DIE_HANDBACK (R391): operand a hub die, 0 or 1, which has taken the image and takes its functions back. The other
one follows, and after it the compute dies: operand 2 + d says that die d's system controller has switched. After the
last of them the status word reads 0. -/
def execHubDieHandback (s : State) : Out :=
  let n := s.arg 0
  let h := s.hub
  if n ≥ 2 then
    if !h.switching.contains (n - 2) then .idle s else
    let rest := h.switching.erase (n - 2)
    .next { s with hub := if rest.isEmpty then { h with switching := [], firmware := h.image, image := [], mailbox := (h.mailbox.1, 0) }
                          else { h with switching := rest } }
  else
    match h.updating with
    | [] => .idle s
    | m :: r =>
      if m ≠ n then .idle s else
      match r with
      | [] => .next { s with hub := ({ h with updating := [], switching := [0, 1, 2, 3] } : Hub).settle }
      | _ :: _ => if !h.sound n then .idle s else .next { s with hub := ({ h with updating := r } : Hub).settle }

/-! ### Attestation (R390): SPDM 1.3 over partition 0's data object exchange -/

/-- An SPDM message: its code, whether its place in the sequence is right, its data and the response's data. The
transcript holds requests and responses, so a signature covers them. No message comes before PCIe link-up (R393). -/
def State.spdm (s : State) (ok : Bool) (stage request code : Nat) (data resp : List Nat) : State :=
  if !s.pcieUp then s else
  let h := s.hub
  let r := if ok then code :: resp else [0x7F]
  let t := (request :: data ++ r).foldl (fun t x => t * 2 ^ 512 + x) h.transcript
  { s with hub := { h with spdm := if ok then stage else h.spdm, response := r, transcript := t } }

/-- GET_VERSION: SPDM 1.3; the exchange starts anew. -/
def execGetVersion (s : State) : Out :=
  .next (({ s with hub := if s.pcieUp then { s.hub with transcript := 0, spdm := 0 } else s.hub } : State).spdm true 1 0x84 0x04 [] [0x13])
/-- GET_CAPABILITIES. -/
def execGetCapabilities (s : State) : Out := .next (s.spdm (s.hub.spdm ≥ 1) (max 2 s.hub.spdm) 0xE1 0x61 [] [])
/-- NEGOTIATE_ALGORITHMS: operands whether the requester offers ECDSA P-384 and whether it offers SHA-384, the only
ones that the package has. -/
def execNegotiateAlgorithms (s : State) : Out :=
  .next (s.spdm (s.hub.spdm ≥ 2 && s.arg 0 ≠ 0 && s.arg 1 ≠ 0) 3 0xE3 0x63 s.args [1, 1])
/-- GET_DIGESTS: the digest of the device's certificate chain. -/
def execGetDigests (s : State) : Out :=
  .next (s.spdm (s.hub.spdm = 3) 3 0x81 0x01 [] [Config.certificate 0])
/-- GET_CERTIFICATE: operand a slot; slot 0 holds the device's chain. -/
def execGetCertificate (s : State) : Out :=
  .next (s.spdm (s.hub.spdm = 3 && s.arg 0 = 0) 3 0x82 0x02 s.args [Config.certificate 1])
/-- The measurement of an index: firmware changes those of the security processor, the system controller and the
transport engine. -/
def Hub.measured (h : Hub) (i : Nat) : Nat := Config.measurement i (if 2 ≤ i && i ≤ 4 then h.firmware else [])
/-- CHALLENGE: operand a nonce. The response is signed over the transcript. -/
def execChallenge (s : State) : Out :=
  .next (s.spdm (s.hub.spdm = 3) 3 0x83 0x03 s.args [Config.sign (s.hub.transcript * 2 ^ 512 + s.arg 0)])
/-- GET_MEASUREMENTS: operand an index, 1-5; 0 asks for their number. -/
def execGetMeasurements (s : State) : Out :=
  let i := s.arg 0
  .next (s.spdm (s.hub.spdm = 3 && i ≤ 5) 3 0xE0 0x60 s.args
    (if i = 0 then [5] else [i, s.hub.measured i, Config.sign (s.hub.transcript * 2 ^ 512 + i)]))

/-! ### Bring-up (R393) -/

/-- Core and SRAM self-test finds a unit that stands: a core, a memory core, a cluster or an SRAM array by its core. -/
def State.testable (s : State) (kind unit : Nat) : Bool :=
  if kind = 8 then s.exists' unit && !s.hub.units.contains (8, unit) else s.unitUp kind unit

/-- A unit that self-test found failing: a spare stands in for it from the start, else its coordinate names
nothing. An SRAM array is retired with its entry (log 79). -/
def State.failAtStart (s : State) (kind n : Nat) : State :=
  let unit := if kind = 2 then n / 16 * 16 else n
  let s := s.logRetired (dieOf unit) kind unit 0
  if s.sparesFor kind unit > 0 then s.useSpare kind unit
  else
    let s := { s with hub := { s.hub with units := (kind, unit) :: s.hub.units } }
    if kind = 1 then s.pairGone unit else s

/-- POWER_GOOD (R393): operands whether the next step of bring-up has passed, then pairs of KIND and UNIT that self-test
finds failing. Power-good, the security processor's ROM and firmware, HBM training, self-test, mesh routing and PCIe
link-up come in this order, each once the one before it has passed; the records are written after that. -/
def execPowerGood (s : State) : Out :=
  if s.hub.bringup ≥ 6 || s.arg 0 = 0 then .idle s else
  let s := if s.hub.bringup ≠ 3 then s else
    (pairsOf (s.args.drop 1)).foldl (fun (s : State) p => if s.testable p.1 p.2 then s.failAtStart p.1 p.2 else s) s
  .next { s with hub := { s.hub with bringup := s.hub.bringup + 1 } }

end Sys2Proof.Machine
end

