-- ==== Sys2Proof/Machine/Kerf.lean ====
section
/-! DEFINITION. Sampled products: the arithmetic of weights, draws, estimate and variance (R252-R255),
and the instructions of major 0x10 (R246-R251, R259-R268). The unit's own steps stand in MatrixEngine. -/
namespace Sys2Proof.Machine

/-! ### Arithmetic -/

/-- +∞ in FP32. -/
def fpInf : Lane := 0x7F800000#32
/-- A NaN in FP32. -/
def fpNan (x : Lane) : Bool := (Num.ofBits x).isNan
/-- Below zero; -0 is not. -/
def fpNeg (x : Lane) : Bool := flt x 0#32
/-- The quotient of two whole numbers rounded to FP32. -/
def fratio (a b : Nat) : Lane := ((Num.ofInt false a 0).div (Num.ofInt false b 0)).toBits .rne
/-- A running FP32 sum (R246, R255). -/
def fsum (l : List Lane) : Lane := l.foldl (fadd .rne) 0#32
/-- A running FP32 sum of squares. -/
def fsquares (l : List Lane) : Lane := l.foldl (fun q x => fadd .rne q (fmul .rne x x)) 0#32
/-- floor(x * 2^24) of a value that is not negative (R252). -/
def floor24 (x : Lane) : Nat :=
  match Num.ofBits x with
  | .fin n m e => (((Num.fin n m (e + 24)).toInt .rtz).getD 0).toNat
  | _ => 0

/-- The weights of R252. -/
structure Weights where
  /-- UNIF. -/
  unif : Bool
  /-- W. -/
  w : List Nat
  /-- C. -/
  c : List Nat
deriving DecidableEq, Repr

/-- Running sums. -/
def runSums : Nat → List Nat → List Nat
  | _, [] => []
  | a, x :: r => (a + x) :: runSums (a + x) r

/-- Give the deficit to the lowest slice of largest weight (R252). -/
def fixDeficit (w : List Nat) : List Nat :=
  let m := w.foldl max 0
  let i := w.findIdx (· = m)
  replaceAt w i (m + 2 ^ 24 - w.foldl (· + ·) 0)

/-- Weights from the gauge tables and b (R252). -/
def weights (ga gb : List Lane) (b : Nat) : Weights :=
  let n := ga.length
  let bad := (ga ++ gb).any fun x => fpNan x || fpNeg x
  let r := List.zipWith (fun x y => fsqrt .rne (fmul .rne x y)) ga gb
  let z := fsum r
  let bs := fratio b (16 * n)
  let om := fratio (16 - b) 16
  let unif := bad || fpNan z || z = fpInf || !flt 0#32 z
  let q := if unif then ga.map fun _ => fratio 1 n
    else r.map fun x => fadd .rne (fmul .rne om (fdiv .rne x z)) bs
  let w := fixDeficit (q.map floor24)
  ⟨unif, w, runSums 0 w⟩

/-- Where the draws start (R253). -/
def drawStart (seed : Lane) (tag : Nat) : Nat :=
  let x := (seed.toNat ^^^ (tag <<< 8)) % 2 ^ 24
  let h := (x * 0xB5AD4B) % 2 ^ 24
  h ^^^ (h >>> 12)
/-- u[t] and s[t] (R253). -/
def draw (c : List Nat) (start t : Nat) : Nat × Nat :=
  let u := (start + t * 0x9E3779) % 2 ^ 24
  (u, c.findIdx (· > u))
/-- The draws of a command (R253). -/
def draws (c : List Nat) (seed : Lane) (tag m : Nat) : List (Nat × Nat) :=
  (span 0 m).map (draw c (drawStart seed tag))

/-- The estimate, its squares' sum and the variance (R255). -/
structure Estimate where
  /-- E, row-major over the valid region. -/
  e : List Lane
  /-- E2. -/
  e2 : Lane
  /-- V. -/
  v : Lane
deriving DecidableEq, Repr

/-- The steps of R255 over the drawn slices' products, each with the weight of its slice. -/
def kerfEstimate (cells m : Nat) (ps : List (Nat × List Lane)) : Estimate :=
  let fin := ps.foldl (fun (acc : List Lane × Lane) (p : Nat × List Lane) =>
    let f := fratio (2 ^ 24) (m * p.1)
    let x := p.2.map (fmul .rne f)
    (List.zipWith (fadd .rne) acc.1 x, fadd .rne acc.2 (fsquares x))) (rep cells 0#32, 0#32)
  let e2 := fsquares fin.1
  let v := if m = 1 then fpInf else
    let d := fdiv .rne (fsub .rne (fmul .rne (itof .rne m) fin.2) e2) (itof .rne (m - 1 : Nat))
    if fpNan d then d else fmax 0#32 d
  ⟨fin.1, e2, v⟩

/-- The sample of m draws is thrown away for the dense product (R256): one draw always is, unless VLIM is +∞. -/
def kerfFull (m : Nat) (x : Estimate) (vlim : Lane) : Bool :=
  vlim ≠ fpInf && (m = 1 || x.e.any (fun y => fpNan y || fabsBits y = fpInf) || x.e2 = fpInf
    || flt (fmul .rne vlim x.e2) x.v || (feq x.e2 0#32 && flt 0#32 x.v))

/-- The draws a command makes (R258): KILN.SCALE code f stands for (4 - f)/4 (R40). -/
def kerfDraws (m scale : Nat) (ksc : Bool) : Nat :=
  if ksc then min m (max 2 (cdiv (m * (4 - scale)) 4)) else m

/-! ### Instructions -/

/-- The issue checks of a Kerf block that GAUGE and KMMA share (R250, R261). -/
def State.kerfBlock (s : State) (ea : Nat) : Res (State × List Byte) := do
  let r ← s.readBlock ea 64
  faultIf (s.staleSeen (fieldAt r.2 0x18 4)) .staleHandle (fieldAt r.2 0x18 4)
  faultIf (s.staleSeen (fieldAt r.2 0x20 4)) .staleHandle (fieldAt r.2 0x20 4)
  .ok r

/-- GAUGE (R249, R265): it names no slot. -/
def execGauge (a : Reg) (n : BitVec 6) (sel : BitVec 2) (s : State) : Out :=
  finish s (s.doing (useOf (.gauge a n sel)) fun s' => do
    s.notHeld
    let r ← s'.kerfBlock (s.gIn a).toNat
    r.1.matPut (.gauge r.2 n.toNat sel.toNat) 32 true)

/-- The parameter copy that KMMA writes: VALID, DFMT and DRND from its block (R251). -/
def kerfPar (par blk : List Byte) : List Byte :=
  let p := if par.isEmpty then rep 64 0#8 else par
  let sh := fieldAt blk 0x14 4
  let p := replaceAt p 0xC (BitVec.ofNat 8 (bits sh 19 16 + 16 * bits sh 23 20))
  let p := replaceAt p 0xD (at' 0#8 blk 0x31)
  replaceAt p 0xE (at' 0#8 blk 0x32)

/-- KMMA (R251, R266). -/
def execKmma (d a : Reg) (m : BitVec 8) (s : State) : Out :=
  finish s (s.doing (useOf (.kmma d a m)) fun s' => do
    s.notHeld
    s.checkSlot d.toNat
    let r ← s'.kerfBlock (s.gIn a).toNat
    let seed := s.t.seed (fieldAt r.2 0x2F 1 % 8)
    let s := r.1.updT fun t =>
      { t with slots := FMap.upd Slot.free t.slots d.toNat fun x => { x with par := kerfPar x.par r.2 } }
    s.matPut (.kmma r.2 m.toNat seed) d.toNat true)

/-- KVAR and KSTAT wait for the slot's commands (R267); in a held firing they read its shadow slot (R311). -/
def slotRead (i : Instr) (d sl : Reg) (f : Slot → Word) (s : State) : Out :=
  finish s (s.doing (useOf i) fun s' => do
    s.checkSlot sl.toNat
    let r ← s'.slotFor sl.toNat
    if r.1.slotBusy r.2 then .error (.wait true)
    else .ok (r.1.setG d (f (r.1.slot r.2))))

/-- KVAR (R267). -/
def execKvar (d sl : Reg) (s : State) : Out := slotRead (.kvar d sl) d sl (fun x => zext x.side) s
/-- KSTAT (R260, R267). -/
def execKstat (d sl : Reg) (s : State) : Out := slotRead (.kstat d sl) d sl (·.kstat) s

/-- SEEDW (R268). -/
def execSeedw (n a : Reg) (s : State) : Out :=
  finish s (s.doing (useOf (.seedw n a)) fun s' =>
    .ok (s'.updT fun t => t.setSeed n.toNat ((s.gIn a).setWidth 32)))
/-- SEEDR (R268). -/
def execSeedr (d n : Reg) (s : State) : Out := setsG (.seedr d n) d (zext (s.t.seed n.toNat)) s

end Sys2Proof.Machine
end

