-- ==== Sys2Proof/Machine/LoadStore.lean ====
section
/-! DEFINITION. Loads and stores (R184), vector loads and stores (R185), tile moves (R186). -/
namespace Sys2Proof.Machine

/-- The value a load receives: an element window gives the element's FP32 bits (R67), any other place
its raw bytes; sign- or zero-extended. -/
def State.loaded (s : State) (x : Acc) (sg : Bool) : Word :=
  let raw := leVal (s.rawRead x)
  let v : Nat × Nat := match x.loc with
    | .pad _ _ w _ => if w = 0 then (8 * x.size, raw) else (32, (slot32 s.seen s.winsIn x.dev x.loc).toNat)
    | _ => (8 * x.size, raw)
  if sg then BitVec.ofInt 64 (signed v.1 v.2) else word v.2

/-- A load (R184): access, then the register; `sg` sign-extends. -/
def loadG (i : Instr) (d : Reg) (ea : Word) (size : Nat) (sg : Bool) (s : State) : Out :=
  finish s (s.doing (useOf i) fun s => do
    let x ← s.access ea.toNat size .read
    s.ioGate x
    .ok (((s.noteRead x).setG d (s.loaded x sg)).ioSeal x))

/-- What a scalar store of the low bytes of a word does after its checks (R184, R209, R182): raw bytes,
an encoded element, an increment, or a write on its way to the hub dies. -/
def State.storeWord (s : State) (x : Acc) (w : Word) : Res State :=
  match x.loc with
  | .counter c n => .ok (s.effect (.post ⟨agentOf s.cur 0, c, n, w.toNat % 2 ^ 32, none⟩))
  | .io _ => .ok (s.effect (.io ⟨s.cur, s.myPart, x.dev, leBytes x.size w.toNat⟩))
  | .pad _ _ win _ =>
    if win = 0 then s.store x (maskedBytes x.dev (leBytes x.size w.toNat))
    else s.store x (movedPut s.seen s.winsIn x (Moved.fp32 (w.truncate 32)))
  | _ => s.store x (maskedBytes x.dev (leBytes x.size w.toNat))

/-- A store (R184). -/
def storeG (i : Instr) (ea : Word) (size : Nat) (w : Word) (s : State) : Out :=
  finish s (s.doing (useOf i) fun s => do
    let x ← s.access ea.toNat size .write
    s.ioGate x
    let s ← s.storeWord x w
    .ok (s.ioSeal x))

/-- LD.B (R184). -/
def execLdB (d a : Reg) (imm : BitVec 12) (s : State) : Out :=
  loadG (.ldB d a imm) d (s.gIn a + sext imm) 1 true s
/-- LD.BU (R184). -/
def execLdBu (d a : Reg) (imm : BitVec 12) (s : State) : Out :=
  loadG (.ldBu d a imm) d (s.gIn a + sext imm) 1 false s
/-- LD.H (R184). -/
def execLdH (d a : Reg) (imm : BitVec 12) (s : State) : Out :=
  loadG (.ldH d a imm) d (s.gIn a + sext imm) 2 true s
/-- LD.HU (R184). -/
def execLdHu (d a : Reg) (imm : BitVec 12) (s : State) : Out :=
  loadG (.ldHu d a imm) d (s.gIn a + sext imm) 2 false s
/-- LD.W (R184). -/
def execLdW (d a : Reg) (imm : BitVec 12) (s : State) : Out :=
  loadG (.ldW d a imm) d (s.gIn a + sext imm) 4 true s
/-- LD.WU (R184). -/
def execLdWu (d a : Reg) (imm : BitVec 12) (s : State) : Out :=
  loadG (.ldWu d a imm) d (s.gIn a + sext imm) 4 false s
/-- LD.D (R184). -/
def execLdD (d a : Reg) (imm : BitVec 12) (s : State) : Out :=
  loadG (.ldD d a imm) d (s.gIn a + sext imm) 8 false s
/-- ST.B (R184). -/
def execStB (d a : Reg) (imm : BitVec 12) (s : State) : Out :=
  storeG (.stB d a imm) (s.gIn a + sext imm) 1 (s.gIn d) s
/-- ST.H (R184). -/
def execStH (d a : Reg) (imm : BitVec 12) (s : State) : Out :=
  storeG (.stH d a imm) (s.gIn a + sext imm) 2 (s.gIn d) s
/-- ST.W (R184). -/
def execStW (d a : Reg) (imm : BitVec 12) (s : State) : Out :=
  storeG (.stW d a imm) (s.gIn a + sext imm) 4 (s.gIn d) s
/-- ST.D (R184). -/
def execStD (d a : Reg) (imm : BitVec 12) (s : State) : Out :=
  storeG (.stD d a imm) (s.gIn a + sext imm) 8 (s.gIn d) s
/-- LDX.B (R184). -/
def execLdxB (d a b : Reg) (s : State) : Out :=
  loadG (.ldxB d a b) d (s.gIn a + s.gIn b) 1 true s
/-- LDX.BU (R184). -/
def execLdxBu (d a b : Reg) (s : State) : Out :=
  loadG (.ldxBu d a b) d (s.gIn a + s.gIn b) 1 false s
/-- LDX.H (R184). -/
def execLdxH (d a b : Reg) (s : State) : Out :=
  loadG (.ldxH d a b) d (s.gIn a + s.gIn b) 2 true s
/-- LDX.HU (R184). -/
def execLdxHu (d a b : Reg) (s : State) : Out :=
  loadG (.ldxHu d a b) d (s.gIn a + s.gIn b) 2 false s
/-- LDX.W (R184). -/
def execLdxW (d a b : Reg) (s : State) : Out :=
  loadG (.ldxW d a b) d (s.gIn a + s.gIn b) 4 true s
/-- LDX.WU (R184). -/
def execLdxWu (d a b : Reg) (s : State) : Out :=
  loadG (.ldxWu d a b) d (s.gIn a + s.gIn b) 4 false s
/-- LDX.D (R184). -/
def execLdxD (d a b : Reg) (s : State) : Out :=
  loadG (.ldxD d a b) d (s.gIn a + s.gIn b) 8 false s
/-- STX.B (R184). -/
def execStxB (d a b : Reg) (s : State) : Out :=
  storeG (.stxB d a b) (s.gIn a + s.gIn b) 1 (s.gIn d) s
/-- STX.H (R184). -/
def execStxH (d a b : Reg) (s : State) : Out :=
  storeG (.stxH d a b) (s.gIn a + s.gIn b) 2 (s.gIn d) s
/-- STX.W (R184). -/
def execStxW (d a b : Reg) (s : State) : Out :=
  storeG (.stxW d a b) (s.gIn a + s.gIn b) 4 (s.gIn d) s
/-- STX.D (R184). -/
def execStxD (d a b : Reg) (s : State) : Out :=
  storeG (.stxD d a b) (s.gIn a + s.gIn b) 8 (s.gIn d) s

/-- The base of a vector access (R185): the offset counts 64-byte units. -/
def State.vecBase (s : State) (a : Reg) (imm : BitVec 12) : Nat := (s.gIn a + (sext imm <<< 6)).toNat

/-- Addresses of 16 slots `step` bytes apart. -/
def slotAddrs (ea step : Nat) : List Nat := (span 0 16).map fun i => (ea + step * i) % 2 ^ 64

/-- FP32 bits a vector lane receives from a slot (R67). -/
def State.laneIn (s : State) (x : Acc) : Lane :=
  match x.loc with
  | .io _ => BitVec.ofNat 32 (leVal (s.rawRead x))
  | _ => slot32 s.seen s.winsIn x.dev x.loc

/-- VLD and VLDT (R185). -/
def loadV (i : Instr) (d : Reg) (ea align step : Nat) (s : State) : Out :=
  finish s (s.doing (useOf i) fun s => do
    faultIf (ea % align ≠ 0) .misaligned ea
    let xs ← s.slotAccs .read (slotAddrs ea step)
    .ok ((s.noteSlots xs).putV d (stripLanes (xs.map s.laneIn))))

/-- VLD (R185). -/
def execVld (d a : Reg) (imm : BitVec 12) (s : State) : Out :=
  loadV (.vld d a imm) d (s.vecBase a imm) 64 4 s
/-- VLDT (R185): one column of a tile. -/
def execVldt (d a : Reg) (imm : BitVec 12) (s : State) : Out :=
  loadV (.vldt d a imm) d (s.vecBase a imm) 4 64 s
/-- VST (R185): all 16 slots, or none. -/
def execVst (d a : Reg) (imm : BitVec 12) (s : State) : Out :=
  let ea := s.vecBase a imm
  let v := s.vIn d
  finish s (s.doing (useOf (.vst d a imm)) fun s => do
    faultIf (ea % 64 ≠ 0) .misaligned ea
    let xs ← s.slotAccs .write (slotAddrs ea 4)
    s.putSlots (xs.zip (v.toList.map Moved.fp32)))

/-- Slot addresses of the rows of a tile: rows `stride` bytes apart (R186). -/
def tileAddrs (ea stride rows : Nat) : List Nat :=
  (span 0 rows).flatMap fun r => slotAddrs ((ea + stride * r) % 2 ^ 64) 4

/-- TMOV (R186): every source row is read before any destination row is written. -/
def execTmov (d a b : Reg) (s : State) : Out :=
  let src := (s.gIn a).toNat
  let dst := (s.gIn d).toNat
  let shape := (s.gIn b).toNat
  let rows := bits shape 5 0
  finish s (s.doing (useOf (.tmov d a b)) fun s => do
    faultIf (src % 64 ≠ 0) .misaligned src
    faultIf (dst % 64 ≠ 0) .misaligned dst
    faultIf (rows = 0 || rows > 16 || bits shape 15 6 ≠ 0 || bits shape 63 48 ≠ 0) .copyPattern shape
    let xs ← s.slotAccs .read (tileAddrs src (64 * bits shape 31 16) rows)
    let s' := s.noteSlots xs
    let ys ← s'.slotAccs .write (tileAddrs dst (64 * bits shape 47 32) rows)
    s'.putSlots (ys.zip (xs.map s.slotIn)))

end Sys2Proof.Machine
end

