-- ==== Sys2Proof/Machine/MarquetryEngine.lean ====
section
/-! DEFINITION. The Marquetry unit's steps (R279, R280, R284): the oldest command of the queue runs. -/
namespace Sys2Proof.Machine

/-- Virtual address of value n of the gradient table. -/
def MqCmd.at (m : MqCmd) (n : Nat) : Nat := (m.base + 4 * n) % 2 ^ 64

/-- The access of one word: it lies in window 0 of a die scratchpad (R284). An I/O leaf is refused with MQ_DESCRIPTOR at
that word (log 86). -/
def State.mqWord (s : State) (c : Nat) (m : MqCmd) (tlb : List Tlb) (va : Nat) : Except Cause Acc :=
  match s.engXlate c m.part tlb va with
  | none => .error (s.noXlate m.part va)
  | some p =>
    let onDie := match s.locate (p.base + va % 2 ^ p.size) with
      | .pad _ z w _ => z = 0x4000000 && w = 0 && !p.io
      | _ => false
    if !onDie then .error .mqDescriptor
    else s.engAccess c m.part m.user tlb [] false va 4 (if m.zero then .write else .rmw)

/-- Change the running command. -/
def State.mqRun (s : State) (c : Nat) (m : MqCmd) : State :=
  s.updEng c fun g => { g with mq := m :: g.mq.drop 1 }

/-- MARQUETRY_ADD (R280): one add is applied. -/
def execMarquetryAdd (s : State) : Out :=
  let c := s.cur
  match (if s.me.takeover then [] else s.me.eng.mq) with
  | [] => .idle s
  | m :: _ =>
    match (if m.zero || m.bad.isSome then [] else m.work.drop m.pos) with
    | [] => .idle s
    | (n, x) :: _ =>
      match s.mqWord c m m.tlb (m.at n) with
      | .error e => .next (s.mqRun c { m with bad := some e })
      | .ok a =>
        let old := BitVec.ofNat 32 (leVal (s.bytesAt a.dev 4))
        let s := s.engFill c m.part (m.at n) a.leaf
        let s := s.mqRun c { m with pos := m.pos + 1, tlb := keepTlb m.tlb m.part (m.at n) a.leaf }
        .next (s.land c a.leaf.scope 5 c (maskedBytes a.dev (leBytes 4 (fadd .rne old x).toNat)))

/-- The words of a zeroing beat, from a list. -/
def State.mqzWords (s : State) (c : Nat) (m : MqCmd) : List Tlb → List Nat → Except Cause (List Tlb × List Acc)
  | tlb, [] => .ok (tlb, [])
  | tlb, n :: r => do
    let a ← s.mqWord c m tlb (m.at n)
    let q ← s.mqzWords c m (keepTlb tlb m.part (m.at n) a.leaf) r
    .ok (q.1, a :: q.2)

/-- MQZ_BEAT (R284): a beat of at most 256 bytes lands. -/
def execMqzBeat (s : State) : Out :=
  let c := s.cur
  match (if s.me.takeover then [] else s.me.eng.mq) with
  | [] => .idle s
  | m :: _ =>
    let left := if !m.zero || m.bad.isSome then [] else m.work.drop m.pos
    match left with
    | [] => .idle s
    | (n, _) :: _ =>
      let run := ((left.take 64).map (·.1)).takeWhile fun k => m.at k / 256 = m.at n / 256
      match s.mqzWords c m m.tlb run with
      | .error e => .next (s.mqRun c { m with bad := some e })
      | .ok (tlb, as) =>
        let s := (s.engFills c tlb).mqRun c { m with pos := m.pos + run.length, tlb := tlb }
        let scope := match as with | a :: _ => a.leaf.scope | [] => 0
        .next (s.land c scope 5 c (as.flatMap fun a => maskedBytes a.dev (leBytes 4 0)))

/-- MARQUETRY_COMPLETION (R279): the command posts +1 to its counter, in the error phase with AGENT 3. -/
def execMarquetryCompletion (s : State) : Out :=
  let c := s.cur
  match (if s.me.takeover then [] else s.me.eng.mq) with
  | [] => .idle s
  | m :: rest =>
    if m.bad.isNone && m.pos < m.work.length then .idle s else
    let err := if m.peng then none else m.bad
    let s := s.updEng c fun g => { g with mq := rest }
    let s := s.applyPost ⟨agentOf c 3, c, m.mb, 1, err.map fun e => (e.code, 3, 4 * m.pos)⟩
    .next (if m.peng then s.updCore c fun k => k.engineDone m.inst m.bad 3 (4 * m.pos) else s)

end Sys2Proof.Machine
end

