-- ==== Sys2Proof/Machine/MatrixEngine.lean ====
section
/-! DEFINITION. The matrix unit's steps (R222-R236, R239-R243, R246-R261): a command starts, and completes
whole. -/
namespace Sys2Proof.Machine

/-! ### Reading operands -/

/-- What a command's reads have gathered: translations kept, lines read, widest format. -/
structure Rd where
  /-- Translations. -/
  tlb : List Tlb
  /-- Lines. -/
  lines : List Nat
  /-- Width in bits of the widest format read. -/
  width : Nat

/-- A byte as a command reads it: committed memory; a held firing's commands see its held stores (R311). -/
def State.matByte (s : State) (c : Nat) (m : MatCmd) (a : Nat) : Byte :=
  let k := s.core c
  match (if k.heldCmd m then k.held else none) with
  | some h => h.chunks.foldl (fun b ch => ch.over a b) (s.byte a)
  | none => s.byte a

/-- An access of the matrix unit (R231, R236): scratchpads only, through the windows that `ok` allows; a place in the
counter or I/O region, a drain's among them, gives MATRIX_OPERAND_FAULT (log 86). -/
def State.matAcc (s : State) (c : Nat) (m : MatCmd) (tlb : List Tlb) (ok : Nat → Bool) (va size : Nat) (kind : Kind) :
    Except Cause Acc :=
  match s.engXlate c m.part tlb va with
  | none => .error (s.noXlate m.part va)
  | some p =>
    if (m.user && !p.u) || (if kind = .write then !p.w else !p.r) then
      .error (if kind = .write then .protWrite else .protRead) else
    let bad : Option Cause := match s.locate (p.base + va % 2 ^ p.size) with
      | .hbm => some .noDramPath
      | .nothing => some .windowUndefined
      | .pad _ _ w _ => if p.io || !ok w then some .matrixOperand else none
      | _ => some .matrixOperand
    match bad with
    | some e => .error e
    | none => s.engAccess c m.part m.user tlb m.wins false va size kind

/-- An operand: addresses of elements, elements of the own scratchpad, or strips of a link (R226-R229). -/
inductive Opd where
  /-- Addresses by (i, k). -/
  | mem (at' : Nat → Nat → Nat)
  /-- Elements of the core's scratchpad through a descriptor, by (i, k). -/
  | pad (desc : Word) (idx : Nat → Nat → Nat)
  /-- One strip for each k. -/
  | link (fmt : Nat) (strips : List VReg)

/-- One element of an operand. -/
def State.opElem (s : State) (c : Nat) (m : MatCmd) (r : Rd) (o : Opd) (i k : Nat) : Except Cause (Rd × Num) :=
  match o with
  | .mem f => do
    let va := f i k % 2 ^ 64
    let a ← s.matAcc c m r.tlb (· ≠ 0) va 4 .read
    match a.loc with
    | .pad b _ _ off =>
      let d := descOf m.wins a.loc
      .ok (⟨keepTlb r.tlb m.part va a.leaf, a.lines m.wins ++ r.lines, max r.width (fmtWidth (wFmt d))⟩,
        elemValue (s.matByte c m) b d (off / 4))
    | _ => .error .matrixOperand
  | .pad d f =>
    let e := f i k
    let p := elemBits (wFmt d) e
    let n := (p.2 - 1) / 8 + 1 - p.1 / 8
    if s.poisoned d (.pad (padOfCore c) 0x20000 1 (4 * e)) 0 4 then .error .spadUncorrectable
    else .ok (⟨r.tlb, linesOf (padOfCore c + p.1 / 8) n ++ r.lines, max r.width (fmtWidth (wFmt d))⟩,
      elemValue (s.matByte c m) (padOfCore c) d e)
  | .link fmt l =>
    .ok ({ r with width := max r.width (fmtWidth fmt) },
      decodeElem fmt (packedElem (fmtWidth fmt) (stripNat (at' VReg.zero l k)) i))

/-- Elements i of a list, at one k. -/
def State.opElems (s : State) (c : Nat) (m : MatCmd) (o : Opd) (k : Nat) : Rd → List Nat → Except Cause (Rd × List Num)
  | r, [] => .ok (r, [])
  | r, i :: is => do
    let x ← s.opElem c m r o i k
    let y ← s.opElems c m o k x.1 is
    .ok (y.1, x.2 :: y.2)

/-- Both operands over a list of k: ascending k, then row, then column (R236). -/
def State.opSlices (s : State) (c : Nat) (m : MatCmd) (a b : Opd) (rows cols : Nat) :
    Rd → List Nat → Except Cause (Rd × List (List Num × List Num))
  | r, [] => .ok (r, [])
  | r, k :: ks => do
    let x ← s.opElems c m a k r (span 0 rows)
    let y ← s.opElems c m b k x.1 (span 0 cols)
    let z ← s.opSlices c m a b rows cols y.1 ks
    .ok (z.1, (x.2, y.2) :: z.2)

/-- The products of output element (i, j), in ascending k (R232). -/
def products (l : List (List Num × List Num)) (i j : Nat) : List Num :=
  l.map fun p => (at' (.fin false 0 0) p.1 i).mul (at' (.fin false 0 0) p.2 j)

/-- Valid cells in row-major order. -/
def cells (rows cols : Nat) : List (Nat × Nat) := (span 0 rows).flatMap fun i => (span 0 cols).map fun j => (i, j)

/-- Replace the valid region of a slot's values. -/
def putCells (vals : List Lane) (cs : List (Nat × Nat)) (new : List Lane) : List Lane :=
  (cs.zip new).foldl (fun v p => replaceAt v (16 * p.1.1 + p.1.2) p.2) vals

/-- The valid region's sums with the slot's elements as incoming values (R72, R232). -/
def denseCells (vals : List Lane) (l : List (List Num × List Num)) (cs : List (Nat × Nat)) : List Lane :=
  cs.map fun p => contract (l.length / 16 + 1) (at' 0#32 vals (16 * p.1 + p.2)) (products l p.1 p.2)

/-- The kiln's units for 1,024 multiply-accumulates of a width (R105). -/
def macRate (width : Nat) : Nat := if width ≥ 32 then 20 else if width ≥ 16 then 10 else if width ≥ 8 then 5 else 3

/-! ### Parameters (R224, R236) -/

/-- K. -/
def pK (p : List Byte) : Nat := fieldAt p 0 4
/-- Valid rows. -/
def pRows (p : List Byte) : Nat := bits (fieldAt p 0xC 1) 3 0 + 1
/-- Valid columns. -/
def pCols (p : List Byte) : Nat := bits (fieldAt p 0xC 1) 7 4 + 1
/-- A refused value or a nonzero reserved field of the captured copy. -/
def parBad (p : List Byte) : Bool :=
  pK p = 0 || pK p > 65536 || fieldAt p 8 1 / 16 ≠ 0 || fieldAt p 9 1 / 16 ≠ 0 || fieldAt p 0xA 1 / 16 ≠ 0
    || fieldAt p 0xB 1 > 11 || fieldAt p 0xD 1 > 11 || fieldAt p 0xE 1 > 1 || fieldAt p 0xF 1 ≠ 0
    || !zeroAt p 0x12 2 || !zeroAt p 0x24 28
/-- Element offset of A(i, k) (R226). -/
def idxA (at? : Bool) (str i k : Nat) : Nat := if at? then str * k + i else str * i + k
/-- Element offset of B(k, j) (R226). -/
def idxB (bt : Bool) (str j k : Nat) : Nat := if bt then str * j + k else str * k + j

/-- A command's source as an operand (R226, R228, R229); `last` is the largest element offset. -/
def State.opOf (c : Nat) (m : MatCmd) (x : Src) (isA : Bool) (idx : Nat → Nat → Nat) (last : Nat) : Except Cause Opd :=
  match x with
  | .addr a => .ok (.mem fun i k => a + 4 * idx i k)
  | .link _ => .ok (.link (fieldAt m.par 0xB 1) (if isA then m.sa else m.sb))
  | .rack _ off size _ =>
    let win := bits (fieldAt m.par (if isA then 8 else 9) 1) 3 0
    if win = 0 then .error .matrixOperand else
    let d := FMap.get 0 m.wins (windowKey (padOfCore c) 0x20000 win)
    let w := fmtWidth (wFmt d)
    if !wValid d then .error .windowUndefined
    else if off * 8 % w ≠ 0 then .error .matrixOperand
    else if (off * 8 / w + last + 1) * w > (off + size) * 8 then .error .matrixOperand
    else .ok (.pad d fun i k => off * 8 / w + idx i k)

/-! ### Landing results -/

/-- Consecutive entries that share a 256-byte block, at most `cap` each (R198, R231). -/
def runsOf {V : Type} (cap : Nat) (key : V → Nat) (l : List V) : List (List V) :=
  (l.foldl (fun (acc : List (List V)) x =>
    match acc with
    | (y :: r) :: rest => if key y = key x && r.length + 1 < cap then (y :: r ++ [x]) :: rest else [x] :: (y :: r) :: rest
    | rest => [x] :: rest) []).reverse

/-- An element write of a command: address, access, masked bytes. -/
abbrev Put := Nat × Acc × List (Nat × Byte × Byte)

/-- The beats of a command's writes land one after another (R231): the state and the bytes of slots written. -/
def State.landRuns (s : State) (c cap : Nat) (ps : List Put) : State :=
  (runsOf cap (fun (p : Put) => p.2.1.dev / 256) ps).foldl (fun s r =>
    match r with
    | p :: _ => s.land c p.2.1.leaf.scope 5 c (r.flatMap fun q => q.2.2)
    | [] => s) s

/-- The whole beats before a failing element that lies in a block: its own beat does not land (R198, R236). -/
def wholeRuns (cap : Nat) (ps : List Put) (block : Nat) : List Put :=
  match (runsOf cap (fun (p : Put) => p.2.1.dev / 256) ps).reverse with
  | (p :: r) :: rest => if p.2.1.dev / 256 = block && r.length + 1 < cap then rest.reverse.flatten else ps
  | _ => ps

/-- The aligned 256-byte block of device addresses that a command's destination lies in (R198). One whose page has no
translation shares a beat with no other. -/
def State.putBlock (s : State) (c : Nat) (m : MatCmd) (tlb : List Tlb) (va : Nat) : Nat :=
  match s.engXlate c m.part tlb va with
  | some p => (p.base + va % 2 ^ p.size) / 256
  | none => 2 ^ 48 + va

/-- The writes of a list of addresses, or those before the first failing one with its cause and its block. -/
def State.putsOf (s : State) (c : Nat) (m : MatCmd) (size : Nat) (f : Acc → Nat → List (Nat × Byte × Byte)) :
    List Tlb → List (Nat × Nat) → List Put × Option (Cause × Nat)
  | _, [] => ([], none)
  | tlb, (va, n) :: r =>
    match s.matAcc c m tlb (fun _ => true) va size .write with
    | .error e => ([], some (e, s.putBlock c m tlb va))
    | .ok a =>
      let q := s.putsOf c m size f (keepTlb tlb m.part va a.leaf) r
      ((va, a, f a n) :: q.1, q.2)

/-- Land a list of writes in beats: the state, the bytes landed and the fault. -/
def State.putAll (s : State) (c : Nat) (m : MatCmd) (size : Nat) (f : Acc → Nat → List (Nat × Byte × Byte))
    (l : List (Nat × Nat)) : State × Nat × Option Cause :=
  let cap := 256 / size
  let q := s.putsOf c m size f m.tlb l
  let ps := match q.2 with | some (_, b) => wholeRuns cap q.1 b | none => q.1
  (s.landRuns c cap ps, size * ps.length, q.2.map (·.1))

/-! ### Slots -/

/-- Change a listed slot. -/
def CoreT.onSlot (t : CoreT) (n : Nat) (f : Slot → Slot) : CoreT :=
  match FMap.find? t.slots n with
  | some x => { t with slots := FMap.put t.slots n (f x) }
  | none => t
/-- Change a slot at a command's completion: the change survives a squash. The parameter copy and DCNT that an MPAR of the
open chunk has set stay tentatively (R239). -/
def State.slotPut (s : State) (c n : Nat) (f : Slot → Slot) : State :=
  s.updCore c fun k =>
    let q := k.both fun t => t.onSlot n f
    if k.chunk.any (·.pars.contains n) then { q with t := k.t.onSlot n fun x => { f x with par := x.par, dcnt := x.dcnt } } else q
/-- A slot of a core as the unit sees it: without what its open chunk has done (R239, R288). -/
def State.slotAt (s : State) (c n : Nat) : Slot := FMap.get Slot.free (s.core c).committed.slots n
/-- A drain from memory adds 1 to DCNT; one that an MPAR of the open chunk has reset stays reset (R234, R239). -/
def State.countDrain (s : State) (c n : Nat) : State :=
  s.updCore c fun k =>
    let q := k.both fun t => t.onSlot n fun x => { x with dcnt := (x.dcnt + 1) % 2 ^ 16 }
    if k.chunk.any (·.pars.contains n) then { q with t := k.t } else q

/-- The lines that a held firing's command has read enter its held chunks' signature (R311). -/
def State.heldLines (s : State) (c : Nat) (m : MatCmd) (lines : List Nat) : State :=
  if (s.core c).heldCmd m then
    s.updCore c fun k => { k with held := k.held.map fun (h : Held) =>
      { h with chunks := match h.chunks with
        | ch :: r => { ch with rd := (ch.rd ++ lines).dedup } :: r
        | [] => [] } }
  else s

/-- What a command has come to: the state, the bytes it wrote, its fault. -/
structure Done where
  /-- State. -/
  s : State
  /-- Bytes written. -/
  bytes : Nat
  /-- Fault. -/
  bad : Option Cause

/-- A command's computation that only changes its slot: on a fault nothing changes (R223). -/
def Done.slot (s : State) (c : Nat) (m : MatCmd) (r : Except Cause (Rd × Nat × (Slot → Slot))) : Done :=
  match r with
  | .error e => ⟨s, 0, some e⟩
  | .ok (rd, macs, f) =>
    let s := (s.heldLines c m rd.lines).engFills c rd.tlb
    let s := s.updEng c fun g => g.addMacs (macRate rd.width) m macs
    ⟨s.slotPut c m.slot f, 0, none⟩

/-- The start of a command's reads. -/
def MatCmd.rd0 (m : MatCmd) : Rd := ⟨m.tlb, [], 0⟩

/-! ### Commands -/

/-- A slot after a product: values, side word 0, no Kerf status (R232, R260). -/
def Slot.product (x : Slot) (v : List Lane) : Slot := { x with vals := v, side := 0#32, kstat := 0#64 }

/-- MMA, MMAR, MMAG (R240): `gather` holds the index lanes of MMAG. -/
def State.runMma (s : State) (c : Nat) (m : MatCmd) (a b : Src) (gather : Option VReg) : Except Cause (Rd × Nat × (Slot → Slot)) := do
  let p := m.par
  if parBad p then .error .matrixOperand else
  let lay := fieldAt p 0xA 1
  let at? := bit lay 0
  let bt := bit lay 1
  let rows := pRows p
  let cols := pCols p
  let n := pK p
  if gather.isSome && at? then .error .matrixOperand else
  let sa := fieldAt p 4 2
  let sb := fieldAt p 6 2
  let ia : Nat → Nat → Nat := match gather with
    | some v => fun i k => sa * (if h : i < 16 then v[i].toNat else 0) + k
    | none => idxA at? sa
  let oa ← State.opOf c m a true ia (idxA at? sa (rows - 1) (n - 1))
  let ob ← State.opOf c m b false (idxB bt sb) (idxB bt sb (cols - 1) (n - 1))
  let r ← s.opSlices c m oa ob rows cols m.rd0 (span 0 n)
  let cs := cells rows cols
  .ok (r.1, rows * cols * n, fun x => x.product (putCells x.lanes cs (denseCells x.lanes r.2 cs)))

/-- MLDC (R241). -/
def State.runMldc (s : State) (c : Nat) (m : MatCmd) (a : Nat) : Rd → List (Nat × Nat) → Except Cause (Rd × List Lane)
  | r, [] => .ok (r, [])
  | r, (i, j) :: cs => do
    let va := (a + 4 * (fieldAt m.par 0x10 2 * i + j)) % 2 ^ 64
    let x ← s.matAcc c m r.tlb (fun _ => true) va 4 .read
    let y ← s.runMldc c m a ⟨keepTlb r.tlb m.part va x.leaf, x.lines m.wins ++ r.lines, r.width⟩ cs
    .ok (y.1, slot32 (s.matByte c m) m.wins x.dev x.loc :: y.2)

/-- Memory-form MDRAIN (R234, R242): DCNT counts it, faulted or not. -/
def State.runMdrain (s : State) (c : Nat) (m : MatCmd) (a : Nat) : Done :=
  let p := m.par
  let x := s.slotAt c m.slot
  let d : Done :=
    if parBad p then ⟨s, 0, some .matrixOperand⟩ else
    let cs := cells (pRows p) (pCols p)
    let put (q : Acc) (n : Nat) : List (Nat × Byte × Byte) :=
      let v := at' 0#32 x.lanes n
      match q.loc with
      | .pad b _ w off =>
        if w = 0 then maskedBytes q.dev (leBytes 4 v.toNat)
        else elemWrite s.byte b (descOf m.wins q.loc) (drainRm p x.dcnt (n / 16) (n % 16)) (off / 4) (Num.ofBits v)
      | _ => []
    let r := s.putAll c m 4 put (cs.map fun q => ((a + 4 * (fieldAt p 0x10 2 * q.1 + q.2)) % 2 ^ 64, 16 * q.1 + q.2))
    ⟨r.1, r.2.1, r.2.2⟩
  { d with s := d.s.countDrain c m.slot }

/-- A save image's blocks lie in window 0 (R236, R243). -/
def State.imageAcc (s : State) (c : Nat) (m : MatCmd) (tlb : List Tlb) (va : Nat) (kind : Kind) : Except Cause Acc :=
  s.matAcc c m tlb (· = 0) va 64 kind

/-- MSAVE (R243): with the parameter copy that it captured (R225). -/
def State.runMsave (s : State) (c : Nat) (m : MatCmd) (a : Nat) : Done :=
  let b := ({ s.slotAt c m.slot with par := m.par } : Slot).image []
  let ps := (span 0 18).foldl (fun (acc : List Put × Option (Cause × Nat)) i =>
    match acc.2 with
    | some _ => acc
    | none =>
      let va := (a + 64 * i) % 2 ^ 64
      match s.imageAcc c m m.tlb va .write with
      | .error e => (acc.1, some (e, s.putBlock c m m.tlb va))
      | .ok q => (acc.1 ++ [(va, q, maskedBytes q.dev ((b.drop (64 * i)).take 64))], none)) ([], none)
  let w := match ps.2 with | some (_, b) => wholeRuns 4 ps.1 b | none => ps.1
  ⟨s.landRuns c 4 w, 64 * w.length, ps.2.map (·.1)⟩

/-- The bytes of an image. -/
def State.saveBytes (s : State) (c : Nat) (m : MatCmd) (a : Nat) : List Nat → Except Cause (List Byte)
  | [] => .ok []
  | i :: r => do
    let q ← s.imageAcc c m m.tlb ((a + 64 * i) % 2 ^ 64) .read
    let l ← s.saveBytes c m a r
    .ok (s.bytesAt q.dev 64 ++ l)

/-- MREST (R243). -/
def State.runMrest (s : State) (c : Nat) (m : MatCmd) (a : Nat) : Except Cause (Rd × Nat × (Slot → Slot)) := do
  let b ← s.saveBytes c m a (span 0 18)
  if bits (fieldAt b 0x446 2) 13 8 ≠ 0 || !zeroAt b 0x448 56 then .error .matrixOperand else
  .ok (m.rd0, 0, fun x => { x.ofImage b with kstat := 0#64 })

/-! ### GAUGE and KMMA (R246-R261) -/

/-- S of a block. -/
def kS (b : List Byte) : Nat := bits (fieldAt b 0x14 4) 11 0 + 1
/-- w of a block. -/
def kW (b : List Byte) : Nat := 2 ^ bits (fieldAt b 0x14 4) 14 12
/-- Valid rows. -/
def kRows (b : List Byte) : Nat := bits (fieldAt b 0x14 4) 19 16 + 1
/-- Valid columns. -/
def kCols (b : List Byte) : Nat := bits (fieldAt b 0x14 4) 23 20 + 1
/-- VLIM. -/
def kVlim (b : List Byte) : Lane := BitVec.ofNat 32 (fieldAt b 0x28 4)
/-- FLAGS. -/
def kFlags (b : List Byte) : Nat := fieldAt b 0x30 1
/-- LOGA. -/
def kLoga (b : List Byte) : Nat := fieldAt b 0x38 8

/-- An address of window 0 of a scratchpad; anywhere else, HBM among it, the given cause (log 86). -/
def State.inWindow0 (s : State) (c : Nat) (m : MatCmd) (va : Nat) (e : Cause) : Option Cause :=
  match s.engXlate c m.part m.tlb va with
  | none => some (s.noXlate m.part va)
  | some p => match s.locate (p.base + va % 2 ^ p.size) with
    | .pad _ _ w _ => if w = 0 then none else some e
    | _ => some e

/-- KERF_BAD_PARAM (R261). -/
def State.kerfBad (s : State) (c : Nat) (m : MatCmd) (b : List Byte) : Option Cause :=
  let sh := fieldAt b 0x14 4
  let log := bit (kFlags b) 1
  if bits sh 31 26 ≠ 0 || bit sh 15 || bits sh 14 12 > 5 || fieldAt b 0x2E 1 = 0 || fieldAt b 0x2E 1 > 8
      || fieldAt b 0x2F 1 > 7 || kFlags b > 3 || fieldAt b 0x31 1 > 11 || fieldAt b 0x32 1 > 1 || !zeroAt b 0x33 5
      || fpNan (kVlim b) || fpNeg (kVlim b) || (log && (kLoga b = 0 || kLoga b % 8 ≠ 0)) then some .kerfParam
  else if log then s.inWindow0 c m (kLoga b) .kerfParam
  else none

/-- A gauge table's address, with the checks of R261: a handle, its right, its length, its window. -/
def State.gaugeBase (s : State) (c : Nat) (m : MatCmd) (r : Option Region) (off n : Nat) (write : Bool) : Except Cause Nat :=
  match r with
  | none => .error .kerfGauge
  | some r =>
    if (if write then !r.w else !r.r) then .error .kerfGauge
    else if off % 4 ≠ 0 then .error .misaligned
    else if off + 4 * n > r.len then .error .kerfGauge
    else
      let va := (r.base + off) % 2 ^ 64
      match firstCause (s.inWindow0 c m va .kerfGauge) (s.inWindow0 c m ((va + 4 * n - 4) % 2 ^ 64) .kerfGauge) with
      | some e => .error e
      | none => .ok va

/-- The entries of a table. -/
def State.gaugeRead (s : State) (c : Nat) (m : MatCmd) (va : Nat) : Nat → Except Cause (List Lane)
  | 0 => .ok []
  | n + 1 => do
    let a ← s.matAcc c m m.tlb (fun _ => true) va 4 .read
    let r ← s.gaugeRead c m ((va + 4) % 2 ^ 64) n
    .ok (BitVec.ofNat 32 (leVal (s.bytesAt a.dev 4)) :: r)

/-- Both tables as a KMMA reads them at its start (R252, R261). -/
def State.gaugeTables (s : State) (c : Nat) (m : MatCmd) (b : List Byte) : Except Cause (List Lane × List Lane) := do
  let n := kS b
  let va ← s.gaugeBase c m m.regions.1 (fieldAt b 0x1C 4) n false
  let ga ← s.gaugeRead c m va n
  let vb ← s.gaugeBase c m m.regions.2 (fieldAt b 0x24 4) n false
  let gb ← s.gaugeRead c m vb n
  .ok (ga, gb)

/-- The operands of a Kerf block. -/
def kerfOpds (b : List Byte) : Opd × Opd :=
  let sh := fieldAt b 0x14 4
  (.mem fun i k => fieldAt b 0 8 + 4 * idxA (bit sh 24) (fieldAt b 0x10 2) i k,
   .mem fun j k => fieldAt b 8 8 + 4 * idxB (bit sh 25) (fieldAt b 0x12 2) j k)

/-- A sum of squares as R246 forms it. -/
def gaugeSum (l : List Num) : Lane := l.foldl (fun q x => fadd .rne q ((x.mul x).toBits .rne)) 0#32

/-- GAUGE (R246, R249). -/
def State.runGauge (s : State) (c : Nat) (m : MatCmd) (b : List Byte) (sel : Nat) : Done :=
  match s.kerfBad c m b with
  | some e => ⟨s, 0, some e⟩
  | none =>
    let n := kS b
    let w := kW b
    let o := kerfOpds b
    let r : Except Cause (Option Nat × Option Nat × Rd × List (List Num × List Num)) := do
      let va ← (if bit sel 0 then (s.gaugeBase c m m.regions.1 (fieldAt b 0x1C 4) n true).map some else .ok none)
      let vb ← (if bit sel 1 then (s.gaugeBase c m m.regions.2 (fieldAt b 0x24 4) n true).map some else .ok none)
      let x ← s.opSlices c m o.1 o.2 (kRows b) (kCols b) m.rd0 (span 0 (n * w))
      .ok (va, vb, x.1, x.2)
    match r with
    | .error e => ⟨s, 0, some e⟩
    | .ok (va, vb, rd, l) =>
      let slice (i : Nat) := (l.drop (i * w)).take w
      let qa := (span 0 n).map fun i =>
        gaugeSum ((span 0 (kRows b)).flatMap fun r => (slice i).map fun p => at' (.fin false 0 0) p.1 r)
      let qb := (span 0 n).map fun i => gaugeSum ((slice i).flatMap fun p => p.2)
      let s := (s.engFills c rd.tlb).updEng c fun g => g.addMacs (macRate rd.width) m ((kRows b + kCols b) * n * w)
      let one (d : Done) (va : Option Nat) (q : List Lane) : Done :=
        match d.bad, va with
        | none, some va =>
          let x := d.s.putAll c m 4 (fun a i => maskedBytes a.dev (leBytes 4 (at' 0#32 q i).toNat))
            ((span 0 n).map fun i => ((va + 4 * i) % 2 ^ 64, i))
          ⟨x.1, d.bytes + x.2.1, x.2.2⟩
        | _, _ => d
      one (one ⟨s, 0, none⟩ va qa) vb qb

/-- m′ of a started KMMA (R258). -/
def MatCmd.drawn (m : MatCmd) (b : List Byte) (n : Nat) : Nat := kerfDraws n m.scale (bit (kFlags b) 0)

/-- The sample of R255: each draw's products, read in draw order. -/
def State.sampleOf (s : State) (c : Nat) (m : MatCmd) (b : List Byte) (w : Weights) :
    Rd → List (Nat × Nat) → Except Cause (Rd × List (Nat × List Lane))
  | r, [] => .ok (r, [])
  | r, d :: ds => do
    let o := kerfOpds b
    let x ← s.opSlices c m o.1 o.2 (kRows b) (kCols b) r (span (d.2 * kW b) (kW b))
    let p := (cells (kRows b) (kCols b)).map fun q => contract (kW b / 16 + 1) 0#32 (products x.2 q.1 q.2)
    let y ← s.sampleOf c m b w x.1 ds
    .ok (y.1, (at' 1 w.w d.2, p) :: y.2)

/-- The slot's Kerf status (R260). -/
def kerfStat (b : List Byte) (m drawn scale : Nat) (unif full dense : Bool) : Word :=
  word (fieldAt b 0x2C 2 <<< 48 + (if dense then 0 else drawn) <<< 40 + m <<< 32 + (kS b - 1) <<< 16 + 2 ^ 7
    + scale <<< 5 + b2n unif <<< 4 + b2n (drawn < m) <<< 2 + b2n full <<< 1 + b2n dense)

/-- The dense product of a KMMA, with the variance v (R256). -/
def State.kerfDense (s : State) (c : Nat) (m : MatCmd) (b : List Byte) (v : Lane) (st : Word) : Except Cause (Rd × Nat × (Slot → Slot)) := do
  let o := kerfOpds b
  let n := kS b * kW b
  let x ← s.opSlices c m o.1 o.2 (kRows b) (kCols b) m.rd0 (span 0 n)
  let cs := cells (kRows b) (kCols b)
  .ok (x.1, kRows b * kCols b * n,
    fun y => { y with vals := putCells y.lanes cs (denseCells y.lanes x.2 cs), side := v, kstat := st })

/-- KMMA (R252-R259). -/
def State.runKmma (s : State) (c : Nat) (m : MatCmd) (b : List Byte) (n : Nat) (seed : Lane) : Done :=
  match s.kerfBad c m b with
  | some e => ⟨s, 0, some e⟩
  | none =>
    let mp := m.drawn b n
    let f := if bit (kFlags b) 0 then m.scale else 0
    if mp ≥ kS b then Done.slot s c m (s.kerfDense c m b 0#32 (kerfStat b n mp f false false true))
    else
      let w := weights m.gaugeA m.gaugeB (fieldAt b 0x2E 1)
      let ds := draws w.c seed (fieldAt b 0x2C 2) mp
      match s.sampleOf c m b w m.rd0 ds with
      | .error e => ⟨s, 0, some e⟩
      | .ok (rd, ps) =>
        let cs := cells (kRows b) (kCols b)
        let x := kerfEstimate cs.length mp ps
        let full := kerfFull mp x (kVlim b)
        let s := (s.engFills c rd.tlb).updEng c fun g => g.addMacs (macRate rd.width) m (mp * kRows b * kCols b * kW b)
        let lg := if bit (kFlags b) 1 then
            s.putAll c m 8 (fun a i =>
              let d := at' (0, 0) ds i
              maskedBytes a.dev (leBytes 8 (d.1 + d.2 <<< 24 + (at' 0 w.w d.2) <<< 36)))
              ((span 0 mp).map fun i => ((kLoga b + 8 * i) % 2 ^ 64, i))
          else (s, 0, none)
        match lg.2.2 with
        | some e => ⟨lg.1, lg.2.1, some e⟩
        | none =>
          let st := kerfStat b n mp f w.unif full false
          let d := if full then Done.slot lg.1 c m (lg.1.kerfDense c m b x.v st)
            else Done.slot lg.1 c m (.ok (rd, 0, fun y =>
              let new := (cs.zip x.e).map fun p => groupSum [Num.ofBits (at' 0#32 y.lanes (16 * p.1.1 + p.1.2)), Num.ofBits p.2]
              { y with vals := putCells y.lanes cs new, side := x.v, kstat := st }))
          { d with bytes := lg.2.1 }

/-! ### Steps -/

/-- MATRIX_COMMAND_START (R222): the unit takes the oldest command; a KMMA takes the kiln's scale and, when it
will draw, its gauge tables (R252, R258). -/
def execMatrixCommandStart (s : State) : Out :=
  let c := s.cur
  match (if s.me.takeover then [] else s.me.eng.mat) with
  | [] => .idle s
  | m :: rest =>
    if m.started then .idle s else
    let m := { m with started := true, scale := (s.cluster (clusterOf c)).scale }
    let m := match m.op with
      | .kmma b n _ =>
        if m.bad.isSome then m else
        match s.kerfBad c m b with
        | some e => { m with bad := some e }
        | none =>
          if m.drawn b n ≥ kS b then m else
          match s.gaugeTables c m b with
          | .ok (ga, gb) => { m with gaugeA := ga, gaugeB := gb }
          | .error e => { m with bad := some e }
      | _ => m
    .next (s.updEng c fun g => { g with mat := m :: rest })

/-- The links a command takes its operands from: of A and of B, true for west. -/
def MatOp.links : MatOp → Option Bool × Option Bool
  | .mma a b =>
    (match a with | .link w => some w | _ => none, match b with | .link w => some w | _ => none)
  | _ => (none, none)

/-- The engine takes the oldest strip of a link (R229): it is not tentative. -/
def Core.popLink (k : Core) (west : Bool) : Option (VReg × Core) :=
  match (if west then k.t.linkW else k.t.linkE) with
  | [] => none
  | v :: _ =>
    let n := if west then k.t.linkW.length else k.t.linkE.length
    some (v, k.both fun t =>
      if west then { t with linkW := t.linkW.eraseIdx (t.linkW.length - n) }
      else { t with linkE := t.linkE.eraseIdx (t.linkE.length - n) })

/-- Take strips for a command while its links have them (R229): for each k first A's, then B's. -/
def pullStrips (la lb : Option Bool) (n : Nat) : Nat → Core → MatCmd → Core × MatCmd
  | 0, k, m => (k, m)
  | fuel + 1, k, m =>
    let needA := la.isSome && m.sa.length < n
    let needB := lb.isSome && m.sb.length < n
    if needA && (!needB || m.sa.length ≤ m.sb.length) then
      match k.popLink (la.getD true) with
      | some (v, k) => pullStrips la lb n fuel k { m with sa := m.sa ++ [v] }
      | none => (k, m)
    else if needB then
      match k.popLink (lb.getD true) with
      | some (v, k) => pullStrips la lb n fuel k { m with sb := m.sb ++ [v] }
      | none => (k, m)
    else (k, m)

/-- A command's work. -/
def State.runMat (s : State) (c : Nat) (m : MatCmd) : Done :=
  match m.bad with
  | some e =>
    let s := match m.op with
      | .mdrain _ => s.countDrain c m.slot
      | _ => s
    ⟨s, 0, some e⟩
  | none =>
    match m.op with
    | .mzero => ⟨s.slotPut c m.slot fun x => { x.product [] with latch := Latch.clear }, 0, none⟩
    | .mma a b => Done.slot s c m (s.runMma c m a b none)
    | .mmag a v b => Done.slot s c m (s.runMma c m (.addr a) (.addr b) (some v))
    | .mldc a =>
      Done.slot s c m (if parBad m.par then .error .matrixOperand else
        let cs := cells (pRows m.par) (pCols m.par)
        (s.runMldc c m a m.rd0 cs).map fun r => (r.1, 0, fun x => x.product (putCells x.lanes cs r.2)))
    | .mdrain a => s.runMdrain c m a
    | .msave a => s.runMsave c m a
    | .mrest a => Done.slot s c m (s.runMrest c m a)
    | .gauge b _ sel => s.runGauge c m b sel
    | .kmma b n seed => s.runKmma c m b n seed

/-- The level of a core's firing with a number, while it runs. -/
def CoreT.levelOf (t : CoreT) (serial : Nat) : Option Nat :=
  if t.fir1.any (·.serial = serial) then some 1 else if t.fir0.any (·.serial = serial) then some 0 else none

/-- A claimed rack slot is freed at the completion of its command (R228); frees that waited for it follow. A held firing's
is noted, and is freed at glue-up (R311). The claims of a firing that has ended went with it. -/
def State.freeClaim (s : State) (c : Nat) (m : MatCmd) (x : Src) : State :=
  match x with
  | .rack b _ _ true =>
    let level := (s.core c).t.levelOf m.fir
    if (s.core c).heldCmd m then
      s.updCore c fun k =>
        let k := { k with held := k.held.map fun h => { h with freed := FMap.upd 0 h.freed b (· + 1) } }
        match level with | some l => k.unclaim l b 1 | none => k
    else
    let s := s.updCore c fun k => k.updRack b fun r =>
      ({ r.freed 1 with pend := r.pend - 1, due := if level.isNone then r.due - 1 else r.due } : Rack).flush
    let s := match level with
      | some l => s.updCore c fun k => k.unclaim l b 1
      | none => s.payCredits c b
    s.wakeCore c
  | _ => s

/-- The slots a command frees at its completion. -/
def MatOp.frees : MatOp → List Src
  | .mma a b => [a, b]
  | _ => []

/-- The counter of a command and its increment (R224, R242, R249). -/
def MatCmd.target (m : MatCmd) (c : Nat) : Option (Nat × Nat) × Nat :=
  match m.op with
  | .mdrain _ => (m.cnt, fieldAt m.par 0x20 4)
  | .msave _ => (m.cnt, fieldAt m.par 0x20 4)
  | .gauge _ mb _ => (some (c, mb), 1)
  | _ => (none, 0)

/-- The sample of a KMMA that draws: its estimate, once its tables and its operands could be read (R255). -/
def State.estimateOf (s : State) (c : Nat) (m : MatCmd) (b : List Byte) (n : Nat) (seed : Lane) : Option Estimate :=
  let w := weights m.gaugeA m.gaugeB (fieldAt b 0x2E 1)
  if m.gaugeA.isEmpty || m.bad.isSome then none else
  match s.sampleOf c m b w m.rd0 (draws w.c seed (fieldAt b 0x2C 2) (m.drawn b n)) with
  | .ok (_, ps) => some (kerfEstimate (cells (kRows b) (kCols b)).length (m.drawn b n) ps)
  | .error _ => none

/-- The Kerf status of a KMMA that completes in the error phase (R260): of its bits those are a free value that hang on what
it has not done: MUSED and UNIF before its tables are read (R252), FULL before its operands are (log 45). -/
def State.failedStat (s : State) (c : Nat) (m : MatCmd) (b : List Byte) (n : Nat) (seed : Lane) (free : Word) : Word :=
  let mp := m.drawn b n
  let f := if bit (kFlags b) 0 then m.scale else 0
  if mp ≥ kS b then kerfStat b n mp f false false true else
  let w := weights m.gaugeA m.gaugeB (fieldAt b 0x2E 1)
  let est := s.estimateOf c m b n seed
  let st := kerfStat b n mp f w.unif (est.any fun x => kerfFull mp x (kVlim b)) false
  let mask : Word := if m.gaugeA.isEmpty then 0x0000FF0000000012#64 else if est.isNone then 0x2#64 else 0#64
  (st &&& ~~~mask) ||| (free &&& mask)

/-- The Kerf status that a command's completion in the error phase leaves (R260): zero, but for a drain, an image save or a
gauge, which leave it alone, and for a KMMA, which sets it. -/
def State.failedKstat (s : State) (c : Nat) (m : MatCmd) (free : Word) (x : Slot) : Slot :=
  match m.op with
  | .mdrain _ | .msave _ | .gauge _ _ _ => x
  | .kmma b n seed => { x with kstat := s.failedStat c m b n seed free }
  | _ => { x with kstat := 0#64 }

/-- AGENT of a command (R206). -/
def MatCmd.agent (m : MatCmd) : Nat := match m.op with | .gauge _ _ _ => 2 | .kmma _ _ _ => 2 | _ => 1

/-- The completion of the unit's command (R223): its work, its latch, its slots, its post, all in one step. -/
def State.completeMat (s : State) (c : Nat) (m : MatCmd) (rest : List MatCmd) : State :=
  let d := s.runMat c m
  let s := if d.bad.isSome then d.s.next.slotPut c m.slot (s.failedKstat c m (Config.freeXval d.s.fresh)) else d.s
  let err := if m.peng then none else d.bad
  let s := match err with
    | none => s
    | some e => s.slotPut c m.slot fun x =>
        { x with latch := if x.latch.ep then { x.latch with multi := true } else ⟨true, false, e.code, 0, 0⟩ }
  let s := m.op.frees.foldl (fun s x => s.freeClaim c m x) s
  let s := s.updEng c fun g => { g with mat := rest }
  let s := s.updCore c Core.settleSlots
  let q := m.target c
  let s := match q.1 with
    | some (o, n) => s.applyPost ⟨agentOf c 2, o, n, q.2 % 2 ^ 32, err.map fun e => (e.code, m.agent, d.bytes)⟩
    | none => s
  if m.peng then s.updCore c fun k => k.engineDone m.inst d.bad m.agent d.bytes else s

/-- Device addresses of the words that a command writes: a drain's, an image's, a gauge's tables, a KMMA's log. -/
def State.matDest (s : State) (c : Nat) (m : MatCmd) : List Nat :=
  let table (r : Option Region) (off n : Nat) : List Nat := match r with
    | some r => (span 0 n).map fun i => r.base + off + 4 * i
    | none => []
  let vas : List Nat := match m.op with
    | .mdrain a => (cells (pRows m.par) (pCols m.par)).map fun q => a + 4 * (fieldAt m.par 0x10 2 * q.1 + q.2)
    | .msave a => (span 0 18).map fun i => a + 64 * i
    | .gauge b _ sel => (if bit sel 0 then table m.regions.1 (fieldAt b 0x1C 4) (kS b) else []) ++
        (if bit sel 1 then table m.regions.2 (fieldAt b 0x24 4) (kS b) else [])
    | .kmma b n _ => if bit (kFlags b) 1 then (span 0 (m.drawn b n)).map fun i => kLoga b + 8 * i else []
    | _ => []
  vas.filterMap fun va => (s.engXlate c m.part m.tlb (va % 2 ^ 64)).map fun p => p.base + va % 2 ^ p.size

/-- A command's beats or its post would reach a core whose spare takes over: the completion waits (R383). -/
def State.matAway (s : State) (c : Nat) (m : MatCmd) : Bool :=
  s.cores.any (fun (p : Nat × Core) => p.2.takeover) && (s.cntAway (m.target c).1 || s.away (s.matDest c m))

/-- MATRIX_COMMAND_COMPLETION (R223): the running command completes; one whose links have not yet supplied its
strips takes those that have come (R229). A command whose parameter copy is refused pops none, and one that another operand
fails pops all K (log 88). -/
def execMatrixCommandCompletion (s : State) : Out :=
  let c := s.cur
  match (if s.me.takeover then [] else s.me.eng.mat) with
  | [] => .idle s
  | m :: rest =>
    if !m.started then .idle s else
    let ln := m.op.links
    let n := if m.bad.isSome || parBad m.par then 0 else pK m.par
    let p := pullStrips ln.1 ln.2 n (2 * n) s.me m
    let m := p.2
    if (ln.1.isSome && m.sa.length < n) || (ln.2.isSome && m.sb.length < n) then
      .next (s.putMe { p.1 with eng := { p.1.eng with mat := m :: rest } })
    else if s.matAway c m then .idle s
    else .next ((s.putMe p.1).completeMat c m rest)

end Sys2Proof.Machine
end

