-- ==== Sys2Proof/Machine/Transport.lean ====
section
/-! DEFINITION. The transport engine's steps (R336-R340): packets leave, arrive, are acknowledged and are sent
again. The fabric and the other nodes are outside: what they send arrives with the step. -/
namespace Sys2Proof.Machine

/-- The destination node. -/
def Xmsg.node (x : Xmsg) : Nat := fieldAt x.desc 0x1C 4 % 2 ^ 24
/-- The bytes of the packet at an offset. -/
def xSize (len off : Nat) : Nat := min 4096 (len - off)

/-- A translation of the hub dies for a command: the one it keeps, else a walk (R179). -/
def State.hubXlate (s : State) (part : Nat) (tlb : List Tlb) (va : Nat) : Option Leaf :=
  match tlbFind tlb part va with
  | some l => some l
  | none => match s.walk part va with | .ok l => some l | .error _ => none

/-- Pieces of a byte range that lie in one 64-byte line each, at most `fuel`. -/
def linePieces (va n : Nat) : Nat → List (Nat × Nat)
  | 0 => []
  | fuel + 1 =>
    if n = 0 then [] else
    let m := min n (64 - va % 64)
    (va, m) :: linePieces (va + m) (n - m) fuel

/-- The check of a piece that the transport engine reads or writes: window 0 of any scratchpad, or HBM (R338,
R339, R15). -/
def State.xPiece (s : State) (part : Nat) (user write : Bool) (tlb : List Tlb) (va n : Nat) : Except Cause (Nat × Leaf) :=
  match s.hubXlate part tlb va with
  | none => .error (s.noXlate part va)
  | some p =>
    if (user && !p.u) || (if write then !p.w else !p.r) then .error (if write then .protWrite else .protRead) else
    let dev := p.base + va % 2 ^ p.size
    let l := s.locate dev
    match l with
    | .nothing => .error .windowUndefined
    | .hbm => if !write && s.poisoned 0 l dev n then .error .spadUncorrectable else .ok (dev, p)
    | .pad _ _ w _ =>
      if w ≠ 0 || p.io then .error .copyPattern
      else if write && inMailbox 0 l n then .error .protWrite
      else if s.inReserve 0 l n then .error (if write then .protWrite else .protRead)
      else if !write && s.poisoned 0 l dev n then .error .spadUncorrectable
      else .ok (dev, p)
    | _ => .error .copyPattern

/-- Read the bytes of one packet: the translations it keeps and its payload, or the cause that fails the message. -/
def State.xRead (s : State) (x : Xmsg) : List Tlb → List (Nat × Nat) → Except Cause (List Tlb × List Byte)
  | tlb, [] => .ok (tlb, [])
  | tlb, (va, n) :: r => do
    let p ← s.xPiece x.part x.user false tlb va n
    let q ← s.xRead x (keepTlb tlb x.part va p.2) r
    .ok (q.1, s.bytesAt p.1 n ++ q.2)

/-- The pieces of the packet at an offset in the source region. -/
def Xmsg.pieces (x : Xmsg) (off : Nat) : List (Nat × Nat) :=
  linePieces (x.base + fieldAt x.desc 8 8 + off) (xSize x.len off) 66

/-- The offset names a packet of the message. -/
def Xmsg.packet (x : Xmsg) (off : Nat) : Bool := off % 4096 = 0 && decide (off < x.len)

/-- Change a node's congestion record (R340). -/
def State.onNode (s : State) (node : Nat) (f : Node → Node) : State :=
  { s with hub := { s.hub with nodes := FMap.upd Node.reset s.hub.nodes node f } }

/-- An acknowledgement reaches a node's record (R340): the packet is not in flight any more, and its mark stands among
those of the last 256. The window and the smoothed time are free values (log 4). -/
def Node.acked (n : Node) (marked : Bool) (free : Nat) : Node :=
  { queue := n.queue - 1, wnd := bits free 63 40, rtt := bits free 39 24, marks := (marked :: n.marks).take 256 }

/-- The packet of a message that left with an offset. -/
def Xmsg.sentAt (x : Xmsg) (off : Nat) : Bool := x.sent.any (·.off = off)

/-- Bytes of a message's packets. -/
def Xmsg.bytesOf (x : Xmsg) (offs : List Nat) : Nat := offs.foldl (fun n o => n + xSize x.len o) 0

/-- A send completes locally (R339, R348): LCNT receives LINC, with AGENT 5 in the error phase. -/
def State.xDone (s : State) (x : Xmsg) (bad : Option Cause) : State :=
  let s := { s with xmsgs := s.xmsgs.filter fun (y : Xmsg) => y.num ≠ x.num }
  let s := if x.uud || x.sent.isEmpty then s else s.onNode x.node fun n => { n with queue := n.queue - (x.sent.length - x.acked.length) }
  let done := x.bytesOf (if x.uud then x.sent.map (·.off) else x.acked)
  let err := if x.peng then none else bad
  let s := match x.cnt with
    | some (c, m) => s.applyPost ⟨agentOf x.core 5, c, m, fieldAt x.desc 0x28 4, err.map fun e => (e.code, 5, done)⟩
    | none => s
  if x.peng then s.updCore x.core fun k => k.engineDone x.inst bad 5 done else s

/-- A local completion waits while a spare takes over the core of its counter (R383). -/
def State.xEnd (s : State) (x : Xmsg) (bad : Option Cause) : Out := if s.cntAway x.cnt then .idle s else .next (s.xDone x bad)

/-- Replace a message. -/
def State.putXmsg (s : State) (x : Xmsg) : State :=
  { s with xmsgs := s.xmsgs.map fun (y : Xmsg) => if y.num = x.num then x else y }

/-- A message by its number. -/
def State.xmsg? (s : State) (n : Nat) : Option Xmsg := s.xmsgs.find? fun (x : Xmsg) => x.num = n

/-- TRANSPORT_PACKET_SEND (R339): operands a message's number and a packet's offset. The bytes are read and the
packet stands in its message, to leave with them and with the RHND, ROFF, LEN, RINC and RACT of the message's descriptor.
Once every packet of an UUD message has left, whatever the offset, the message completes, and so does one that has
failed. -/
def execTransportPacketSend (s : State) : Out :=
  let off := s.arg 1
  match s.xmsg? (s.arg 0) with
  | none => .idle s
  | some x =>
    match x.bad with
    | some e => s.xEnd x (some e)
    | none =>
      if x.uud && x.sent.length ≥ xPackets x.len then s.xEnd x none else
      if !x.packet off || x.sentAt off then .idle s else
      match s.xRead x x.tlb (x.pieces off) with
      | .error e => s.xEnd x (some e)
      | .ok (tlb, b) =>
        let x := { x with sent := x.sent ++ [⟨off, b, 0⟩], tlb := tlb }
        if !x.uud then .next ((s.putXmsg x).onNode x.node fun n => { n with queue := n.queue + 1 })
        else .next (s.putXmsg x)

/-- TRANSPORT_ACK (R339, R340): operands a message's number, a packet's offset, whether the receiver refused the
message, and whether the packet was ECN-marked. An RUD message completes when every packet has been acknowledged as landed. -/
def execTransportAck (s : State) : Out :=
  let off := s.arg 1
  match s.xmsg? (s.arg 0) with
  | none => .idle s
  | some x =>
    if x.bad.isSome then s.xEnd x x.bad
    else if s.arg 2 ≠ 0 then s.xEnd x (some .transportRemote)
    else if x.uud || !x.sentAt off || x.acked.contains off then .idle s
    else
      let x := { x with acked := x.acked ++ [off] }
      let s' := (s.next.putXmsg x).onNode x.node fun n => n.acked (s.arg 3 ≠ 0) (Config.congestion x.node s.fresh).toNat
      if x.acked.length < xPackets x.len then .next s'
      else if s.cntAway x.cnt then .idle s
      else .next (s'.xDone x none)

/-- TRANSPORT_RETRANSMIT (R339): operands a message's number, a packet's offset and whether a path remains. A
lost RUD packet is read and sent again; with no path within the retry limit the message fails. -/
def execTransportRetransmit (s : State) : Out :=
  let off := s.arg 1
  match s.xmsg? (s.arg 0) with
  | none => .idle s
  | some x =>
    if x.uud || !x.sentAt off || x.acked.contains off then .idle s
    else if x.bad.isSome then s.xEnd x x.bad
    else if s.arg 2 = 0 then s.xEnd x (some .linkDown)
    else
      match s.xRead x x.tlb (x.pieces off) with
      | .error e => s.xEnd x (some e)
      | .ok (tlb, b) => .next (s.putXmsg { x with
          tlb := tlb, sent := x.sent.map fun p => if p.off = off then { p with bytes := b, resent := p.resent + 1 } else p })

/-! ### Arrival -/

/-- The registration that admits a message (R337, R339): its core, its counter and its region. -/
def State.xAdmit (s : State) (part rhnd roff len : Nat) : Option (Nat × Nat × Region) :=
  match FMap.find? (s.part part).regs rhnd, s.region part rhnd with
  | some q, some r => if roff + len ≤ r.len && r.w && r.rem then some (q.1, q.2, r) else none
  | _, _ => none

/-- Place a payload in beats, each a committing write at the scope of its page (R339): the state, the translations
kept, and whether every beat could be written; those before one that may not be written stay (R179). -/
def State.xPlace (s : State) (core part : Nat) : List Tlb → List (Nat × Nat) → List Byte → State × List Tlb × Bool
  | tlb, [], _ => (s, tlb, true)
  | tlb, (va, n) :: r, b =>
    match s.xPiece part false true tlb va n with
    | .error _ => (s, tlb, false)
    | .ok p => (s.land core p.2.scope 3 0 (maskedBytes p.1 (b.take n))).xPlace core part (keepTlb tlb part va p.2) r (b.drop n)

/-- Change the record of an arriving message. -/
def State.putXin (s : State) (x : Xin) : State :=
  { s with xins := s.xins.filter (fun (y : Xin) => !(y.part = x.part && y.msg = x.msg)) ++ [x] }

/-- Every byte has landed (R339): the remote counter receives RINC, and then the notice goes to RACT. -/
def State.xLanded (s : State) (part core mb rhnd roff len rinc ract : Nat) : State :=
  let s := if rinc % 2 ^ 32 = 0 then s else s.applyPost ⟨agentOf core 5, core, mb, rinc % 2 ^ 32, none⟩
  if ract = 0 then s
  else s.sendPkt (Pkt.fromHub part ([2 ^ 56 + ract % 2 ^ 51, rhnd, roff, len].flatMap (leBytes 8)))

/-- TRANSPORT_PACKET_ARRIVAL (R339): operands a partition, the message's number at its sender, RHND, ROFF, the
packet's offset, LEN, RINC and RACT; the payload arrives with the step. A message that its registration does not
admit is refused, and nothing more of it is placed. -/
def execTransportPacketArrival (s : State) : Out :=
  let part := s.arg 0
  let msg := s.arg 1
  let rhnd := s.arg 2
  let roff := s.arg 3
  let off := s.arg 4
  let len := s.arg 5
  let x : Xin := match s.xins.find? fun (y : Xin) => y.part = part && y.msg = msg with
    | some y => y
    | none => ⟨part, msg, rhnd, [], false, []⟩
  if x.cut || x.rhnd ≠ rhnd || off % 4096 ≠ 0 || off ≥ len || s.payload.length ≠ xSize len off || x.landed.contains off then .idle s
  else
    match s.xAdmit part rhnd roff len with
    | none => .next (s.putXin { x with cut := true })
    | some (core, mb, r) =>
      let ps := linePieces (r.base + roff + off) (xSize len off) 66
      if (s.core core).takeover
          || s.away (ps.filterMap fun q => ((s.xPiece part false true x.tlb q.1 q.2).toOption.map (·.1))) then .idle s else
      let (s', tlb, whole) := s.xPlace core part x.tlb ps s.payload
      let x := { x with tlb := tlb }
      if !whole then .next (s'.putXin { x with cut := true })
      else
        let x := { x with landed := x.landed ++ [off] }
        if x.landed.length < xPackets len then .next (s'.putXin x)
        else .next ((s'.putXin { x with cut := true }).xLanded part core mb rhnd roff len (s.arg 6) (s.arg 7))

end Sys2Proof.Machine
end

