-- ==== Sys2Proof/Machine/Vector.lean ====
section
/-! DEFINITION. The vector unit (R154-R167) and GCOMP (R341, R350). -/
namespace Sys2Proof.Machine

/-- An instruction whose whole effect is one vector field's new value. -/
def setsV (i : Instr) (d : Reg) (x : VReg) (s : State) : Out := finish s (s.writeV (useOf i) d x)

/-- Lane by lane. -/
def lanes1 (f : Lane → Lane) (x : VReg) : VReg := x.map f
/-- Lane by lane, two operands. -/
def lanes2 (f : Lane → Lane → Lane) (x y : VReg) : VReg := Vector.zipWith f x y
/-- Lane by lane, three operands. -/
def lanes3 (f : Lane → Lane → Lane → Lane) (x y z : VReg) : VReg :=
  Vector.ofFn fun i => f x[i] y[i] z[i]
/-- A lane of a mask (R156). -/
def maskLane (b : Bool) : Lane := if b then 0xFFFFFFFF#32 else 0#32
/-- A lane by number modulo 16. -/
def laneAt (x : VReg) (n : Nat) : Lane := x[n % 16]'(Nat.mod_lt n (by decide))

/-- VPACK (R163): 16 elements of the format in bytes 0 to 2w - 1. -/
def packStrip (rm : Rm) (fmt : Nat) (x : VReg) : VReg :=
  if fmt = 0 then x
  else laneList (packElems (fmtWidth fmt) (x.toList.map fun l => encodeElem fmt rm (Num.ofBits l)))
/-- VUNPK (R163). -/
def unpackStrip (fmt : Nat) (x : VReg) : VReg :=
  Vector.ofFn fun i => (decodeElem fmt (packedElem (fmtWidth fmt) (stripNat x) i.val)).read32

/-- VRSUM (R166): one group, no running sum. -/
def sumLanes (x : VReg) : Lane := groupSum (x.toList.map Num.ofBits)
/-- VRMAX and VRMIN (R166), by the pairwise choice of R152. -/
def foldLanes (f : Lane → Lane → Lane) (x : VReg) : Lane := x.toList.tail.foldl f (laneAt x 0)

/-- VADD (R161). -/
def execVadd (d a b : Reg) (fwd : BitVec 1) (s : State) : Out :=
  setsV (.vadd d a b fwd) d (lanes2 (fadd s.rm) (s.vIn a) (s.vIn b)) s

/-- VSUB (R161). -/
def execVsub (d a b : Reg) (fwd : BitVec 1) (s : State) : Out :=
  setsV (.vsub d a b fwd) d (lanes2 (fsub s.rm) (s.vIn a) (s.vIn b)) s

/-- VMUL (R161). -/
def execVmul (d a b : Reg) (fwd : BitVec 1) (s : State) : Out :=
  setsV (.vmul d a b fwd) d (lanes2 (fmul s.rm) (s.vIn a) (s.vIn b)) s

/-- VMIN (R161). -/
def execVmin (d a b : Reg) (fwd : BitVec 1) (s : State) : Out :=
  setsV (.vmin d a b fwd) d (lanes2 fmin (s.vIn a) (s.vIn b)) s

/-- VMAX (R161). -/
def execVmax (d a b : Reg) (fwd : BitVec 1) (s : State) : Out :=
  setsV (.vmax d a b fwd) d (lanes2 fmax (s.vIn a) (s.vIn b)) s

/-- VAND (R161). -/
def execVand (d a b : Reg) (fwd : BitVec 1) (s : State) : Out :=
  setsV (.vand d a b fwd) d (lanes2 (· &&& ·) (s.vIn a) (s.vIn b)) s

/-- VOR (R161). -/
def execVor (d a b : Reg) (fwd : BitVec 1) (s : State) : Out :=
  setsV (.vor d a b fwd) d (lanes2 (· ||| ·) (s.vIn a) (s.vIn b)) s

/-- VXOR (R161). -/
def execVxor (d a b : Reg) (fwd : BitVec 1) (s : State) : Out :=
  setsV (.vxor d a b fwd) d (lanes2 (· ^^^ ·) (s.vIn a) (s.vIn b)) s

/-- VIADD (R161). -/
def execViadd (d a b : Reg) (fwd : BitVec 1) (s : State) : Out :=
  setsV (.viadd d a b fwd) d (lanes2 (· + ·) (s.vIn a) (s.vIn b)) s

/-- VISUB (R161). -/
def execVisub (d a b : Reg) (fwd : BitVec 1) (s : State) : Out :=
  setsV (.visub d a b fwd) d (lanes2 (· - ·) (s.vIn a) (s.vIn b)) s

/-- VIMUL (R161). -/
def execVimul (d a b : Reg) (fwd : BitVec 1) (s : State) : Out :=
  setsV (.vimul d a b fwd) d (lanes2 (· * ·) (s.vIn a) (s.vIn b)) s

/-- VCEQ (R161). -/
def execVceq (d a b : Reg) (fwd : BitVec 1) (s : State) : Out :=
  setsV (.vceq d a b fwd) d (lanes2 (fun x y => maskLane (feq x y)) (s.vIn a) (s.vIn b)) s

/-- VCLT (R161). -/
def execVclt (d a b : Reg) (fwd : BitVec 1) (s : State) : Out :=
  setsV (.vclt d a b fwd) d (lanes2 (fun x y => maskLane (flt x y)) (s.vIn a) (s.vIn b)) s

/-- VCLE (R161). -/
def execVcle (d a b : Reg) (fwd : BitVec 1) (s : State) : Out :=
  setsV (.vcle d a b fwd) d (lanes2 (fun x y => maskLane (fle x y)) (s.vIn a) (s.vIn b)) s

/-- VABS (R161). -/
def execVabs (d a : Reg) (fwd : BitVec 1) (s : State) : Out :=
  setsV (.vabs d a fwd) d (lanes1 fabsBits (s.vIn a)) s

/-- VNEG (R161). -/
def execVneg (d a : Reg) (fwd : BitVec 1) (s : State) : Out :=
  setsV (.vneg d a fwd) d (lanes1 fnegBits (s.vIn a)) s

/-- VFMA (R162). -/
def execVfma (d a b c : Reg) (fwd : BitVec 1) (s : State) : Out :=
  setsV (.vfma d a b c fwd) d (lanes3 (ffma s.rm false false) (s.vIn a) (s.vIn b) (s.vIn c)) s

/-- VFMS (R162). -/
def execVfms (d a b c : Reg) (fwd : BitVec 1) (s : State) : Out :=
  setsV (.vfms d a b c fwd) d (lanes3 (ffma s.rm false true) (s.vIn a) (s.vIn b) (s.vIn c)) s

/-- VFNMA (R162). -/
def execVfnma (d a b c : Reg) (fwd : BitVec 1) (s : State) : Out :=
  setsV (.vfnma d a b c fwd) d (lanes3 (ffma s.rm true true) (s.vIn a) (s.vIn b) (s.vIn c)) s

/-- VFNMS (R162). -/
def execVfnms (d a b c : Reg) (fwd : BitVec 1) (s : State) : Out :=
  setsV (.vfnms d a b c fwd) d (lanes3 (ffma s.rm true false) (s.vIn a) (s.vIn b) (s.vIn c)) s

/-- VSEL (R162). -/
def execVsel (d a b c : Reg) (fwd : BitVec 1) (s : State) : Out :=
  setsV (.vsel d a b c fwd) d (lanes3 (fun x y z => if z = 0 then y else x) (s.vIn a) (s.vIn b) (s.vIn c)) s

/-- VPACK (R163). -/
def execVpack (d a : Reg) (fmt : BitVec 5) (fwd : BitVec 1) (s : State) : Out :=
  setsV (.vpack d a fmt fwd) d (packStrip s.rm fmt.toNat (s.vIn a)) s

/-- VUNPK (R163). -/
def execVunpk (d a : Reg) (fmt : BitVec 5) (fwd : BitVec 1) (s : State) : Out :=
  setsV (.vunpk d a fmt fwd) d (unpackStrip fmt.toNat (s.vIn a)) s

/-- VITOF (R164). -/
def execVitof (d a : Reg) (fwd : BitVec 1) (s : State) : Out :=
  setsV (.vitof d a fwd) d (lanes1 (fun x => itof s.rm x.toInt) (s.vIn a)) s

/-- VFTOI (R164). -/
def execVftoi (d a : Reg) (fwd : BitVec 1) (s : State) : Out :=
  setsV (.vftoi d a fwd) d (lanes1 (fun x => BitVec.ofInt 32 (ftoi s.rm (-2 ^ 31) (2 ^ 31 - 1) x)) (s.vIn a)) s

/-- VPERM (R165). -/
def execVperm (d a b : Reg) (fwd : BitVec 1) (s : State) : Out :=
  setsV (.vperm d a b fwd) d (lanes1 (fun i => laneAt (s.vIn a) i.toNat) (s.vIn b)) s

/-- VROT (R165). -/
def execVrot (d a : Reg) (n : BitVec 5) (fwd : BitVec 1) (s : State) : Out :=
  setsV (.vrot d a n fwd) d (Vector.ofFn fun i => laneAt (s.vIn a) (i.val + n.toNat)) s

/-- VRSUM (R166). -/
def execVrsum (d a : Reg) (fwd : BitVec 1) (s : State) : Out :=
  setsG (.vrsum d a fwd) d (zext (sumLanes (s.vIn a))) s

/-- VRMAX (R166). -/
def execVrmax (d a : Reg) (fwd : BitVec 1) (s : State) : Out :=
  setsG (.vrmax d a fwd) d (zext (foldLanes fmax (s.vIn a))) s

/-- VRMIN (R166). -/
def execVrmin (d a : Reg) (fwd : BitVec 1) (s : State) : Out :=
  setsG (.vrmin d a fwd) d (zext (foldLanes fmin (s.vIn a))) s

/-- VRCPE (R167). -/
def execVrcpe (d a : Reg) (fwd : BitVec 1) (s : State) : Out :=
  setsV (.vrcpe d a fwd) d (lanes1 rcpe (s.vIn a)) s

/-- VRSQE (R167). -/
def execVrsqe (d a : Reg) (fwd : BitVec 1) (s : State) : Out :=
  setsV (.vrsqe d a fwd) d (lanes1 rsqe (s.vIn a)) s

/-- VBCAST (R165). -/
def execVbcast (d a : Reg) (s : State) : Out :=
  setsV (.vbcast d a) d (Vector.replicate 16 (s.fIn a)) s

/-- VINS (R165). -/
def execVins (d a : Reg) (n : BitVec 5) (s : State) : Out :=
  setsV (.vins d a n) d (Vector.ofFn fun i => if i.val = n.toNat then s.fIn a else (s.vIn d)[i]) s

/-- VEXT (R165). -/
def execVext (d a : Reg) (n : BitVec 5) (fwd : BitVec 1) (s : State) : Out :=
  setsG (.vext d a n fwd) d (zext (laneAt (s.vIn a) n.toNat)) s

/-- A value times 2^x. -/
def Num.shift (x : Int) : Num → Num
  | .fin n m e => .fin n m (e + x)
  | v => v

/-- A finite FP32 value. -/
def finiteLane (x : Lane) : Bool := match Num.ofBits x with | .fin _ _ _ => true | _ => false

/-- GCOMP (R341) on 32 values and their residuals: the 64 output bytes and the new residuals. -/
def gcompOf (g e : List Lane) : List Byte × List Lane :=
  let s := List.zipWith (fadd .rne) g e
  if s.any fun x => !finiteLane x then
    (rep 32 0#8 ++ [0xFF#8] ++ rep 31 0#8, s.map fun x => if finiteLane x then x else 0#32)
  else
    let x : Int := match maxExponent (s.map Num.ofBits) with
      | none => -127
      | some k => max (k - 8) (-127)
    let q := s.map fun v => encodeElem 3 .rne ((Num.ofBits v).shift (-x))
    let r := List.zipWith (fun v c => (Num.add .rne (Num.ofBits v) ((decodeElem 3 c).shift x).negate).toBits .rne) s q
    (q.map (BitVec.ofNat 8 ·) ++ [BitVec.ofInt 8 (x + 127)] ++ rep 31 0#8, r)

/-- GCOMP (R341, R350). -/
def execGcomp (d a b : Reg) (s : State) : Out :=
  let r := gcompOf ((s.vIn a).toList ++ (s.vIn (a + 1#5)).toList) ((s.vIn b).toList ++ (s.vIn (b + 1#5)).toList)
  finish s (s.doing (useOf (.gcomp d a b)) fun s =>
    .ok (((s.putV d (stripOf r.1)).putV b (stripLanes r.2)).putV (b + 1#5) (stripLanes (r.2.drop 16))))

end Sys2Proof.Machine
end

