-- ==== Sys2Proof/Machine/Dispatch.lean ====
section
/-! DEFINITION. The dispatcher: one arm for each constructor of Instr. -/
namespace Sys2Proof.Machine

/-- The meaning of an instruction or of a step of the device. -/
def exec (i : Instr) (s : State) : Host.Outcome State Fault Refusal :=
  match i with
  | .jal link off => Sys2Proof.Machine.execJal link off s
  | .j off => Sys2Proof.Machine.execJ off s
  | .beq a b off => Sys2Proof.Machine.execBeq a b off s
  | .bne a b off => Sys2Proof.Machine.execBne a b off s
  | .blt a b off => Sys2Proof.Machine.execBlt a b off s
  | .bge a b off => Sys2Proof.Machine.execBge a b off s
  | .bltu a b off => Sys2Proof.Machine.execBltu a b off s
  | .bgeu a b off => Sys2Proof.Machine.execBgeu a b off s
  | .jalr d a off => Sys2Proof.Machine.execJalr d a off s
  | .jr a off => Sys2Proof.Machine.execJr a off s
  | .loop d a off => Sys2Proof.Machine.execLoop d a off s
  | .ldB d a imm => Sys2Proof.Machine.execLdB d a imm s
  | .ldBu d a imm => Sys2Proof.Machine.execLdBu d a imm s
  | .ldH d a imm => Sys2Proof.Machine.execLdH d a imm s
  | .ldHu d a imm => Sys2Proof.Machine.execLdHu d a imm s
  | .ldW d a imm => Sys2Proof.Machine.execLdW d a imm s
  | .ldWu d a imm => Sys2Proof.Machine.execLdWu d a imm s
  | .ldD d a imm => Sys2Proof.Machine.execLdD d a imm s
  | .stB d a imm => Sys2Proof.Machine.execStB d a imm s
  | .stH d a imm => Sys2Proof.Machine.execStH d a imm s
  | .stW d a imm => Sys2Proof.Machine.execStW d a imm s
  | .stD d a imm => Sys2Proof.Machine.execStD d a imm s
  | .ldxB d a b => Sys2Proof.Machine.execLdxB d a b s
  | .ldxBu d a b => Sys2Proof.Machine.execLdxBu d a b s
  | .ldxH d a b => Sys2Proof.Machine.execLdxH d a b s
  | .ldxHu d a b => Sys2Proof.Machine.execLdxHu d a b s
  | .ldxW d a b => Sys2Proof.Machine.execLdxW d a b s
  | .ldxWu d a b => Sys2Proof.Machine.execLdxWu d a b s
  | .ldxD d a b => Sys2Proof.Machine.execLdxD d a b s
  | .stxB d a b => Sys2Proof.Machine.execStxB d a b s
  | .stxH d a b => Sys2Proof.Machine.execStxH d a b s
  | .stxW d a b => Sys2Proof.Machine.execStxW d a b s
  | .stxD d a b => Sys2Proof.Machine.execStxD d a b s
  | .vld d a imm => Sys2Proof.Machine.execVld d a imm s
  | .vst d a imm => Sys2Proof.Machine.execVst d a imm s
  | .vldt d a imm => Sys2Proof.Machine.execVldt d a imm s
  | .tmov d a b => Sys2Proof.Machine.execTmov d a b s
  | .amoadd d a b far w64 => Sys2Proof.Machine.execAmoadd d a b far w64 s
  | .amofadd d a b far => Sys2Proof.Machine.execAmofadd d a b far s
  | .amoswp d a b far w64 => Sys2Proof.Machine.execAmoswp d a b far w64 s
  | .amocas d a b c far w64 => Sys2Proof.Machine.execAmocas d a b c far w64 s
  | .amomin d a b far w64 => Sys2Proof.Machine.execAmomin d a b far w64 s
  | .amomax d a b far w64 => Sys2Proof.Machine.execAmomax d a b far w64 s
  | .fence cls => Sys2Proof.Machine.execFence cls s
  | .mbinc b n => Sys2Proof.Machine.execMbinc b n s
  | .mbincImm imm n => Sys2Proof.Machine.execMbincImm imm n s
  | .mbincGlobal a b => Sys2Proof.Machine.execMbincGlobal a b s
  | .mbincGlobalImm a imm => Sys2Proof.Machine.execMbincGlobalImm a imm s
  | .mbwait d a n => Sys2Proof.Machine.execMbwait d a n s
  | .mbrd d n => Sys2Proof.Machine.execMbrd d n s
  | .mbset a n => Sys2Proof.Machine.execMbset a n s
  | .mberr d n => Sys2Proof.Machine.execMberr d n s
  | .mberrC d n => Sys2Proof.Machine.execMberrC d n s
  | .barInit a b => Sys2Proof.Machine.execBarInit a b s
  | .barArv d a b => Sys2Proof.Machine.execBarArv d a b s
  | .barDrop d a b => Sys2Proof.Machine.execBarDrop d a b s
  | .barWait d a b => Sys2Proof.Machine.execBarWait d a b s
  | .cpy d a ch => Sys2Proof.Machine.execCpy d a ch s
  | .cpy3 d a ch => Sys2Proof.Machine.execCpy3 d a ch s
  | .cwait d a ch => Sys2Proof.Machine.execCwait d a ch s
  | .cstat d ch => Sys2Proof.Machine.execCstat d ch s
  | .cstatC d ch => Sys2Proof.Machine.execCstatC d ch s
  | .perm d a => Sys2Proof.Machine.execPerm d a s
  | .rkset k a => Sys2Proof.Machine.execRkset k a s
  | .rkwf k n => Sys2Proof.Machine.execRkwf k n s
  | .rkws k n => Sys2Proof.Machine.execRkws k n s
  | .rkadv k n w => Sys2Proof.Machine.execRkadv k n w s
  | .rkrd d k sel => Sys2Proof.Machine.execRkrd d k sel s
  | .stbind t a vec => Sys2Proof.Machine.execStbind t a vec s
  | .stunb t vec => Sys2Proof.Machine.execStunb t vec s
  | .park a => Sys2Proof.Machine.execPark a s
  | .unpark a => Sys2Proof.Machine.execUnpark a s
  | .mzero d => Sys2Proof.Machine.execMzero d s
  | .mown d a => Sys2Proof.Machine.execMown d a s
  | .mfree a => Sys2Proof.Machine.execMfree a s
  | .mma d a b => Sys2Proof.Machine.execMma d a b s
  | .mmar d a b => Sys2Proof.Machine.execMmar d a b s
  | .mmarAk d a b => Sys2Proof.Machine.execMmarAk d a b s
  | .mmag d a b c => Sys2Proof.Machine.execMmag d a b c s
  | .mldc d a => Sys2Proof.Machine.execMldc d a s
  | .mdrain sl a => Sys2Proof.Machine.execMdrain sl a s
  | .mdrainReg sl d n => Sys2Proof.Machine.execMdrainReg sl d n s
  | .mpar d a => Sys2Proof.Machine.execMpar d a s
  | .msave sl a => Sys2Proof.Machine.execMsave sl a s
  | .mrest d a => Sys2Proof.Machine.execMrest d a s
  | .mstat d sl => Sys2Proof.Machine.execMstat d sl s
  | .mstatC d sl => Sys2Proof.Machine.execMstatC d sl s
  | .mwait d a => Sys2Proof.Machine.execMwait d a s
  | .gauge a n sel => Sys2Proof.Machine.execGauge a n sel s
  | .kmma d a m => Sys2Proof.Machine.execKmma d a m s
  | .kvar d sl => Sys2Proof.Machine.execKvar d sl s
  | .kstat d sl => Sys2Proof.Machine.execKstat d sl s
  | .seedw n a => Sys2Proof.Machine.execSeedw n a s
  | .seedr d n => Sys2Proof.Machine.execSeedr d n s
  | .mqdef d a => Sys2Proof.Machine.execMqdef d a s
  | .mqld d a c b => Sys2Proof.Machine.execMqld d a c b s
  | .mqsc d a c b => Sys2Proof.Machine.execMqsc d a c b s
  | .mqz a b => Sys2Proof.Machine.execMqz a b s
  | .mqstat d a b => Sys2Proof.Machine.execMqstat d a b s
  | .send a oport eret eport => Sys2Proof.Machine.execSend a oport eret eport s
  | .sendp a b c oport => Sys2Proof.Machine.execSendp a b c oport s
  | .hop a b => Sys2Proof.Machine.execHop a b s
  | .kilnrd d sel => Sys2Proof.Machine.execKilnrd d sel s
  | .launch a b => Sys2Proof.Machine.execLaunch a b s
  | .launchi a b c => Sys2Proof.Machine.execLaunchi a b c s
  | .actnew d a => Sys2Proof.Machine.execActnew d a s
  | .lchstat d a => Sys2Proof.Machine.execLchstat d a s
  | .rkpred k a => Sys2Proof.Machine.execRkpred k a s
  | .dfit k a => Sys2Proof.Machine.execDfit k a s
  | .dftol k a => Sys2Proof.Machine.execDftol k a s
  | .dfstat d k => Sys2Proof.Machine.execDfstat d k s
  | .ordt a => Sys2Proof.Machine.execOrdt a s
  | .ordtReadNext d => Sys2Proof.Machine.execOrdtReadNext d s
  | .ordtSetNext a => Sys2Proof.Machine.execOrdtSetNext a s
  | .ordtReadT d => Sys2Proof.Machine.execOrdtReadT d s
  | .ordsend a b oport => Sys2Proof.Machine.execOrdsend a b oport s
  | .dvcfg d a grp => Sys2Proof.Machine.execDvcfg d a grp s
  | .dvinj d a => Sys2Proof.Machine.execDvinj d a s
  | .dvext d => Sys2Proof.Machine.execDvext d s
  | .dvstat d grp => Sys2Proof.Machine.execDvstat d grp s
  | .dvstatC d grp => Sys2Proof.Machine.execDvstatC d grp s
  | .xpost d a n => Sys2Proof.Machine.execXpost d a n s
  | .xsend d a => Sys2Proof.Machine.execXsend d a s
  | .xcc d a => Sys2Proof.Machine.execXcc d a s
  | .trap imm => Sys2Proof.Machine.execTrap imm s
  | .brk imm => Sys2Proof.Machine.execBrk imm s
  | .wfi d a => Sys2Proof.Machine.execWfi d a s
  | .csrrd g csr => Sys2Proof.Machine.execCsrrd g csr s
  | .csrwr g csr => Sys2Proof.Machine.execCsrwr g csr s
  | .csrsw g csr => Sys2Proof.Machine.execCsrsw g csr s
  | .ctxsave d a b => Sys2Proof.Machine.execCtxsave d a b s
  | .ctxrest d a b => Sys2Proof.Machine.execCtxrest d a b s
  | .ctxrestAny d a b => Sys2Proof.Machine.execCtxrestAny d a b s
  | .watch d a b => Sys2Proof.Machine.execWatch d a b s
  | .winset d a b => Sys2Proof.Machine.execWinset d a b s
  | .winsetRead d a => Sys2Proof.Machine.execWinsetRead d a s
  | .probe d a => Sys2Proof.Machine.execProbe d a s
  | .tlbi a sel => Sys2Proof.Machine.execTlbi a sel s
  | .hnew d a b => Sys2Proof.Machine.execHnew d a b s
  | .hrev d a => Sys2Proof.Machine.execHrev d a s
  | .hchk d a => Sys2Proof.Machine.execHchk d a s
  | .add d a b => Sys2Proof.Machine.execAdd d a b s
  | .sub d a b => Sys2Proof.Machine.execSub d a b s
  | .and d a b => Sys2Proof.Machine.execAnd d a b s
  | .or d a b => Sys2Proof.Machine.execOr d a b s
  | .xor d a b => Sys2Proof.Machine.execXor d a b s
  | .sll d a b => Sys2Proof.Machine.execSll d a b s
  | .srl d a b => Sys2Proof.Machine.execSrl d a b s
  | .sra d a b => Sys2Proof.Machine.execSra d a b s
  | .slt d a b => Sys2Proof.Machine.execSlt d a b s
  | .sltu d a b => Sys2Proof.Machine.execSltu d a b s
  | .mul d a b => Sys2Proof.Machine.execMul d a b s
  | .mulh d a b => Sys2Proof.Machine.execMulh d a b s
  | .mulhu d a b => Sys2Proof.Machine.execMulhu d a b s
  | .div d a b => Sys2Proof.Machine.execDiv d a b s
  | .divu d a b => Sys2Proof.Machine.execDivu d a b s
  | .rem d a b => Sys2Proof.Machine.execRem d a b s
  | .remu d a b => Sys2Proof.Machine.execRemu d a b s
  | .min d a b => Sys2Proof.Machine.execMin d a b s
  | .max d a b => Sys2Proof.Machine.execMax d a b s
  | .minu d a b => Sys2Proof.Machine.execMinu d a b s
  | .maxu d a b => Sys2Proof.Machine.execMaxu d a b s
  | .clz d a => Sys2Proof.Machine.execClz d a s
  | .ctz d a => Sys2Proof.Machine.execCtz d a s
  | .popc d a => Sys2Proof.Machine.execPopc d a s
  | .andn d a b => Sys2Proof.Machine.execAndn d a b s
  | .addi d a imm => Sys2Proof.Machine.execAddi d a imm s
  | .andi d a imm => Sys2Proof.Machine.execAndi d a imm s
  | .ori d a imm => Sys2Proof.Machine.execOri d a imm s
  | .xori d a imm => Sys2Proof.Machine.execXori d a imm s
  | .slli d a sh => Sys2Proof.Machine.execSlli d a sh s
  | .srli d a sh => Sys2Proof.Machine.execSrli d a sh s
  | .srai d a sh => Sys2Proof.Machine.execSrai d a sh s
  | .slti d a imm => Sys2Proof.Machine.execSlti d a imm s
  | .sltiu d a imm => Sys2Proof.Machine.execSltiu d a imm s
  | .li d imm => Sys2Proof.Machine.execLi d imm s
  | .lih d imm => Sys2Proof.Machine.execLih d imm s
  | .lea d a b sh => Sys2Proof.Machine.execLea d a b sh s
  | .bfx d a pos len => Sys2Proof.Machine.execBfx d a pos len s
  | .bfxu d a pos len => Sys2Proof.Machine.execBfxu d a pos len s
  | .bfi d a pos len => Sys2Proof.Machine.execBfi d a pos len s
  | .sel d a b c => Sys2Proof.Machine.execSel d a b c s
  | .fadd d a b => Sys2Proof.Machine.execFadd d a b s
  | .fsub d a b => Sys2Proof.Machine.execFsub d a b s
  | .fmul d a b => Sys2Proof.Machine.execFmul d a b s
  | .fdiv d a b => Sys2Proof.Machine.execFdiv d a b s
  | .fsqrt d a => Sys2Proof.Machine.execFsqrt d a s
  | .fmin d a b => Sys2Proof.Machine.execFmin d a b s
  | .fmax d a b => Sys2Proof.Machine.execFmax d a b s
  | .feq d a b => Sys2Proof.Machine.execFeq d a b s
  | .flt d a b => Sys2Proof.Machine.execFlt d a b s
  | .fle d a b => Sys2Proof.Machine.execFle d a b s
  | .fabs d a => Sys2Proof.Machine.execFabs d a s
  | .fneg d a => Sys2Proof.Machine.execFneg d a s
  | .ftoi d a => Sys2Proof.Machine.execFtoi d a s
  | .ftoiu d a => Sys2Proof.Machine.execFtoiu d a s
  | .itof d a => Sys2Proof.Machine.execItof d a s
  | .itofu d a => Sys2Proof.Machine.execItofu d a s
  | .fclass d a => Sys2Proof.Machine.execFclass d a s
  | .fmadd d a b c => Sys2Proof.Machine.execFmadd d a b c s
  | .fmsub d a b c => Sys2Proof.Machine.execFmsub d a b c s
  | .fnmadd d a b c => Sys2Proof.Machine.execFnmadd d a b c s
  | .fnmsub d a b c => Sys2Proof.Machine.execFnmsub d a b c s
  | .vadd d a b fwd => Sys2Proof.Machine.execVadd d a b fwd s
  | .vsub d a b fwd => Sys2Proof.Machine.execVsub d a b fwd s
  | .vmul d a b fwd => Sys2Proof.Machine.execVmul d a b fwd s
  | .vmin d a b fwd => Sys2Proof.Machine.execVmin d a b fwd s
  | .vmax d a b fwd => Sys2Proof.Machine.execVmax d a b fwd s
  | .vabs d a fwd => Sys2Proof.Machine.execVabs d a fwd s
  | .vneg d a fwd => Sys2Proof.Machine.execVneg d a fwd s
  | .vand d a b fwd => Sys2Proof.Machine.execVand d a b fwd s
  | .vor d a b fwd => Sys2Proof.Machine.execVor d a b fwd s
  | .vxor d a b fwd => Sys2Proof.Machine.execVxor d a b fwd s
  | .viadd d a b fwd => Sys2Proof.Machine.execViadd d a b fwd s
  | .visub d a b fwd => Sys2Proof.Machine.execVisub d a b fwd s
  | .vimul d a b fwd => Sys2Proof.Machine.execVimul d a b fwd s
  | .vceq d a b fwd => Sys2Proof.Machine.execVceq d a b fwd s
  | .vclt d a b fwd => Sys2Proof.Machine.execVclt d a b fwd s
  | .vcle d a b fwd => Sys2Proof.Machine.execVcle d a b fwd s
  | .vfma d a b c fwd => Sys2Proof.Machine.execVfma d a b c fwd s
  | .vfms d a b c fwd => Sys2Proof.Machine.execVfms d a b c fwd s
  | .vfnma d a b c fwd => Sys2Proof.Machine.execVfnma d a b c fwd s
  | .vfnms d a b c fwd => Sys2Proof.Machine.execVfnms d a b c fwd s
  | .vsel d a b c fwd => Sys2Proof.Machine.execVsel d a b c fwd s
  | .vpack d a fmt fwd => Sys2Proof.Machine.execVpack d a fmt fwd s
  | .vunpk d a fmt fwd => Sys2Proof.Machine.execVunpk d a fmt fwd s
  | .vitof d a fwd => Sys2Proof.Machine.execVitof d a fwd s
  | .vftoi d a fwd => Sys2Proof.Machine.execVftoi d a fwd s
  | .vperm d a b fwd => Sys2Proof.Machine.execVperm d a b fwd s
  | .vrot d a n fwd => Sys2Proof.Machine.execVrot d a n fwd s
  | .vrsum d a fwd => Sys2Proof.Machine.execVrsum d a fwd s
  | .vrmax d a fwd => Sys2Proof.Machine.execVrmax d a fwd s
  | .vrmin d a fwd => Sys2Proof.Machine.execVrmin d a fwd s
  | .vrcpe d a fwd => Sys2Proof.Machine.execVrcpe d a fwd s
  | .vrsqe d a fwd => Sys2Proof.Machine.execVrsqe d a fwd s
  | .vbcast d a => Sys2Proof.Machine.execVbcast d a s
  | .vins d a n => Sys2Proof.Machine.execVins d a n s
  | .vext d a n fwd => Sys2Proof.Machine.execVext d a n fwd s
  | .gcomp d a b => Sys2Proof.Machine.execGcomp d a b s
  | .chend => Sys2Proof.Machine.execChend s
  | .done => Sys2Proof.Machine.execDone s
  | .maskon => Sys2Proof.Machine.execMaskon s
  | .maskoff => Sys2Proof.Machine.execMaskoff s
  | .step => Sys2Proof.Machine.execStep s
  | .actend => Sys2Proof.Machine.execActend s
  | .xret => Sys2Proof.Machine.execXret s
  | .xretK => Sys2Proof.Machine.execXretK s
  | .messageDelivery => Sys2Proof.Machine.execMessageDelivery s
  | .overflowRingRetry => Sys2Proof.Machine.execOverflowRingRetry s
  | .overflowRingDelivery => Sys2Proof.Machine.execOverflowRingDelivery s
  | .creditReturn => Sys2Proof.Machine.execCreditReturn s
  | .issueChoice => Sys2Proof.Machine.execIssueChoice s
  | .preEmption => Sys2Proof.Machine.execPreEmption s
  | .chunkCommit => Sys2Proof.Machine.execChunkCommit s
  | .arbiterTokenGrant => Sys2Proof.Machine.execArbiterTokenGrant s
  | .pkt => Sys2Proof.Machine.execPkt s
  | .errstat => Sys2Proof.Machine.execErrstat s
  | .launchRequest => Sys2Proof.Machine.execLaunchRequest s
  | .indirectLaunch => Sys2Proof.Machine.execIndirectLaunch s
  | .indirectLaunchEligible => Sys2Proof.Machine.execIndirectLaunchEligible s
  | .endRequest => Sys2Proof.Machine.execEndRequest s
  | .waitingLaunchProceeds => Sys2Proof.Machine.execWaitingLaunchProceeds s
  | .launchEnd => Sys2Proof.Machine.execLaunchEnd s
  | .stepAdvance => Sys2Proof.Machine.execStepAdvance s
  | .dieSetChange => Sys2Proof.Machine.execDieSetChange s
  | .placementRun => Sys2Proof.Machine.execPlacementRun s
  | .kilnReplenishment => Sys2Proof.Machine.execKilnReplenishment s
  | .kilnDraw => Sys2Proof.Machine.execKilnDraw s
  | .macCountDraw => Sys2Proof.Machine.execMacCountDraw s
  | .agingLimit => Sys2Proof.Machine.execAgingLimit s
  | .thermalLimit => Sys2Proof.Machine.execThermalLimit s
  | .thermalLimitClear => Sys2Proof.Machine.execThermalLimitClear s
  | .migrationQuiesce => Sys2Proof.Machine.execMigrationQuiesce s
  | .migrationStream => Sys2Proof.Machine.execMigrationStream s
  | .migrationSwitch => Sys2Proof.Machine.execMigrationSwitch s
  | .placementTableRewrite => Sys2Proof.Machine.execPlacementTableRewrite s
  | .drainMarker => Sys2Proof.Machine.execDrainMarker s
  | .drainMessage => Sys2Proof.Machine.execDrainMessage s
  | .icacheFill => Sys2Proof.Machine.execIcacheFill s
  | .streamRefill => Sys2Proof.Machine.execStreamRefill s
  | .pageWalk => Sys2Proof.Machine.execPageWalk s
  | .copyStart => Sys2Proof.Machine.execCopyStart s
  | .copyRackReserve => Sys2Proof.Machine.execCopyRackReserve s
  | .copyBeat => Sys2Proof.Machine.execCopyBeat s
  | .copyCompletion => Sys2Proof.Machine.execCopyCompletion s
  | .counterIncrement => Sys2Proof.Machine.execCounterIncrement s
  | .matrixCommandStart => Sys2Proof.Machine.execMatrixCommandStart s
  | .matrixCommandCompletion => Sys2Proof.Machine.execMatrixCommandCompletion s
  | .marquetryAdd => Sys2Proof.Machine.execMarquetryAdd s
  | .mqzBeat => Sys2Proof.Machine.execMqzBeat s
  | .marquetryCompletion => Sys2Proof.Machine.execMarquetryCompletion s
  | .farAtomic => Sys2Proof.Machine.execFarAtomic s
  | .farAtomicReply => Sys2Proof.Machine.execFarAtomicReply s
  | .barrierRequest => Sys2Proof.Machine.execBarrierRequest s
  | .barrierReply => Sys2Proof.Machine.execBarrierReply s
  | .toleranceCompare => Sys2Proof.Machine.execToleranceCompare s
  | .glueUp => Sys2Proof.Machine.execGlueUp s
  | .dovetailCombine => Sys2Proof.Machine.execDovetailCombine s
  | .dovetailCompletion => Sys2Proof.Machine.execDovetailCompletion s
  | .transportPacketSend => Sys2Proof.Machine.execTransportPacketSend s
  | .transportPacketArrival => Sys2Proof.Machine.execTransportPacketArrival s
  | .transportAck => Sys2Proof.Machine.execTransportAck s
  | .transportRetransmit => Sys2Proof.Machine.execTransportRetransmit s
  | .preciseTrap => Sys2Proof.Machine.execPreciseTrap s
  | .wfiDeadline => Sys2Proof.Machine.execWfiDeadline s
  | .softErrorRepair => Sys2Proof.Machine.execSoftErrorRepair s
  | .scrub => Sys2Proof.Machine.execScrub s
  | .unitDraining => Sys2Proof.Machine.execUnitDraining s
  | .unitRetire => Sys2Proof.Machine.execUnitRetire s
  | .spareTakeoverComplete => Sys2Proof.Machine.execSpareTakeoverComplete s
  | .pseudoChannelRetire => Sys2Proof.Machine.execPseudoChannelRetire s
  | .pseudoChannelRedirect => Sys2Proof.Machine.execPseudoChannelRedirect s
  | .laneFailure => Sys2Proof.Machine.execLaneFailure s
  | .hubFailover => Sys2Proof.Machine.execHubFailover s
  | .regulatorPhaseLoss => Sys2Proof.Machine.execRegulatorPhaseLoss s
  | .configRecordWrite => Sys2Proof.Machine.execConfigRecordWrite s
  | .unitRetirementRequest => Sys2Proof.Machine.execUnitRetirementRequest s
  | .configErrorClear => Sys2Proof.Machine.execConfigErrorClear s
  | .firmwareUpdate => Sys2Proof.Machine.execFirmwareUpdate s
  | .getVersion => Sys2Proof.Machine.execGetVersion s
  | .getCapabilities => Sys2Proof.Machine.execGetCapabilities s
  | .negotiateAlgorithms => Sys2Proof.Machine.execNegotiateAlgorithms s
  | .getDigests => Sys2Proof.Machine.execGetDigests s
  | .getCertificate => Sys2Proof.Machine.execGetCertificate s
  | .challenge => Sys2Proof.Machine.execChallenge s
  | .getMeasurements => Sys2Proof.Machine.execGetMeasurements s
  | .powerGood => Sys2Proof.Machine.execPowerGood s
  | .hubDieHandback => Sys2Proof.Machine.execHubDieHandback s
  | .hubLinksRestored => Sys2Proof.Machine.execHubLinksRestored s

end Sys2Proof.Machine
end

