-- ==== Sys2Proof/Machine/Issue.lean ====
section
/-! DEFINITION. Fetch and issue (R42-R46, R51, R52, R112, R119-R123, R287, R292): one turn of a core. -/
namespace Sys2Proof.Machine

/-! ### Units (R42-R44, R51) -/

/-- The constructor is a step of the device, not an instruction word. -/
def deviceStep : Instr → Bool
  | .messageDelivery => true
  | .overflowRingRetry => true
  | .overflowRingDelivery => true
  | .creditReturn => true
  | .issueChoice => true
  | .preEmption => true
  | .chunkCommit => true
  | .arbiterTokenGrant => true
  | .pkt => true
  | .errstat => true
  | .launchRequest => true
  | .indirectLaunch => true
  | .indirectLaunchEligible => true
  | .endRequest => true
  | .waitingLaunchProceeds => true
  | .launchEnd => true
  | .stepAdvance => true
  | .dieSetChange => true
  | .placementRun => true
  | .kilnReplenishment => true
  | .kilnDraw => true
  | .macCountDraw => true
  | .agingLimit => true
  | .thermalLimit => true
  | .thermalLimitClear => true
  | .migrationQuiesce => true
  | .migrationStream => true
  | .migrationSwitch => true
  | .placementTableRewrite => true
  | .drainMarker => true
  | .drainMessage => true
  | .icacheFill => true
  | .streamRefill => true
  | .pageWalk => true
  | .copyStart => true
  | .copyRackReserve => true
  | .copyBeat => true
  | .copyCompletion => true
  | .counterIncrement => true
  | .matrixCommandStart => true
  | .matrixCommandCompletion => true
  | .marquetryAdd => true
  | .mqzBeat => true
  | .marquetryCompletion => true
  | .farAtomic => true
  | .farAtomicReply => true
  | .barrierRequest => true
  | .barrierReply => true
  | .toleranceCompare => true
  | .glueUp => true
  | .dovetailCombine => true
  | .dovetailCompletion => true
  | .transportPacketSend => true
  | .transportPacketArrival => true
  | .transportAck => true
  | .transportRetransmit => true
  | .preciseTrap => true
  | .wfiDeadline => true
  | .softErrorRepair => true
  | .scrub => true
  | .unitDraining => true
  | .unitRetire => true
  | .spareTakeoverComplete => true
  | .pseudoChannelRetire => true
  | .pseudoChannelRedirect => true
  | .laneFailure => true
  | .hubFailover => true
  | .regulatorPhaseLoss => true
  | .configRecordWrite => true
  | .unitRetirementRequest => true
  | .configErrorClear => true
  | .firmwareUpdate => true
  | .getVersion => true
  | .getCapabilities => true
  | .negotiateAlgorithms => true
  | .getDigests => true
  | .getCertificate => true
  | .challenge => true
  | .getMeasurements => true
  | .powerGood => true
  | .hubDieHandback => true
  | .hubLinksRestored => true
  | _ => false

/-- What an instruction's word needs that a memory core lacks (R170): links. -/
def usesLink (i : Instr) : Bool :=
  ((useOf i).rv ++ (useOf i).wv ++ (useOf i).late).any fun r => r = 16#5 || r = 17#5

/-- A word that is ILLEGAL_OP on a memory core: majors 0x0F, 0x10, 0x11 and 0x14, and link fields, whatever its reserved
fields hold (R51, R170). -/
def memIllegal (w : BitVec 32) : Bool :=
  [0x0F, 0x10, 0x11, 0x14].contains (fMaj w).toNat ||
    (match decodeWord w with
     | .ok i => usesLink i
     | .error (.reservedBits i) => usesLink i
     | .error .illegalOp => false)

/-- Step 1 of R51 for one word. -/
def State.illegalWord (s : State) (w : BitVec 32) : Bool :=
  decodeWord w = .error .illegalOp || (isMemCore s.cur && memIllegal w)

/-- Step 2 of R51: a reserved field, or bit 31 of a second word. -/
def reservedWord (w : BitVec 32) (second : Bool) : Bool :=
  isReserved (decodeWord w) || (second && w.getLsbD 31)

/-- Instructions that are always lone (R44). -/
def alwaysLone : Instr → Bool
  | .trap _ | .xret | .xretK | .brk _ | .wfi _ _ | .ctxsave _ _ _ | .ctxrest _ _ _ | .ctxrestAny _ _ _ | .done
  | .hop _ _ | .maskon | .maskoff | .step => true
  | _ => false

/-- Keys of the links an instruction pops, and of those it pushes by forwarding: 48 for lw, 49 for le. -/
def linkKeys (i : Instr) : List Nat :=
  let u := useOf i
  let pops := (u.rv ++ u.late).filter fun r => r = 16#5 || r = 17#5
  (pops.map fun r => 32 + r.toNat) ++
    (if u.fwd then pops.map fun r => if r = 16#5 then 49 else 48 else [])

/-- Registers an instruction writes, for the check of pairs: numbers, plus 32 for vector registers. Pops of links
and of stream-bound registers count (R44). -/
def State.pairWrites (s : State) (i : Instr) : List Nat :=
  let u := useOf i
  keysOf (u.wg.filter (· ≠ 0#5)) u.wv ++ linkKeys i ++ (keysOf u.rg u.rv).filter fun k => (s.t.bound k).isSome

/-- A pair that R44 refuses. -/
def State.badPair (s : State) (w1 w2 : BitVec 32) : Bool :=
  classA w1 || !classA w2 ||
  match decodeWord w1, decodeWord w2 with
  | .ok c, .ok a => alwaysLone c || (s.pairWrites c).any (s.pairWrites a).contains
  | _, _ => true

/-! ### After an instruction -/

/-- Once an instruction is over, the chunk that it opened goes back no further than to the instruction after it (R182,
R371, R372, R374, R375; log 19). -/
def Core.passAfter (k : Core) : Core :=
  { k with chunk := k.chunk.map fun (ch : Chunk) => if ch.after then { ch with ckpt := k.t, after := false } else ch }

/-- The stores of the core to the I/O region are performed, in order, in the step of their chunk's commit (R182). -/
def State.performIo (s : State) : State :=
  (s.iow.filter fun (w : IoWrite) => w.core = s.cur).foldl (fun (s : State) w =>
      s.writeIo w.part (w.addr - 0x500000000000) w.bytes)
    { s with iow := s.iow.filter fun (w : IoWrite) => w.core ≠ s.cur }

/-- The chunk of an I/O access commits in the step that executes it (R182). -/
def State.commitIo (s : State) : State :=
  if s.me.chunk.any (·.now) then (s.commit s.cur).performIo else s

/-- An instruction, or a pair, has executed or stayed. `n` counts it, `open'` says whether a masked window was open
before it, `keepSkip` that it sets itself whether the next one is matched. -/
def State.finishTurn (s : State) (n : Nat) (open' keepSkip : Bool) : State :=
  if s.me.stayed then s.endStay else
  let s := s.updMe fun k =>
    { k with second := false, chunk := k.chunk.map fun ch => { ch with cnt := ch.cnt + n } }
  let s := s.updT fun t =>
    let t := t.updFir fun f => { f with pc := t.npc, ran := f.ran + n }
    { t with maskCnt := if open' && t.maskOpen then t.maskCnt + n else t.maskCnt }.setSkips (keepSkip && t.skips)
  let s := (s.updMe Core.passAfter).settle.commitIo
  match s.me.solo, s.me.chunk with
  | some so, some ch => s.updMe fun k => { k with solo := some { so with last := ch.sealed }, chunk := some { ch with sealed := true } }
  | some _, none => s.leaveSolo s.cur
  | none, _ => s

/-- The end of a turn. -/
def State.endTurn (s : State) (n : Nat) (keepSkip : Bool) (o : Out) : Out :=
  match o with
  | .next s' => .next (s'.finishTurn n s.t.maskOpen keepSkip)
  | .fault f => .fault f
  | .refused r => .refused r

/-- The instruction sets whether the next one is matched (R366). -/
def setsSkip : Instr → Bool
  | .xret => true
  | _ => false

/-- What runs before an instruction or a pair: its chunk opens, and R45 gives what follows it. -/
def State.openFor (s : State) (bytes : Nat) : State :=
  (s.withChunk id).updT fun t => { t with npc := t.pc + word bytes }

/-- A lone instruction (R42). -/
def State.runLone (s : State) (i : Instr) : Out :=
  let s := s.openFor 4
  s.endTurn 1 (setsSkip i) (exec i s)

/-- The state in which the second member executes: it reads every register as it stood before the pair (R43). -/
def State.forSecond (c : State) (old : CoreT) : State :=
  (c.updT fun t => { t with gp := old.gp, gs := old.gs, v := old.v, sd := old.sd, tr0 := old.tr0, tr1 := old.tr1,
                            streams := old.streams, park := old.park }).updMe
    fun k => { k with second := true }

/-- A table after both members: each entry that the first one changed is as it left it. -/
def mergeMap {V : Type} [DecidableEq V] (old c a : FMap V) : FMap V :=
  ((old ++ c).map (·.1)).dedup.foldl (fun m k =>
    if FMap.find? c k = FMap.find? old k then m else
    match FMap.find? c k with
    | some v => FMap.put m k v
    | none => FMap.del m k) a

/-- The tentative part after both members. -/
def CoreT.joinPair (a c old : CoreT) : CoreT :=
  { a with gp := mergeRegs old.gp c.gp a.gp, gs := mergeRegs old.gs c.gs a.gs, v := mergeVecs old.v c.v a.v,
           sd := mergeRegs old.sd c.sd a.sd, tr0 := c.tr0, tr1 := c.tr1,
           streams := mergeMap old.streams c.streams a.streams, park := mergeMap old.park c.park a.park }

/-- The state after both members. Where the first one waits for its home's reply, the pair's effect waits with it (R43).
Where it has ended the chunk and left none open, the second one's pushes belong to that chunk (R43, R194). -/
def State.joinPair (a c : State) (old : CoreT) : State :=
  let s := a.updT fun t => t.joinPair c.t old
  let level := old.level
  match (a.me.waiting level).await with
  | .reply d pc u =>
    let push := match s.me.chunk with | some ch => ch.push | none => []
    let u := { u with aft := a.t.joinPair u.aft old, push := push }
    ((s.updT fun t => t.withhold old).withChunk fun ch => { ch with push := [] }).updMe fun k =>
      k.setWaiting level { k.waiting level with await := .reply d pc u }
  | _ =>
    match c.me.chunk, s.me.chunk with
    | none, some ch => ch.push.foldl (fun s p => s.landPush s.cur p) s.noChunk
    | _, _ => s

/-- The running firing has begun to revoke a handle (R194): it takes no trap before HREV is over. -/
def State.revoking (s : State) : Bool :=
  match (s.me.waiting s.t.level).await with | .hrev _ _ => true | _ => false

/-- A pair (R43): the first member, of class C, then the second; whole or not at all. HREV revokes in the turn that first
issues it (R194): not before the second member can issue as well. -/
def State.runPair (s : State) (c a : Instr) : Out :=
  let s := s.openFor 8
  s.endTurn 2 (setsSkip c)
    (match exec c s with
     | .next sc =>
       if sc.me.stayed then
         if !sc.revoking || s.revoking then .next sc else
         match exec a (s.updMe fun k => { k with second := true }) with
         | .next sb => if sb.me.stayed then .next sb else .next sc
         | o => o
       else
       match exec a (sc.forSecond s.t) with
       | .next sa =>
         if !sa.me.stayed then .next (sa.joinPair sc s.t) else
         match exec a (s.updMe fun k => { k with second := true }) with
         | .next sb => if sb.me.stayed then .next sb else .next s.stall
         | o => o
       | o => o
     | o => o)

/-! ### A turn of a core -/

/-- The core uses a line: a miss fills it in every core that uses the copy (R120, R121). -/
def State.fetchLine (s : State) (f : Firing) (line : Nat) : State :=
  let s := if s.me.icHas f.code line then s else s.icFillAll (dieOf s.cur) f.code line
  s.updMe fun k => if k.icHas f.code line then k.icTouch f.code line else (k.icFill f.code line).icTouch f.code line

/-- A trap at the unit being issued. -/
def State.unitTrap (s : State) (c : Cause) (v : Nat) (second : Bool) : Out :=
  .next ((s.takeTrap c (word v) s.t.pc false (s.secw || second)).finishTurn 0 false false)

/-- The masked window has no place for n more instructions (R112). -/
def State.windowFull (s : State) (n : Nat) : Bool := s.t.maskOpen && s.t.maskCnt + n > 64

/-- The chunk has no place for n more instructions (R41, R43). -/
def State.chunkFull (s : State) (n : Nat) : Bool :=
  match s.me.solo, s.me.chunk with
  | some so, _ => so.cnt > 0 && so.cnt + n > so.limit
  | none, some ch => ch.cnt > 0 && ch.cnt + n > ch.limit
  | none, none => false

/-- Issue an instruction or a pair, once the unit's words have passed R51's first three steps. The XVAL of
MASK_WINDOW_EXCEEDED is free; SECW shows whether a pair's second member is the 65th (R43, R112). -/
def State.issue (s : State) (n : Nat) (run : State → Out) : Out :=
  if s.windowFull n then s.unitTrap .maskWindow (Config.freeXval s.fresh).toNat (n = 2 && s.t.maskCnt = 63)
  else if s.chunkFull n then .next (s.stall.finishTurn n false false)
  else run s

/-- Fetch the unit at the program counter and issue from it (R42, R51, R123). -/
def State.fetchIssue (s : State) (f : Firing) : Out :=
  let pc := f.pc.toNat
  match s.codeWord pc with
  | none => s.unitTrap .protExec pc false
  | some w =>
    let s := s.fetchLine f (pc / 64)
    if pc % 8 = 0 && w.getLsbD 31 then
      match s.codeWord (pc + 4) with
      | none => s.unitTrap .protExec (pc + 4) true
      | some w2 =>
        if s.illegalWord w then s.unitTrap .illegalOp w.toNat false
        else if s.illegalWord w2 then s.unitTrap .illegalOp w2.toNat true
        else if reservedWord w false then s.unitTrap .reservedBits w.toNat false
        else if reservedWord w2 true then s.unitTrap .reservedBits w2.toNat true
        else if s.badPair w w2 then s.unitTrap .illegalPair (w2.toNat * 2 ^ 32 + w.toNat) false
        else match decodeWord w, decodeWord w2 with
          | .ok c, .ok a => s.issue 2 fun s => s.runPair c a
          | _, _ => s.unitTrap .illegalOp w.toNat false
    else if s.illegalWord w then s.unitTrap .illegalOp w.toNat false
    else if reservedWord w (pc % 8 ≠ 0) then s.unitTrap .reservedBits w.toNat false
    else match decodeWord w with
      | .ok i => s.issue 1 fun s => s.runLone i
      | .error _ => s.unitTrap .illegalOp w.toNat false

/-- The pending imprecise cause of the running firing: not while its handler runs (R361). -/
def State.dueImprecise (s : State) : Option (Cause × Word) :=
  if s.t.inTrap || s.revoking then none else
  (s.me.pendImp.find? fun p => p.2.2 = s.t.serial).map fun p => (p.1, p.2.1)

/-- Take it at this chunk boundary (R361): it stays pending while the chunk waits, and when it is squashed. -/
def State.takeImprecise (s : State) (c : Cause) (v : Word) : State :=
  let fir := s.t.serial
  let s' := s.takeTrap c v s.t.pc true false
  let s' := if s'.t.inTrap then s'.updMe fun k => { k with pendImp := k.pendImp.filter fun p => p.2.2 ≠ fir } else s'
  s'.finishTurn 0 false false

/-- The running firing cannot issue: it waits for a reply, an engine command, or its arbiter's token. -/
def State.blocked (s : State) : Bool :=
  (match (s.me.waiting s.t.level).await with
   | .reply _ _ _ => true
   | .engine => true
   | _ => false) ||
  (match s.me.solo with | some so => !so.granted | none => false)

/-- One turn of the core: a ready priority-1 firing pre-empts a priority-0 one (R27, R30), an ended chunk asks to commit, a
free core makes its issue choice, a trap that is due is taken, or the running firing issues. -/
def State.coreTurn (s : State) : Out :=
  if s.me.takeover || !s.exists' s.cur then .next s
  else if s.preemptor.isSome then execPreEmption s else
  match s.me.chunk, s.t.fir with
  | some ch, some f =>
    if ch.sealed then (if s.t.heldNow then .next s.settle else .next (s.commit s.cur))
    else if s.blocked then .next s
    else match s.dueTrap, s.dueImprecise with
      | some (c, v, pc), _ => .next ((s.takeDue c v pc).finishTurn 0 false false)
      | none, some (c, v) => .next (s.takeImprecise c v)
      | none, none => s.fetchIssue f
  | some _, none => .next (s.commit s.cur)
  | none, none => execIssueChoice s
  | none, some f =>
    if s.blocked then .next s
    else match s.dueTrap, s.dueImprecise with
      | some (c, v, pc), _ => .next ((s.takeDue c v pc).finishTurn 0 false false)
      | none, some (c, v) => .next (s.takeImprecise c v)
      | none, none => s.fetchIssue f

end Sys2Proof.Machine
end

