-- ==== Sys2Proof/Machine/Step.lean ====
section
/-! DEFINITION. One step of the package (log 1): the next turn of the agenda, a step of the device or a core's next
instruction. -/
namespace Sys2Proof.Machine

/-- Time passes on a core: its running firing has held it for as many cycles more (R105). -/
def Core.elapse (k : Core) (dt : Nat) : Core := k.both fun t => t.updFir fun f => { f with cycles := f.cycles + dt }

/-- Time passes. -/
def State.elapse (s : State) (dt : Nat) : State :=
  if dt = 0 then s else
  { s with cycle := s.cycle + dt, cores := s.cores.map fun (p : Nat × Core) => (p.1, p.2.elapse dt) }

/-- A turn takes place: its time passes, and its core, operands and bytes are at hand. -/
def State.beginTurn (s : State) (t : Turn) : State :=
  { s.elapse t.dt with cur := t.core, args := t.args, payload := t.payload }

/-- What a turn does: a step of the device, or the core's turn. -/
def State.runTurn (s : State) (act : Option Instr) : Host.Outcome State Fault Refusal :=
  match act with
  | some i => if deviceStep i then exec i s else s.coreTurn
  | none => s.coreTurn

/-- One step. With no turn to come, the core of the last turn takes the next cycle. -/
def step (s : State) : Host.Outcome State Fault Refusal :=
  match s.agenda with
  | [] => (s.beginTurn ⟨1, s.cur, none, [], []⟩).runTurn none
  | t :: r => (({ s with agenda := r } : State).beginTurn t).runTurn t.act

/-- The host's window on fetch: core 0 runs a firing of partition 0 whose image is one unit that starts with the
word, the bits above it zero, and the next turn is core 0's (log 5). -/
def State.withFetchWord (s : State) (nbits w : Nat) : State :=
  let lo := 0x10000
  let bytes := leBytes 8 (w % 2 ^ nbits)
  let key := instKey 0 0 0 0
  let f : Firing :=
    { inst := key, part := 0, pri := 0, cls := 0, lo := lo, hi := lo + 8, pc := word lo, ran := 0, waited := 0, aged := false,
      entry := 0, drawn := 0, serial := 0, cycles := 0, draws := 0, sent := [], freed := [], actend := false, held := false, dry := none, ord := none, depth := 0,
      deps := [], down := false }
  let i : Inst :=
    { part := 0, lslot := 0, aidx := 0, num := 0, core := some 0, st := .home, atStep := false, busy := true, credit := [],
      block := 0, mail := [], since := none, noDry := none, barred := [], again := false, tables := (span 0 6).map fun t => (t, 0), fwd := none,
      dest := none, markers := [], forced := false }
  let k := s.core 0
  let s := s.putCore 0 { k with
    t := { k.t with fir0 := some f, fir1 := none, npc := word lo, maskOpen := false, maskCnt := 0 },
    chunk := none, held := none, solo := none, wait0 := Waiting.idle, wait1 := Waiting.idle, pendImp := [], takeover := false }
  let s := s.updDie 0 fun d => { d with code := ⟨0, lo, bytes⟩ :: d.code.filter fun c => !(c.part = 0 && c.image = lo) }
  { s with insts := FMap.put s.insts key i, agenda := [], cur := 0, args := [], payload := [],
           hub := { s.hub with units := [] } }

end Sys2Proof.Machine
end

