-- ==== Sys2Proof/Safety.lean ====
section
/-! DEFINITION. What the statements say of a state and of an instruction: the canonical form of memory, what the
open chunk of the step's core holds, and the two shapes in which most instructions complete. -/
namespace Sys2Proof.Machine

/-- The canonical form of memory: addresses strictly rise, and no entry equals what an unlisted address reads as,
zero (log 3). -/
def Memory.wf (m : FMap Byte) : Bool := FMap.sorted m && m.all fun p => decide (p.2 ≠ 0#8)

/-- An instruction completes: exec answers a state in which it neither waits nor has trapped. -/
def Completes (i : Instr) (s t : State) : Prop := exec i s = .next t ∧ t.me.stayed = s.me.stayed

/-- The effects that the open chunk of the step's core holds until its commit (R57, R288). -/
def State.effs (s : State) : List Effect := match s.me.chunk with | some ch => ch.eff | none => []

/-- The open chunk ends with this instruction (R287). -/
def State.chunkEnds (s : State) : Bool := match s.me.chunk with | some ch => ch.sealed | none => false

/-- The bytes that the open chunk buffers (R181): mask and value by device address. -/
def State.buffered (s : State) : FMap (Byte × Byte) := match s.me.chunk with | some ch => ch.buf | none => []

/-- With its registers and links ready (R123), the instruction completes: its streams and links are popped, general
register `d` receives `w`, and nothing else happens. -/
def Puts (i : Instr) (s : State) (d : Reg) (w : Word) : Prop :=
  s.ready (useOf i) = .ok () → exec i s = .next ((s.take (useOf i)).setG d w)

/-- The same for a vector field: register `d` receives the strip, or an edge takes it (R132). -/
def PutsV (i : Instr) (s : State) (d : Reg) (x : VReg) : Prop :=
  s.ready (useOf i) = .ok () → exec i s = .next ((s.take (useOf i)).putV d x)

/-- The exact value of a finite number (R60). -/
def Num.value : Num → Option ℚ
  | .fin n m e => some ((sgn n m : ℚ) * (2 : ℚ) ^ e)
  | _ => none

/-- With its registers and links ready (R123), the instruction completes in `t`. -/
def Does (i : Instr) (s t : State) : Prop := s.ready (useOf i) = .ok () → exec i s = .next t

/-- The state after an instruction's pops (R130, R132, R133). -/
def State.after (s : State) (i : Instr) : State := s.take (useOf i)

/-- The instruction traps precisely with a cause and XVAL, XPC holding its own address (R357). -/
def Traps (i : Instr) (s : State) (c : Cause) (xval : Word) : Prop :=
  exec i s = .next (s.takeTrap c xval s.t.pc false s.secw)

/-- The instruction completes and leaves one effect for its chunk's commit (R57); `ends` tells whether the chunk ends
after it; of the registers only `w` is written. -/
def Leaves (i : Instr) (s : State) (e : Effect) (ends : Bool) (w : Option (Reg × Word)) : Prop :=
  s.ready (useOf i) = .ok () → ∃ t, exec i s = .next t ∧
    t.effs = s.effs ++ [e] ∧ (ends = true → t.chunkEnds = true) ∧
    t.t = (match w with
      | some (d, x) => (s.after i).t.setG d x
      | none => (s.after i).t)

/-- How a turn ends whose instruction, or pair, has left `t`: what neither waits nor traps leaves the program counter where it
sent control; what stays leaves it where it is. -/
def TurnEnds (o : Host.Outcome State Fault Refusal) (t : State) : Prop :=
  ∀ g, t.me.solo = none → t.t.fir = some g →
    (t.me.stayed = false → t.t.heldNow = false → t.me.chunk.any (·.now) = false →
      ∃ v, o = .next v ∧ v.t.pc = t.t.npc ∧ v.mem = t.mem ∧ v.t.gp = t.t.gp) ∧
    (t.me.stayed = true → ∃ v, o = .next v ∧ v.t = t.t ∧ v.mem = t.mem)

/-- Only the step's core differs. -/
def ElsewhereSame (s t : State) : Prop :=
  t = { s with cores := t.cores } ∧ ∀ c, c ≠ s.cur → t.core c = s.core c

/-- The open chunk is the old one, or the one that this instruction opened, but for the lines of the stream elements that
it popped (R289) and the strips that it pushes (R132). -/
def ChunkSame (u : Use) (s t : State) : Prop :=
  (s.t.popLines u = [] ∧ t.me.chunk = s.me.chunk) ∨ (∃ ch, t.me.chunk = some ch ∧
    ch = { s.me.open' with ckpt := ch.ckpt, rd := ch.rd, push := ch.push } ∧ (s.me.chunk ≠ none → ch.ckpt = s.me.open'.ckpt) ∧
    (∀ l, l ∈ ch.rd ↔ l ∈ s.me.open'.rd ∨ l ∈ s.t.popLines u))

/-- What an instruction that writes general register `d` leaves: every other register that is bound to no stream, the
special and exception registers, all of memory, every other core. -/
def GFrame (u : Use) (d : Reg) (s t : State) : Prop :=
  ElsewhereSame s t ∧ (∀ a, t.byte a = s.byte a) ∧
  t.me = { s.me with t := t.t, chunk := t.me.chunk } ∧ ChunkSame u s t ∧
  (u.fwd = false → s.t.popLines u = [] → t.me.chunk = s.me.chunk) ∧
  t.t = { s.t with gp := t.t.gp, gs := t.t.gs, v := t.t.v, park := t.t.park, streams := t.t.streams,
                   linkW := t.t.linkW, linkE := t.t.linkE } ∧
  (∀ q, q ≠ d → s.t.bound q.toNat = none → t.t.g q = s.t.g q) ∧
  (∀ n (h : n < 16), s.t.bound (32 + n) = none → t.t.v[n] = s.t.v[n]) ∧
  (u.west = false → t.t.linkW = s.t.linkW) ∧ (u.east = false → t.t.linkE = s.t.linkE)

/-- The same for a vector destination: an edge (16 or 17) takes the strip as a push of the open chunk. -/
def VFrame (u : Use) (d : Reg) (s t : State) : Prop :=
  ElsewhereSame s t ∧ (∀ a, t.byte a = s.byte a) ∧
  t.me = { s.me with t := t.t, chunk := t.me.chunk } ∧ ChunkSame u s t ∧
  (u.fwd = false → d.toNat < 16 → s.t.popLines u = [] → t.me.chunk = s.me.chunk) ∧
  t.t = { s.t with gp := t.t.gp, gs := t.t.gs, v := t.t.v, park := t.t.park, streams := t.t.streams,
                   linkW := t.t.linkW, linkE := t.t.linkE } ∧
  (∀ q, s.t.bound q.toNat = none → t.t.g q = s.t.g q) ∧
  (∀ n (h : n < 16), n ≠ d.toNat → s.t.bound (32 + n) = none → t.t.v[n] = s.t.v[n]) ∧
  (u.west = false → t.t.linkW = s.t.linkW) ∧ (u.east = false → t.t.linkE = s.t.linkE)

/-- The instructions that write one general register and do nothing else, with that register. -/
def regDest : Instr → Option Reg
  | .add d _ _ | .sub d _ _ | .and d _ _ | .or d _ _ | .xor d _ _ | .sll d _ _ | .srl d _ _ | .sra d _ _
  | .slt d _ _ | .sltu d _ _ | .mul d _ _ | .mulh d _ _ | .mulhu d _ _ | .div d _ _ | .divu d _ _
  | .rem d _ _ | .remu d _ _ | .min d _ _ | .max d _ _ | .minu d _ _ | .maxu d _ _ | .andn d _ _
  | .clz d _ | .ctz d _ | .popc d _ | .addi d _ _ | .andi d _ _ | .ori d _ _ | .xori d _ _
  | .slli d _ _ | .srli d _ _ | .srai d _ _ | .slti d _ _ | .sltiu d _ _ | .li d _ | .lih d _
  | .lea d _ _ _ | .bfx d _ _ _ | .bfxu d _ _ _ | .bfi d _ _ _ | .sel d _ _ _
  | .fadd d _ _ | .fsub d _ _ | .fmul d _ _ | .fdiv d _ _ | .fsqrt d _ | .fmin d _ _ | .fmax d _ _
  | .feq d _ _ | .flt d _ _ | .fle d _ _ | .fabs d _ | .fneg d _ | .ftoi d _ | .ftoiu d _ | .itof d _
  | .itofu d _ | .fclass d _ | .fmadd d _ _ _ | .fmsub d _ _ _ | .fnmadd d _ _ _ | .fnmsub d _ _ _
  | .vrsum d _ _ | .vrmax d _ _ | .vrmin d _ _ | .vext d _ _ _
  | .mbrd d _ | .mberr d _ | .cstat d _ | .seedr d _ | .mqstat d _ _ | .kilnrd d _ | .lchstat d _
  | .ordtReadNext d | .ordtReadT d | .csrrd d _ | .hchk d _ => some d
  | _ => none

/-- The instructions that write one vector field and do nothing else, with that field. -/
def vecDest : Instr → Option Reg
  | .vadd d _ _ _ | .vsub d _ _ _ | .vmul d _ _ _ | .vmin d _ _ _ | .vmax d _ _ _ | .vabs d _ _ | .vneg d _ _
  | .vand d _ _ _ | .vor d _ _ _ | .vxor d _ _ _ | .viadd d _ _ _ | .visub d _ _ _ | .vimul d _ _ _
  | .vceq d _ _ _ | .vclt d _ _ _ | .vcle d _ _ _ | .vfma d _ _ _ _ | .vfms d _ _ _ _ | .vfnma d _ _ _ _
  | .vfnms d _ _ _ _ | .vsel d _ _ _ _ | .vpack d _ _ _ | .vunpk d _ _ _ | .vitof d _ _ | .vftoi d _ _
  | .vperm d _ _ _ | .vrot d _ _ _ | .vrcpe d _ _ | .vrsqe d _ _ | .vbcast d _ | .vins d _ _ => some d
  | _ => none

/-- What a load of an access finds (R184): the FP32 bits of an element, else the raw bytes, a counter's value or a
byte of the I/O region. -/
def State.found (s : State) (x : Acc) : Nat :=
  match x.loc with
  | .pad _ _ w _ => if w = 0 then leVal (s.rawRead x) else (slot32 s.seen s.winsIn x.dev x.loc).toNat
  | _ => leVal (s.rawRead x)

/-- A load of `size` bytes at `ea` completes: the checks of R180 pass, the line enters the read signature, and `d`
receives what `ext` makes of what it finds. -/
def LoadsTo (i : Instr) (s : State) (ea : Word) (size : Nat) (d : Reg) (ext : Nat → Word) : Prop :=
  ∀ x, (s.after i).access ea.toNat size .read = .ok x → (s.after i).ioGate x = .ok () →
    Does i s ((((s.after i).noteRead x).setG d (ext ((s.after i).found x))).ioSeal x)

/-- A word shows its fields, each given by its high bit, its low bit and its value, the reserved ones as zero: where every
value has room in its field, each field reads as its value. -/
def Shows (w : Nat) (fields : List (Nat × Nat × Nat)) : Prop :=
  (∀ f ∈ fields, f.2.2 < 2 ^ (f.1 + 1 - f.2.1)) → ∀ f ∈ fields, bits w f.1 f.2.1 = f.2.2

/-- Sign-extension of an n-bit number to 64 bits. -/
def sx (n : Nat) (x : Nat) : Word := (BitVec.ofNat n x).signExtend 64
/-- Zero-extension. -/
def zx (n : Nat) (x : Nat) : Word := (BitVec.ofNat n x).zeroExtend 64

/-- The access reaches plain bytes: HBM or window 0 of a scratchpad. -/
def Acc.plain (x : Acc) : Prop :=
  x.loc = .hbm ∨ ∃ b z off, x.loc = .pad b z 0 off

/-- A store of `size` bytes of `w` at `ea` completes. In plain memory the firing then sees those bytes there and every
other byte as before, committed memory is untouched until the commit, and only the chunk, the TLBs and, for the first
line that leaves a held firing's buffer, its piece of dry overflow change; a counter gets an increment, an I/O
register a write on its way, an element its encoding. -/
def StoresTo (i : Instr) (s : State) (ea : Word) (size : Nat) (w : Word) : Prop :=
  ∀ x, s.ready (useOf i) = .ok () → (s.after i).access ea.toNat size .write = .ok x →
    (s.after i).ioGate x = .ok () →
    (x.plain → ∀ r, (s.after i).roomFor (maskedBytes x.dev (leBytes size w.toNat)) = .ok r → ∃ t, exec i s = .next t ∧
      (∀ k, k < size → t.seen (x.dev + k) = BitVec.ofNat 8 (w.toNat / 256 ^ k)) ∧
      (∀ a, a < x.dev ∨ x.dev + size ≤ a → t.seen a = s.seen a) ∧
      (∀ a, t.byte a = s.byte a) ∧ t.t = (s.after i).t ∧ (∀ c, c ≠ s.cur → t.core c = s.core c)) ∧
    (∀ c n, x.loc = .counter c n → ∃ t, exec i s = .next t ∧
      t.effs = s.effs ++ [.post ⟨agentOf s.cur 0, c, n, w.toNat % 2 ^ 32, none⟩] ∧ t.t = (s.after i).t) ∧
    (∀ o, x.loc = .io o → ∃ t, exec i s = .next t ∧
      t.effs = s.effs ++ [.io ⟨s.cur, s.myPart, x.dev, leBytes size w.toNat⟩] ∧ t.t = (s.after i).t) ∧
    (∀ b z win off, x.loc = .pad b z win off → win ≠ 0 → ∀ r,
      (s.after i).roomFor (movedPut (s.after i).seen s.winsIn x (Moved.fp32 (w.truncate 32))) = .ok r → ∃ t, exec i s = .next t ∧
      t.buffered = bufPut s.buffered (movedPut (s.after i).seen s.winsIn x (Moved.fp32 (w.truncate 32))) ∧ t.t = (s.after i).t)

/-- The address lies in the slots of an instance's rack. -/
def State.InRack (s : State) (a : Nat) : Prop :=
  ∃ c base r, FMap.find? (s.core c).racks base = some r ∧
    padOfCore c + base * 64 ≤ a ∧ a < padOfCore c + base * 64 + r.n * r.slotSize

/-- No rack holds a speculative token: nothing that a held firing has sent waits anywhere (R311, R314). -/
def State.NoSpec (s : State) : Prop :=
  ∀ c base r, FMap.find? (s.core c).racks base = some r → ∀ x ∈ r.senders, x.2.2.1 = 0

/-- Committed memory in `t` is `m`. Where a write of the step may knock held firings of `s` down, the tokens behind the
speculative ones that vanish move up in their racks (R315; log 35): only there may it differ, and only if such tokens
are there. -/
def MemIs (s : State) (m : FMap Byte) (t : State) : Prop :=
  (∀ a, ¬s.InRack a → t.byte a = FMap.get 0#8 m a) ∧ (s.NoSpec → t.mem = m)

/-- A branch: not taken it does nothing; taken, with a legal target, control goes `off` words from its own address. -/
def BranchesIf (i : Instr) (s : State) (cond : Prop) (off : Int) : Prop :=
  let target := (BitVec.ofInt 64 (s.t.pc.toNat + 4 * off)).toNat
  (¬cond → Does i s (s.after i)) ∧
  (cond → s.checkTarget target = .ok () → Does i s ((s.after i).goto target))

/-- A near atomic completes (R298, R300): with `old` the number of `size` bytes that the firing sees, `d` receives
`ret old`, and `new old` is buffered in its place. -/
def NearAtomic (i : Instr) (s : State) (d : Reg) (ea : Word) (size : Nat) (new : Nat → Nat) (ret : Nat → Word) : Prop :=
  ∀ x r, s.ready (useOf i) = .ok () → (s.after i).atomicAccess ea.toNat size true = .ok x →
    let old := leVal ((s.after i).seenBytes x.dev size)
    ((s.after i).noteRead x).roomFor (maskedBytes x.dev (leBytes size (new old))) = .ok r → ∃ t, exec i s = .next t ∧
      t.t = (s.after i).t.setG d (ret old) ∧
      (∀ k, k < size → t.seen (x.dev + k) = BitVec.ofNat 8 (new old / 256 ^ k)) ∧
      (∀ a, a < x.dev ∨ x.dev + size ≤ a → t.seen a = s.seen a) ∧ (∀ a, t.byte a = s.byte a)

/-- A request leaves for its home in a chunk of its own, and the core waits for the reply, which `d` receives; the pops
that the instruction made are kept, to be undone by a refusal (R43, R301, R305; logs 10 and 83). -/
def Asks (i : Instr) (s : State) (d : Reg) (e : Effect) : Prop :=
  ∃ t, exec i s = .next t ∧ t.effs = s.effs ++ [e] ∧ t.chunkEnds = true ∧ t.t = (s.after i).t.withhold s.t ∧
    t.me.waiting s.t.level = ⟨.reply d s.t.pc ⟨s.t, (s.after i).t, []⟩, none, none⟩

/-- A far atomic (R301): with d ≠ 0 it asks and waits, with d = 0 it is posted; its chunk ends with it. -/
def FarAtomic (i : Instr) (s : State) (op : Nat) (d : Reg) (ea : Word) (size b c : Nat) : Prop :=
  ∀ x, s.ready (useOf i) = .ok () → (s.after i).atomicAccess ea.toNat size false = .ok x → s.t.heldNow = false →
    let f : Far := ⟨s.cur, op, size = 8, x.dev, b, c, x.leaf.scope, x.ea, d ≠ 0#5, s.t.level, s.t.serial, 0⟩
    (d = 0#5 → ∃ t, exec i s = .next t ∧ t.effs = s.effs ++ [.far f] ∧ t.chunkEnds = true ∧ t.t = (s.after i).t) ∧
    (d ≠ 0#5 → s.t.maskOpen = false → s.chunkBusy = false → Asks i s d (.far f))

/-- A barrier request (R304): 32-byte aligned, in a chunk of its own. -/
def AsksBarrier (i : Instr) (s : State) (op : Nat) (d : Reg) (ea v : Nat) : Prop :=
  ∀ x, s.ready (useOf i) = .ok () → (s.after i).atomicAccess ea 32 false = .ok x → s.t.heldNow = false →
    s.t.maskOpen = false → s.chunkBusy = false →
    Asks i s d (.bar ⟨s.cur, op, x.dev, v, x.leaf.scope, x.ea, s.t.level, s.t.serial⟩)

end Sys2Proof.Machine
end

