-- ==== Sys2Proof/Certificates/Slice0/Obligations.lean ====
section
/-! DEFINITION. The statements, from the numbered rules of the manual. -/
open Sys2Proof Sys2Proof.Machine

/-! ### Integer instructions -/

/-- R134, the sums, products and logic: x and y as numbers, every result modulo 2^64.
R134, quotients and remainders: truncation toward zero, the remainder with the dividend's sign, and the two
corners (a zero divisor; -2^63 by -1, where the quotient wraps to -2^63 and the remainder is 0). -/
def Obligations.IntegerArithmetic : Prop :=
  (∀ (s : State) (d a b : Reg),
    Puts (.add d a b) s d (word ((s.gIn a).toNat + (s.gIn b).toNat)) ∧
    Puts (.sub d a b) s d (BitVec.ofInt 64 ((s.gIn a).toNat - (s.gIn b).toNat : Int)) ∧
    Puts (.mul d a b) s d (word ((s.gIn a).toNat * (s.gIn b).toNat)) ∧
    Puts (.mulh d a b) s d (BitVec.ofInt 64 ((s.gIn a).toInt * (s.gIn b).toInt / 2 ^ 64)) ∧
    Puts (.mulhu d a b) s d (word ((s.gIn a).toNat * (s.gIn b).toNat / 2 ^ 64)) ∧
    Puts (.and d a b) s d (s.gIn a &&& s.gIn b) ∧
    Puts (.or d a b) s d (s.gIn a ||| s.gIn b) ∧
    Puts (.xor d a b) s d (s.gIn a ^^^ s.gIn b) ∧
    Puts (.andn d a b) s d (s.gIn a &&& ~~~(s.gIn b))) ∧
  (∀ (s : State) (d a b : Reg),
    Puts (.div d a b) s d (if s.gIn b = 0 then BitVec.ofInt 64 (-1) else
      BitVec.ofInt 64 ((s.gIn a).toInt.tdiv (s.gIn b).toInt)) ∧
    Puts (.rem d a b) s d (if s.gIn b = 0 then s.gIn a else
      BitVec.ofInt 64 ((s.gIn a).toInt.tmod (s.gIn b).toInt)) ∧
    Puts (.divu d a b) s d (if s.gIn b = 0 then word (2 ^ 64 - 1) else word ((s.gIn a).toNat / (s.gIn b).toNat)) ∧
    Puts (.remu d a b) s d (if s.gIn b = 0 then s.gIn a else word ((s.gIn a).toNat % (s.gIn b).toNat)))

/-- R134 and R135, shifts: by y[5:0] or by the immediate; right shifts fill with zeros or with the sign.
R134 and R135, comparisons and choices: as signed and as unsigned numbers. -/
def Obligations.IntegerShiftsComparisons : Prop :=
  (∀ (s : State) (d a b : Reg) (sh : BitVec 6),
    Puts (.sll d a b) s d (word ((s.gIn a).toNat * 2 ^ ((s.gIn b).toNat % 64))) ∧
    Puts (.srl d a b) s d (word ((s.gIn a).toNat / 2 ^ ((s.gIn b).toNat % 64))) ∧
    Puts (.sra d a b) s d (BitVec.ofInt 64 ((s.gIn a).toInt / 2 ^ ((s.gIn b).toNat % 64))) ∧
    Puts (.slli d a sh) s d (word ((s.gIn a).toNat * 2 ^ sh.toNat)) ∧
    Puts (.srli d a sh) s d (word ((s.gIn a).toNat / 2 ^ sh.toNat)) ∧
    Puts (.srai d a sh) s d (BitVec.ofInt 64 ((s.gIn a).toInt / 2 ^ sh.toNat))) ∧
  (∀ (s : State) (d a b : Reg) (j : BitVec 14),
    Puts (.slt d a b) s d (if (s.gIn a).toInt < (s.gIn b).toInt then 1 else 0) ∧
    Puts (.sltu d a b) s d (if (s.gIn a).toNat < (s.gIn b).toNat then 1 else 0) ∧
    Puts (.slti d a j) s d (if (s.gIn a).toInt < j.toInt then 1 else 0) ∧
    Puts (.sltiu d a j) s d (if (s.gIn a).toNat < (BitVec.ofInt 64 j.toInt).toNat then 1 else 0) ∧
    Puts (.min d a b) s d (if (s.gIn a).toInt ≤ (s.gIn b).toInt then s.gIn a else s.gIn b) ∧
    Puts (.max d a b) s d (if (s.gIn a).toInt ≤ (s.gIn b).toInt then s.gIn b else s.gIn a) ∧
    Puts (.minu d a b) s d (if (s.gIn a).toNat ≤ (s.gIn b).toNat then s.gIn a else s.gIn b) ∧
    Puts (.maxu d a b) s d (if (s.gIn a).toNat ≤ (s.gIn b).toNat then s.gIn b else s.gIn a))

/-- R135-R137 and R139: immediates are sign-extended; LIH shifts its register up by 20 bits and fills in its
immediate; LEA adds a shifted index; SEL chooses by its third operand.
R138: with pos + len at most 64 (the field holds len - 1), BFXU and BFX move the field [pos+len-1:pos] to the
bottom and extend it with zeros or with its top bit; BFI replaces that field of g[d] alone.
R134, counts: CLZ counts the zeros above the highest one bit, CTZ those below the lowest, both 64 for zero; POPC
counts the one bits. -/
def Obligations.IntegerImmediates : Prop :=
  (∀ (s : State) (d a b c : Reg) (i : BitVec 15) (w : BitVec 20) (sh : BitVec 3),
    Puts (.addi d a i) s d (BitVec.ofInt 64 ((s.gIn a).toInt + i.toInt)) ∧
    Puts (.andi d a i) s d (s.gIn a &&& BitVec.ofInt 64 i.toInt) ∧
    Puts (.ori d a i) s d (s.gIn a ||| BitVec.ofInt 64 i.toInt) ∧
    Puts (.xori d a i) s d (s.gIn a ^^^ BitVec.ofInt 64 i.toInt) ∧
    Puts (.li d w) s d (BitVec.ofInt 64 w.toInt) ∧
    Puts (.lih d w) s d (word ((s.gIn d).toNat * 2 ^ 20 + w.toNat)) ∧
    Puts (.lea d a b sh) s d (word ((s.gIn a).toNat + (s.gIn b).toNat * 2 ^ sh.toNat)) ∧
    Puts (.sel d a b c) s d (if s.gIn c ≠ 0 then s.gIn a else s.gIn b)) ∧
  (∀ (s : State) (d a : Reg) (pos len : BitVec 6), pos.toNat + len.toNat + 1 ≤ 64 →
    (∃ w : Word, Puts (.bfxu d a pos len) s d w ∧ ∀ k, k < 64 →
      w.getLsbD k = (decide (k ≤ len.toNat) && (s.gIn a).getLsbD (pos.toNat + k))) ∧
    (∃ w : Word, Puts (.bfx d a pos len) s d w ∧ ∀ k, k < 64 →
      w.getLsbD k = (s.gIn a).getLsbD (pos.toNat + min k len.toNat)) ∧
    (∃ w : Word, Puts (.bfi d a pos len) s d w ∧ ∀ k, k < 64 →
      w.getLsbD k = if pos.toNat ≤ k ∧ k ≤ pos.toNat + len.toNat then (s.gIn a).getLsbD (k - pos.toNat)
        else (s.gIn d).getLsbD k)) ∧
  (∀ (s : State) (d a : Reg),
    (∃ n, n ≤ 64 ∧ Puts (.clz d a) s d (word n) ∧ (∀ k, 64 - n ≤ k → (s.gIn a).getLsbD k = false) ∧
      (n < 64 → (s.gIn a).getLsbD (63 - n) = true)) ∧
    (∃ n, n ≤ 64 ∧ Puts (.ctz d a) s d (word n) ∧ (∀ k, k < n → (s.gIn a).getLsbD k = false) ∧
      (n < 64 → (s.gIn a).getLsbD n = true)) ∧
    Puts (.popc d a) s d (word ((List.range 64).countP fun k => (s.gIn a).getLsbD k)))

/-! ### Floating point -/

/-- R71: a magnitude m / 2^sh rounded to a whole number r. It is exact where it can be; toward zero it does not exceed
the magnitude; toward an infinity it goes up exactly on that side; to nearest it errs by at most a half, and a tie goes
to the even neighbour.
R60 and R151: reading FP32 bits and rounding them back gives the same bits in every mode, subnormals and signed
zeros included; every NaN gives the canonical one.
R151: the sum and the product of finite numbers that the one rounding starts from are exact. -/
def Obligations.ExactRounding : Prop :=
  (∀ (rm : Rm) (neg : Bool) (m sh : Nat),
    (m % 2 ^ sh = 0 → roundMag rm neg m sh * 2 ^ sh = m) ∧
    roundMag .rtz neg m sh = m / 2 ^ sh ∧
    (m % 2 ^ sh ≠ 0 → roundMag .rdn neg m sh = m / 2 ^ sh + (if neg then 1 else 0)) ∧
    (m % 2 ^ sh ≠ 0 → roundMag .rup neg m sh = m / 2 ^ sh + (if neg then 0 else 1)) ∧
    2 * (roundMag .rne neg m sh * 2 ^ sh) ≤ 2 * m + 2 ^ sh ∧
    2 * m ≤ 2 * (roundMag .rne neg m sh * 2 ^ sh) + 2 ^ sh ∧
    (2 * (m % 2 ^ sh) = 2 ^ sh → roundMag .rne neg m sh % 2 = 0)) ∧
  (∀ (rm : Rm) (x : Lane), (Machine.Num.ofBits x).toBits rm = if (Machine.Num.ofBits x).isNan then qnan else x) ∧
  (∀ (rm : Rm) (x y : Machine.Num) (p q : ℚ), x.value = some p → y.value = some q →
    (Machine.Num.add rm x y).value = some (p + q) ∧ (Machine.Num.mul x y).value = some (p * q) ∧ x.negate.value = some (-p))

/-- R157: FADD, FSUB, FMUL, FDIV and FSQRT work on the operands' low halves, round once by MODE.FRM and
zero-extend.
R160: the fused family computes x y + z, x y - z, -(x y) - z and -(x y) + z exactly and rounds once.
R152 and R157: the comparisons order finite operands by value, so that +0 equals -0, and are false on a NaN; FABS
and FNEG clear and invert bit 31.
R152: of two operands of which one is a NaN FMIN and FMAX give the other, of two NaNs 0x7FC00000; of finite
operands of different value the smaller and the larger; of zeros -0 is the smaller.
R151 and R157, the corners: a NaN operand gives 0x7FC00000; a nonzero number over a zero an infinity and 0 over 0 the NaN,
a quotient's sign being that of its operands; infinities and zeros as IEEE 754 has them; the root of a number below zero is the NaN,
that of a zero the zero with its sign. -/
def Obligations.ScalarFloat : Prop :=
  (∀ (s : State) (d a b : Reg),
    Puts (.fadd d a b) s d (zext ((Machine.Num.add s.rm (Machine.Num.ofBits (s.fIn a)) (Machine.Num.ofBits (s.fIn b))).toBits s.rm)) ∧
    Puts (.fsub d a b) s d (zext ((Machine.Num.add s.rm (Machine.Num.ofBits (s.fIn a)) (Machine.Num.ofBits (s.fIn b)).negate).toBits s.rm)) ∧
    Puts (.fmul d a b) s d (zext ((Machine.Num.mul (Machine.Num.ofBits (s.fIn a)) (Machine.Num.ofBits (s.fIn b))).toBits s.rm)) ∧
    Puts (.fdiv d a b) s d (zext ((Machine.Num.div (Machine.Num.ofBits (s.fIn a)) (Machine.Num.ofBits (s.fIn b))).toBits s.rm)) ∧
    Puts (.fsqrt d a) s d (zext ((Machine.Num.ofBits (s.fIn a)).sqrt.toBits s.rm))) ∧
  (∀ (s : State) (d a b c : Reg),
    let p := Machine.Num.mul (Machine.Num.ofBits (s.fIn a)) (Machine.Num.ofBits (s.fIn b))
    let z := Machine.Num.ofBits (s.fIn c)
    Puts (.fmadd d a b c) s d (zext ((Machine.Num.add s.rm p z).toBits s.rm)) ∧
    Puts (.fmsub d a b c) s d (zext ((Machine.Num.add s.rm p z.negate).toBits s.rm)) ∧
    Puts (.fnmadd d a b c) s d (zext ((Machine.Num.add s.rm p.negate z.negate).toBits s.rm)) ∧
    Puts (.fnmsub d a b c) s d (zext ((Machine.Num.add s.rm p.negate z).toBits s.rm))) ∧
  (∀ (s : State) (d a b : Reg),
    Puts (.fabs d a) s d (zext ((s.fIn a) &&& 0x7FFFFFFF#32)) ∧
    Puts (.fneg d a) s d (zext ((s.fIn a) ^^^ 0x80000000#32)) ∧
    (∀ p q, (Machine.Num.ofBits (s.fIn a)).value = some p → (Machine.Num.ofBits (s.fIn b)).value = some q →
      Puts (.feq d a b) s d (if p = q then 1 else 0) ∧
      Puts (.flt d a b) s d (if p < q then 1 else 0) ∧
      Puts (.fle d a b) s d (if p ≤ q then 1 else 0)) ∧
    ((Machine.Num.ofBits (s.fIn a)).isNan ∨ (Machine.Num.ofBits (s.fIn b)).isNan →
      Puts (.feq d a b) s d 0 ∧ Puts (.flt d a b) s d 0 ∧ Puts (.fle d a b) s d 0)) ∧
  (∀ (s : State) (d a b : Reg),
    let x := s.fIn a
    let y := s.fIn b
    ((Machine.Num.ofBits x).isNan ∧ (Machine.Num.ofBits y).isNan →
      Puts (.fmin d a b) s d 0x7FC00000 ∧ Puts (.fmax d a b) s d 0x7FC00000) ∧
    ((Machine.Num.ofBits x).isNan ∧ ¬(Machine.Num.ofBits y).isNan → Puts (.fmin d a b) s d (zext y) ∧ Puts (.fmax d a b) s d (zext y)) ∧
    (¬(Machine.Num.ofBits x).isNan ∧ (Machine.Num.ofBits y).isNan → Puts (.fmin d a b) s d (zext x) ∧ Puts (.fmax d a b) s d (zext x)) ∧
    (∀ p q, (Machine.Num.ofBits x).value = some p → (Machine.Num.ofBits y).value = some q → p < q →
      Puts (.fmin d a b) s d (zext x) ∧ Puts (.fmax d a b) s d (zext y)) ∧
    (∀ p q, (Machine.Num.ofBits x).value = some p → (Machine.Num.ofBits y).value = some q → q < p →
      Puts (.fmin d a b) s d (zext y) ∧ Puts (.fmax d a b) s d (zext x)) ∧
    (x = 0x80000000#32 ∧ y = 0#32 ∨ x = 0#32 ∧ y = 0x80000000#32 →
      Puts (.fmin d a b) s d 0x80000000 ∧ Puts (.fmax d a b) s d 0)) ∧
  (∀ (s : State) (d a b : Reg),
    let x := s.fIn a
    let y := s.fIn b
    let val (z : Lane) := (Machine.Num.ofBits z).value
    let infinite (z : Lane) : Prop := z = 0x7F800000#32 ∨ z = 0xFF800000#32
    let inf (neg : Bool) : Word := if neg then 0xFF800000 else 0x7F800000
    let zero (neg : Bool) : Word := if neg then 0x80000000 else 0
    let nan : Word := 0x7FC00000
    let differ := x.msb != y.msb
    ((Machine.Num.ofBits x).isNan ∨ (Machine.Num.ofBits y).isNan → Puts (.fadd d a b) s d nan ∧ Puts (.fsub d a b) s d nan ∧
      Puts (.fmul d a b) s d nan ∧ Puts (.fdiv d a b) s d nan) ∧
    (∀ p, val x = some p → p ≠ 0 → val y = some 0 → Puts (.fdiv d a b) s d (inf differ)) ∧
    (val x = some 0 → val y = some 0 → Puts (.fdiv d a b) s d nan) ∧
    (∀ q, val x = some 0 → val y = some q → q ≠ 0 → Puts (.fdiv d a b) s d (zero differ)) ∧
    (infinite x → infinite y → Puts (.fdiv d a b) s d nan) ∧
    (infinite x → (val y).isSome → Puts (.fdiv d a b) s d (inf differ)) ∧
    ((val x).isSome → infinite y → Puts (.fdiv d a b) s d (zero differ)) ∧
    (infinite x → val y = some 0 → Puts (.fmul d a b) s d nan) ∧
    (infinite x → infinite y → differ = true → Puts (.fadd d a b) s d nan) ∧
    (∀ p, val x = some p → p < 0 → Puts (.fsqrt d a) s d nan) ∧
    (val x = some 0 → Puts (.fsqrt d a) s d (zext x)) ∧
    (x = 0x7F800000#32 → Puts (.fsqrt d a) s d 0x7F800000) ∧
    (x = 0xFF800000#32 ∨ (Machine.Num.ofBits x).isNan → Puts (.fsqrt d a) s d nan))

/-- R158: a conversion of a finite number rounds it to a whole number by MODE.FRM and clamps it to the range; a NaN
gives 0; an infinity the end of its side; ITOF and ITOFU round the signed and the unsigned number. To nearest even
2.5 gives 2 and -2.5 gives -2; toward minus infinity -2.5 gives -3. -/
def Obligations.ScalarConversions : Prop :=
  ∀ (s : State) (d a : Reg),
    (∀ n : Int, (Machine.Num.ofBits (s.fIn a)).toInt s.rm = some n →
      Puts (.ftoi d a) s d (BitVec.ofInt 64 (max (-2 ^ 63) (min (2 ^ 63 - 1) n))) ∧
      Puts (.ftoiu d a) s d (word (min (2 ^ 64 - 1) n.toNat))) ∧
    ((Machine.Num.ofBits (s.fIn a)).isNan → Puts (.ftoi d a) s d 0 ∧ Puts (.ftoiu d a) s d 0) ∧
    (s.fIn a = 0x7F800000#32 → Puts (.ftoi d a) s d (word (2 ^ 63 - 1)) ∧ Puts (.ftoiu d a) s d (word (2 ^ 64 - 1))) ∧
    (s.fIn a = 0xFF800000#32 → Puts (.ftoi d a) s d (word (2 ^ 63)) ∧ Puts (.ftoiu d a) s d 0) ∧
    Puts (.itof d a) s d (zext ((Machine.Num.ofInt false (s.gIn a).toInt 0).toBits s.rm)) ∧
    Puts (.itofu d a) s d (zext ((Machine.Num.ofInt false (s.gIn a).toNat 0).toBits s.rm)) ∧
    (Machine.Num.ofBits 0x40200000#32).toInt .rne = some 2 ∧ (Machine.Num.ofBits 0xC0200000#32).toInt .rne = some (-2) ∧
    (Machine.Num.ofBits 0xC0200000#32).toInt .rdn = some (-3)

/-- R159: the classes of FCLASS, by sign bit, exponent field and fraction; exactly one bit is set. -/
def Obligations.FloatClass : Prop :=
  ∀ (s : State) (d a : Reg),
    let x := s.fIn a
    let neg := x.msb
    let e := x.toNat / 2 ^ 23 % 256
    let f := x.toNat % 2 ^ 23
    Puts (.fclass d a) s d (word (2 ^
      (if e = 255 then (if f = 0 then (if neg then 0 else 7) else if x.getLsbD 22 then 9 else 8)
       else if e = 0 then (if f = 0 then (if neg then 3 else 4) else if neg then 2 else 5)
       else if neg then 1 else 6)))

/-! ### Vectors -/

/-- R161: lane by lane, each of 16 lanes from the same lane of the sources.
R156, R161 and R162: a compare writes a lane of ones or zeros, VSEL chooses by a nonzero mask lane, the fused
forms are those of R160. -/
def Obligations.VectorArithmetic : Prop :=
  (∀ (s : State) (d a b : Reg) (fwd : BitVec 1),
    let x := s.vIn a
    let y := s.vIn b
    PutsV (.vadd d a b fwd) s d (Vector.ofFn fun i => fadd s.rm x[i] y[i]) ∧
    PutsV (.vsub d a b fwd) s d (Vector.ofFn fun i => fsub s.rm x[i] y[i]) ∧
    PutsV (.vmul d a b fwd) s d (Vector.ofFn fun i => fmul s.rm x[i] y[i]) ∧
    PutsV (.vmin d a b fwd) s d (Vector.ofFn fun i => fmin x[i] y[i]) ∧
    PutsV (.vmax d a b fwd) s d (Vector.ofFn fun i => fmax x[i] y[i]) ∧
    PutsV (.vabs d a fwd) s d (Vector.ofFn fun i => x[i] &&& 0x7FFFFFFF#32) ∧
    PutsV (.vneg d a fwd) s d (Vector.ofFn fun i => x[i] ^^^ 0x80000000#32) ∧
    PutsV (.vand d a b fwd) s d (Vector.ofFn fun i => x[i] &&& y[i]) ∧
    PutsV (.vor d a b fwd) s d (Vector.ofFn fun i => x[i] ||| y[i]) ∧
    PutsV (.vxor d a b fwd) s d (Vector.ofFn fun i => x[i] ^^^ y[i]) ∧
    PutsV (.viadd d a b fwd) s d (Vector.ofFn fun i => BitVec.ofNat 32 (x[i].toNat + y[i].toNat)) ∧
    PutsV (.visub d a b fwd) s d (Vector.ofFn fun i => BitVec.ofInt 32 (x[i].toNat - y[i].toNat : Int)) ∧
    PutsV (.vimul d a b fwd) s d (Vector.ofFn fun i => BitVec.ofNat 32 (x[i].toNat * y[i].toNat))) ∧
  (∀ (s : State) (d a b c : Reg) (fwd : BitVec 1),
    let x := s.vIn a
    let y := s.vIn b
    let z := s.vIn c
    PutsV (.vceq d a b fwd) s d (Vector.ofFn fun i => if feq x[i] y[i] then 0xFFFFFFFF#32 else 0#32) ∧
    PutsV (.vclt d a b fwd) s d (Vector.ofFn fun i => if flt x[i] y[i] then 0xFFFFFFFF#32 else 0#32) ∧
    PutsV (.vcle d a b fwd) s d (Vector.ofFn fun i => if fle x[i] y[i] then 0xFFFFFFFF#32 else 0#32) ∧
    PutsV (.vsel d a b c fwd) s d (Vector.ofFn fun i => if z[i] ≠ 0#32 then x[i] else y[i]) ∧
    PutsV (.vfma d a b c fwd) s d (Vector.ofFn fun i => ffma s.rm false false x[i] y[i] z[i]) ∧
    PutsV (.vfms d a b c fwd) s d (Vector.ofFn fun i => ffma s.rm false true x[i] y[i] z[i]) ∧
    PutsV (.vfnma d a b c fwd) s d (Vector.ofFn fun i => ffma s.rm true true x[i] y[i] z[i]) ∧
    PutsV (.vfnms d a b c fwd) s d (Vector.ofFn fun i => ffma s.rm true false x[i] y[i] z[i]))

/-- R163, R164 and R167: the conversions, and the estimates of a lane. VPACK puts element i of width w at bits
[w i + w - 1 : w i] and zeros above, VUNPK reads it there; format 0 copies.
R167, an estimate by its operand's value: the exact reciprocal, or reciprocal root, with 12 significant bits kept, truncated; below
2^-126 zero and from 2^128 on infinity, with the operand's sign; a NaN, and a root of a negative number, give 0x7FC00000.
R341, R350: GCOMP compresses the gradient of two register pairs: the first result goes to register d, the two halves of
the second to registers b and b + 1. R341, its coding: where a sum is not finite, 32 zeros and the scale 0xFF, with finite sums as
residuals; else the scale X + 127 for X = max(floor(log2 amax) - 8, -127), -127 where every sum is 0, each sum over 2^X coded in E4M3,
and as residuals what the codes leave of the sums. -/
def Obligations.VectorConversions : Prop :=
  (∀ (s : State) (d a : Reg) (fmt : BitVec 5) (fwd : BitVec 1), fmt.toNat < 12 →
    let x := s.vIn a
    let w := fmtWidth fmt.toNat
    (∃ r, PutsV (.vpack d a fmt fwd) s d r ∧
      (fmt = 0#5 → r = x) ∧
      (fmt ≠ 0#5 → stripNat r =
        (List.range 16).foldr (fun i n => encodeElem fmt.toNat s.rm (Machine.Num.ofBits (at' 0#32 x.toList i)) + 2 ^ w * n) 0)) ∧
    PutsV (.vunpk d a fmt fwd) s d
      (Vector.ofFn fun i => (decodeElem fmt.toNat (stripNat x / 2 ^ (w * i.val) % 2 ^ w)).read32) ∧
    PutsV (.vitof d a fwd) s d (Vector.ofFn fun i => itof s.rm x[i].toInt) ∧
    PutsV (.vftoi d a fwd) s d (Vector.ofFn fun i => BitVec.ofInt 32 (ftoi s.rm (-2 ^ 31) (2 ^ 31 - 1) x[i])) ∧
    PutsV (.vrcpe d a fwd) s d (Vector.ofFn fun i => rcpe x[i]) ∧
    PutsV (.vrsqe d a fwd) s d (Vector.ofFn fun i => rsqe x[i])) ∧
  (∀ (s : State) (d a b : Reg),
    let r := gcompOf ((s.vIn a).toList ++ (s.vIn (a + 1#5)).toList) ((s.vIn b).toList ++ (s.vIn (b + 1#5)).toList)
    Does (.gcomp d a b) s ((((s.after (.gcomp d a b)).putV d (stripOf r.1)).putV b (stripLanes r.2)).putV (b + 1#5)
      (stripLanes (r.2.drop 16)))) ∧
  (∀ x : Lane,
    let val (z : Lane) := (Machine.Num.ofBits z).value
    let sign : Lane := if x.msb then 0x80000000#32 else 0#32
    ((Machine.Num.ofBits x).isNan → rcpe x = 0x7FC00000#32 ∧ rsqe x = 0x7FC00000#32) ∧
    (val x = some 0 → rcpe x = 0x7F800000#32 ||| sign ∧ rsqe x = 0x7F800000#32 ||| sign) ∧
    (x = 0x7F800000#32 → rcpe x = 0#32 ∧ rsqe x = 0#32) ∧
    (x = 0xFF800000#32 → rcpe x = 0x80000000#32 ∧ rsqe x = 0x7FC00000#32) ∧
    (∀ p, val x = some p → p < 0 → rsqe x = 0x7FC00000#32) ∧
    (∀ p, val x = some p → p ≠ 0 →
      (|p|⁻¹ < (2 : ℚ) ^ (-126 : ℤ) → rcpe x = sign) ∧ ((2 : ℚ) ^ 128 ≤ |p|⁻¹ → rcpe x = 0x7F800000#32 ||| sign) ∧
      ((2 : ℚ) ^ (-126 : ℤ) ≤ |p|⁻¹ → |p|⁻¹ < (2 : ℚ) ^ 128 → ∃ (k : ℕ) (e : ℤ), 2 ^ 11 ≤ k ∧ k < 2 ^ 12 ∧
        k * (2 : ℚ) ^ e ≤ |p|⁻¹ ∧ |p|⁻¹ < (k + 1) * (2 : ℚ) ^ e ∧
        val (rcpe x) = some ((if x.msb then -1 else 1) * k * (2 : ℚ) ^ e))) ∧
    (∀ p, val x = some p → 0 < p → ∃ (k : ℕ) (e : ℤ), 2 ^ 11 ≤ k ∧ k < 2 ^ 12 ∧ (k * (2 : ℚ) ^ e) ^ 2 * p ≤ 1 ∧
      1 < ((k + 1) * (2 : ℚ) ^ e) ^ 2 * p ∧ val (rsqe x) = some (k * (2 : ℚ) ^ e))) ∧
  (∀ g e : List Lane, g.length = 32 → e.length = 32 →
    let val (z : Lane) := (Machine.Num.ofBits z).value
    let s := List.zipWith (fadd .rne) g e
    let r := gcompOf g e
    ((∃ x ∈ s, val x = none) → r.1 = rep 32 0#8 ++ [0xFF#8] ++ rep 31 0#8 ∧ r.2 = s.map fun x => if (val x).isSome then x else 0#32) ∧
    ((∀ x ∈ s, (val x).isSome) → ∃ X : ℤ,
      ((∀ x ∈ s, val x = some 0) → X = -127) ∧
      (∀ k : ℤ, (∃ x ∈ s, ∃ p, val x = some p ∧ (2 : ℚ) ^ k ≤ |p|) → (∀ x ∈ s, ∀ p, val x = some p → |p| < (2 : ℚ) ^ (k + 1)) →
        X = max (k - 8) (-127)) ∧
      (let q := s.map fun x => encodeElem 3 .rne ((Machine.Num.ofBits x).shift (-X))
       r.1 = q.map (BitVec.ofNat 8 ·) ++ [BitVec.ofInt 8 (X + 127)] ++ rep 31 0#8 ∧
       r.2 = List.zipWith (fun x c =>
         (Machine.Num.add .rne (Machine.Num.ofBits x) ((decodeElem 3 c).shift X).negate).toBits .rne) s q))) ∧
  (∀ (x : Machine.Num) (p : ℚ) (X : ℤ), x.value = some p → (x.shift X).value = some (p * (2 : ℚ) ^ X))

/-- R165: lanes move unchanged. VPERM takes lane b[i][3:0], VROT lane (i + n) mod 16; VBCAST fills all lanes, VINS lane
n alone; VEXT zero-extends lane n.
R166: VRSUM sums one group of 16 under steps 3-6 of R72; VRMAX and VRMIN fold the pairwise choice of R152 from lane
0 up. R72, those steps for one group of finite terms that are not all zero: with 2^em at most the largest magnitude and 2^(em+1)
above it, every term is truncated toward zero to a multiple of 2^(em - 30), and the exact sum of these is rounded once, to nearest
even. A NaN, or infinities of both signs, give a NaN, and infinities of one sign that infinity. That the NaN is 0x7FC00000
is the model's choice (log 88). -/
def Obligations.VectorMovesReductions : Prop :=
  (∀ (s : State) (d a b : Reg) (n : BitVec 5) (fwd : BitVec 1), n.toNat < 16 →
    (∃ r : VReg, PutsV (.vperm d a b fwd) s d r ∧
      ∀ i : Fin 16, r[i] = (s.vIn a)[(s.vIn b)[i].toNat % 16]'(Nat.mod_lt _ (by decide))) ∧
    (∃ r : VReg, PutsV (.vrot d a n fwd) s d r ∧
      ∀ i : Fin 16, r[i] = (s.vIn a)[(i.val + n.toNat) % 16]'(Nat.mod_lt _ (by decide))) ∧
    (∃ r : VReg, PutsV (.vbcast d a) s d r ∧ ∀ i : Fin 16, r[i] = (s.gIn a).truncate 32) ∧
    (∃ r : VReg, PutsV (.vins d a n) s d r ∧
      ∀ i : Fin 16, r[i] = if i.val = n.toNat then (s.gIn a).truncate 32 else (s.vIn d)[i]) ∧
    Puts (.vext d a n fwd) s d (zext ((s.vIn a)[n.toNat % 16]'(Nat.mod_lt _ (by decide))))) ∧
  (∀ (s : State) (d a : Reg) (fwd : BitVec 1),
    let x := (s.vIn a).toList
    Puts (.vrsum d a fwd) s d (zext (groupSum (x.map Machine.Num.ofBits))) ∧
    Puts (.vrmax d a fwd) s d (zext (x.tail.foldl fmax (x.headD 0#32))) ∧
    Puts (.vrmin d a fwd) s d (zext (x.tail.foldl fmin (x.headD 0#32)))) ∧
  (∀ ts : List Machine.Num,
    let trunc (q : ℚ) : ℤ := if 0 ≤ q then ⌊q⌋ else ⌈q⌉
    ((∃ t ∈ ts, t.isNan = true) → groupSum ts = 0x7FC00000#32) ∧
    (.inf false ∈ ts → .inf true ∈ ts → groupSum ts = 0x7FC00000#32) ∧
    ((∀ t ∈ ts, t.isNan = false) → .inf false ∈ ts → .inf true ∉ ts → groupSum ts = 0x7F800000#32) ∧
    ((∀ t ∈ ts, t.isNan = false) → .inf false ∉ ts → .inf true ∈ ts → groupSum ts = 0xFF800000#32) ∧
    (∀ em : ℤ, (∀ t ∈ ts, ∃ p, t.value = some p ∧ |p| < (2 : ℚ) ^ (em + 1)) →
      (∃ t ∈ ts, ∃ p, t.value = some p ∧ (2 : ℚ) ^ em ≤ |p|) →
      groupSum ts = (Machine.Num.ofInt false
        ((ts.map fun t => trunc ((t.value.getD 0) / (2 : ℚ) ^ (em - 30))).foldl (· + ·) 0) (em - 30)).toBits .rne))

/-! ### Readiness, pops and frames -/

/-- R32, R123 and R130: an instruction that names no bound register and no link is ready, and taking its operands then
changes nothing but the parked bits of the general registers it reads, which it clears unless a priority-1 firing runs, whose
registers are never parked: those of every other register stay.
R130: a write to a bound register faults with STREAM_UNBOUND before anything else of the instruction; a read of an
ended stream does, and a read of a stream whose staging buffer is empty waits.
R132: a read of lw or of le takes the oldest strip of its queue, and one of an empty queue waits. -/
def Obligations.StreamOperands : Prop :=
  (∀ (s : State) (u : Use),
    (∀ k, k ∈ keysOf u.wg u.wv ++ keysOf u.rg u.rv → s.t.bound k = none) → u.west = false → u.east = false →
    16#5 ∉ u.wv → 17#5 ∉ u.wv →
    s.ready u = .ok () ∧ ∃ p, (s.take u = s.updT fun t => { t with park := p }) ∧
      ∀ q, FMap.find? p q = if s.t.fir1 = none ∧ q ∈ keysOf u.rg [] then none else FMap.find? s.t.park q) ∧
  (∀ (s : State) (d a b : Reg) (x : Stream),
    (s.t.bound d.toNat = some x → Traps (.add d a b) s .streamUnbound (word d.toNat)) ∧
    (s.t.bound d.toNat = none → s.t.bound a.toNat = some x → x.staged = [] → x.total ≤ x.popped →
      Traps (.add d a b) s .streamUnbound (word a.toNat)) ∧
    (s.t.bound d.toNat = none → s.t.bound a.toNat = some x → x.staged = [] → x.popped < x.total →
      s.t.maskOpen = false → exec (.add d a b) s = .next s.stall) ∧
    (s.t.bound d.toNat = none → s.t.bound a.toNat = some x → s.t.bound b.toNat = none → ∀ e r, x.staged = e :: r →
      e.bad = none → Puts (.add d a b) s d (word e.val + s.gIn b) ∧ s.ready (useOf (.add d a b)) = .ok ())) ∧
  (∀ (s : State) (d : Reg) (west : Bool) (fwd : BitVec 1), d ∉ [16#5, 17#5] → s.t.bound (32 + d.toNat) = none →
    let a : Reg := if west then 16#5 else 17#5
    let i := Instr.vneg d a fwd
    s.t.bound (32 + a.toNat) = none →
    (∀ x l, (if west then s.t.linkW else s.t.linkE) = x :: l → s.ready (useOf i) = .ok () →
      PutsV i s d (Vector.ofFn fun k => x[k] ^^^ 0x80000000#32) ∧
      ∃ t, exec i s = .next t ∧ (if west then t.t.linkW else t.t.linkE) = l) ∧
    ((if west then s.t.linkW else s.t.linkE) = [] → s.t.maskOpen = false → exec i s = .next s.stall))

/-- R57: an instruction that writes one general register completes when its operands are ready, and leaves every other
register, the special and exception registers, every byte of memory and every other core.
R57, R132: the same for an instruction that writes one vector register or pushes through an edge. -/
def Obligations.PlainFrames : Prop :=
  (∀ (i : Instr) (d : Reg) (s : State), regDest i = some d → s.ready (useOf i) = .ok () →
    ∃ t, exec i s = .next t ∧ GFrame (useOf i) d s t) ∧
  (∀ (i : Instr) (d : Reg) (s : State), vecDest i = some d → s.ready (useOf i) = .ok () →
    ∃ t, exec i s = .next t ∧ VFrame (useOf i) d s t)

/-! ### Memory -/

/-- R184, loads: LD adds a sign-extended offset, LDX a register; the codes without U sign-extend. -/
def Obligations.Loads : Prop :=
  ∀ (s : State) (d a b : Reg) (imm : BitVec 12),
    let ea := s.gIn a + imm.signExtend 64
    let ex := s.gIn a + s.gIn b
    LoadsTo (.ldB d a imm) s ea 1 d (sx 8) ∧ LoadsTo (.ldBu d a imm) s ea 1 d (zx 8) ∧
    LoadsTo (.ldH d a imm) s ea 2 d (sx 16) ∧ LoadsTo (.ldHu d a imm) s ea 2 d (zx 16) ∧
    LoadsTo (.ldW d a imm) s ea 4 d (sx 32) ∧ LoadsTo (.ldWu d a imm) s ea 4 d (zx 32) ∧
    LoadsTo (.ldD d a imm) s ea 8 d (zx 64) ∧
    LoadsTo (.ldxB d a b) s ex 1 d (sx 8) ∧ LoadsTo (.ldxBu d a b) s ex 1 d (zx 8) ∧
    LoadsTo (.ldxH d a b) s ex 2 d (sx 16) ∧ LoadsTo (.ldxHu d a b) s ex 2 d (zx 16) ∧
    LoadsTo (.ldxW d a b) s ex 4 d (sx 32) ∧ LoadsTo (.ldxWu d a b) s ex 4 d (zx 32) ∧
    LoadsTo (.ldxD d a b) s ex 8 d (zx 64)

/-- R181, R184, R209, R182, stores: the low bytes of g[d] enter the chunk's buffer. -/
def Obligations.Stores : Prop :=
  ∀ (s : State) (d a b : Reg) (imm : BitVec 12),
    let ea := s.gIn a + imm.signExtend 64
    let ex := s.gIn a + s.gIn b
    StoresTo (.stB d a imm) s ea 1 (s.gIn d) ∧ StoresTo (.stH d a imm) s ea 2 (s.gIn d) ∧
    StoresTo (.stW d a imm) s ea 4 (s.gIn d) ∧ StoresTo (.stD d a imm) s ea 8 (s.gIn d) ∧
    StoresTo (.stxB d a b) s ex 1 (s.gIn d) ∧ StoresTo (.stxH d a b) s ex 2 (s.gIn d) ∧
    StoresTo (.stxW d a b) s ex 4 (s.gIn d) ∧ StoresTo (.stxD d a b) s ex 8 (s.gIn d)

/-- R185 and R186: VLD takes 16 slots in a row, VLDT one column of a tile; VST writes 16 slots or none; TMOV reads
every source row before it writes a destination row. -/
def Obligations.VectorMemory : Prop :=
  ∀ (s : State) (d a b : Reg) (imm : BitVec 12),
    let ea := (s.gIn a + (imm.signExtend 64 <<< 6)).toNat
    (∀ xs, ea % 64 = 0 → (s.after (.vld d a imm)).slotAccs .read (slotAddrs ea 4) = .ok xs →
      Does (.vld d a imm) s (((s.after (.vld d a imm)).noteSlots xs).putV d
        (stripLanes (xs.map (s.after (.vld d a imm)).laneIn)))) ∧
    (∀ xs, ea % 4 = 0 → (s.after (.vldt d a imm)).slotAccs .read (slotAddrs ea 64) = .ok xs →
      Does (.vldt d a imm) s (((s.after (.vldt d a imm)).noteSlots xs).putV d
        (stripLanes (xs.map (s.after (.vldt d a imm)).laneIn)))) ∧
    (∀ xs t, ea % 64 = 0 → (s.after (.vst d a imm)).slotAccs .write (slotAddrs ea 4) = .ok xs →
      (s.after (.vst d a imm)).putSlots (xs.zip ((s.vIn d).toList.map Moved.fp32)) = .ok t → Does (.vst d a imm) s t) ∧
    (let src := (s.gIn a).toNat
     let dst := (s.gIn d).toNat
     let sh := (s.gIn b).toNat
     let rows := sh % 64
     let s0 := s.after (.tmov d a b)
     ∀ xs ys t, src % 64 = 0 → dst % 64 = 0 → 1 ≤ rows → rows ≤ 16 → sh / 64 % 1024 = 0 → sh / 2 ^ 48 = 0 →
      s0.slotAccs .read (tileAddrs src (64 * (sh / 2 ^ 16 % 2 ^ 16)) rows) = .ok xs →
      (s0.noteSlots xs).slotAccs .write (tileAddrs dst (64 * (sh / 2 ^ 32 % 2 ^ 16)) rows) = .ok ys →
      (s0.noteSlots xs).putSlots (ys.zip (xs.map s0.slotIn)) = .ok t → Does (.tmov d a b) s t)

/-- R180: the checks of a core access in their order, each against what comes before it; an address without a translation
whose page table entry cannot be read is SPAD_UNCORRECTABLE (R379), another one NO_TRANSLATION.
R69, an element window: without V, or with an element beyond its last, WINDOW_UNDEFINED; else MISALIGNED for a size other than 4 or an
address that is no multiple of 4. R15, R180: a write that would change a byte of the mailbox, judged by raw bytes, is PROT_WRITE, after
those checks. R306: so is one of a cluster's reserve, and a read of it PROT_READ. R180, R379: a read of a byte that cannot be corrected is
SPAD_UNCORRECTABLE.
R57, R357: a load or a store of any size, with an offset or an index, whose access faults traps with that cause and
address, and has no effect. -/
def Obligations.Accesses : Prop :=
  (∀ (s : State) (ea size : Nat) (kind : Kind),
    (2 ^ 48 ≤ ea → s.access ea size kind = fault .noTranslation ea) ∧
    (ea < 2 ^ 48 → s.translate s.cur s.myPart ea = none →
      ((∀ n, s.walk s.myPart ea = .error n → 8 ≤ n → s.access ea size kind = fault .spadUncorrectable ea) ∧
        (∀ n, s.walk s.myPart ea = .error n → n < 8 → s.access ea size kind = fault .noTranslation ea))) ∧
    (∀ p, ea < 2 ^ 48 → s.translate s.cur s.myPart ea = some p →
      (s.t.sup = false → p.u = false →
        s.access ea size kind = fault (if kind = .write then .protWrite else .protRead) ea) ∧
      ((s.t.sup || p.u) = true →
        (kind ≠ .write → p.r = false → s.access ea size kind = fault .protRead ea) ∧
        ((kind = .write ∨ p.r = true) → kind ≠ .read → p.w = false → s.access ea size kind = fault .protWrite ea) ∧
        ((kind = .write ∨ p.r = true) → (kind = .read ∨ p.w = true) →
          let dev := p.base + ea % 2 ^ p.size
          (s.locate dev = .hbm → isMemCore s.cur = false → s.access ea size kind = fault .noDramPath ea) ∧
          (s.locate dev = .nothing → s.access ea size kind = fault .windowUndefined ea) ∧
          ((s.locate dev = .hbm ∧ isMemCore s.cur = true ∨ ∃ b z o, s.locate dev = .pad b z 0 o) →
            dev % size ≠ 0 → s.access ea size kind = fault .misaligned ea) ∧
          (∀ b z w o, s.locate dev = .pad b z w o → w ≠ 0 →
            let d := FMap.get 0 s.winsIn (windowKey b z w)
            let last := 8 * z / fmtWidth (wFmt d)
            (wValid d = false → s.access ea size kind = fault .windowUndefined ea) ∧
            (wValid d = true → last ≤ o / 4 → s.access ea size kind = fault .windowUndefined ea) ∧
            (wValid d = true → o / 4 < last → (size ≠ 4 ∨ dev % 4 ≠ 0) → s.access ea size kind = fault .misaligned ea) ∧
            (wValid d = true → o / 4 < last → size = 4 → dev % 4 = 0 → kind ≠ .read → z = 0x20000 →
              0x1C000 < (rawSpan d w o 4).1 + (rawSpan d w o 4).2 → s.access ea size kind = fault .protWrite ea) ∧
            (wValid d = true → o / 4 < last → size = 4 → dev % 4 = 0 → kind ≠ .write →
              (z = 0x20000 → (kind = .read ∨ (rawSpan d w o 4).1 + (rawSpan d w o 4).2 ≤ 0x1C000)) → s.inReserve d (.pad b z w o) 4 = false →
              (∃ a ∈ s.poison, b + (rawSpan d w o 4).1 ≤ a ∧ a < b + (rawSpan d w o 4).1 + (rawSpan d w o 4).2) →
              s.access ea size kind = fault .spadUncorrectable ea)) ∧
          (∀ b z o, s.locate dev = .pad b z 0 o → dev % size = 0 →
            (kind ≠ .read → z = 0x20000 → 0x1C000 < o + size → s.access ea size kind = fault .protWrite ea) ∧
            (z = 0x200000 → s.inReserve 0 (.pad b z 0 o) size = true →
              s.access ea size kind = fault (if kind = .read then .protRead else .protWrite) ea) ∧
            (kind ≠ .write → (z = 0x20000 → kind = .read ∨ o + size ≤ 0x1C000) → s.inReserve 0 (.pad b z 0 o) size = false →
              (∃ a ∈ s.poison, b + o ≤ a ∧ a < b + o + size) → s.access ea size kind = fault .spadUncorrectable ea)) ∧
          (s.locate dev = .hbm → isMemCore s.cur = true → dev % size = 0 → kind ≠ .write →
            (∃ a ∈ s.poison, dev ≤ a ∧ a < dev + size) → s.access ea size kind = fault .spadUncorrectable ea))))) ∧
  (∀ (s : State) (d a b : Reg) (imm : BitVec 12) (c : Cause) (v : Word),
    let ea := (s.gIn a + imm.signExtend 64).toNat
    let ex := (s.gIn a + s.gIn b).toNat
    let faults (i : Instr) (at' size : Nat) (kind : Kind) : Prop := s.ready (useOf i) = .ok () →
      (s.after i).access at' size kind = .error (.trap c v false) → Traps i s c v
    faults (.ldB d a imm) ea 1 .read ∧ faults (.ldBu d a imm) ea 1 .read ∧ faults (.ldH d a imm) ea 2 .read ∧
    faults (.ldHu d a imm) ea 2 .read ∧ faults (.ldW d a imm) ea 4 .read ∧ faults (.ldWu d a imm) ea 4 .read ∧
    faults (.ldD d a imm) ea 8 .read ∧ faults (.ldxB d a b) ex 1 .read ∧ faults (.ldxBu d a b) ex 1 .read ∧
    faults (.ldxH d a b) ex 2 .read ∧ faults (.ldxHu d a b) ex 2 .read ∧ faults (.ldxW d a b) ex 4 .read ∧
    faults (.ldxWu d a b) ex 4 .read ∧ faults (.ldxD d a b) ex 8 .read ∧
    faults (.stB d a imm) ea 1 .write ∧ faults (.stH d a imm) ea 2 .write ∧ faults (.stW d a imm) ea 4 .write ∧
    faults (.stD d a imm) ea 8 .write ∧ faults (.stxB d a b) ex 1 .write ∧ faults (.stxH d a b) ex 2 .write ∧
    faults (.stxW d a b) ex 4 .write ∧ faults (.stxD d a b) ex 8 .write)

/-! ### Control transfer -/

/-- R140 and R142: a link register receives the address of the instruction that would have come next, the target counts
words from the instruction, or from a register; LOOP counts down and leaves at zero; a target that fails its check
traps with nothing written.
R141: the six comparisons; the target is checked only when the branch is taken.
R46 and R122: a taken branch to the second word of a unit whose P bit is 1 faults with TARGET_IN_PAIR, one that
leaves the image with PROT_EXEC; XPC holds the branch's address, XVAL the target, nothing is written. -/
def Obligations.JumpsBranches : Prop :=
  (∀ (s : State) (d a : Reg) (off : BitVec 20) (o : BitVec 13),
    let t1 := (BitVec.ofInt 64 (s.t.pc.toNat + 4 * off.toInt)).toNat
    let t2 := (BitVec.ofInt 64 ((s.gIn a).toNat + 4 * o.toInt)).toNat
    let t3 := (BitVec.ofInt 64 (s.t.pc.toNat + 4 * o.toInt)).toNat
    let cnt := BitVec.ofInt 64 ((s.gIn a).toNat - 1 : Int)
    (s.checkTarget t1 = .ok () → Does (.jal d off) s (((s.after (.jal d off)).setG d s.nextPc).goto t1)) ∧
    (s.checkTarget t1 = .ok () → Does (.j off) s ((s.after (.j off)).goto t1)) ∧
    (t2 % 4 = 0 → s.checkTarget t2 = .ok () →
      Does (.jalr d a o) s (((s.after (.jalr d a o)).setG d s.nextPc).goto t2)) ∧
    (t2 % 4 = 0 → s.checkTarget t2 = .ok () → Does (.jr a o) s ((s.after (.jr a o)).goto t2)) ∧
    (s.ready (useOf (.jr a o)) = .ok () → t2 % 4 ≠ 0 → Traps (.jr a o) s .misaligned (word t2)) ∧
    (cnt ≠ 0 → s.checkTarget t3 = .ok () →
      Does (.loop d a o) s (((s.after (.loop d a o)).setG d cnt).goto t3)) ∧
    (cnt = 0 → Does (.loop d a o) s ((s.after (.loop d a o)).setG d cnt)) ∧
    (s.ready (useOf (.jalr d a o)) = .ok () → t2 % 4 ≠ 0 → Traps (.jalr d a o) s .misaligned (word t2)) ∧
    (∀ c v, s.checkTarget t1 = .error (.trap c v false) →
      (s.ready (useOf (.jal d off)) = .ok () → Traps (.jal d off) s c v) ∧
      (s.ready (useOf (.j off)) = .ok () → Traps (.j off) s c v)) ∧
    (∀ c v, t2 % 4 = 0 → s.checkTarget t2 = .error (.trap c v false) →
      (s.ready (useOf (.jalr d a o)) = .ok () → Traps (.jalr d a o) s c v) ∧
      (s.ready (useOf (.jr a o)) = .ok () → Traps (.jr a o) s c v)) ∧
    (∀ c v, cnt ≠ 0 → s.checkTarget t3 = .error (.trap c v false) → s.ready (useOf (.loop d a o)) = .ok () →
      Traps (.loop d a o) s c v)) ∧
  (∀ (s : State) (a b : Reg) (off : BitVec 12),
    let x := s.gIn a
    let y := s.gIn b
    BranchesIf (.beq a b off) s (x = y) off.toInt ∧ BranchesIf (.bne a b off) s (x ≠ y) off.toInt ∧
    BranchesIf (.blt a b off) s (x.toInt < y.toInt) off.toInt ∧
    BranchesIf (.bge a b off) s (y.toInt ≤ x.toInt) off.toInt ∧
    BranchesIf (.bltu a b off) s (x.toNat < y.toNat) off.toInt ∧
    BranchesIf (.bgeu a b off) s (y.toNat ≤ x.toNat) off.toInt) ∧
  (∀ (s : State) (a b : Reg) (off : BitVec 12) (f : Firing) (w : BitVec 32),
    let target := (BitVec.ofInt 64 (s.t.pc.toNat + 4 * off.toInt)).toNat
    s.ready (useOf (.beq a b off)) = .ok () → s.gIn a = s.gIn b → s.t.fir = some f →
    (target % 8 = 4 → s.codeWord (target - 4) = some w → w.msb = true →
      Traps (.beq a b off) s .targetInPair (word target)) ∧
    (target % 8 ≠ 4 → (target < f.lo ∨ f.hi < target + 4) → Traps (.beq a b off) s .protExec (word target)))

/-! ### Atomics, fences, counters and barriers -/

/-- R298 and R300, near atomics of 4 and 8 bytes: b and c are the low bits of g[b] and g[c]; g[d] receives old. -/
def Obligations.AtomicsNear : Prop :=
  ∀ (s : State) (d a b c : Reg) (w : BitVec 1),
    let size := if w = 1#1 then 8 else 4
    let n := 8 * size
    let ea := s.gIn a
    let vb := (s.gIn b).toNat % 2 ^ n
    let vc := (s.gIn c).toNat % 2 ^ n
    NearAtomic (.amoadd d a b 0#1 w) s d ea size (fun old => (old + vb) % 2 ^ n) (sx n) ∧
    NearAtomic (.amoswp d a b 0#1 w) s d ea size (fun _ => vb) (sx n) ∧
    NearAtomic (.amocas d a b c 0#1 w) s d ea size (fun old => if old = vc then vb else old) (sx n) ∧
    NearAtomic (.amomin d a b 0#1 w) s d ea size
      (fun old => if (BitVec.ofNat n vb).toInt < (BitVec.ofNat n old).toInt then vb else old) (sx n) ∧
    NearAtomic (.amomax d a b 0#1 w) s d ea size
      (fun old => if (BitVec.ofNat n old).toInt < (BitVec.ofNat n vb).toInt then vb else old) (sx n) ∧
    NearAtomic (.amofadd d a b 0#1) s d ea 4
      (fun old => (fadd .rne (BitVec.ofNat 32 old) ((s.gIn b).truncate 32)).toNat) (zx 32)

/-- R301, far atomics: the request leaves at the commit of its chunk, which ends.
R303-R305: the four barrier instructions leave as requests to the object's home. -/
def Obligations.FarRequests : Prop :=
  (∀ (s : State) (d a b c : Reg) (w : BitVec 1),
    let size := if w = 1#1 then 8 else 4
    let ea := s.gIn a
    let vb := (s.gIn b).toNat % 2 ^ (8 * size)
    let vc := (s.gIn c).toNat % 2 ^ (8 * size)
    let z := (s.gIn 0#5).toNat % 2 ^ (8 * size)
    FarAtomic (.amoadd d a b 1#1 w) s 0 d ea size vb z ∧ FarAtomic (.amoswp d a b 1#1 w) s 2 d ea size vb z ∧
    FarAtomic (.amocas d a b c 1#1 w) s 3 d ea size vb vc ∧ FarAtomic (.amomin d a b 1#1 w) s 4 d ea size vb z ∧
    FarAtomic (.amomax d a b 1#1 w) s 5 d ea size vb z ∧
    FarAtomic (.amofadd d a b 1#1) s 1 d ea 4 ((s.gIn b).toNat % 2 ^ 32) ((s.gIn 0#5).toNat % 2 ^ 32)) ∧
  (∀ (s : State) (d a b : Reg),
    AsksBarrier (.barInit a b) s 0 0#5 (s.gIn a).toNat (s.gIn b).toNat ∧
    AsksBarrier (.barArv d a b) s 1 d (s.gIn a).toNat (s.gIn b).toNat ∧
    AsksBarrier (.barDrop d a b) s 2 d (s.gIn a).toNat (s.gIn b).toNat ∧
    AsksBarrier (.barWait d a b) s 3 d (s.gIn a).toNat (s.gIn b).toNat)

/-- R296 and R297: FENCE lets the firing go on when every class of its mask is done, and its chunk ends; CHEND ends
the chunk; with a class outstanding FENCE leaves no chunk open and arms its wait, which knows what was forked and
sent before it (inside a masked window the wait is MASK_WINDOW_EXCEEDED, R112, whose XVAL is a free value, log 4); behind earlier
instructions of its chunk it waits first for their commit. What counts as forked before it is the model's reading (log 72).
R112 and R117: MASKON opens a masked window with its count at 0, MASKOFF closes it; each does nothing where the
window stands so already, and for a priority-1 firing or a handler. R118: KILNRD gives its four snapshots, field by field. -/
def Obligations.FencesMasks : Prop :=
  (∀ (s : State) (cls : BitVec 7),
    let b := s.fenceBounds
    ((∀ n lo hi, (s.me.waiting s.t.level).await ≠ .fence n lo hi) → b = (s.fresh, 0, 0)) ∧
    ((cls = 0#7 ∨ s.chunkBusy = false) → (∀ k, k < 7 → cls.getLsbD k = true → s.classDone s.cur b k = true) →
      exec (.fence cls) s = .next (s.updMe fun k => k.unarm s.t.level).endAfter) ∧
    (cls ≠ 0#7 → s.chunkBusy = true → exec (.fence cls) s = .next s.stall) ∧
    (∀ k, k < 7 → cls.getLsbD k = true → s.classDone s.cur b k = false → s.chunkBusy = false →
      (s.t.maskOpen = false → ∃ t, exec (.fence cls) s = .next t ∧ t.t = s.t ∧ t.me.stayed = true ∧ t.me.chunk = none ∧
        t.me.waiting s.t.level = ⟨.fence b.1 b.2.1 b.2.2, none, none⟩ ∧ t.mem = s.mem) ∧
      (s.t.maskOpen = true →
        exec (.fence cls) s = .next (s.takeTrap .maskWindow (Config.freeXval s.fresh) s.t.pc false s.secw))) ∧
    exec .chend s = .next s.endAfter) ∧
  (∀ (s : State) (d sel : Reg),
    (s.t.special = false → s.t.maskOpen = false →
      exec .maskon s = .next (s.updT fun t => { t with maskOpen := true, maskCnt := 0 }) ∧ exec .maskoff s = .next s) ∧
    (s.t.special = false → s.t.maskOpen = true →
      exec .maskoff s = .next (s.updT fun t => { t with maskOpen := false, maskCnt := 0 }) ∧ exec .maskon s = .next s) ∧
    (s.t.special = true → exec .maskon s = .next s ∧ exec .maskoff s = .next s) ∧
    Puts (.kilnrd d sel) s d (word (s.kilnView sel.toNat)) ∧
    (let k := s.kiln s.cur s.myPart
     Shows (s.kilnView 0) [(63, 48, k.allot), (47, 34, 0), (33, 32, (s.cluster (clusterOf s.cur)).scale), (31, 16, k.low), (15, 0, k.budget)]) ∧
    (let q := s.me.runq
     Shows (s.kilnView 1) [(63, 32, min (2 ^ 32 - 1) ((q.map s.age).foldl max 0)), (31, 23, 0),
       (22, 16, (q.filter fun e => e.pri = 1).length), (15, 7, 0), (6, 0, q.length)]) ∧
    (∀ f, s.t.fir = some f → Shows (s.kilnView 2) [(63, 32, min (2 ^ 32 - 1) f.drawn), (31, 16, min (2 ^ 16 - 1) f.waited),
      (15, 3, 0), (2, 2, if f.aged then 1 else 0), (1, 0, f.cls)]) ∧
    Shows (s.kilnView 3) [(63, 32, (s.part s.myPart).dlCount), (31, 8, 0), (7, 0, (s.part s.myPart).dlCause)])

/-- R216: MBINC posts its increment to the core's own counter or to the counter at g[a], at the commit of its chunk,
which it ends; an address outside the counter region faults with PROT_WRITE.
R208 and R217: MBWAIT goes on when (VALUE - v) mod 2^32, read as signed, is at least 0, with 0 or the latch word;
under CETRAP a set latch is COUNTER_ERROR_PHASE, an imprecise cause (R37); else it waits, and inside a masked window the
wait is MASK_WINDOW_EXCEEDED (R112), whose XVAL is a free value of the model (log 4).
R218: MBRD reads VALUE and MBERR the latch word at once; MBSET and MBERR.C wait for the commit of their chunk, which they
end: there MBERR.C reads the latch into g[d] and clears it, in one step; g[d] has the word seen at its execution till then. In a
held firing that word stands, and a change of the latch before its glue-up knocks it down (log 81). -/
def Obligations.Counters : Prop :=
  (∀ (s : State) (a b : Reg) (imm : BitVec 5) (n : BitVec 6),
    let post (c k v : Nat) : Effect := .post ⟨agentOf s.cur 0, c, k, v, none⟩
    Leaves (.mbinc b n) s (post s.cur n.toNat ((s.gIn b).toNat % 2 ^ 32)) true none ∧
    Leaves (.mbincImm imm n) s (post s.cur n.toNat imm.toNat) true none ∧
    (∀ x c k, (s.after (.mbincGlobal a b)).access (s.gIn a).toNat 4 .write = .ok x → x.loc = .counter c k →
      Leaves (.mbincGlobal a b) s (post c k ((s.gIn b).toNat % 2 ^ 32)) true none) ∧
    (∀ x c k, (s.after (.mbincGlobalImm a imm)).access (s.gIn a).toNat 4 .write = .ok x → x.loc = .counter c k →
      Leaves (.mbincGlobalImm a imm) s (post c k imm.toNat) true none) ∧
    (∀ x, s.ready (useOf (.mbincGlobal a b)) = .ok () →
      (s.after (.mbincGlobal a b)).access (s.gIn a).toNat 4 .write = .ok x → (∀ c k, x.loc ≠ .counter c k) →
      Traps (.mbincGlobal a b) s .protWrite (s.gIn a))) ∧
  (∀ (s : State) (d a : Reg) (n : BitVec 6),
    let i := Instr.mbwait d a n
    let l := s.mbLatch n.toNat
    let reached := 0 ≤ (BitVec.ofNat 32 (s.mbVal n.toNat) - (s.gIn a).truncate 32).toInt
    (reached → (l.ep = false ∨ s.t.cetrap = false) →
      Does i s ((s.after i).setG d (if l.ep then word l.word else 0)).endAfter) ∧
    (reached → l.ep = true → s.t.cetrap = true → s.ready (useOf i) = .ok () →
      exec i s = .next (s.takeTrap .counterError (word l.word) s.t.pc true s.secw)) ∧
    (¬reached → s.ready (useOf i) = .ok () → s.t.maskOpen = false → exec i s = .next s.stall) ∧
    (¬reached → s.ready (useOf i) = .ok () → s.t.maskOpen = true →
      exec i s = .next (s.takeTrap .maskWindow (Config.freeXval s.fresh) s.t.pc false s.secw))) ∧
  (∀ (s : State) (d a : Reg) (n : BitVec 6),
    Puts (.mbrd d n) s d (word (s.mbVal n.toNat)) ∧
    Puts (.mberr d n) s d (word (s.mbLatch n.toNat).word) ∧
    Leaves (.mbset a n) s (.mbset n.toNat ((s.gIn a).toNat % 2 ^ 32)) true none ∧
    Leaves (.mberrC d n) s
      (.mberrClear n.toNat (if s.t.heldNow then none else some (s.t.level, d))) true (some (d, word (s.mbLatch n.toNat).word))) ∧
  (∀ (s : State) (c n level : Nat) (d : Reg) (f : Firing),
    let t (dest : Option (Nat × Reg)) := s.applyEffect c (some f) (.mberrClear n dest)
    let readBy (ch : Chunk) : Prop := latchLine c n ∈ ch.rd
    (∀ h, (s.core c).held = some h → ∀ ch ∈ h.chunks, ¬readBy ch) → (∀ ch, (s.core c).chunk = some ch → ¬readBy ch) →
    ((if level = 1 then (s.core c).t.fir1 else (s.core c).t.fir0).any (·.serial = f.serial) = true →
      ((t (some (level, d))).core c).t =
        (s.core c).t.setGAt level d (word (FMap.get Latch.clear (s.core c).mbLatch n).word)) ∧
    ((t none).core c).t = (s.core c).t ∧
    (∀ dest k, FMap.get Latch.clear ((t dest).core c).mbLatch k =
      if k = n then Latch.clear else FMap.get Latch.clear (s.core c).mbLatch k))

/-! ### Copies, racks, streams and parked registers -/

/-- R211: CPY and CPY3 capture their descriptor, write NEXTID of the channel and advance it, and leave the copy for
the commit of their chunk, which they end.
R212 and R213: CWAIT goes on when DONEID has reached its operand; CSTAT gives the channel's latch, the copies in
flight and DONEID; CSTAT.C clears the latch in the same step.
R214: PERM gives the old mask at once, and the new one takes its place at the commit of the chunk, which ends; a
reserved bit of the mask is RESERVED_BITS, whose XVAL the manual does not give (log 4). -/
def Obligations.Copies : Prop :=
  (∀ (s : State) (d a : Reg) (ch : BitVec 2) (three : Bool) (r : State × List Byte),
    let i : Instr := if three then .cpy3 d a ch else .cpy d a ch
    let id := FMap.get 1 s.t.nextId ch.toNat
    s.t.heldNow = false → (s.after i).readBlock (s.gIn a).toNat 128 = .ok r →
    (∀ off, off = 0x10 ∨ off = 0x14 → s.staleSeen (fieldAt r.2 off 4) = false) → s.copyQueueFull = false →
    s.ready (useOf i) = .ok () → ∃ t c, exec i s = .next t ∧ t.effs = s.effs ++ [.copy c] ∧ t.chunkEnds = true ∧
      c.desc = r.2 ∧ c.id = id ∧ c.ch = ch.toNat ∧ c.three = three ∧ c.inst = s.t.inst ∧ c.part = s.myPart ∧
      c.active = false ∧ c.pos = 0 ∧ c.bad = none ∧
      t.t = { (s.after i).t.setG d (word id) with nextId := FMap.put s.t.nextId ch.toNat ((id + 1) % 2 ^ 32) }) ∧
  (∀ (s : State) (d a : Reg) (ch : BitVec 2),
    let i := Instr.cwait d a ch
    let l := s.chLatch ch.toNat
    let done := FMap.get 0 s.me.eng.doneId ch.toNat
    let st := word (2 ^ 63 * b2n l.ep + 2 ^ 62 * b2n l.multi + 2 ^ 48 * l.code
      + 2 ^ 40 * (s.me.eng.copies.filter fun c => c.ch = ch.toNat).length + done)
    let reached := 0 ≤ (BitVec.ofNat 32 done - (s.gIn a).truncate 32).toInt
    Puts (.cstat d ch) s d st ∧
    Does (.cstatC d ch) s (((s.after (.cstatC d ch)).setG d st).updT fun t =>
      { t with chLatch := FMap.del t.chLatch ch.toNat }) ∧
    (reached → (l.ep = false ∨ s.t.cetrap = false) → Does i s ((s.after i).setG d (if l.ep then st else 0))) ∧
    (reached → l.ep = true → s.t.cetrap = true → s.ready (useOf i) = .ok () →
      exec i s = .next (s.takeTrap .counterError st s.t.pc true s.secw)) ∧
    (¬reached → s.ready (useOf i) = .ok () → s.t.maskOpen = false → exec i s = .next s.stall)) ∧
  (∀ (s : State) (d a : Reg),
    ((s.gIn a).toNat / 2 ^ 16 % 2 ^ 45 = 0 → Leaves (.perm d a) s (.perm (s.gIn a)) true (some (d, s.me.perm))) ∧
    ((s.gIn a).toNat / 2 ^ 16 % 2 ^ 45 ≠ 0 → s.ready (useOf (.perm d a)) = .ok () →
      Traps (.perm d a) s .reservedBits (Config.freeXval s.fresh)))

/-- R144: RKSET with BIND = 0 unbinds; with BIND = 1 it binds a record of the same geometry, or makes a firing-local
one where no rack overlaps and the firing has fewer than 16; every other word is RACK_UNBOUND: a reserved bit, a shape
that is none, a record at that base of another geometry, a rack that shares a byte, a 17th local record (its XVAL is
free, log 4).
R143, R145 and R147: with kN bound, RKWF goes on with n filled slots and RKWS with n free ones, as the running
firing sees the record; RKRD reads its four views, the rack word, the addresses of the head slot (of a dry firing's predicted head it
is the staging area's, R310) and of the tail slot, and the status, whose counts show their low 8 bits (log 86); without a binding each rack instruction faults with XVAL N.
R127 and R146: RKADV moves the record by n fills or frees, tentatively, as a move of the open chunk; more fills
than room or more frees than filled slots are RACK_OVERRUN. Fills of a rack that an output port produces into count as
its sends (log 10). R289: the lines of the slots that it frees enter the read signature; of a dry firing's predicted slot it
is the staging area's, which the firing reads in its place (R310). -/
def Obligations.Racks : Prop :=
  (∀ (s : State) (k a : Reg),
    let i := Instr.rkset k a
    let w := (s.gIn a).toNat
    let base := w % 2 ^ 11
    let r := rackOfWord w s.t.level
    let fits := w / 2 ^ 21 % 2 ^ 10 = 0 ∧ w / 2 ^ 32 = 0
    let shape := 1 ≤ w / 2 ^ 15 % 64 ∧ w / 2 ^ 11 % 16 ≤ 8 ∧
      base * 64 + (w / 2 ^ 15 % 64 + 1) * (64 * 2 ^ (w / 2 ^ 11 % 16)) ≤ 0x1C000
    (fits → w / 2 ^ 31 % 2 = 0 → Does i s ((s.after i).updT fun t => { t with binds := FMap.del t.binds k.toNat })) ∧
    (fits → w / 2 ^ 31 % 2 = 1 → shape → ∀ q, s.me.rack? base = some q → q.sz = w / 2 ^ 11 % 16 →
      q.cntm1 = w / 2 ^ 15 % 64 →
      Does i s ((s.after i).updT fun t => { t with binds := FMap.put t.binds k.toNat base })) ∧
    (fits → w / 2 ^ 31 % 2 = 1 → shape → s.me.rack? base = none →
      (s.me.racks ++ s.t.locals).any (fun p => rackOverlap base r p.1 p.2) = false → s.t.locals.length < 16 →
      ∃ t, Does i s t ∧ FMap.find? t.t.binds k.toNat = some base ∧ FMap.find? t.t.locals base = some r) ∧
    (¬fits → s.ready (useOf i) = .ok () → Traps i s .rackUnbound (Config.freeXval s.fresh)) ∧
    (s.ready (useOf i) = .ok () → fits → w / 2 ^ 31 % 2 = 1 →
      (¬shape → Traps i s .rackUnbound (Config.freeXval s.fresh)) ∧
      (shape → ∀ q, s.me.rack? base = some q → (q.sz ≠ w / 2 ^ 11 % 16 ∨ q.cntm1 ≠ w / 2 ^ 15 % 64) →
        Traps i s .rackUnbound (Config.freeXval s.fresh)) ∧
      (shape → s.me.rack? base = none → (s.me.racks ++ s.t.locals).any (fun p => rackOverlap base r p.1 p.2) = true →
        Traps i s .rackUnbound (Config.freeXval s.fresh)) ∧
      (shape → s.me.rack? base = none → (s.me.racks ++ s.t.locals).any (fun p => rackOverlap base r p.1 p.2) = false →
        16 ≤ s.t.locals.length → Traps i s .rackUnbound (Config.freeXval s.fresh)))) ∧
  (∀ (s : State) (d k : Reg) (n : BitVec 7) (sel : BitVec 2),
    (∀ b r, s.boundRack k = .ok b → s.recSeen b = .ok r →
      (n.toNat ≤ r.n → n.toNat ≤ r.nfill → Does (.rkwf k n) s (s.after (.rkwf k n))) ∧
      (n.toNat ≤ r.n → n.toNat ≤ r.room → Does (.rkws k n) s (s.after (.rkws k n))) ∧
      (r.n < n.toNat → s.ready (useOf (.rkwf k n)) = .ok () → Traps (.rkwf k n) s .rackOverrun (word n.toNat)) ∧
      (n.toNat ≤ r.n → r.nfill < n.toNat → s.ready (useOf (.rkwf k n)) = .ok () → s.t.maskOpen = false →
        exec (.rkwf k n) s = .next s.stall) ∧
      Puts (.rkrd d k sel) s d (word (s.rackView b r sel.toNat)) ∧
      Shows (s.rackView b r 0) [(63, 32, 0), (31, 31, 1), (30, 21, 0), (20, 15, r.cntm1), (14, 11, r.sz), (10, 0, b)] ∧
      (s.dryHead b = none → s.rackView b r 1 = padOfCore s.cur + b * 64 + r.free % r.n * (64 * 2 ^ r.sz)) ∧
      s.rackView b r 2 = padOfCore s.cur + b * 64 + (r.fill + r.wait) % r.n * (64 * 2 ^ r.sz) ∧
      (let m := match s.me.chunk with | some ch => ch.movesOf b | none => (0, 0)
       Shows (s.rackView b r 3) [(63, 32, 0), (31, 24, m.1 % 256), (23, 16, m.2 % 256), (15, 15, 0), (14, 8, r.room), (7, 7, 0),
         (6, 0, r.nfill)])) ∧
    (FMap.find? s.t.binds k.toNat = none →
      (s.ready (useOf (.rkrd d k sel)) = .ok () → Traps (.rkrd d k sel) s .rackUnbound (word k.toNat)) ∧
      Traps (.rkwf k n) s .rackUnbound (word k.toNat) ∧ Traps (.rkws k n) s .rackUnbound (word k.toNat) ∧
      (∀ w, Traps (.rkadv k n w) s .rackUnbound (word k.toNat)))) ∧
  (∀ (s : State) (k : Reg) (n : BitVec 7) (b : Nat) (r : Rack),
    s.boundRack k = .ok b → s.recSeen b = .ok r →
    (n.toNat ≤ r.room → ∀ s1,
      (match s.myOut b with
        | some p => (s.after (.rkadv k n 1#1)).countSent p n.toNat
        | none => .ok (s.after (.rkadv k n 1#1))) = .ok s1 →
      Does (.rkadv k n 1#1) s (s1.withChunk fun ch =>
        { ch with moves := FMap.upd (0, 0) ch.moves b fun p => (p.1 + n.toNat, p.2) })) ∧
    (n.toNat ≤ r.nfill → ∀ s1, (s.after (.rkadv k n 0#1)).countFree b n.toNat = .ok s1 → s1.t.claimed b = 0 →
      ∃ t ch, Does (.rkadv k n 0#1) s t ∧ t.t = s1.t ∧ t.me.chunk = some ch ∧
        ch = { s1.me.open' with rd := ch.rd, moves := FMap.upd (0, 0) s1.me.open'.moves b fun p => (p.1, p.2 + n.toNat) } ∧
        (∀ l, l ∈ ch.rd ↔ l ∈ s1.me.open'.rd ∨
          l ∈ s.popLines b r n.toNat) ∧
        (s.t.heldNow = false → ∀ l, l ∈ ch.rd ↔ l ∈ s1.me.open'.rd ∨
          ∃ i ∈ span r.free n.toNat, l ∈ linesOf (padOfCore s.cur + r.slotOff b i) r.slotSize)) ∧
    (r.room < n.toNat → s.ready (useOf (.rkadv k n 1#1)) = .ok () →
      Traps (.rkadv k n 1#1) s .rackOverrun (word n.toNat)) ∧
    (r.nfill < n.toNat → s.ready (useOf (.rkadv k n 0#1)) = .ok () →
      Traps (.rkadv k n 0#1) s .rackOverrun (word n.toNat)))

/-- R148: STBIND reads 64 bytes, checks the descriptor, binds the register and leaves the refill for the commit of its
chunk; STUNB ends the binding, which a squash brings back. Both end the chunk. R28, R130: a general register that a
priority-1 firing binds is its own, and another binding of that register stays: the model's reading (log 8).
R133 and R149: PARK parks the named registers among g1-g31 that are neither bound nor parked, UNPARK takes the
named ones back; neither changes a value, nor whether any other register is parked, and for a priority-1 firing or a handler neither
does anything. -/
def Obligations.StreamsParking : Prop :=
  (∀ (s : State) (t a : Reg) (vec : BitVec 1),
    let i := Instr.stbind t a vec
    let key := if vec = 1#1 then 32 + t.toNat else if s.t.level = 1 then 64 + t.toNat else t.toNat
    (∀ r, (s.after i).readBlock (s.gIn a).toNat 64 = .ok r →
      let x := streamOf r.2 (vec = 1#1) (!s.t.sup) s.t.level s.t.serial
      s.streamBad r.2 x (vec = 1#1) = none → s.ready (useOf i) = .ok () → ∃ u, exec i s = .next u ∧
        u.effs = s.effs ++ [.streamGo key s.t.serial] ∧ u.chunkEnds = true ∧
        u.t = { (s.after i).t with streams := FMap.put (s.after i).t.streams key x }) ∧
    (∃ u, exec (.stunb t vec) s = .next u ∧ u.effs = s.effs ∧ u.chunkEnds = true ∧
      u.t = { s.t with streams := FMap.del s.t.streams key })) ∧
  (∀ (s : State) (a : Reg),
    (s.t.special = true → Does (.park a) s (s.after (.park a)) ∧ Does (.unpark a) s (s.after (.unpark a))) ∧
    (s.t.special = false → s.ready (useOf (.park a)) = .ok () → ∃ t, exec (.park a) s = .next t ∧
      t.t = { (s.after (.park a)).t with park := t.t.park } ∧
      ∀ q, FMap.find? t.t.park q =
        if 1 ≤ q ∧ q < 32 ∧ (s.gIn a).toNat.testBit q = true ∧ (s.after (.park a)).t.bound q = none ∧
          FMap.find? (s.after (.park a)).t.park q = none then some 0 else FMap.find? (s.after (.park a)).t.park q) ∧
    (s.t.special = false → s.ready (useOf (.unpark a)) = .ok () → ∃ t, exec (.unpark a) s = .next t ∧
      t.t = { (s.after (.unpark a)).t with park := t.t.park } ∧
      ∀ p, p ∈ t.t.park ↔ p ∈ (s.after (.unpark a)).t.park ∧ (s.gIn a).toNat.testBit p.1 = false))

/-! ### The matrix unit and Marquetry -/

/-- R222: a queued matrix command on slot `d` completes: it is checked and given its slot (a shadow slot in a held
firing, R311), and leaves for the commit of its chunk, with the parameter copy captured; `ends` tells whether it ends
that chunk.
R228, R229 and R240: MMAR takes B, and A in its second form, from the head slot of a rack or from a link; bits 2
and 3 of LAY tell whether a claimed slot of A or of B is freed at completion. -/
def Obligations.MatrixCommands : Prop :=
  (∀ (s : State) (d a b c : Reg) (s1 : State) (m : Nat),
    let queues (i : Instr) (op : MatOp) (ends : Bool) : Prop :=
      s.checkSlot d.toNat = .ok () → (s.after i).slotFor d.toNat = .ok (s1, m) → s1.matQueueFull = false →
      s.ready (useOf i) = .ok () → ∃ t, exec i s = .next t ∧ t.effs = s1.effs ++ [.mat (s1.matCmd op m)] ∧
        (ends = true → t.chunkEnds = true) ∧ t.t = s1.t
    queues (.mma d a b) (.mma (.addr (s.gIn a).toNat) (.addr (s.gIn b).toNat)) true ∧
    queues (.mmag d a b c) (.mmag (s.gIn a).toNat (s.vIn b) (s.gIn c).toNat) true ∧
    queues (.mldc d a) (.mldc (s.gIn a).toNat) true ∧
    (s.checkSlot d.toNat = .ok () → s.slotFor d.toNat = .ok (s1, m) → s1.matQueueFull = false →
      ∃ t, exec (.mzero d) s = .next t ∧ t.effs = s1.effs ++ [.mat (s1.matCmd .mzero m)] ∧ t.t = s1.t) ∧
    (s.t.heldNow = false →
      queues (.mdrain d a) (.mdrain (s.gIn a).toNat) true ∧ queues (.msave d a) (.msave (s.gIn a).toNat) true ∧
      queues (.mrest d a) (.mrest (s.gIn a).toNat) true)) ∧
  (∀ (s : State) (d a b : Reg) (s1 s2 s3 : State) (m : Nat) (p q : Src),
    (s.checkSlot d.toNat = .ok () → (s.after (.mmar d a b)).slotFor d.toNat = .ok (s1, m) →
      s1.srcOf b ((s1.lay m).testBit 3) = .ok (s2, q) → s2.matQueueFull = false →
      s.ready (useOf (.mmar d a b)) = .ok () → ∃ t, exec (.mmar d a b) s = .next t ∧
        t.effs = s2.effs ++ [.mat (s2.matCmd (.mma (.addr (s.gIn a).toNat) q) m)] ∧ t.chunkEnds = true ∧ t.t = s2.t) ∧
    (s.checkSlot d.toNat = .ok () → (s.after (.mmarAk d a b)).slotFor d.toNat = .ok (s1, m) →
      s1.srcBound a = .ok () → s1.srcBound b = .ok () → s1.srcOf a ((s1.lay m).testBit 2) = .ok (s2, p) →
      s2.srcOf b ((s1.lay m).testBit 3) = .ok (s3, q) → s3.matQueueFull = false →
      s.ready (useOf (.mmarAk d a b)) = .ok () → ∃ t, exec (.mmarAk d a b) s = .next t ∧
        t.effs = s3.effs ++ [.mat (s3.matCmd (.mma p q) m)] ∧ t.chunkEnds = true ∧ t.t = s3.t))

/-- R219, R220, R221 and R238: MOWN takes every named slot or none, and gives the slots that stood in the way; a taken
slot is cleared. MFREE leaves the named slots for the commit of its chunk. For every command that names a slot, one held by a trap
is ACC_HELD and one not owned ACC_UNOWNED, for MFREE and MWAIT the lowest such slot of their mask; MSTAT of a held one is ACC_HELD.
R239: MPAR copies 64 bytes to the slot's parameter copy and clears DCNT. R242: the register form of MDRAIN waits
for the slot's commands, delivers one row and counts it in DCNT.
R244, R245, R267: MSTAT and MSTAT.C read a slot's status, field by field; MWAIT goes on when no named slot has a command left and
gives the latched slots with the code of the lowest, or under CETRAP takes COUNTER_ERROR_PHASE with that word, an imprecise cause; KVAR and KSTAT read the side word and the Kerf status of a slot
without commands; in a held firing these three, too, work on shadow slots (R311). -/
def Obligations.AccumulatorSlots : Prop :=
  (∀ (s : State) (d a : Reg),
    let want := (span 0 32).filter fun k => (s.gIn a).toNat.testBit k
    let bad := want.filter fun k => !s.slotFree k && !s.ownsSlot k
    let i := Instr.mown d a
    (bad ≠ [] → Does i s ((s.after i).setG d (word (bad.foldl (fun m k => m + 2 ^ k) 0)))) ∧
    (bad = [] → s.ready (useOf i) = .ok () → ∃ t, exec i s = .next t ∧ (d ≠ 0#5 → t.t.g d = 0) ∧
      (∀ k, k ∈ want → s.slotFree k = true → t.slot k = { Slot.free with owner := some s.t.inst }) ∧
      (∀ k, (k ∉ want ∨ s.slotFree k = false) → t.slot k = s.slot k)) ∧
    (∀ k w, want = k :: w → allOk s.checkSlot want = .ok () → Leaves (.mfree a) s (.mfree want) false none) ∧
    (want = [] → Does (.mfree a) s (s.after (.mfree a))) ∧
    (∀ w k r, want = w ++ k :: r → allOk s.checkSlot w = .ok () →
      let refuses (i : Instr) : Prop := s.ready (useOf i) = .ok () →
        ((s.slot k).held = true → Traps i s .accHeld (word k)) ∧
        ((s.slot k).held = false → s.ownsSlot k = false → Traps i s .accUnowned (word k))
      refuses (.mfree a) ∧ refuses (.mwait d a))) ∧
  (∀ (s : State) (d a b c v : Reg) (n : BitVec 4) (m : BitVec 8),
    let refuses (i : Instr) : Prop := s.ready (useOf i) = .ok () →
      ((s.slot d.toNat).held = true → Traps i s .accHeld (word d.toNat)) ∧
      ((s.slot d.toNat).held = false → s.ownsSlot d.toNat = false → Traps i s .accUnowned (word d.toNat))
    refuses (.mzero d) ∧ refuses (.mma d a b) ∧ refuses (.mmar d a b) ∧ refuses (.mmarAk d a b) ∧ refuses (.mmag d a b c) ∧
    refuses (.mldc d a) ∧ refuses (.mdrainReg d v n) ∧ refuses (.mpar d a) ∧ refuses (.kvar v d) ∧ refuses (.kstat v d) ∧
    (s.t.heldNow = false → refuses (.mdrain d a) ∧ refuses (.msave d a) ∧ refuses (.mrest d a) ∧ refuses (.kmma d a m)) ∧
    ((s.slot d.toNat).held = true → s.ready (useOf (.mstat v d)) = .ok () →
      Traps (.mstat v d) s .accHeld (word d.toNat) ∧ Traps (.mstatC v d) s .accHeld (word d.toNat))) ∧
  (∀ (s : State) (d a v : Reg) (n : BitVec 4) (s1 : State) (m : Nat) (r : State × List Byte),
    (s.checkSlot d.toNat = .ok () → (s.after (.mpar d a)).slotFor d.toNat = .ok (s1, m) →
      s1.readBlock (s.gIn a).toNat 64 = .ok r → s.ready (useOf (.mpar d a)) = .ok () →
      ∃ t, exec (.mpar d a) s = .next t ∧ t.slot m = { s1.slot m with par := r.2, dcnt := 0 } ∧
        ∀ k, k ≠ m → t.slot k = s1.slot k) ∧
    (s.checkSlot d.toNat = .ok () → (s.after (.mdrainReg d v n)).slotFor d.toNat = .ok (s1, m) → s.slotBusy m = false →
      fieldAt (s1.slot m).par 0xD 1 ≤ 11 → fieldAt (s1.slot m).par 0xE 1 ≤ 1 →
      Does (.mdrainReg d v n) s ((s1.updT fun t =>
        { t with slots := FMap.put t.slots m { s1.slot m with dcnt := ((s1.slot m).dcnt + 1) % 2 ^ 16 } }).putV v
          (drainRow (s1.slot m) n.toNat)))) ∧
  (∀ (s : State) (d n a : Reg),
    ((s.slot n.toNat).held = false →
      Puts (.mstat d n) s d (s.mstatWord n.toNat) ∧
      (s.ownsSlot n.toNat = true → Leaves (.mstatC d n) s (.mstatClear n.toNat) false (some (d, s.mstatWord n.toNat))) ∧
      (s.ownsSlot n.toNat = false → Puts (.mstatC d n) s d 0 ∧ s.mstatWord n.toNat = 0) ∧
      (s.ownsSlot n.toNat = true →
        let k := s.slotSeen n.toNat
        let x := s.slot k
        Shows (s.mstatWord n.toNat).toNat [(63, 63, 1), (62, 61, 0), (60, 60, if x.latch.ep then 1 else 0),
          (59, 59, if x.latch.multi then 1 else 0), (58, 56, 0), (55, 48, x.latch.code),
          (47, 40, ((s.me.eng.mat ++ s.me.eng.aside ++ s.matPending).filter fun m => m.slot = k).length), (39, 32, 0),
          (31, 16, x.dcnt), (15, 0, 0)])) ∧
    (let want := (span 0 32).filter fun k => (s.gIn a).toNat.testBit k
     let i := Instr.mwait d a
     allOk s.checkSlot want = .ok () → ∀ s1, (s.after i).slotsFor want = .ok s1 →
     want.any (fun k => s1.slotBusy (s1.slotSeen k)) = false →
     ((s1.mwaitWord want = 0 ∨ s.t.cetrap = false) → Does i s (s1.setG d (word (s1.mwaitWord want))).endAfter) ∧
     (s1.mwaitWord want ≠ 0 → s.t.cetrap = true → s.ready (useOf i) = .ok () →
       exec i s = .next (s.takeTrap .counterError (word (s1.mwaitWord want)) s.t.pc true s.secw))) ∧
    (s.checkSlot n.toNat = .ok () → ∀ s1 m,
      ((s.after (.kvar d n)).slotFor n.toNat = .ok (s1, m) → s1.slotBusy m = false →
        Does (.kvar d n) s (s1.setG d (zext (s1.slot m).side))) ∧
      ((s.after (.kstat d n)).slotFor n.toNat = .ok (s1, m) → s1.slotBusy m = false →
        Does (.kstat d n) s (s1.setG d (s1.slot m).kstat))))

/-- R249, R251, R265, R266 and R268: GAUGE and KMMA capture their 64-byte block and leave for the commit of their
chunk, which they end; KMMA writes VALID, DFMT and DRND of its slot's parameter copy and captures its seed. SEEDW and
SEEDR move 32 bits of a seed register. -/
def Obligations.KerfCommands : Prop :=
  ∀ (s : State) (d a : Reg) (mb : BitVec 6) (sel : BitVec 2) (m : BitVec 8) (r : State × List Byte),
    (s.t.heldNow = false → (s.after (.gauge a mb sel)).kerfBlock (s.gIn a).toNat = .ok r → r.1.matQueueFull = false →
      s.ready (useOf (.gauge a mb sel)) = .ok () → ∃ t, exec (.gauge a mb sel) s = .next t ∧
        t.effs = s.effs ++ [.mat (r.1.matCmd (.gauge r.2 mb.toNat sel.toNat) 32)] ∧ t.chunkEnds = true ∧ t.t = r.1.t) ∧
    (s.t.heldNow = false → s.checkSlot d.toNat = .ok () → (s.after (.kmma d a m)).kerfBlock (s.gIn a).toNat = .ok r →
      r.1.matQueueFull = false → s.ready (useOf (.kmma d a m)) = .ok () → ∃ t c, exec (.kmma d a m) s = .next t ∧
        t.effs = s.effs ++ [.mat c] ∧ t.chunkEnds = true ∧ c.slot = d.toNat ∧
        c.op = .kmma r.2 m.toNat (s.t.seed (fieldAt r.2 0x2F 1 % 8)) ∧
        (t.slot d.toNat).par = kerfPar (r.1.slot d.toNat).par r.2) ∧
    (d.toNat < 8 → s.ready (useOf (.seedw d a)) = .ok () → ∃ t, exec (.seedw d a) s = .next t ∧
      t.t.seed d.toNat = (s.gIn a).truncate 32 ∧ ∀ k, k ≠ d.toNat → t.t.seed k = s.t.seed k) ∧
    Puts (.seedr d a) s d (zext (s.t.seed a.toNat))

/-- R282-R285: MQDEF registers the descriptor it reads and gives NTOT; MQLD sums weighted table values, MQSC and MQZ
leave as commands that end their chunk, with coordinates and gradients captured; MQSTAT describes a registered
descriptor, field by field, its level fields zero from level L on, and gives 0 for another address. -/
def Obligations.MarquetryInstructions : Prop :=
  ∀ (s : State) (d a c b : Reg),
    let g := (s.gIn a).toNat
    let w := (s.gIn b).toNat
    let regs := s.mqRange d a b
    (∀ r, (s.after (.mqdef d a)).readBlock g 128 = .ok r → mqBad r.2 = false →
      (s.regionSeen s.myPart (mqThnd r.2)).isSome = true → s.staleSeen (mqGhnd r.2) = false →
      ((s.mqAt g).isSome = true ∨ s.t.mqSet.length < 8) →
      Does (.mqdef d a) s ((r.1.updT fun t => t.mqPut g r.2).setG d (word (mqTot r.2)))) ∧
    (∀ desc r accs, let u := { useOf (.mqld d a c b) with wv := regs }
      let s0 := s.take u
      let sums := mqReads desc (w % 16) (w / 16 % 16) (s.vIn c).toList
      let addr (n : Nat) := (r.base + 4 * n) % 2 ^ 64
      s.ready u = .ok () → s.mqCheck g w d.toNat false true = .ok desc →
      s.regionSeen s.myPart (mqThnd desc) = some r → r.r = true →
      s.mqBadSlot desc r (sums.flatMap fun l => l.map fun p => addr p.1) = none →
      s0.slotAccs .read (sums.flatMap fun l => l.map fun p => addr p.1) = .ok accs →
      let vals := List.zip (sums.flatMap fun l => l.map (·.2)) (accs.map fun x => BitVec.ofNat 32 (s0.slotIn x).bits32)
      let feats := (span 0 sums.length).map fun i => mqSum ((vals.drop (2 ^ mqD desc * i)).take (2 ^ mqD desc))
      exec (.mqld d a c b) s = .next ((List.zip regs (span 0 regs.length)).foldl
        (fun s p => s.putV p.1 (stripLanes (feats.drop (16 * p.2)))) (s0.noteSlots accs))) ∧
    (∀ desc, s.t.heldNow = false → (s.regionSeen s.myPart (mqGhnd desc)).isSome = true →
      (let u := { useOf (.mqsc d a c b) with rv := c :: regs }
       s.ready u = .ok () → s.mqCheck g w d.toNat true true = .ok desc →
       (s.take u).me.eng.mq.length - 1 + (s.take u).mqPending < 2 → ∃ t m, exec (.mqsc d a c b) s = .next t ∧
         t.effs = (s.take u).effs ++ [.mq m] ∧ t.chunkEnds = true ∧ m.zero = false ∧ m.desc = desc ∧ m.lo = w % 16 ∧
         m.hi = w / 16 % 16 ∧ m.mb = w / 256 % 64 ∧ m.pt = (s.vIn c).toList ∧
         m.grad = regs.flatMap fun r => (s.vIn r).toList) ∧
      (s.ready (useOf (.mqz a b)) = .ok () → s.mqCheck g w 0 true false = .ok desc →
       (s.after (.mqz a b)).me.eng.mq.length - 1 + (s.after (.mqz a b)).mqPending < 2 → ∃ t m, exec (.mqz a b) s = .next t ∧
         t.effs = s.effs ++ [.mq m] ∧ t.chunkEnds = true ∧ m.zero = true ∧ m.desc = desc ∧ m.mb = w / 256 % 64)) ∧
    (∀ desc, s.mqAt g = some desc → Puts (.mqstat d a b) s d (word (mqStatWord desc (w % 16)))) ∧
    (∀ desc l, let lv (n : Nat) : Nat := if l < mqL desc then n else 0
      Shows (mqStatWord desc l) [(63, 63, 1), (62, 62, lv 1), (61, 61, lv (if mqDense desc l then 1 else 0)), (60, 56, lv (mqLog desc l)),
        (55, 40, lv (mqN desc l)), (39, 37, mqD desc - 1), (36, 33, mqL desc - 1), (32, 31, bits (mqCfg desc) 8 7),
        (30, 0, lv (mqBase desc l))]) ∧
    (s.mqAt g = none → Puts (.mqstat d a b) s d 0)

/-! ### Messages, launches, dry-fit, collectives and transport -/

/-- R114: SEND reads its packet from memory, SENDP from three registers; OPORT aims it; it takes an outbox entry and
leaves at the commit of its chunk, which ends. ORDSEND sends with a timestamp (R324). A full outbox waits.
R20, R95, R115, R116: DONE, STEP and HOP end the firing at the commit of their chunk, which ends; HOP sends the
named registers after a header that holds the destination. In a handler each is DOUBLE_TRAP, whose XVAL is a free value
of the model (log 4). -/
def Obligations.MessagesEnds : Prop :=
  (∀ (s : State) (a b c : Reg) (oport : BitVec 4) (eret : BitVec 1) (eport : BitVec 3) (r p : State × List Byte)
    (q : State × Pkt),
    (let i := Instr.send a oport eret eport
     (s.after i).readPacket (s.gIn a).toNat = .ok r →
     r.1.aim r.2 oport.toNat (if eret = 1#1 then (s.myHandle + 1, eport.toNat) else (0, 0)) = .ok q →
     q.1.outboxRoom q.1.t.special = true → Does i s (q.1.effect (.send q.2 q.1.t.special)).endAfter) ∧
    (let i := Instr.sendp a b c oport
     let hdr := (s.gIn a).toNat
     let pkt := leBytes 8 hdr ++ leBytes 8 (s.gIn b).toNat ++ leBytes 8 (s.gIn c).toNat ++ rep 8 0#8
     hdr / 2 ^ 51 % 8 = 0 → hdrMalformed hdr = false → hdrLen hdr = 32 →
     (s.after i).aim pkt oport.toNat (0, 0) = .ok q →
     (q.1.outboxRoom q.1.t.special = true → Does i s (q.1.effect (.send q.2 q.1.t.special)).endAfter) ∧
     (q.1.outboxRoom q.1.t.special = false → s.t.maskOpen = false → s.ready (useOf i) = .ok () →
       exec i s = .next s.stall)) ∧
    (let i := Instr.ordsend a b oport
     (s.after i).readPacket (s.gIn a).toNat = .ok p → p.1.aim p.2 oport.toNat (0, 0) = .ok q →
     q.1.outboxRoom q.1.t.special = true →
     Does i s (q.1.effect (.send { q.2 with ts := (s.gIn b).toNat % 2 ^ 32 + 1 } q.1.t.special)).endAfter)) ∧
  (∀ (s : State) (a b : Reg),
    (s.t.inTrap = false →
      (∃ t, exec .done s = .next t ∧ t.effs = s.effs ++ [.ends 0] ∧ t.chunkEnds = true ∧ t.t = s.t) ∧
      (∃ t, exec .step s = .next t ∧ t.effs = s.effs ++ [.ends 2] ∧ t.chunkEnds = true ∧ t.t = s.t) ∧
      (∀ f, s.t.fir = some f →
        let named := hopRegs (s.gIn a).toNat
        let u := { useOf (.hop a b) with rg := a :: b :: named }
        let pkt := hopPacket (s.gIn b).toNat f.pri f.cls (named.map s.gIn)
        s.ready u = .ok () → (s.gIn b).toNat / 2 ^ 51 = 0 → (s.take u).outboxRoom (s.take u).t.special = true →
        ∃ t, exec (.hop a b) s = .next t ∧
          t.effs = s.effs ++ [.send ((s.take u).pktOf pkt (0, 0)) (s.take u).t.special, .ends 1] ∧ t.chunkEnds = true)) ∧
    (s.t.inTrap = true → Traps .done s .doubleTrap (Config.freeXval s.fresh) ∧
      Traps .step s .doubleTrap (Config.freeXval s.fresh) ∧ Traps (.hop a b) s .doubleTrap (Config.freeXval s.fresh)))

/-- R94-R97: LAUNCH and LAUNCHI send a launch request of 64 bytes to the launch actor; ACTNEW gives the handle of the
next instance and leaves its creation for the commit; ACTEND marks the firing; LCHSTAT reads a launch's status, field by field, and
STATE 5 alone for another generation. -/
def Obligations.LaunchInstructions : Prop :=
  ∀ (s : State) (d a b c : Reg),
    (let i := Instr.launch a b
     let s0 := s.after i
     let pkt := launchPacket 0 (s.gIn a).toNat (s.gIn b).toNat 0 0 0
     s.t.heldNow = false →
     (s.gIn a).toNat % 64 = 0 → (s.gIn b).toNat % 16 = 0 → s0.outboxRoom s0.t.special = true →
     Leaves i s (.send (s0.pktOf pkt (0, 0)) s0.t.special) true none) ∧
    (let i := Instr.launchi a b c
     ∀ w x, s.t.heldNow = false → (s.gIn a).toNat % 64 = 0 → (s.gIn b).toNat % 16 = 0 → (s.gIn c).toNat % 32 = 0 →
     (s.after i).readWords (s.gIn c).toNat 2 = .ok w → w.1.access ((s.gIn c).toNat + 16) 4 .read = .ok x →
     fieldAt w.2 0 8 % 4 = 0 →
     let s1 := (w.1.noteRead x).ioSeal x
     let pkt := launchPacket 1 (s.gIn a).toNat (s.gIn b).toNat (fieldAt w.2 0 8) (fieldAt w.2 8 8) (leVal (w.1.rawRead x))
     s1.outboxRoom s1.t.special = true → Does i s (s1.effect (.send (s1.pktOf pkt (0, 0)) s1.t.special)).endAfter) ∧
    (let v := (s.gIn a).toNat
     ∀ i l, FMap.find? s.insts s.t.inst = some i → s.launchOf i = some l → v < l.actors.length →
     let n := (at' ⟨[], 0⟩ l.actors v).count + s.newPending i.lslot v
     n < 65536 → l.actors.foldl (fun t x => t + x.count) 0
       + (span 0 l.actors.length).foldl (fun t x => t + s.newPending i.lslot x) 0 < 1048576 →
     s.t.heldNow = false → Leaves (.actnew d a) s (.actnew i.lslot v) false
       (some (d, word (i.lslot * 2 ^ 36 + v * 2 ^ 28 + n * 2 ^ 12 + s.genOf i.part i.lslot)))) ∧
    (∃ t, exec .actend s = .next t ∧ t.t.fir = s.t.fir.map fun f => { f with actend := true }) ∧
    Puts (.lchstat d a) s d (word (s.lchWord s.myPart (s.gIn a).toNat)) ∧
    (∀ p v, let l := bits v 11 0
      (s.genOf p l ≠ bits v 23 12 → s.lchWord p v = 5 * 2 ^ 8) ∧
      (s.genOf p l = bits v 23 12 → FMap.find? (s.part p).slots l = none → s.lchWord p v = 0) ∧
      (s.genOf p l = bits v 23 12 → ∀ x, FMap.find? (s.part p).slots l = some x →
        Shows (s.lchWord p v) [(63, 43, if x.st = 1 then x.total else s.live p l), (42, 27, x.step % 2 ^ 16), (26, 24, 0),
          (23, 20, s.dmask p l), (19, 17, 0), (16, 16, bits (fieldAt x.head 0x12 1) 1 1), (15, 12, 0), (11, 8, x.st), (7, 0, x.cause)]))

/-- R320-R322: with kN bound, RKPRED marks and unmarks a rack, DFIT arms and disarms it, DFTOL sets the tolerances,
DFSTAT reads its status, field by field; the marks of the other racks stay; a rack marked anew captures its versions from the commit on
(R307; the field `anew`). That unmarking drops the arming is the model's choice
(log 23).
R317 and R323: ORDT orders a firing as its first instruction, and holds it until its turn; its other forms read
NEXT, set it at the commit, and read the firing's own timestamp. That a firing held for its turn has at least depth 1 is
the model's choice (log 35), and the XVAL of ORDER_TIMESTAMP is a free value of the model (log 4). -/
def Obligations.DryFitOrder : Prop :=
  (∀ (s : State) (d k a : Reg) (b : Nat) (r : Rack),
    let v := (s.gIn a).toNat
    let key := windowKey (padOfCore s.cur) 0x20000 v
    let dsc := FMap.get 0 s.winsIn key
    s.boundRack k = .ok b → s.recSeen b = .ok r →
    (s.t.special = false → v = 0 → Does (.rkpred k a) s ((s.after (.rkpred k a)).setMark b fun m =>
      { m with pred := false, armed := none, vers := [], anew := false })) ∧
    (s.t.special = false → 1 ≤ v → v < 16 → wValid dsc = true → wbits dsc 9 8 = 0 → r.sz ≤ 6 →
      ((s.markOf b).pred = true ∨ (s.marksIn (clusterOf s.cur) s.cur < 16 ∧
        s.reserveRoom (clusterOf s.cur) s.cur 8192 = true)) →
      Does (.rkpred k a) s (((s.after (.rkpred k a)).noteLines [descLine key]).setMark b fun m =>
        { m with pred := true, fmt := wFmt dsc, anew := m.anew || !m.pred })) ∧
    (s.t.special = false → (s.markOf b).pred = true → s.rateOnePort b = true →
      (v = 0 → Does (.dfit k a) s ((s.after (.dfit k a)).setMark b fun m => { m with armed := none })) ∧
      (v ≠ 0 → v % 64 = 0 → s.stagingOk v r.slotSize = true →
        Does (.dfit k a) s ((s.after (.dfit k a)).setMark b fun m =>
          { m with armed := some v, tolAbs := 0#32, tolRel := 0#32 }))) ∧
    (let lo : Lane := (s.gIn a).truncate 32
     let hi : Lane := ((s.gIn a) >>> 32).truncate 32
     (Machine.Num.ofBits lo).isNan = false → flt lo 0#32 = false → (Machine.Num.ofBits hi).isNan = false →
     flt hi 0#32 = false →
     Does (.dftol k a) s ((s.after (.dftol k a)).setMark b fun m => { m with tolAbs := lo, tolRel := hi })) ∧
    Puts (.dfstat d k) s d (word (s.dfWord b)) ∧
    (let m := s.markOf b
     let dry : Bool := match s.me.held with | some h => h.fir.dry = some b && !h.accepted | none => false
     Shows (s.dfWord b) [(63, 63, if m.pred then 1 else 0), (62, 62, if m.armed.isSome then 1 else 0), (61, 61, if dry then 1 else 0),
       (60, 59, if m.pred then m.vers.length else 0), (58, 56, 0), (55, 48, m.acc), (47, 40, m.rej), (39, 32, m.lastCause),
       (31, 0, m.lastErr.toNat)]) ∧
    (s.t.special = true → s.ready (useOf (.rkpred k a)) = .ok () → Traps (.rkpred k a) s .dryfitSetup (s.gIn a))) ∧
  (∀ (s : State) (d a : Reg) (f : Firing),
    let t := (s.gIn a).toNat % 2 ^ 32
    let i := Instr.ordt a
    s.t.fir = some f →
    (f.ran = 0 → f.ord = none → s.t.special = false → s.orderBad s.cur f.part f.inst t = false → f.held = false →
      (s.nextOf s.cur f.part = t → s.ready (useOf i) = .ok () → ∃ u, exec i s = .next u ∧
        u.t.fir = some { f with ord := some t } ∧ u.me.held = s.me.held) ∧
      (s.nextOf s.cur f.part ≠ t → s.me.held = none → s.ready (useOf i) = .ok () → ∃ u h, exec i s = .next u ∧
        u.t.fir = some { f with ord := some t, held := true, depth := max f.depth 1 } ∧ u.me.held = some h ∧
        h.fir = { f with ord := some t, held := true, depth := max f.depth 1 } ∧ h.chunks = [] ∧ h.shadow = [] ∧
        h.accepted = false ∧ h.ended = false)) ∧
    ((f.ran ≠ 0 ∨ f.ord.isSome = true ∨ s.t.special = true) → s.ready (useOf i) = .ok () →
      Traps i s .orderTimestamp (Config.freeXval s.fresh)) ∧
    Puts (.ordtReadNext d) s d (word (s.nextOf s.cur s.myPart)) ∧
    (s.orderedIn (clusterOf s.cur) s.myPart = [] → Leaves (.ordtSetNext a) s (.setNext t) false none) ∧
    (∀ n, f.ord = some n → Puts (.ordtReadT d) s d (word (2 ^ 32 + n))) ∧
    (f.ord = none → Puts (.ordtReadT d) s d 0))

/-- R343-R346: DVCFG replaces a group context that has nothing in flight; DVINJ leaves a 64-byte injection and gives its
number; DVEXT takes the oldest strip of the extraction queue; DVSTAT and DVSTAT.C read a context's status, field by field; RANK is 0
until something first changes the context (log 86).
R337, R347-R349: XPOST registers a live writable handle that allows remote placement and tells whether it was
registered; XSEND leaves a 64-byte send and gives its number.
R340, R349: XCC gives a node's congestion window in packets, round trip time, marked packets among the last 256
acknowledged and queue depth, each up to the largest value of its field, and 0 for a node without a record. The XVAL of
DOVETAIL_GROUP, the window and the round trip time are free values of the model (log 4); what counts as queue depth, and
that a core has 66 injections outstanding at most, are its readings (log 25). -/
def Obligations.CollectivesTransport : Prop :=
  (∀ (s : State) (d a : Reg) (grp : BitVec 6) (r : State × List Byte), s.t.heldNow = false →
    (s.dvFlight s.myPart grp.toNat = 0 → s.gIn a = 0 → Leaves (.dvcfg d a grp) s (.dvcfg grp.toNat []) true (some (d, 0))) ∧
    (s.dvFlight s.myPart grp.toNat = 0 → s.gIn a ≠ 0 → (s.after (.dvcfg d a grp)).readBlock (s.gIn a).toNat 64 = .ok r →
      gBad r.2 (s.cfg s.myPart 8 40) = false →
      Leaves (.dvcfg d a grp) s (.dvcfg grp.toNat r.2) true (some (d, word (gCount r.2)))) ∧
    (s.dvFlight s.myPart grp.toNat ≠ 0 → s.gIn a = 0 → s.ready (useOf (.dvcfg d a grp)) = .ok () →
      Traps (.dvcfg d a grp) s .dovetailGroup (Config.freeXval s.fresh)) ∧
    ((s.after (.dvinj d a)).readBlock (s.gIn a).toNat 64 = .ok r → s.dvOccupied < 66 →
      s.ready (useOf (.dvinj d a)) = .ok () → ∃ t x, exec (.dvinj d a) s = .next t ∧ t.effs = s.effs ++ [.dvinj x] ∧
        t.chunkEnds = true ∧ x.core = s.cur ∧ x.entry = r.2 ∧ x.inst = s.t.inst ∧
        t.t = { (s.after (.dvinj d a)).t.setG d (word s.t.dvCount) with dvCount := (s.t.dvCount + 1) % 2 ^ 32 }) ∧
    (∀ e l, s.t.extq = e :: l →
      Does (.dvext d) s (((s.after (.dvext d)).updT fun t => { t with extq := l }).putV d (stripOf e))) ∧
    (s.t.extq = [] → s.ready (useOf (.dvext d)) = .ok () → s.t.maskOpen = false → exec (.dvext d) s = .next s.stall) ∧
    Puts (.dvstat d grp) s d (word (s.dvWord grp.toNat)) ∧
    (let x := s.group s.myPart grp.toNat
     let loaded := !x.desc.isEmpty
     let member := loaded && gMember x.desc s.cur
     let rank := if (FMap.find? (s.part s.myPart).groups grp.toNat).isNone then 0
       else if member then gRank x.desc s.cur else 0xFFFF
     Shows (s.dvWord grp.toNat) [(63, 63, if loaded then 1 else 0), (62, 62, if member then 1 else 0), (61, 60, 0), (59, 56, x.flags),
       (55, 48, x.cause), (47, 32, rank), (31, 16, min (2 ^ 16 - 1) (s.dvFlight s.myPart grp.toNat)), (15, 13, 0),
       (12, 0, if loaded then gCount x.desc else 0)]) ∧
    Leaves (.dvstatC d grp) s (.dvClear grp.toNat) false (some (d, word (s.dvWord grp.toNat)))) ∧
  (∀ (s : State) (d a : Reg) (n : BitVec 6) (r : State × List Byte), s.t.heldNow = false →
    (let h := (s.gIn a).toNat % 2 ^ 32
     let regs := (s.part s.myPart).regs
     let old := (FMap.find? regs h).isSome
     (∀ g, s.regionSeen s.myPart h = some g → g.w = true → g.rem = true → (old = true ∨ regs.length < 4096) →
       Leaves (.xpost d a n) s (.xpost h n.toNat) true (some (d, if old then 1 else 0))) ∧
     (s.regionSeen s.myPart h = none → s.ready (useOf (.xpost d a n)) = .ok () →
       Traps (.xpost d a n) s .staleHandle (word h))) ∧
    ((s.after (.xsend d a)).readBlock (s.gIn a).toNat 64 = .ok r → s.staleSeen (fieldAt r.2 0 4) = false →
      s.ready (useOf (.xsend d a)) = .ok () → ∃ t x, exec (.xsend d a) s = .next t ∧ t.effs = s.effs ++ [.xsend x] ∧
        t.chunkEnds = true ∧ x.core = s.cur ∧ x.desc = r.2 ∧ x.part = s.myPart ∧
        t.t = { (s.after (.xsend d a)).t.setG d (word s.t.xsCount) with xsCount := (s.t.xsCount + 1) % 2 ^ 32 }) ∧
    (let node := (s.gIn a).toNat % 2 ^ 24
     Puts (.xcc d a) s d (s.xccWord node) ∧
     (FMap.find? s.hub.nodes node = none → s.xccWord node = 0) ∧
     (∀ q, FMap.find? s.hub.nodes node = some q →
       let w := (s.xccWord node).toNat
       w % 2 ^ 16 = min q.queue (2 ^ 16 - 1) ∧ w / 2 ^ 16 % 2 ^ 8 = min 255 (q.marks.countP id) ∧
       w / 2 ^ 24 % 2 ^ 16 = min q.rtt (2 ^ 16 - 1) ∧ w / 2 ^ 40 = min q.wnd (2 ^ 24 - 1))))

/-! ### Traps and system instructions -/

/-- R35-R38 and R357, entry: with no earlier instruction in the open chunk, a firing outside a handler and an XVEC, a
precise trap saves cause, value and address, saves mode, priority, window and dry state in XSTAT, enters supervisor
mode in the handler at XVEC, closes the masked window with its count kept, and holds the instance's slots (R363). -/
def Obligations.TrapEntry : Prop :=
  ∀ (s : State) (c : Cause) (xval xpc : Word) (imp secw : Bool) (f : Firing),
    (∀ ch, s.me.chunk = some ch → ch.cnt = 0) → s.t.fir = some f → s.t.inTrap = false → s.t.tr.xvec ≠ 0 → f.pri ≤ 1 →
    let t := s.takeTrap c xval xpc imp secw
    let r := t.t.tr
    r.xcause = word (c.code + 2 ^ 8 * b2n secw + 2 ^ 9 * b2n imp) ∧ r.xval = xval ∧ r.xpc = xpc ∧
    r.xstat.getLsbD 0 = true ∧ r.xstat.getLsbD 1 = s.t.sup ∧ r.xstat.getLsbD 2 = decide (f.pri = 1) ∧
    r.xstat.getLsbD 3 = (s.t.maskOpen && decide (c ≠ .maskWindow)) ∧ r.xstat.getLsbD 4 = true ∧
    r.xstat.getLsbD 5 = f.held ∧
    r.xvec = s.t.tr.xvec ∧ r.xscratch = s.t.tr.xscratch ∧ r.mode = s.t.tr.mode ∧ r.chmax = s.t.tr.chmax ∧
    t.t.pc = s.t.tr.xvec ∧ t.t.maskOpen = false ∧ t.t.maskCnt = s.t.maskCnt ∧ t.me.stayed = true ∧
    t.t.gp = s.t.gp ∧ t.t.gs = s.t.gs ∧ t.t.v = s.t.v ∧ (∀ a, t.byte a = s.byte a) ∧
    (∀ n, (s.slot n).owner = some f.inst → FMap.find? s.t.slots n ≠ none → (t.slot n).held = true)

/-- R370: TRAP raises TRAP_INSN (7) and BRK raises BREAKPOINT (6), with XVAL the zero-extended immediate and XPC the
address of the instruction that follows. -/
def Obligations.TrapBreak : Prop :=
  ∀ (s : State) (imm : BitVec 16),
    exec (.trap imm) s = .next (s.takeTrap .trapInsn (imm.zeroExtend 64) s.nextPc false s.secw) ∧
    exec (.brk imm) s = .next (s.takeTrap .breakpoint (imm.zeroExtend 64) s.nextPc false s.secw) ∧
    Cause.trapInsn.code = 7 ∧ Cause.breakpoint.code = 6 ∧
    (∀ f, s.me.chunk = none → s.t.fir = some f → s.t.inTrap = false → s.t.tr.xvec ≠ 0 →
      (∃ t, exec (.trap imm) s = .next t ∧ t.t.tr.xcause.toNat % 256 = 7 ∧ t.t.tr.xval = imm.zeroExtend 64 ∧
        t.t.tr.xpc = s.nextPc ∧ t.t.pc = s.t.tr.xvec) ∧
      (∃ t, exec (.brk imm) s = .next t ∧ t.t.tr.xcause.toNat % 256 = 6 ∧ t.t.tr.xval = imm.zeroExtend 64 ∧
        t.t.tr.xpc = s.nextPc ∧ t.t.pc = s.t.tr.xvec))

/-- R371: in a supervisor handler XRET goes on at XPC with the trapped firing's mode (SUP takes PSUP), clears INTRAP,
reopens the masked window it closed, and keeps the trap registers; XRET.K stops the firing with XCAUSE as it stands.
Outside a handler both are ILLEGAL_OP, in user mode PRIVILEGED (R35).
R359: a trap while a handler runs, or with XVEC = 0, stops the firing: the instance is stopped and its level has no
firing left. -/
def Obligations.TrapReturn : Prop :=
  (∀ (s : State) (f : Firing), s.t.fir = some f →
    (s.t.sup = true → s.t.inTrap = true → s.chunkBusy = false → f.down = false → s.t.tr.xpc.toNat % 4 = 0 →
      s.noChunk.checkTarget s.t.tr.xpc.toNat = .ok () → ∃ t, exec .xret s = .next t ∧
        t.t.npc = s.t.tr.xpc ∧ t.t.tr.xstat.getLsbD 0 = s.t.tr.xstat.getLsbD 1 ∧ t.t.tr.xstat.getLsbD 4 = false ∧
        (∀ k, k ≠ 0 → k ≠ 4 → t.t.tr.xstat.getLsbD k = s.t.tr.xstat.getLsbD k) ∧
        t.t.tr.xcause = s.t.tr.xcause ∧ t.t.tr.xval = s.t.tr.xval ∧ t.t.tr.xpc = s.t.tr.xpc ∧
        t.t.tr.xvec = s.t.tr.xvec ∧ t.t.maskOpen = (s.t.tr.xstat.getLsbD 3 || s.t.maskOpen) ∧ t.t.maskCnt = s.t.maskCnt ∧
        t.t.gp = s.t.gp ∧ t.t.v = s.t.v ∧ (∀ a, t.byte a = s.byte a)) ∧
    (s.t.sup = true → s.t.inTrap = true → s.chunkBusy = false →
      exec .xretK s = .next (s.noChunk.stopFiring s.t.tr.xcause s.t.tr.xpc s.t.tr.xval none).stay) ∧
    (s.t.sup = true → s.t.inTrap = false → Traps .xret s .illegalOp (word s.thisWord) ∧
      Traps .xretK s .illegalOp (word s.thisWord)) ∧
    (s.t.sup = false → Traps .xret s .privileged (word s.thisWord) ∧ Traps .xretK s .privileged (word s.thisWord))) ∧
  (∀ (s : State) (c : Cause) (xval xpc : Word) (imp secw : Bool) (f : Firing) (i : Inst),
    s.me.chunk = none → s.t.fir = some f → s.me.held = none → FMap.find? s.insts f.inst = some i → f.pri = s.t.level →
    (s.t.inTrap = true ∨ s.t.tr.xvec = 0) →
    let t := s.takeTrap c xval xpc imp secw
    (∃ j, FMap.find? t.insts f.inst = some j ∧ j.st = .stopped) ∧ (if f.pri = 1 then t.t.fir1 else t.t.fir0) = none)

/-- R36, R373: CSRRD reads a register, CSRWR writes it, CSRSW swaps; user mode may not write the trap registers.
R9, R36-R41: what a write of a system register stores. Reserved fields and read-only registers ignore it; XSTAT
takes only PSUP and PMASK; XVEC is a unit address; CHMAX is clamped to 64-1024; user mode leaves PENG. A write of a read-only register
leaves every system register and the rest of the state.
R376: WATCH gives the last match record and clears it to KIND 7, and installs the watchpoint.
R372: WFI with its deadline past goes on at once with bit 3, which is the model's reading (log 87); else it arms the wait; a later turn goes on with the
mask of what has happened since, and stays while nothing has. The chunk before it has ended (R287), and the one that the
instructions after it fill opens with it (log 19). -/
def Obligations.SystemRegisters : Prop :=
  (∀ (s : State) (g : Reg) (n : BitVec 12),
    Puts (.csrrd g n) s g (s.csr n.toNat) ∧
    ((s.t.sup = true ∨ 6 ≤ n.toNat) →
      Does (.csrwr g n) s ((s.after (.csrwr g n)).csrPut n.toNat (s.gIn g)) ∧
      Does (.csrsw g n) s (((s.after (.csrsw g n)).setG g (s.csr n.toNat)).csrPut n.toNat (s.gIn g))) ∧
    (s.t.sup = false → n.toNat < 6 →
      Traps (.csrwr g n) s .privileged (word s.thisWord) ∧ Traps (.csrsw g n) s .privileged (word s.thisWord))) ∧
  (∀ (s : State) (w : Word),
    (s.csrPut 0x000 w).csr 0x000 = w &&& 0x3FF ∧ (s.csrPut 0x001 w).csr 0x001 = w ∧ (s.csrPut 0x002 w).csr 0x002 = w ∧
    (s.csrPut 0x003 w).csr 0x003 = ((s.csr 0x003) &&& ~~~0xA#64) ||| (w &&& 0xA#64) ∧
    (s.csrPut 0x004 w).csr 0x004 = w &&& ~~~7#64 ∧ (s.csrPut 0x005 w).csr 0x005 = w ∧
    (s.csrPut 0x021 w).csr 0x021 = word (max 64 (min 1024 (w.toNat % 2 ^ 11))) ∧
    (s.csrPut 0x022 w).csr 0x022 = (if s.t.sup then w &&& 0xF#64 else (w &&& 0xE#64) ||| (s.csr 0x022 &&& 1#64)) ∧
    (s.csrPut 0x030 w).csr 0x030 = w &&& 0xFFFFFFFFFFFF#64 ∧
    (s.csrPut 0x031 w).csr 0x031 = w &&& 0xF000FFFFFFFFFFFF#64 ∧
    (∀ n, n ∈ [0x010, 0x011, 0x012, 0x020, 0x040, 0x041, 0x050] → (s.csrPut n w).me = s.me ∧ ElsewhereSame s (s.csrPut n w) ∧
      ∀ k, (s.csrPut n w).csr k = s.csr k) ∧
    (s.csrPut 0x000 w).t = { s.t with tr0 := (s.csrPut 0x000 w).t.tr0, tr1 := (s.csrPut 0x000 w).t.tr1 }) ∧
  (∀ (s : State) (d a b : Reg), s.ready (useOf (.watch d a b)) = .ok () → ∃ t, exec (.watch d a b) s = .next t ∧
    t.t.watchRec = 0xE000000000000000#64 ∧ t.csr 0x030 = (s.gIn a) &&& 0xFFFFFFFFFFFF#64 ∧
    t.csr 0x031 = (s.gIn b) &&& 0xF000FFFFFFFFFFFF#64 ∧ (d ≠ 0#5 → t.t.g d = s.t.watchRec)) ∧
  (∀ (s : State) (d a : Reg),
    let i := Instr.wfi d a
    ((∀ r x m, (s.me.waiting s.t.level).await ≠ .wfi r x m) → s.ready (useOf i) = .ok () → s.chunkBusy = false →
      (s.timeUp (s.gIn a).toNat = true → exec i s = .next ((s.after i).setG d 8).afterThis) ∧
      (s.timeUp (s.gIn a).toNat = false → s.t.maskOpen = false → ∃ t, exec i s = .next t ∧ t.t = s.t ∧
        t.me.waiting s.t.level = ⟨.wfi d (s.gIn a).toNat 0, none, none⟩)) ∧
    (∀ r x m, (s.me.waiting s.t.level).await = .wfi r x m →
      (m = 0 → s.timeUp x = false → exec i s = .next s.stay) ∧
      (m ≠ 0 → s.timeUp x = false → s.ready (useOf i) = .ok () → ∃ t, exec i s = .next t ∧
        t.t = (s.after i).t.setG d (word m) ∧ t.me.waiting s.t.level = Waiting.idle)))

/-- R187-R189: WINSET gives the old descriptor and leaves the new one for the commit of its chunk, which it ends; its
read form reads it; PROBE describes a translation, field by field, or gives the level at which the walk failed; TLBI drops translations,
in supervisor mode only. That it does so in the step that issues it, and leaves no chunk open, so that the instruction after it opens
a new one, are the model's readings (logs 18 and 19).
R193-R195: HNEW takes the lowest free slot for a checked region and gives its handle, the region coming to life at
the commit; HREV advances the generation, ends the registration and cuts what holds the old handle; copies whose last beat has
landed are not cut, and it waits for them to complete (that the wait starts from a step of its own, in which the
generation has advanced, is the model's choice, log 22 and log 44); with operations in flight it is
MASK_WINDOW_EXCEEDED in a masked window, whose XVAL is a free value (log 4). HCHK describes a handle, field by field. -/
def Obligations.TranslationsHandles : Prop :=
  (∀ (s : State) (d a b : Reg) (x : Acc) (key z off : Nat),
    let ea := (s.gIn a).toNat
    (s.windowAt ea = .ok (x, key, z, off) →
      (s.windowOwned ea key off = true → wRefused z (s.gIn b) = false →
        Leaves (.winset d a b) s (.winset key (s.gIn b)) true (some (d, FMap.get 0 s.wins key))) ∧
      (s.windowOwned ea key off = false → s.ready (useOf (.winset d a b)) = .ok () →
        Traps (.winset d a b) s .protWrite (s.gIn a)) ∧
      (s.ready (useOf (.winsetRead d a)) = .ok () → ∃ t, exec (.winsetRead d a) s = .next t ∧
        t.t = (s.after (.winsetRead d a)).t.setG d (FMap.get 0 s.wins key))) ∧
    (∀ p, s.translate s.cur s.myPart ea = some p → s.ready (useOf (.probe d a)) = .ok () → ∃ t,
      exec (.probe d a) s = .next t ∧ t.t = (s.after (.probe d a)).t.setG d (word (s.probeWord ea p))) ∧
    (∀ n, s.translate s.cur s.myPart ea = none → s.walk s.myPart ea = .error n → s.ready (useOf (.probe d a)) = .ok () →
      ∃ t, exec (.probe d a) s = .next t ∧ ∃ w : Word, t.t = (s.after (.probe d a)).t.setG d w ∧ w.toNat < 4 ∧
        (n % 8 < 4 → w = word (n % 8))) ∧
    (s.t.sup = true → s.chunkBusy = false →
      Does (.tlbi a 0#2) s ((s.after (.tlbi a 0#2)).noChunk.tlbDropAll s.myPart (some ea)) ∧
      Does (.tlbi a 1#2) s ((s.after (.tlbi a 1#2)).noChunk.tlbDropAll s.myPart none) ∧
      Does (.tlbi a 2#2) s ((s.after (.tlbi a 2#2)).noChunk.updMe fun k =>
        { k with tlb := tlbDrop k.tlb s.myPart (some ea) })) ∧
    (s.t.sup = false → Traps (.tlbi a 0#2) s .privileged (word s.thisWord))) ∧
  (∀ (s : State) (ea : Nat) (p : Leaf),
    let dev := p.base + ea % 2 ^ p.size
    Shows (s.probeWord ea p) [(63, 63, 1), (62, 60, p.scope), (59, 59, if p.io then 1 else 0),
      (58, 57, if p.size = 16 then 0 else if p.size = 21 then 1 else 2), (56, 54, locKind (s.locate dev)), (53, 53, if p.u then 1 else 0),
      (52, 52, if p.x then 1 else 0), (51, 51, if p.w then 1 else 0), (50, 50, if p.r then 1 else 0), (49, 48, 0), (47, 0, dev)] ∧
    locKind .hbm = 0 ∧ locKind .nothing = 6 ∧ (∀ c n, locKind (.counter c n) = 4) ∧ (∀ o, locKind (.io o) = 5) ∧
    (∀ b w o, locKind (.pad b 0x20000 w o) = 1 ∧ locKind (.pad b 0x200000 w o) = 2 ∧ locKind (.pad b 0x4000000 w o) = 3)) ∧
  (∀ (s : State) (d a b : Reg),
    let base := (s.gIn a).toNat
    let w := (s.gIn b).toNat
    let len := w % 2 ^ 40
    let h := base % 2 ^ 32
    (∀ n, base % 64 = 0 → w / 2 ^ 40 % 2 ^ 21 = 0 → len ≠ 0 → len % 64 = 0 → len ≤ 0xC000000000 → base + len ≤ 2 ^ 48 →
      s.freeHandle s.myPart = some n →
      Leaves (.hnew d a b) s (.hnew n ⟨base, len, w.testBit 63, w.testBit 62, w.testBit 61⟩) false
        (some (d, word (n * 2 ^ 12 + FMap.get 0 (s.part s.myPart).hgens n)))) ∧
    ((∀ k m, (s.me.waiting s.t.level).await ≠ .hrev k m) → s.chunkBusy = false → s.t.heldNow = false →
      s.ready (useOf (.hrev d a)) = .ok () →
      let all := s.holding s.myPart h
      let n := all - s.landed s.myPart h
      ((s.region s.myPart h).isSome = true → (all = 0 ∨ s.t.maskOpen = false) → ∃ t, exec (.hrev d a) s = .next t ∧
        t.region s.myPart h = none ∧
        FMap.get 0 (t.part s.myPart).hgens (h / 4096) = (h % 4096 + 1) % 4096 ∧
        (all = n → d ≠ 0#5 → t.t.g d = word n) ∧
        (all ≠ n → (t.me.waiting s.t.level).await = .hrev h n ∧ t.me.stayed = true)) ∧
      ((s.region s.myPart h).isSome = true → all ≠ 0 → s.t.maskOpen = true →
        exec (.hrev d a) s = .next (s.takeTrap .maskWindow (Config.freeXval s.fresh) s.t.pc false s.secw)) ∧
      (s.region s.myPart h = none → Traps (.hrev d a) s .staleHandle (word h))) ∧
    (∀ k m, (s.me.waiting s.t.level).await = .hrev k m →
      (s.holding s.myPart k ≠ 0 → exec (.hrev d a) s = .next s.stay) ∧
      (s.holding s.myPart k = 0 → s.ready (useOf (.hrev d a)) = .ok () → ∃ t, exec (.hrev d a) s = .next t ∧
        t.t = (s.after (.hrev d a)).t.setG d (word m) ∧ t.me.waiting s.t.level = Waiting.idle)) ∧
    Puts (.hchk d a) s d (word (s.hchkWord s.myPart h)) ∧
    (let n := h / 4096
     let gen := FMap.get 0 (s.part s.myPart).hgens n
     let infl := min 255 (s.holding s.myPart (n * 4096 + gen))
     let own := (s.ownNews.find? fun p => p.1 = n).map (·.2)
     (∀ r, (FMap.find? (s.part s.myPart).handles n = some r ∨ FMap.find? (s.part s.myPart).handles n = none ∧ own = some r) →
       Shows (s.hchkWord s.myPart h) [(63, 63, if gen = h % 4096 then 1 else 0), (62, 62, if r.r then 1 else 0),
         (61, 61, if r.w then 1 else 0), (60, 60, if r.rem then 1 else 0), (59, 48, gen), (47, 40, infl), (39, 0, r.len)]) ∧
     (FMap.find? (s.part s.myPart).handles n = none → own = none →
       Shows (s.hchkWord s.myPart h) [(63, 60, 0), (59, 48, gen), (47, 40, infl), (39, 0, 0)])))

/-- R374 and R375: CTXSAVE writes the image of a resting instance, its bytes becoming visible together, and gives its
length; a byte that it cannot read is SPAD_UNCORRECTABLE (R379), whose XVAL is a free value (log 4); CTXREST and CTXREST.ANY read an image, put the instance on the core they take and give that core. User mode may
run none of the three. The chunk of the instructions that follow opens with each (log 19). -/
def Obligations.ContextInstructions : Prop :=
  ∀ (s : State) (d a b : Reg) (key c : Nat) (i : Inst),
    let h := (s.gIn a).toNat % 2 ^ 48
    let va := (s.gIn b).toNat
    (s.t.sup = true → s.chunkBusy = false → s.t.heldNow = false → s.byHandle s.myPart h = .ok (key, i) → va % 256 = 0 →
      (i.core = some c → i.resting = true → key ≠ s.t.inst → s.engineIdle key = true → i.st ≠ .stream →
        ∀ xs, s.imageWrites va ((s.contextImage key c i).length / 64) = .ok xs →
        ((s.imageSpans key c i).any (fun p => s.spoiled p.1 p.2) = true → s.ready (useOf (.ctxsave d a b)) = .ok () →
          Traps (.ctxsave d a b) s .spadUncorrectable (Config.freeXval s.fresh)) ∧
        ((s.imageSpans key c i).any (fun p => s.spoiled p.1 p.2) = false →
        s.mayCommit s.cur (s.imageChunk xs (s.contextImage key c i)) = true →
        Does (.ctxsave d a b) s ((((xs.foldl (fun s x => s.fillTlb s.cur s.myPart x.ea x.leaf)
          (s.after (.ctxsave d a b))).setG d (word (s.contextImage key c i).length)).noChunk).applyChunk s.cur none
          (s.imageChunk xs (s.contextImage key c i))).afterThis)) ∧
      (∀ any (r q : State × List Byte) img k t,
        let ins : Instr := if any then .ctxrestAny d a b else .ctxrest d a b
        (s.after ins).readBlock va 64 = .ok r → fieldAt r.2 4 4 % 64 = 0 → fieldAt r.2 4 4 ≠ 0 → fieldAt r.2 4 4 ≤ 2 ^ 19 →
        (s.after ins).imageBytes va (fieldAt r.2 4 4 / 64) = .ok q → readImageFor i.aidx (s.descOfInst i) q.2 = some img →
        (i.resting = true ∨ i.st = .unplaced) → s.engineIdle key = true →
        (i.st = .home ∨ i.st = .stopped ∨ i.st = .unplaced) →
        (s.liftInst key).restoreCore key i img any = some k →
        (q.1.noChunk.setG d (word k)).restore key k i.core img = some t → Does ins s (t.wake key).afterThis)) ∧
    (s.t.sup = false → Traps (.ctxsave d a b) s .privileged (word s.thisWord) ∧
      Traps (.ctxrest d a b) s .privileged (word s.thisWord) ∧ Traps (.ctxrestAny d a b) s .privileged (word s.thisWord))

/-! ### Steps of the device: counters, caches, copies and engines -/

/-- R207, R19, R177, R121, R205: an increment reaches its counter in its agent's order, modulo 2^32, and an error phase
sets the latch or MULTI; a credit return adds its credits; a completed walk enters the TLBs and a failed one changes
nothing; a fill reaches every core that uses the copy; a refill stages the elements that come next. -/
def Obligations.CounterCacheSteps : Prop :=
  ∀ s : State,
    (∀ p rest, pick s.posts (s.arg 0) = some (p, rest) → (s.core p.core).takeover = false →
      (∀ q ∈ s.posts.take (s.arg 0), ¬(q.agent = p.agent ∧ q.core = p.core ∧ q.idx = p.idx)) →
      ∃ t, exec .counterIncrement s = .next t ∧ t.posts = rest ∧ MemIs s s.mem t ∧ (p.bad = none → t.mem = s.mem) ∧
        t.counterVal (p.core, p.idx) = (s.counterVal (p.core, p.idx) + p.inc) % 2 ^ 32 ∧
        (∀ k, k ≠ (p.core, p.idx) → t.counterVal k = s.counterVal k) ∧
        (let old := FMap.get Latch.clear (s.core p.core).mbLatch p.idx
         FMap.get Latch.clear (t.core p.core).mbLatch p.idx = (match p.bad with
          | none => old
          | some (c, a, b) => if old.ep then { old with multi := true } else ⟨true, false, c, a, min b (2 ^ 32 - 1)⟩))) ∧
    (∀ k p n rest i, pick s.credits (s.arg 0) = some ((k, p, n), rest) → FMap.find? s.insts k = some i →
      ∃ t j, exec .creditReturn s = .next t ∧ t.credits = rest ∧ FMap.find? t.insts k = some j ∧
        FMap.get 0 j.credit p = FMap.get 0 i.credit p + (n : Int)) ∧
    (∀ l, s.walk s.me.part (s.arg 0) = .ok l →
      ∃ t, exec .pageWalk s = .next t ∧ t.translate s.cur s.me.part (s.arg 0) = some l ∧ t.mem = s.mem) ∧
    (∀ n, s.walk s.me.part (s.arg 0) = .error n → exec .pageWalk s = .next s) ∧
    (∀ x, (s.die (s.arg 0)).code[s.arg 1]? = some x → x.image ≤ s.arg 2 → s.arg 2 < x.image + x.bytes.length →
      ∃ t, exec .icacheFill s = .next t ∧ t.mem = s.mem ∧
        ∀ c, c ∈ s.codeUsers (s.arg 0) x.id → (t.core c).icHas x.id (s.arg 2 / 64) = true) ∧
    (∀ x, FMap.find? s.t.streams (s.arg 0) = some x → s.me.takeover = false → s.refillRoom (s.arg 0) x ≠ 0 →
      ∃ t z l, exec .streamRefill s = .next t ∧ t.mem = s.mem ∧ FMap.find? t.t.streams (s.arg 0) = some z ∧
        z.staged = x.staged ++ l ∧ l.length ≤ s.refillRoom (s.arg 0) x ∧ l.length * x.esz ≤ max 64 x.esz ∧
        z.next = x.next + l.length ∧ l.head? = some (s.streamElem s.cur x x.next).2)

/-- R197-R199, R203, R205: a waiting copy comes in flight; a rack-mode copy reserves its slots, oldest first; the beat of
the channel whose turn it is lands whole, or its fault stops the copy with nothing landed, and none lands while a refill
beat is due; a completion writes DONEID, frees the channel, posts INC, and in
the error phase sets the channel's latch. Where the round of the channels starts and which way it goes is the model's
choice (log 84), and that the bytes a beat lands are those that memory holds at that step (log 14). -/
def Obligations.CopySteps : Prop :=
  ∀ s : State,
    let c := s.cur
    let ch := s.arg 0
    (∀ i, s.me.takeover = false → (s.me.eng.copies.filter fun x => x.active).length < 32 →
      s.me.eng.copies.findIdx? (fun x => !x.active) = some i →
      ∃ t, exec .copyStart s = .next t ∧ t.mem = s.mem ∧
        t.me.eng.copies[i]? = (s.me.eng.copies[i]?).map (fun x => { x with active := true }) ∧
        ∀ j, j ≠ i → t.me.eng.copies[j]? = s.me.eng.copies[j]?) ∧
    (∀ x o base r l, s.me.eng.head ch = some x → s.me.takeover = false → x.active = true → x.rk = true → x.rkn ≠ 0 →
      x.place = none → s.copyRack c x = .ok (o, base, r, l) → x.rkn ≤ r.n - r.nfill - r.reserved →
      ∃ t y, exec .copyRackReserve s = .next t ∧ t.mem = s.mem ∧
        (t.core o).rack? base = some { r with resv := r.resv ++ [(copyKey c x, x.rkn)] } ∧
        t.me.eng.head ch = some y ∧ y.place = some (o, base, (r.fill + r.reserved) % r.n)) ∧
    (s.refillDue = true ∨ s.me.eng.nextCh ≠ some ch → exec .copyBeat s = .next s) ∧
    (∀ x, s.me.eng.head ch = some x → s.me.takeover = false → s.refillDue = false → s.me.eng.nextCh = some ch →
      (∀ b, s.copyElems c x ⟨[], x.tlb, 0⟩ (s.copyRun c x) = .ok b → s.away (b.out.map (·.1)) = false →
        ∃ t y, exec .copyBeat s = .next t ∧ MemIs s (s.poke b.out).mem t ∧ t.me.eng.head ch = some y ∧
          y.pos = x.pos + (s.copyRun c x).length ∧ y.bytes = x.bytes + (s.copyRun c x).length * x.esz) ∧
      (∀ e, s.copyElems c x ⟨[], x.tlb, 0⟩ (s.copyRun c x) = .error e →
        ∃ t y, exec .copyBeat s = .next t ∧ t.mem = s.mem ∧ t.me.eng.head ch = some y ∧ y.bad = some e ∧ y.pos = x.pos)) ∧
    (∀ x, s.me.eng.head ch = some x → s.me.takeover = false → s.cntAway x.cnt = false → x.active = true →
      (x.bad.isSome = true ∨ x.total ≤ x.pos) → s.copyTurn c x = true →
      ∃ t, exec .copyCompletion s = .next t ∧ FMap.find? t.me.eng.doneId ch = some x.id ∧
        t.me.eng.copies = s.me.eng.copies.eraseIdx (s.me.eng.copies.findIdx fun y => y.ch = ch) ∧
        (∀ k, x.cnt = some k → t.counterVal k = (s.counterVal k + fieldAt x.desc 0x1C 4) % 2 ^ 32 ∨
          fieldAt x.desc 0x1C 4 % 2 ^ 32 = 0 ∧ t.counterVal k = s.counterVal k) ∧
        (∀ e, x.bad = some e → x.peng = false → (FMap.get Latch.clear s.t.chLatch ch).ep = false → s.me.chunk = none →
          s.me.held = none →
          FMap.get Latch.clear t.t.chLatch ch = ⟨true, false, e.code, 0, 0⟩))

/-- R222, R223, R279, R280, R284: the matrix unit starts its oldest command and completes it, an MZERO leaving zeros and
a clear latch in its slot; an MQSC adds one addend to one word, rounded to nearest; a zeroing beat writes zeros; a
Marquetry completion posts +1 to its counter, with AGENT 3 in the error phase. -/
def Obligations.EngineSteps : Prop :=
  ∀ s : State, s.me.takeover = false →
    (∀ m rest, s.me.eng.mat = m :: rest → m.started = false →
      ∃ t n, exec .matrixCommandStart s = .next t ∧ t.me.eng.mat = n :: rest ∧ n.started = true ∧
        n.scale = (s.cluster (clusterOf s.cur)).scale ∧ n.op = m.op ∧ n.slot = m.slot ∧ t.mem = s.mem) ∧
    (∀ m rest, s.me.eng.mat = m :: rest → m.started = true → m.op.links = (none, none) → s.matAway s.cur m = false →
      ∃ t, exec .matrixCommandCompletion s = .next t ∧ (s.me.held = none → t.me.eng.mat = rest) ∧
        (m.op = .mzero → m.bad = none → t.mem = s.mem ∧
          ∀ x, FMap.find? s.t.slots m.slot = some x → x.freeing = false →
            FMap.find? t.t.slots m.slot = some { x with vals := [], side := 0#32, kstat := 0#64, latch := Latch.clear })) ∧
    (∀ m rest n x l a, s.me.eng.mq = m :: rest → m.zero = false → m.bad = none → m.work.drop m.pos = (n, x) :: l →
      s.mqWord s.cur m m.tlb (m.at n) = .ok a →
      ∃ t k, exec .marquetryAdd s = .next t ∧
        MemIs s (s.poke (maskedBytes a.dev (leBytes 4 (fadd .rne (BitVec.ofNat 32 (leVal (s.bytesAt a.dev 4))) x).toNat))).mem t ∧
        t.me.eng.mq = k :: rest ∧ k.pos = m.pos + 1) ∧
    (∀ m rest n x l, s.me.eng.mq = m :: rest → m.zero = true → m.bad = none → m.work.drop m.pos = (n, x) :: l →
      ∀ tlb as, s.mqzWords s.cur m m.tlb ((((m.work.drop m.pos).take 64).map (·.1)).takeWhile fun k => m.at k / 256 = m.at n / 256)
          = .ok (tlb, as) →
        ∃ t k, exec .mqzBeat s = .next t ∧ MemIs s (s.poke (as.flatMap fun a => maskedBytes a.dev (leBytes 4 0))).mem t ∧
          t.me.eng.mq = k :: rest ∧ m.pos < k.pos) ∧
    (∀ m rest, s.me.eng.mq = m :: rest → (m.bad.isSome = true ∨ m.work.length ≤ m.pos) →
      ∃ t, exec .marquetryCompletion s = .next t ∧ MemIs s s.mem t ∧ t.me.eng.mq = rest ∧
        t.counterVal (s.cur, m.mb) = (s.counterVal (s.cur, m.mb) + 1) % 2 ^ 32 ∧
        (∀ e, m.bad = some e → m.peng = false → (FMap.get Latch.clear s.me.mbLatch m.mb).ep = false →
          FMap.get Latch.clear t.me.mbLatch m.mb = ⟨true, false, e.code, 3, min (4 * m.pos) (2 ^ 32 - 1)⟩))

/-- R298, R301-R305: the home's handler first ends the open chunk of the core it pre-empts, and waits while that chunk
waits; then a far atomic is performed on one indivisible old value, which the waiting firing's reply carries; a barrier
request changes the object as its operation says, completes the phase when every member has arrived, and is answered; a
refused one changes nothing; a BAR.WAIT is answered when its phase has come and is kept till then; with a reply the unit's
effect takes place and g[d] is written; a refused unit has none, its pops are undone, and the trap becomes due. How the
home's handler stands in the pre-empted core, and when a waiting unit's effect takes place, are the model's readings
(logs 10 and 83). -/
def Obligations.HomeSteps : Prop :=
  ∀ s : State,
    let quiet (a : Nat) : Prop := ∀ h, s.homeOf a = some h → (s.core h).chunk = none
    let there (c level n : Nat) : Prop := (if level = 1 then (s.core c).t.fir1 else (s.core c).t.fir0).any (·.serial = n) = true
    (∀ (f : Far) rest, pick s.far (s.arg 0) = some (f, rest) → s.homeFree f.addr = true →
      (∀ g ∈ s.far.take (s.arg 0), ¬(g.core = f.core ∧ s.homeKey g.addr = s.homeKey f.addr)) →
      (s.enterHome f.addr).homeWaits f.addr = true → exec .farAtomic s = .next (s.enterHome f.addr)) ∧
    (∀ (f : Far) rest, pick s.far (s.arg 0) = some (f, rest) → s.arg 1 = 0 → s.homeFree f.addr = true → quiet f.addr →
      s.badBytes f.addr (if f.w64 then 8 else 4) = false →
      (∀ g ∈ s.far.take (s.arg 0), ¬(g.core = f.core ∧ s.homeKey g.addr = s.homeKey f.addr)) →
      let size := if f.w64 then 8 else 4
      let old := leVal (s.bytesAt f.addr size)
      ∃ t, exec .farAtomic s = .next t ∧ t.far = rest ∧
        MemIs s (s.poke (maskedBytes f.addr (leBytes size (amoNew f.op (8 * size) old f.b f.c)))).mem t ∧
        (∀ r pc back, f.waits = true → (s.core f.core).chunk = none → (s.core f.core).held = none →
          ((s.core f.core).waiting f.level).await = .reply r pc back → there f.core f.level f.fir →
          ((t.core f.core).waiting f.level).reply = some ((amoOld f.op (8 * size) old).toNat, none))) ∧
    (∀ (q : BarReq) rest o v, pick s.bars (s.arg 0) = some (q, rest) → s.homeFree q.addr = true → quiet q.addr →
      s.badBytes q.addr 20 = false → q.op < 3 → q.b < 2 ^ 64 → (s.bar q.addr).apply q.op q.b = .ok (o, v) →
      ∃ t, exec .barrierRequest s = .next t ∧ t.bars = rest ∧
        (s.NoSpec ∨ (∀ k, k < 20 → ¬s.InRack (q.addr + k)) → t.bar q.addr = o.settle.1) ∧
        (∀ r pc back, (s.core q.core).chunk = none → (s.core q.core).held = none → (∀ w ∈ s.barHeld, w.core ≠ q.core) →
          ((s.core q.core).waiting q.level).await = .reply r pc back → there q.core q.level q.fir →
          ((t.core q.core).waiting q.level).reply = some (v, none))) ∧
    (∀ (q : BarReq) rest e r pc back, pick s.bars (s.arg 0) = some (q, rest) → s.homeFree q.addr = true → quiet q.addr →
      s.badBytes q.addr 20 = false → q.op < 3 → (s.bar q.addr).apply q.op q.b = .error e →
      ((s.core q.core).waiting q.level).await = .reply r pc back → there q.core q.level q.fir →
      ∃ t, exec .barrierRequest s = .next t ∧ t.bars = rest ∧ t.mem = s.mem ∧
        ((t.core q.core).waiting q.level).reply = some (0, some (e, q.va))) ∧
    (∀ (q : BarReq) rest r pc back, pick s.bars (s.arg 0) = some (q, rest) → s.homeFree q.addr = true → quiet q.addr →
      s.badBytes q.addr 20 = false → q.op = 3 → ((s.core q.core).waiting q.level).await = .reply r pc back →
      there q.core q.level q.fir →
      ∃ t, exec .barrierRequest s = .next t ∧ t.bars = rest ∧ t.mem = s.mem ∧
        (s.waitOver q = true → ((t.core q.core).waiting q.level).reply = some ((s.bar q.addr).phase, none)) ∧
        (s.waitOver q = false → q ∈ t.barHeld)) ∧
    (∀ r pc u v, (s.me.waiting (s.arg 0)).await = .reply r pc u → (s.me.waiting (s.arg 0)).reply = some (v, none) →
      ∃ w, w.t = (s.t.complete u (s.arg 0)).setGAt (s.arg 0) r (word v) ∧ w.me.waiting (s.arg 0) = Waiting.idle ∧
        w.mem = s.mem ∧ exec .farAtomicReply s = .next (u.push.foldl (fun w p => w.landPush w.cur p) w) ∧
        exec .barrierReply s = exec .farAtomicReply s) ∧
    (∀ r pc u v e x, (s.me.waiting (s.arg 0)).await = .reply r pc u →
      (s.me.waiting (s.arg 0)).reply = some (v, some (e, x)) →
      ∃ t, exec .farAtomicReply s = .next t ∧ exec .barrierReply s = .next t ∧ t.t = s.t.restore u ∧ t.mem = s.mem ∧
        t.me.waiting (s.arg 0) = ⟨.none, none, some (e, word x, pc)⟩)

/-! ### Steps of the device: issue, the kiln, messages -/

/-- R18, R27, R102, R355, R356: the issue choice starts a firing of the chosen entry at its actor's entry, in supervisor
mode for the supervisor actor alone, with its packets' class, CHMAX 256 and no watchpoint; g9 holds the state block; a
pre-emption starts a priority-1 firing, once one can start, and leaves the other one's registers alone. -/
def Obligations.IssueSteps : Prop :=
  ∀ s : State,
    (∀ e aged i, s.t.fir = none → s.me.chunk = none → s.me.draining = false → s.me.takeover = false →
      s.choose s.cur = some (e, aged) → FMap.find? s.insts e.inst = some i →
      ∃ t f, exec .issueChoice s = .next t ∧ t.t.fir = some f ∧ f.inst = e.inst ∧ f.part = i.part ∧
        f.pri = aPri (s.descOfInst i) ∧ f.cls = s.classOf i ∧ f.ran = 0 ∧ t.t.pc = word ((s.imageOf i).1 + aEntry (s.descOfInst i)) ∧
        t.t.inTrap = false ∧ t.t.sup = decide (i.lslot = 0xFFF) ∧ t.t.tr.chmax = 256 ∧ t.t.tr.watchm = 0 ∧
        t.t.tr.xvec = word (s.startVec i) ∧ t.t.g 9#5 = word (padOfCore s.cur + i.block) ∧
        (∀ x ∈ t.me.runq, x.inst ≠ e.inst)) ∧
    (s.preemptor = none → exec .preEmption s = .next s) ∧
    (∀ e i, s.preemptor = some e → s.me.chunk = none → FMap.find? s.insts e.inst = some i → aPri (s.descOfInst i) = 1 →
      ∃ t f, exec .preEmption s = .next t ∧ t.t.fir1 = some f ∧ f.inst = e.inst ∧ t.t.fir0 = s.t.fir0 ∧ t.t.gp = s.t.gp ∧
        t.t.v = s.t.v ∧ t.t.tr0 = s.t.tr0 ∧ t.t.pc = word ((s.imageOf i).1 + aEntry (s.descOfInst i)))

/-- R288, R292, R314, R313, R306, R357, R372, R101: an ended chunk's stores become memory at its commit, together, unless
another core holds its arbiter's token, or its marks find no room any more (then it starts again, log 81); tokens go in
request order; glue-up commits the held chunks in their order, or knocks the firing down where its marks find no room
(log 81); the tolerance compare accepts a held dry firing and fills its rack, or knocks it down, and a tile with a byte that cannot be
corrected is rejected (the model's reading of R379, log 88); a due trap enters the handler; a
deadline that has come gives a WFI bit 3; the ageing limit is noted. -/
def Obligations.ResolutionSteps : Prop :=
  ∀ s : State,
    (∀ ch, s.me.chunk = some ch → ch.sealed = true → s.t.heldNow = false →
      let fits := s.chunkFits s.cur
      (s.mayCommit s.cur ch = true → fits = true → ∃ t, exec .chunkCommit s = .next t ∧ t.me.chunk = none ∧
        MemIs s (s.poke (ch.buf.map fun p => (p.1, p.2.1, p.2.2))).mem t) ∧
      (s.mayCommit s.cur ch = true → fits = false → exec .chunkCommit s = .next (s.squash s.cur false)) ∧
      (s.mayCommit s.cur ch = false → exec .chunkCommit s = .next s)) ∧
    (∀ so, s.me.solo = some so → (FMap.get [] s.tokens (arbiter so.scope s.cur)).head? = some s.cur →
      ∃ t, exec .arbiterTokenGrant s = .next t ∧ t.me.solo = some { so with granted := true } ∧ t.mem = s.mem) ∧
    (∀ h, s.me.held = some h →
      let fits := s.marksFit s.cur { s.me with held := none } ((s.cluster (clusterOf s.cur)).overflow.filter (· ≠ s.cur)).length
      (s.mayGlue s.cur h = true → ∃ t, exec .glueUp s = .next t ∧ t.me.held = none ∧
        (fits = true →
          MemIs s (h.chunks.foldl (fun (s : State) ch => s.poke (ch.buf.map fun p => (p.1, p.2.1, p.2.2))) s).mem t) ∧
        (fits = false → MemIs s s.mem t)) ∧
      (s.mayGlue s.cur h = false → exec .glueUp s = .next s)) ∧
    (∀ h b r, s.me.held = some h → h.fir.dry = some b → s.me.rack? b = some r → h.accepted = false → r.wait ≠ 0 →
      let a := padOfCore s.cur + r.slotOff b r.fill
      let m := s.me.firmMark b
      let q := tileCompare (tileElems m.fmt (s.bytesAt a r.slotSize)) (tileElems m.fmt h.tile)
      let ok := q.2.2 = false ∧ fle q.1 (fadd .rne m.tolAbs (fmul .rne m.tolRel q.2.1)) = true
      ((∀ x ∈ s.poison, x < a ∨ a + r.slotSize ≤ x) → ok → ∃ t g, exec .toleranceCompare s = .next t ∧ t.me.held = some g ∧ g.accepted = true ∧
        t.me.rack? b = some (({ r with wait := 0 } : Rack).filled r.wait) ∧ t.mem = s.mem) ∧
      ((∀ x ∈ s.poison, x < a ∨ a + r.slotSize ≤ x) → ¬ok → ∃ t, exec .toleranceCompare s = .next t ∧ t.me.held = none ∧ MemIs s s.mem t) ∧
      ((∃ x ∈ s.poison, a ≤ x ∧ x < a + r.slotSize) → ∃ t, exec .toleranceCompare s = .next t ∧ t.me.held = none ∧ MemIs s s.mem t)) ∧
    (∀ c v pc f, s.dueTrap = some (c, v, pc) → s.me.chunk = none → s.t.fir = some f → s.t.inTrap = false →
      s.t.tr.xvec ≠ 0 → ∃ t, exec .preciseTrap s = .next t ∧ t.t.tr.xcause.toNat % 256 = c.code ∧ t.t.tr.xval = v ∧
        t.t.tr.xpc = pc ∧ t.t.pc = s.t.tr.xvec ∧ t.t.sup = true ∧ t.me.waiting s.t.level = Waiting.idle) ∧
    (∃ t, exec .wfiDeadline s = .next t ∧ t.mem = s.mem ∧ t.t = s.t ∧
      ∀ level r x m, (s.me.waiting level).await = .wfi r x m →
        (t.me.waiting level).await = .wfi r x (if s.timeUp x then m ||| 8 else m)) ∧
    (∃ t, exec .agingLimit s = .next t ∧ t.mem = s.mem ∧ t.t = s.t ∧
      t.me.runq = s.me.runq.map fun e => { e with aged := e.aged || decide (s.cycle - e.time ≥ s.agingLimit (s.entryPart e)) })

/-- R5, R104-R107: within the power cap, a cluster's allotment is split among the partitions with instances there in
proportion to their kiln shares, rounded down; a kiln is replenished to its part, capped at 0xFFFF and 0 on a hot die, and
keeps what was left as the low mark; a partition without instances there gets none; a plan whose shares and reserves together pass the
cap, or with a die's reserve below what its priority-1, class-0 and aged firings may draw in the microsecond, is none; while the die's controller switches,
allotments stay (R391). After 64 more cycles of a firing a draw takes 2, 8, 32 or 128 units by its class, the budget falling
to 0 at the lowest; a thousand multiply-accumulates draw; the thermal limit makes the die hot until it is cleared. The
budgets, reserves and allotments are the model's operands (log 77); the sums over a cluster's partitions are its reading
(log 34). -/
def Obligations.KilnSteps : Prop :=
  ∀ s : State,
    let dies := pairsOf (s.args.take 8)
    let clusters := pairsOf (s.args.drop 8)
    let kiln (t : State) (cl p : Nat) : Kiln := FMap.get ⟨0, 0, 0, false⟩ (t.cluster cl).kilns p
    (s.kilnPlanOk dies clusters = false → exec .kilnReplenishment s = .next s) ∧
    (∀ d x, dies[d]? = some x → (x.2 = 0 ∨ x.2 < s.freeDraws d) → exec .kilnReplenishment s = .next s) ∧
    (capUnits s.hub.cap < dies.foldl (fun n p => n + p.1 + p.2) 0 → exec .kilnReplenishment s = .next s) ∧
    (∀ c k, (c, k) ∈ s.cores → 13 * s.freeRate c ≤ s.freeDraws (dieOf c)) ∧
    (∀ c, (s.core c).t.fir0 = none → (s.core c).t.fir1 = none → (s.core c).runq = [] → s.placedOn c = [] → s.freeRate c = 0) ∧
    (∀ c f, (s.core c).t.fir0 = some f ∨ (s.core c).t.fir1 = some f → (f.pri = 1 ∨ f.aged = true ∨ f.cls = 0) →
      2 * 4 ^ min f.cls 3 ≤ s.freeRate c) ∧
    (s.kilnPlanOk dies clusters = true → ∃ t, exec .kilnReplenishment s = .next t ∧
      (∀ d x, dies[d]? = some x → (t.die d).budget = x.1) ∧
      ∀ cl ∈ allClusters,
        let given := if (s.die (cl / 128)).hot then 0 else match clusters.find? (fun q => q.1 = cl) with | some q => q.2 | none => 0
        let sum := (s.sharers cl).foldl (fun n p => n + p.2) 0
        (t.cluster cl).scale = scaleAfter (s.cluster cl).scale ((s.cluster cl).kilns.map (·.2)) ∧
        (s.hub.switching.contains (cl / 128) = false →
          (∀ p w, (p, w) ∈ s.sharers cl → sum ≠ 0 →
            let x := min (given * w / sum) 0xFFFF
            kiln t cl p = ⟨x, x, (kiln s cl p).budget, decide (x = 0)⟩) ∧
          (∀ p, (∀ w, (p, w) ∉ s.sharers cl) → (kiln t cl p).budget = 0 ∧ (kiln t cl p).allot = 0)) ∧
        (s.hub.switching.contains (cl / 128) = true → ∀ p k, FMap.find? (s.cluster cl).kilns p = some k →
          let x := min k.allot 0xFFFF
          kiln t cl p = ⟨x, x, k.budget, decide (x = 0)⟩)) ∧
    (∀ f, s.t.fir = some f → f.cls < 4 →
      (f.cycles < 64 * (f.draws + 1) → exec .kilnDraw s = .next s) ∧
      (64 * (f.draws + 1) ≤ f.cycles → ∃ t g, exec .kilnDraw s = .next t ∧
        (t.kiln s.cur f.part).budget = (s.kiln s.cur f.part).budget - 2 * 4 ^ f.cls ∧
        t.t.fir = some g ∧ g.drawn = f.drawn + 2 * 4 ^ f.cls ∧ g.draws = f.draws + 1)) ∧
    (∀ x r, s.me.eng.due = x :: r → ∃ t, exec .macCountDraw s = .next t ∧ t.me.eng.due = r ∧
      (t.kiln s.cur x.part).budget = (s.kiln s.cur x.part).budget - x.units) ∧
    ((s.die (s.arg 0)).hot = false → ∃ t, exec .thermalLimit s = .next t ∧ (t.die (s.arg 0)).hot = true ∧
      t.net.length = s.net.length + (s.partsOn (s.arg 0)).length) ∧
    (∃ t, exec .thermalLimitClear s = .next t ∧ (t.die (s.arg 0)).hot = false ∧ t.mem = s.mem)

/-- R14, R16, R24, R91, R92, R110: a packet that names no actor is a dead letter with its cause; one that fits lands in
the next slot of its port's rack; the launch actor takes what the message window holds; an overflow ring gives up its
oldest packet of a port once a slot is free, and forgets a page that has been mapped; a malformed write to PKT sets
ERRSTAT, another one is accepted; ERRSTAT is cleared by writing its bit 8; PKT reads zero, ERRSTAT and ACCEPTED read as
they stand. None of this happens before the link is up (R393), or with no hub die to serve PCIe: a reading (log 59). Which
entry of the ring a packet takes is the model's reading (log 15). -/
def Obligations.MessageSteps : Prop :=
  ∀ s : State,
    (∀ p rest, s.arg 0 = 0 → pick s.net (s.arg 1) = some (p, rest) → inTurn p (s.net.take (s.arg 1)) = true →
      hdrActor p.hdr ≠ 0xFFF000000000 →
      (∀ c, s.addressee p = .error c → ∃ t, exec .messageDelivery s = .next t ∧ t.mem = s.mem ∧
        (t.part p.part).dlCount = ((s.part p.part).dlCount + 1) % 2 ^ 32 ∧ (t.part p.part).dlCause = c.code) ∧
      (∀ key i port c r, s.addressee p = .ok (key, i, port) → i.core = some c → (s.core c).takeover = false → i.st = .home →
        (∀ d, d < 4 → s.ring d p.part = []) → (s.core c).rack? (s.portBase i port) = some r → r.nfill < r.n →
        ∃ t, exec .messageDelivery s = .next t ∧ t.net = rest ∧
          (t.core c).rack? (s.portBase i port) =
            some { r.filled 1 with senders := r.senders ++ [(p.sender.1, p.sender.2, 0, p.ts)] } ∧
          ∀ n (h : n < p.bytes.length), t.byte (padOfCore c + r.slotOff (s.portBase i port) r.fill + n) = p.bytes[n])) ∧
    (∀ b rest, s.arg 0 = 3 → (s.part (s.arg 1)).window = b :: rest → hdrActor (pktHeader b) = 0xFFF000000000 →
      hdrPort (pktHeader b) = 0 → b.length ≤ 64 →
      ∃ t, exec .messageDelivery s = .next t ∧ (t.part (s.arg 1)).window = rest ∧
        (t.part (s.arg 1)).reqs.map (·.bytes) = (s.part (s.arg 1)).reqs.map (·.bytes) ++ [b]) ∧
    (s.ringMapped (s.arg 0) (s.arg 1) = true → ∃ t, exec .overflowRingRetry s = .next t ∧ t.mem = s.mem ∧
      (t.die (s.arg 0)).ringPages = (s.die (s.arg 0)).ringPages.erase (ringPageKey (s.arg 1) (s.ringNext (s.arg 0) (s.arg 1))) ∧
      t.ring (s.arg 0) (s.arg 1) = s.ring (s.arg 0) (s.arg 1)) ∧
    (∀ e rest key i port c r, s.arg 2 = 0 → s.ring (s.arg 0) (s.arg 1) = e :: rest →
      s.addressee e.pkt = .ok (key, i, port) → i.core = some c → key = e.pkt.key →
      (s.core c).takeover = false → i.st = .home → s.ringBad (s.arg 0) (s.arg 1) e = false →
      (∀ x ∈ s.ringsFor (s.arg 1) key port, e.ord ≤ x.ord) → (s.core c).rack? (s.portBase i port) = some r → r.nfill < r.n →
      ∃ t, exec .overflowRingDelivery s = .next t ∧
        FMap.get [] (t.die (s.arg 0)).ring (s.arg 1) = (FMap.get [] (s.die (s.arg 0)).ring (s.arg 1)).drop 1 ∧
        (t.core c).rack? (s.portBase i port) =
          some { r.filled 1 with senders := r.senders ++ [(e.pkt.sender.1, e.pkt.sender.2, 0, e.pkt.ts)] } ∧
        ∀ n (h : n < e.pkt.bytes.length), t.byte (padOfCore c + r.slotOff (s.portBase i port) r.fill + n) = e.pkt.bytes[n]) ∧
    (s.pcieUp = false → exec .pkt s = .next s ∧ exec .errstat s = .next s) ∧
    (s.pcieUp = true → s.arg 3 ≠ 0 → ∃ t, exec .pkt s = .next t ∧ (t.part (s.arg 0)).hostRead = 0 ∧
      (t.part (s.arg 0)).window = (s.part (s.arg 0)).window) ∧
    (s.pcieUp = true → s.arg 2 ≠ 0 → ∃ t, exec .errstat s = .next t ∧
      (t.part (s.arg 0)).errstat = (s.part (s.arg 0)).errstat ∧
      (t.part (s.arg 0)).hostRead = (if s.arg 2 = 0x100 then (s.part (s.arg 0)).errstat
        else if s.arg 2 = 0x108 then (s.part (s.arg 0)).accepted else 0)) ∧
    (∀ c, s.pcieUp = true → s.arg 3 = 0 → pktFault (s.arg 1) (s.arg 2 ≠ 0) s.payload = some c → ∃ t, exec .pkt s = .next t ∧
      (t.part (s.arg 0)).window = (s.part (s.arg 0)).window ∧
      (t.part (s.arg 0)).errstat = word ((min 65535 (wbits (s.part (s.arg 0)).errstat 31 16 + 1)) * 2 ^ 16 + 2 ^ 8 + c.code)) ∧
    (s.pcieUp = true → s.arg 3 = 0 → pktFault (s.arg 1) (s.arg 2 ≠ 0) s.payload = none → (s.part (s.arg 0)).window.length < 64 → ∃ t, exec .pkt s = .next t ∧
      (t.part (s.arg 0)).window = (s.part (s.arg 0)).window ++ [s.payload] ∧
      (t.part (s.arg 0)).accepted = (s.part (s.arg 0)).accepted + 1) ∧
    (s.pcieUp = true → s.arg 2 = 0 → (s.arg 1).testBit 8 = true → ∃ t, exec .errstat s = .next t ∧ (t.part (s.arg 0)).errstat.getLsbD 8 = false ∧
      ∀ n, n ≠ 8 → (t.part (s.arg 0)).errstat.getLsbD n = (s.part (s.arg 0)).errstat.getLsbD n)

/-! ### Steps of the device: launches and moves -/

/-- R84, R86, R89: the oldest request is taken once; a malformed one is answered with LAUNCH_SHAPE; a refused record gives
its cause in the reply; an accepted launch takes the lowest free slot, is placed on the first die set that serves and
runs, its reply following its tokens, for which it waits where one finds no room; an indirect launch of no groups completes at once; one with a wait stands aside until its counter has come, and
launches with the count read then, without one the count is the one read before, or that read's cause refuses it; a wait
on no counter refuses the launch (log 75); a waiting launch proceeds when it can; a request whose reply block lies in a scratchpad that
a spare takes over stays where it is meanwhile (R383; log 57); instances that
ACTNEW added are placed. The order of a record's checks is the model's reading (log 38). -/
def Obligations.LaunchSteps : Prop :=
  ∀ (s : State) (part : Nat), s.arg 0 = part →
    (∀ q rest, (s.part part).reqs = q :: rest → s.replyAway part (reqRep q.bytes) = true →
      exec .launchRequest s = .next s ∧ exec .indirectLaunch s = .next s ∧ exec .endRequest s = .next s) ∧
    (∀ q rest, pick (s.part part).indirect (s.arg 1) = some (q, rest) → s.replyAway part (reqRep q.bytes) = true →
      exec .indirectLaunchEligible s = .next s) ∧
    (∀ q rest, pick (s.part part).waiting (s.arg 1) = some (q, rest) → s.replyAway part (reqRep q.bytes) = true →
      exec .waitingLaunchProceeds s = .next s) ∧
    (∀ p, (∀ c, (s.core c).takeover = false) → s.replyAway part p = false) ∧
    (∀ q rest, (s.part part).reqs = q :: rest → s.replyAway part (reqRep q.bytes) = false → reqBad q.bytes = true →
      reqRep q.bytes % 16 = 0 →
      exec .launchRequest s = .next ((s.updPart part fun p => { p with reqs := rest }).reply part (reqRep q.bytes)
        (s.replyCounter part (reqRep q.bytes)) Cause.launchShape.code)) ∧
    (∀ q rest, (s.part part).reqs = q :: rest → s.replyAway part (reqRep q.bytes) = false → reqBad q.bytes = false → q.tokens = [] →
      let u := s.updPart part fun p => { p with reqs := rest }
      let q' := { q with repc := s.replyCounter part (reqRep q.bytes) }
      (reqOp q.bytes = 0 → ∀ c, u.checkedRecord part q' none = .error c →
        exec .launchRequest s = .next (u.refuse part q' c)) ∧
      (reqOp q.bytes = 0 → ∀ r lslot v, u.checkedRecord part q' none = .ok r → fieldAt r.head 0x18 4 ≠ 0 → q.slot = 0 →
        u.freeSlot part = some lslot → bit (fieldAt r.head 0x12 1) 1 = false →
        let l := newLaunch r (fieldAt r.head 0x18 4) (u.memoryImage part r.head) [] (reqRep q.bytes) q'.repc
        let w := u.takeSlot part lslot { l with st := 1 }
        w.imageFault part r.head (w.dieSets part r.head (u.memoryImage part r.head)) = none →
        w.trySets part lslot l (w.dieSets part r.head (u.memoryImage part r.head)) = some v →
        let y := v.launched part lslot { q' with kept := some r } l r.tokens
        (y.2 = none → exec .launchRequest s = .next y.1) ∧
        (∀ k, y.2 = some k → exec .launchRequest s = .next (y.1.updPart part fun p => { p with waiting := p.waiting ++ [k] }))) ∧
      (reqOp q.bytes = 1 → reqWait q.bytes = 0 → ∀ r lslot, u.checkedRecord part q' (some 0) = .ok r → q.count = .known 0 →
        q.slot = 0 → u.freeSlot part = some lslot →
        let l := newLaunch r 0 (u.memoryImage part r.head) [] (reqRep q.bytes) q'.repc
        let w := u.takeSlot part lslot { l with st := 5 }
        exec .indirectLaunch s = .next ((w.hubInc part r.compl).reply part (reqRep q.bytes) q'.repc (w.runWord part lslot 0))) ∧
      (reqOp q.bytes = 1 → reqWait q.bytes ≠ 0 → ∃ t, exec .indirectLaunch s = .next t ∧ (t.part part).reqs = rest ∧
        (t.part part).indirect = (s.part part).indirect ++ [q'] ∧ t.mem = s.mem) ∧
      (reqOp q.bytes = 1 → reqWait q.bytes = 0 →
        (∀ n, q.count = .known n → exec .indirectLaunch s = .next (u.launchOrWait part q' (some n) (s.args.drop 1))) ∧
        (∀ c, q.count = .unread c → exec .indirectLaunch s = .next (u.refuse part q' c)))) ∧
    (∀ q rest c, pick (s.part part).indirect (s.arg 1) = some (q, rest) → s.replyAway part (reqRep q.bytes) = false → s.waitCounter part (reqWait q.bytes) = .error c →
      exec .indirectLaunchEligible s = .next ((s.updPart part fun p => { p with indirect := rest }).refuse part q c)) ∧
    (∀ q rest k, pick (s.part part).indirect (s.arg 1) = some (q, rest) → s.replyAway part (reqRep q.bytes) = false → s.waitCounter part (reqWait q.bytes) = .ok k →
      let u := s.updPart part fun p => { p with indirect := rest }
      (reached32 (s.counterVal k) (reqVal q.bytes) = true →
        exec .indirectLaunchEligible s = .next (u.countKnown part q (s.hubWord part (reqCount q.bytes) 4) (s.args.drop 2))) ∧
      (reached32 (s.counterVal k) (reqVal q.bytes) = false → exec .indirectLaunchEligible s = .next s)) ∧
    (∀ q rest t, pick (s.part part).waiting (s.arg 1) = some (q, rest) → s.replyAway part (reqRep q.bytes) = false →
      (s.updPart part fun p => { p with waiting := rest }).launch part q
        (match q.count with | .known n => some n | _ => none) (s.args.drop 2) = (t, none) →
      exec .waitingLaunchProceeds s = .next t) ∧
    (∀ key i u, (s.insts.filter fun p => p.2.part = part && p.2.st = .unplaced) = [(key, i)] → s.placeOne key = some u →
      ∃ t j, exec .placementRun s = .next t ∧ FMap.find? t.insts key = some j ∧ j.st = .home ∧ j.core.isSome = true)

/-- R87, R90: an end request marks its launch, or is refused when the launch is not live; a launch whose instances have
exited and whose commands have completed ends, its own reply and that to an end request given (log 85); a step advance
raises STEP and frees the held instances; between steps the die set changes, and held instances of withdrawn dies move to
the coolest clusters with room, each chosen beside the choices before it (log 78). An end whose reply must wait for a spare to take
over waits (R383; log 57). -/
def Obligations.LaunchEndSteps : Prop :=
  ∀ (s : State) (part : Nat), s.arg 0 = part →
    (∀ q rest, (s.part part).reqs = q :: rest → s.replyAway part (reqRep q.bytes) = false → reqBad q.bytes = false → reqOp q.bytes = 2 →
      let u := s.updPart part fun p => { p with reqs := rest }
      let lslot := reqRec q.bytes % 2 ^ 12
      let repc := s.replyCounter part (reqRep q.bytes)
      (∀ l, u.liveLaunch part lslot (bits (reqRec q.bytes) 23 12) = some l → ∃ t m, exec .endRequest s = .next t ∧
        FMap.find? (t.part part).slots lslot = some m ∧ m.ending = true ∧
        m.endRep = l.endRep ++ [(reqRep q.bytes, repc)] ∧ MemIs s s.mem t) ∧
      (u.liveLaunch part lslot (bits (reqRec q.bytes) 23 12) = none →
        exec .endRequest s = .next (u.reply part (reqRep q.bytes) repc Cause.actorExited.code))) ∧
    (∀ l, FMap.find? (s.part part).slots (s.arg 1) = some l → l.isLive = true →
      let u := if l.ending then s.exitIdle part (s.arg 1) else s
      (s.unreplied part (s.arg 1) = false → u.live part (s.arg 1) = 0 → (∀ k ∈ u.instsOf part (s.arg 1), u.engineIdle k = true) →
        (∀ r ∈ l.endRep, s.replyAway part r.1 = false) →
        ∃ t, exec .launchEnd s = .next t ∧ FMap.find? (t.part part).slots (s.arg 1) = some { l with st := 5 })) ∧
    (∀ l, FMap.find? (s.part part).slots (s.arg 1) = some l → l.isLive = true → s.allStepped part (s.arg 1) = true →
      (∀ p ∈ s.steppers part (s.arg 1), p.2.st ≠ .quiesce ∧ p.2.st ≠ .stream ∧ p.2.st ≠ .switching) →
      ∃ t, exec .stepAdvance s = .next t ∧
        FMap.find? (t.part part).slots (s.arg 1) = some { l with st := 3, step := (l.step + 1) % 65536 } ∧
        ∀ p ∈ s.steppers part (s.arg 1), ∀ j, FMap.find? t.insts p.1 = some j → j.atStep = false) ∧
    (∀ l dies u, FMap.find? (s.part part).slots (s.arg 1) = some l → l.isLive = true → l.rect = false →
      s.allStepped part (s.arg 1) = true → dies = (span 0 4).filter (bit (s.arg 2)) →
      fieldAt l.head 0x10 1 ≤ dies.length → dies.length ≤ fieldAt l.head 0x11 1 →
      (∀ d ∈ dies, d ∈ s.allotDies part l.memory) →
      let m := { l with dies := dies, st := 4 }
      ∀ w, (s.updPart part fun p => { p with slots := FMap.put p.slots (s.arg 1) m }).loadAll part
        (fieldAt l.head 0 8) (fieldAt l.head 8 4) dies = some w →
      w.quiesceAll (fun t i => t.coolest i (t.tries m i))
        ((s.steppers part (s.arg 1)).filter fun p => p.2.st = .home &&
          (match p.2.core with | some c => !dies.contains (dieOf c) | none => false)) = some u →
      ∃ t, exec .dieSetChange s = .next t ∧ FMap.find? (t.part part).slots (s.arg 1) = some m)

/-- R108, R109, R381: the states of a move, in their order: quiesce at a step boundary in a cluster whose budget reached 0
in at least 8 of the last 16 microseconds, or on a draining core, with a core of the coolest clusters chosen (which these
are is the model's reading, log 78), stream, switch to the chosen core, or to the next in the order of their heat where that one has no
room any more (log 78), with the old core
forwarding, the six tables one by one, the markers, and the drain message that ends it. -/
def Obligations.MigrationSteps : Prop :=
  ∀ (s : State) (key : Nat) (i : Inst), s.arg 0 = key → FMap.find? s.insts key = some i →
    (∀ c, i.core = some c → i.st = .home → i.busy = false →
      let leaving := (s.core c).draining
      (leaving = true ∨ i.atStep = true ∧ 8 ≤ s.heat (clusterOf c) →
        (s.arg 1 ∈ s.coolCores i c leaving → ∃ t j, exec .migrationQuiesce s = .next t ∧ FMap.find? t.insts key = some j ∧
          j.st = .quiesce ∧ j.dest = some (s.arg 1) ∧ j.forced = leaving ∧ t.mem = s.mem) ∧
        (s.arg 1 ∉ s.coolCores i c leaving → exec .migrationQuiesce s = .next s)) ∧
      (leaving = false → s.heat (clusterOf c) < 8 → exec .migrationQuiesce s = .next s)) ∧
    (∀ c, i.core = some c → i.st = .quiesce → i.busy = false → s.engineIdle key = true →
      ∃ t j, exec .migrationStream s = .next t ∧ FMap.find? t.insts key = some j ∧ j.st = .stream ∧
        ∀ e ∈ (t.core c).runq, e.inst ≠ key) ∧
    (∀ c u, i.core = some c → i.st = .stream → s.moveTo key ((i.dest.toList ++ s.byHeat (s.roomy i (s.targets i c i.forced))).filter fun d => s.allotted i.part d) = some u →
      exec .migrationSwitch s = .next (u.switchFrom key c) ∧
      ∀ j, FMap.find? u.insts key = some j → ∃ k, FMap.find? (u.switchFrom key c).insts key = some k ∧
        k.st = .switching ∧ k.fwd = some c ∧ k.core = j.core ∧ k.tables = (span 0 6).map fun t => (t, c)) ∧
    (∀ c d u, i.core = some c → i.st = .stream → i.dest = some d → s.allotted i.part d = true → s.moveInst key d = some u →
      exec .migrationSwitch s = .next (u.switchFrom key c)) ∧
    (∀ l d e, s.byHeat l = d :: e → ∀ x ∈ l, s.heat (clusterOf x) ≤ 16 → s.heat (clusterOf d) ≤ s.heat (clusterOf x)) ∧
    (∀ c, i.core = some c → i.st = .switching → s.arg 1 ≤ 5 →
      ∃ t j, exec .placementTableRewrite s = .next t ∧ FMap.find? t.insts key = some j ∧
        FMap.find? j.tables (s.arg 1) = some c ∧
        j.st = (if (span 0 6).all fun n => FMap.find? (FMap.put i.tables (s.arg 1) c) n = some c then .drain else .switching)) ∧
    (i.moving = true → s.arg 1 ∉ i.markers → i.core.isSome = true → FMap.find? i.tables (s.arg 1) = i.core →
      ∃ t j, exec .drainMarker s = .next t ∧ FMap.find? t.insts key = some j ∧ j.markers = s.arg 1 :: i.markers) ∧
    (i.st = .drain → (∀ n, n < 6 → n ∈ i.markers) →
      ∃ t j, exec .drainMessage s = .next t ∧ FMap.find? t.insts key = some j ∧ j.st = .home ∧ j.fwd = none ∧ j.dest = none)

/-! ### Steps of the device: collectives, transport, service, hub dies -/

/-- R326, R331, R332: a member's contribution, as memory holds it, arrives at its cluster node, and a node's value at the
node above; a running value is combined element by element; a member's completion posts INC to its counter. That a contribution
is read whole in one step is the model's reading (log 68).
R333: an injection that waits in the issue queue is neither read nor completed; an entry leaves the injection queue when its
contribution has been read, also where its piece has failed already, and the oldest one that waits then takes the place (log 25). -/
def Obligations.CollectiveSteps : Prop :=
  ∀ (s : State) (v : Dv), s.dvs[s.arg 0]? = some v →
    let d := (s.group v.part v.grp).desc
    (∀ k x, v.alone = false → s.arg 1 < 0x10000 → v.inj.findIdx? (fun x => x.core = s.arg 2 && !x.read && !x.done) = some k →
      v.inj[k]? = some x → x.waits = true → exec .dovetailCombine s = .next s) ∧
    (∀ k x, v.alone = false → (v.bad.isSome = true ∨ eReads d x.entry (gRank d (s.arg 2)) = false) → s.arg 1 < 0x10000 → clusterOf (s.arg 2) = s.arg 1 →
      v.inj.findIdx? (fun x => x.core = s.arg 2 && !x.read && !x.done) = some k → v.inj[k]? = some x → x.waits = false →
      exec .dovetailCombine s =
        .next ((s.putDv (s.arg 0) { v with inj := replaceAt v.inj k { x with read := true } }).dvAdmit (s.arg 2))) ∧
    (∀ c, s.dvWaiting c = [] ∨ 64 ≤ s.dvHeld c → s.dvAdmit c = s) ∧
    (∀ c y, s.dvWaiting c = [y] → s.dvHeld c < 64 → (s.dvAdmit c).dvWaiting c = []) ∧
    (∀ k x b, v.alone = false → v.bad = none → s.arg 1 < 0x10000 → clusterOf (s.arg 2) = s.arg 1 →
      v.inj.findIdx? (fun x => x.core = s.arg 2 && !x.read && !x.done) = some k → v.inj[k]? = some x → x.waits = false →
      eReads d x.entry (gRank d (s.arg 2)) = true → s.dvRead v.part x = some b →
      exec .dovetailCombine s = .next ((s.putDv (s.arg 0)
        (({ v with inj := replaceAt v.inj k { x with read := true } } : Dv).arrive d (s.arg 1) (s.arg 2) (dvElems d b))).dvAdmit (s.arg 2))) ∧
    (∀ l, v.alone = false → v.bad = none → s.arg 1 = dieNode (s.arg 2 / 128) → s.arg 2 < 0x10000 → s.arg 1 ≠ rootNode →
      v.full d (s.arg 2) = some l → v.has (s.arg 1) (s.arg 2) = false →
      ∃ t, exec .dovetailCombine s = .next t ∧ t.mem = s.mem ∧ t.dvs[s.arg 0]? = some (v.arrive d (s.arg 1) (s.arg 2) l)) ∧
    (∀ l, v.alone = false → v.bad = none → s.arg 1 = rootNode → s.arg 2 < 4 → gTop d = rootNode →
      v.full d (dieNode (s.arg 2)) = some l → v.has rootNode (s.arg 2) = false →
      ∃ t, exec .dovetailCombine s = .next t ∧ t.mem = s.mem ∧ t.dvs[s.arg 0]? = some (v.arrive d rootNode (s.arg 2) l)) ∧
    (∀ a b, (dvCombine d a b).1 = List.zipWith (fun x y => (dvOne d x y).1) a b ∧
      (gType d = 0 → gOp d = 0 → ∀ x y, dvOne d x y = ((x + y) % 2 ^ 32, 0))) ∧
    (∀ k x c m, v.alone = false → v.inj.findIdx? (fun x => x.core = s.arg 1 && !x.done && !x.waits) = some k → v.inj[k]? = some x →
      (s.core (s.arg 1)).takeover = false → s.cntAway x.cnt = false → (s.cores.all fun p => !p.2.takeover) = true →
      gCount d ≤ v.inj.length → (v.bad.isSome = true ∨ (v.result d).isSome = true) → gXq d = false →
      x.cnt = some (c, m) → x.peng = false →
      ∃ t, exec .dovetailCompletion s = .next t ∧
        t.counterVal (c, m) = (s.counterVal (c, m) + eInc x.entry) % 2 ^ 32)

/-- R337-R340: a packet leaves with the bytes read in one step as it leaves (log 68), and one of RUD is counted for its
node; an UUD message, whose packets are never counted in queue depth (log 25), completes once all its packets have left, in a step after
the last one left (log 53); an acknowledgement takes a packet off and
keeps its mark among the last 256; that of the last packet completes the message, which posts LINC; a lost packet is read
and sent again; a refusal completes it with TRANSPORT_REMOTE, a lost path with LINK_DOWN, in the counter's
latch; a packet that no registration admits is placed nowhere; a message's last packet posts RINC at the receiver. Which page
translations the engine keeps for a message is the model's reading (log 53). -/
def Obligations.TransportSteps : Prop :=
  ∀ s : State,
    let node (t : State) (n : Nat) : Node := FMap.get Node.reset t.hub.nodes n
    (∀ x, s.xmsg? (s.arg 0) = some x → x.bad = none →
      (∀ tlb b, x.packet (s.arg 1) = true → x.sentAt (s.arg 1) = false → x.uud = false →
        s.xRead x x.tlb (x.pieces (s.arg 1)) = .ok (tlb, b) →
        ∃ t, exec .transportPacketSend s = .next t ∧ t.mem = s.mem ∧
          t.xmsg? (s.arg 0) = some { x with sent := x.sent ++ [⟨s.arg 1, b, 0⟩], tlb := tlb } ∧
          (node t x.node).queue = (node s x.node).queue + 1) ∧
      (∀ tlb b, x.packet (s.arg 1) = true → x.sentAt (s.arg 1) = false → x.uud = true → x.sent.length < xPackets x.len →
        s.xRead x x.tlb (x.pieces (s.arg 1)) = .ok (tlb, b) →
        ∃ t, exec .transportPacketSend s = .next t ∧ t.mem = s.mem ∧ t.hub.nodes = s.hub.nodes ∧
          t.xmsg? (s.arg 0) = some { x with sent := x.sent ++ [⟨s.arg 1, b, 0⟩], tlb := tlb }) ∧
      (∀ c m, x.uud = true → xPackets x.len ≤ x.sent.length → x.cnt = some (c, m) → x.peng = false →
        s.cntAway x.cnt = false →
        ∃ t, exec .transportPacketSend s = .next t ∧ t.xmsg? (s.arg 0) = none ∧ t.mem = s.mem ∧
          t.counterVal (c, m) = (s.counterVal (c, m) + fieldAt x.desc 0x28 4) % 2 ^ 32) ∧
      (∀ c m, x.cnt = some (c, m) → x.peng = false → s.cntAway x.cnt = false → s.arg 2 = 0 → x.uud = false →
        x.sentAt (s.arg 1) = true → s.arg 1 ∉ x.acked → xPackets x.len ≤ x.acked.length + 1 →
        ∃ t, exec .transportAck s = .next t ∧ t.xmsg? (s.arg 0) = none ∧ t.mem = s.mem ∧
          t.counterVal (c, m) = (s.counterVal (c, m) + fieldAt x.desc 0x28 4) % 2 ^ 32) ∧
      (s.arg 2 = 0 → x.uud = false → x.sentAt (s.arg 1) = true → s.arg 1 ∉ x.acked → x.acked.length + 1 < xPackets x.len →
        ∃ t, exec .transportAck s = .next t ∧ t.xmsg? (s.arg 0) = some { x with acked := x.acked ++ [s.arg 1] } ∧
          (node t x.node).queue = (node s x.node).queue - 1 ∧
          (node t x.node).marks = (decide (s.arg 3 ≠ 0) :: (node s x.node).marks).take 256) ∧
      (∀ c m, x.cnt = some (c, m) → x.peng = false → s.cntAway x.cnt = false → s.arg 2 ≠ 0 → (FMap.get Latch.clear (s.core c).mbLatch m).ep = false →
        ∃ t, exec .transportAck s = .next t ∧ t.xmsg? (s.arg 0) = none ∧
          (FMap.get Latch.clear (t.core c).mbLatch m).code = Cause.transportRemote.code) ∧
      (∀ c m, x.cnt = some (c, m) → x.peng = false → s.cntAway x.cnt = false → s.arg 2 = 0 → x.uud = false →
        x.sentAt (s.arg 1) = true → s.arg 1 ∉ x.acked → (FMap.get Latch.clear (s.core c).mbLatch m).ep = false →
        ∃ t, exec .transportRetransmit s = .next t ∧ t.xmsg? (s.arg 0) = none ∧
          (FMap.get Latch.clear (t.core c).mbLatch m).code = Cause.linkDown.code) ∧
      (∀ tlb b, s.arg 2 ≠ 0 → x.uud = false → x.sentAt (s.arg 1) = true → s.arg 1 ∉ x.acked →
        s.xRead x x.tlb (x.pieces (s.arg 1)) = .ok (tlb, b) →
        ∃ t, exec .transportRetransmit s = .next t ∧ t.mem = s.mem ∧
          t.xmsg? (s.arg 0) = some { x with tlb := tlb, sent := x.sent.map (fun p =>
            if p.off = s.arg 1 then { p with bytes := b, resent := p.resent + 1 } else p) })) ∧
    (∀ part msg rhnd roff len rinc ract, s.args = [part, msg, rhnd, roff, 0, len, rinc, ract] →
      (s.xins.find? fun y => y.part = part && y.msg = msg) = none → 0 < len → len ≤ 4096 → s.payload.length = len →
      (s.xAdmit part rhnd roff len = none → ∃ t, exec .transportPacketArrival s = .next t ∧ t.mem = s.mem ∧
        ⟨part, msg, rhnd, [], true, []⟩ ∈ t.xins) ∧
      (∀ c m r u tlb, s.xAdmit part rhnd roff len = some (c, m, r) → (s.cores.all fun p => !p.2.takeover) = true →
        rinc % 2 ^ 32 ≠ 0 → s.xPlace c part [] (linePieces (r.base + roff + 0) (xSize len 0) 66) s.payload = (u, tlb, true) →
        ∃ t, exec .transportPacketArrival s = .next t ∧ t.mem = u.mem ∧
          t.counterVal (c, m) = (s.counterVal (c, m) + rinc) % 2 ^ 32))

/-- R379-R387: a repair undoes the open chunk of a core alone; a double-bit error makes its 8 bytes uncorrectable and an
HBM one its sector, on the pseudo-channel that R169 gives its address; scrubbing shows nothing; a worn core drains; a retired core with a spare is replaced, keeping
counters and racks, and without one its coordinate names nothing; a takeover ends; a pseudo-channel moves, is redirected,
and no byte of memory changes; lanes and phases are counted. INFO and UNIT of the log entries, the drain of a requested
unit and what a spare starts with are the model's readings and choices (logs 33, 55 and 79). -/
def Obligations.ServiceSteps : Prop :=
  ∀ s : State,
    (∀ ch, s.arg 0 = 0 → s.exists' (s.arg 1) = true → (s.core (s.arg 1)).chunk = some ch → ∃ t, exec .softErrorRepair s = .next t ∧
      (t.core (s.arg 1)).chunk = none ∧ (t.core (s.arg 1)).t = ch.ckpt ∧
      (t.core (s.arg 1)).squashed = (s.core (s.arg 1)).squashed ∧ t.mem = s.mem) ∧
    (s.arg 0 = 5 → s.exists' (s.arg 1) = true → ∃ t, exec .softErrorRepair s = .next t ∧ t.mem = s.mem ∧
      ∀ a, a ∈ t.poison ↔ a ∈ s.poison ∨ s.arg 2 / 8 * 8 ≤ a ∧ a < s.arg 2 / 8 * 8 + 8) ∧
    (s.arg 0 = 8 → s.arg 2 < 0xC000000000 → s.arg 1 ≠ unitOfHbm (s.arg 2) → exec .softErrorRepair s = .next s) ∧
    (s.arg 0 = 8 → s.arg 2 < 0xC000000000 → s.arg 1 = unitOfHbm (s.arg 2) → ∃ t, exec .softErrorRepair s = .next t ∧ t.mem = s.mem ∧
      ∀ a, a ∈ t.poison ↔ a ∈ s.poison ∨ s.arg 2 / 32 * 32 ≤ a ∧ a < s.arg 2 / 32 * 32 + 32) ∧
    exec .scrub s = .next s ∧
    ((s.core (s.arg 0)).draining = false → (s.core (s.arg 0)).worn s.cycle = true →
      ∃ t, exec .unitDraining s = .next t ∧ (t.core (s.arg 0)).draining = true ∧ t.mem = s.mem) ∧
    (s.arg 0 = 0 → s.arg 2 = 0 → s.unitUp 0 (s.arg 1) = true → s.drained 0 (s.arg 1) = true →
      let c := s.arg 1
      ((s.cluster (clusterOf c)).spares > 0 → ∃ t, exec .unitRetire s = .next t ∧ (t.core c).takeover = true ∧
        (t.core c).mb = (s.core c).mb ∧ (t.core c).racks = (s.core c).racks ∧ (t.core c).t.slots = (s.core c).t.slots ∧
        (t.cluster (clusterOf c)).spares + 1 = (s.cluster (clusterOf c)).spares ∧ t.mem = s.mem) ∧
      ((s.cluster (clusterOf c)).spares = 0 → (∀ p ∈ s.insts, p.2.core ≠ some c) → ∃ t, exec .unitRetire s = .next t ∧
        t.exists' c = false ∧ t.mem = s.mem)) ∧
    (∃ t, exec .spareTakeoverComplete s = .next t ∧ t.mem = s.mem ∧
      ∀ c, c ∈ unitCores (s.arg 0) (s.arg 1) → (t.core c).takeover = false) ∧
    (let id := s.arg 0 * 128 + s.arg 1
     (s.arg 0 ≤ 7 → s.arg 1 ≤ 95 → (∀ n, n ∈ s.hub.retired ++ s.hub.moving → n / 128 ≠ s.arg 0) →
       ∃ t, exec .pseudoChannelRetire s = .next t ∧ t.hub.moving = id :: s.hub.moving ∧ t.mem = s.mem) ∧
     (id ∈ s.hub.moving → ∃ t, exec .pseudoChannelRedirect s = .next t ∧ id ∈ t.hub.retired ∧ id ∉ t.hub.moving ∧
       t.mem = s.mem)) ∧
    (s.arg 0 ≤ 7 → FMap.get 0 s.hub.lanes (s.arg 0) < 9 → ∃ t, exec .laneFailure s = .next t ∧
      FMap.get 0 t.hub.lanes (s.arg 0) = FMap.get 0 s.hub.lanes (s.arg 0) + 1 ∧ t.mem = s.mem) ∧
    (∃ t, exec .regulatorPhaseLoss s = .next t ∧ t.mem = s.mem ∧ t.cores = s.cores ∧
      FMap.get 0 t.hub.phases (s.arg 0) = FMap.get 0 s.hub.phases (s.arg 0) + 1)

/-- R2, R387, R391, R393: a hub die without links, or retired, gives its functions to the other one that can carry them,
and with none left the manual says nothing; restored links share them again; a posted image is refused with its cause, or
taken by the first hub die and handed back, then by the second, and by the compute dies one by one, the status word then
0; at power-good the bring-up steps pass one after another. R390, attestation: once the PCIe link is up, SPDM's requests
are answered in their order, each by its response, and out of order by an error; a signature covers the transcript so far
(the codes are the model's own, log 28: PRESUMED from SPDM's specification). That an image's verdict and version depend on
all that stands in HBM from its address on is the model's reading (log 58), and so is the status SPAD_UNCORRECTABLE of one with a
byte there that cannot be corrected (R379); so are the stop with both hub dies gone (log 60)
and what waits for the bring-up: SPDM for the PCIe link, and the count for a step that has not passed (log 59). -/
def Obligations.HubSteps : Prop :=
  ∀ s : State,
    (∀ n, n = s.arg 0 % 2 → s.hub.units.contains (6, n) = false →
      (s.hub.sound (1 - n) = true → s.arg 1 ≠ 0 → ∃ t, exec .hubFailover s = .next t ∧ t.hub.isAlive n = false ∧
        t.hub.isAlive (1 - n) = true ∧ t.hub.units.contains (6, n) = true ∧ t.mem = s.mem) ∧
      (s.hub.sound (1 - n) = true → s.arg 1 = 0 → s.hub.linksUp n = true → ∃ t, exec .hubFailover s = .next t ∧
        t.hub.isAlive n = false ∧ t.hub.isAlive (1 - n) = true ∧ t.cores = s.cores ∧ t.mem = s.mem) ∧
      (s.hub.sound (1 - n) = false → (s.arg 1 ≠ 0 ∨ s.hub.linksUp n = true) → exec .hubFailover s = .fault .noHub)) ∧
    (∀ n, n = s.arg 0 % 2 → s.hub.units.contains (6, n) = false → s.hub.units.contains (5, n) = false →
      s.hub.linksUp n = false → ∃ t, exec .hubLinksRestored s = .next t ∧ t.hub.linksUp n = true ∧ t.mem = s.mem ∧
        (s.hub.updating = [] → t.hub.isAlive n = true)) ∧
    (s.hub.posted = true → s.hub.updating = [] → s.hub.switching = [] →
      let a := s.hub.mailbox.1
      let b := s.imageAt a
      ((∃ x ∈ s.poison, a ≤ x ∧ x < 0xC000000000) → ∃ t, exec .firmwareUpdate s = .next t ∧
        t.hub.mailbox = (a, Cause.spadUncorrectable.code) ∧ t.hub.firmware = s.hub.firmware ∧ t.hub.updating = [] ∧ t.hub.posted = false) ∧
      ((∀ x ∈ s.poison, x < a ∨ 0xC000000000 ≤ x) →
      (Config.imageVerdict b ≠ 0 → ∃ t, exec .firmwareUpdate s = .next t ∧ t.hub.mailbox = (a, Config.imageVerdict b) ∧
        t.hub.firmware = s.hub.firmware ∧ t.hub.updating = []) ∧
      (Config.imageVerdict b = 0 → Config.imageVersion b < s.hub.secver → ∃ t, exec .firmwareUpdate s = .next t ∧
        t.hub.firmware = s.hub.firmware ∧ t.hub.updating = [] ∧ t.hub.mailbox.2 ≠ 0) ∧
      (Config.imageVerdict b = 0 → s.hub.secver ≤ Config.imageVersion b → s.hub.sound 0 = true → s.hub.sound 1 = true →
        ∃ t, exec .firmwareUpdate s = .next t ∧ t.hub.updating = [0, 1] ∧ t.hub.image = b ∧ t.hub.alive = (false, true)))) ∧
    (s.hub.updating = [0, 1] → s.arg 0 = 0 → s.hub.sound 0 = true → ∃ t, exec .hubDieHandback s = .next t ∧
      t.hub.alive = (true, false) ∧ t.hub.updating = [1]) ∧
    (s.hub.updating = [1] → s.arg 0 = 1 → ∃ t, exec .hubDieHandback s = .next t ∧ t.hub.updating = [] ∧
      t.hub.switching = [0, 1, 2, 3] ∧ t.hub.alive = (s.hub.sound 0, s.hub.sound 1)) ∧
    (∀ d, s.arg 0 = 2 + d → d ∈ s.hub.switching → ∃ t, exec .hubDieHandback s = .next t ∧
      t.hub.switching = s.hub.switching.erase d ∧
      (s.hub.switching = [d] → t.hub.firmware = s.hub.image ∧ t.hub.mailbox = (s.hub.mailbox.1, 0)) ∧
      (s.hub.switching ≠ [d] → t.hub.firmware = s.hub.firmware ∧ t.hub.mailbox = s.hub.mailbox)) ∧
    (s.hub.bringup < 6 → (s.arg 0 = 0 → exec .powerGood s = .next s) ∧
      (s.arg 0 ≠ 0 → ∃ t, exec .powerGood s = .next t ∧ t.hub.bringup = s.hub.bringup + 1 ∧ t.mem = s.mem)) ∧
    (s.pcieUp = false → exec .getVersion s = .next s ∧ exec .getCapabilities s = .next s ∧
      exec .negotiateAlgorithms s = .next s ∧ exec .getDigests s = .next s ∧ exec .getCertificate s = .next s ∧
      exec .challenge s = .next s ∧ exec .getMeasurements s = .next s) ∧
    (s.pcieUp = true →
      (∃ t, exec .getVersion s = .next t ∧ t.hub.spdm = 1 ∧ t.hub.response = [0x04, 0x13]) ∧
      (1 ≤ s.hub.spdm → ∃ t, exec .getCapabilities s = .next t ∧ t.hub.spdm = max 2 s.hub.spdm ∧ t.hub.response = [0x61]) ∧
      (s.hub.spdm = 0 → ∃ t, exec .getCapabilities s = .next t ∧ t.hub.spdm = 0 ∧ t.hub.response = [0x7F]) ∧
      (2 ≤ s.hub.spdm → s.arg 0 ≠ 0 → s.arg 1 ≠ 0 → ∃ t, exec .negotiateAlgorithms s = .next t ∧ t.hub.spdm = 3 ∧
        t.hub.response = [0x63, 1, 1]) ∧
      (s.hub.spdm = 3 → (∃ t, exec .getDigests s = .next t ∧ t.hub.spdm = 3 ∧ t.hub.response = [0x01, Config.certificate 0]) ∧
        (s.arg 0 = 0 → ∃ t, exec .getCertificate s = .next t ∧ t.hub.response = [0x02, Config.certificate 1]) ∧
        (∃ t, exec .challenge s = .next t ∧
          t.hub.response = [0x03, Config.sign (s.hub.transcript * 2 ^ 512 + s.arg 0)]) ∧
        (1 ≤ s.arg 0 → s.arg 0 ≤ 5 → ∃ t, exec .getMeasurements s = .next t ∧
          t.hub.response = [0x60, s.arg 0, s.hub.measured (s.arg 0), Config.sign (s.hub.transcript * 2 ^ 512 + s.arg 0)])) ∧
      (s.hub.spdm ≠ 3 → (∃ t, exec .challenge s = .next t ∧ t.hub.response = [0x7F]) ∧
        (∃ t, exec .getMeasurements s = .next t ∧ t.hub.response = [0x7F])))

/-- R388, R182, R392, R9: once the PCIe link is up (which also says that a hub die serves it, log 59), partitions 0 and 1
write records and set the power cap: a written limit reads back, and the supervisor actor follows the record where a write
leaves another one due (R77; log 61); a core's store to the I/O region is performed in its turn; a write of another partition is ignored; a
retirement request drains its core, or sets the error bit where the unit may not be retired, and its reserved bits read
zero; the error bit is cleared by writing it. UNIT of a hub die and of its link is the model's number (log 79). -/
def Obligations.RecordSteps : Prop :=
  ∀ (s : State) (part : Nat), part ≤ 385 →
    (s.pcieUp = true → ∀ v writer, writer ≤ 1 → s.args = [writer, part, 0x94] → s.payload = leBytes 4 v →
      let w := s.putCfg part 0x94 (leBytes 4 v)
      exec .configRecordWrite s = .next (w.settleSup part false) ∧ w.cfg part 0x94 4 = v % 2 ^ 32 ∧
        w.mem = s.mem ∧ w.cores = s.cores ∧ (s.supDue part = false → w.settleSup part false = w)) ∧
    (s.pcieUp = false → ∀ writer off, s.args = [writer, part, off] → exec .configRecordWrite s = .next s) ∧
    (∀ writer off, 1 < writer → s.args = [writer, part, off] → exec .configRecordWrite s = .next s) ∧
    (s.pcieUp = true → ∀ writer watts, writer ≤ 1 → s.args = [writer, watts] → ∃ t, exec .configRecordWrite s = .next t ∧
      t.hub.cap = (if 600 ≤ watts ∧ watts ≤ 1800 then watts else s.hub.cap) ∧ t.mem = s.mem ∧ t.cores = s.cores) ∧
    (∀ w rest, s.args = [] → s.iow = w :: rest → w.part ≤ 1 → w.addr = 0x500000000000 + part * 2 ^ 20 + 0x94 →
      (∃ v, w.bytes = leBytes 4 v) → s.supDue part = false →
      ∃ t, exec .configRecordWrite s = .next t ∧ t.iow = rest ∧ t.cfg part 0x94 4 = leVal w.bytes) ∧
    (s.pcieUp = true → ∀ writer w, writer ≤ 1 → s.args = [writer, part, w] →
      let kind := w / 2 ^ 52 % 16
      let unit := w / 2 ^ 32 % 2 ^ 13
      (kind = 0 → s.mayRetire part 0 unit = true → s.supDue part = false → ∃ t, exec .unitRetirementRequest s = .next t ∧
        (t.core unit).draining = true ∧ t.cfg part 0x168 8 = unit * 2 ^ 32 ∧ t.mem = s.mem) ∧
      (s.mayRetire part kind unit = false → s.supDue part = false → ∃ t, exec .unitRetirementRequest s = .next t ∧
        t.cfg part 0x3F8 1 % 2 = 1 ∧ t.hub = s.hub ∧ t.cores = s.cores ∧ t.mem = s.mem)) ∧
    (s.pcieUp = true → ∀ writer, writer ≤ 1 → s.args = [writer, part] → s.supDue part = false →
      ∃ t, exec .configErrorClear s = .next t ∧ t.cfg part 0x3F8 1 = 0 ∧ t.mem = s.mem)

/-! ### Decoding, steps, reset and memory -/

/-- R47-R50: words written out from the encodings of the manual decode to the instructions they stand for. -/
def Obligations.DecodeWords : Prop :=
  decodeWord 0x42420001#32 = .ok (.addi 4#5 4#5 1#15) ∧
  decodeWord 0x40529801#32 = .ok (.sub 5#5 5#5 6#5) ∧
  decodeWord 0x04501FFD#32 = .ok (.bne 5#5 0#5 0xFFD#12) ∧
  decodeWord 0x02100010#32 = .ok (.jal 1#5 16#20) ∧
  decodeWord 0x8830E008#32 = .ok (.ldD 3#5 1#5 8#12) ∧
  decodeWord 0x5C180E00#32 = .ok (.vadd 1#5 16#5 3#5 1#1) ∧
  decodeWord 0x123214D3#32 = .ok (.amocas 3#5 4#5 5#5 6#5 1#1 0#1) ∧
  decodeWord 0x1A322000#32 = .ok (.cpy 3#5 4#5 1#2) ∧
  decodeWord 0x28228000#32 = .ok (.rkpred 2#5 5#5) ∧
  decodeWord 0x26531C01#32 = .ok (.launchi 5#5 6#5 7#5) ∧
  decodeWord 0x2A320A00#32 = .ok (.dvcfg 3#5 4#5 5#6) ∧
  decodeWord 0x2C0000A0#32 = .ok (.trap 5#16) ∧
  decodeWord 0x2C32140D#32 = .ok (.hnew 3#5 4#5 5#5)

/-- R42, R47-R50: every word instruction whose operands its encoding admits comes back from its word, each operand at
every value. -/
def Obligations.EncodeDecode : Prop :=
  ∀ i : Instr, i.isWord = true → i.wellFormed = true → decodeWord (encode i) = .ok i ∧ (encode i).msb = false

/-- R42-R45, R51 and the model's agenda (log 1): with no turn to come, and no priority-1 firing that would pre-empt (R27),
a core whose firing may issue runs the decoded instruction at its program counter, as a lone unit with its chunk opened
and the next address 4 past its own; an instruction that neither waits nor traps leaves the program counter where it sent
control, one that stays leaves it where it is.
R42, R43, R45: the two words of a unit whose first word's bit 31 is 1 run together, the next address 8 past the unit's: the second
member reads every register as it stood before the pair, and where both complete each register holds what the member that wrote it
put there; where the first one waits, or the second one, neither has taken effect.
R44, R51, R170: a word that is no instruction, one with a reserved field, and a pair that may not stand together trap with ILLEGAL_OP,
RESERVED_BITS and ILLEGAL_PAIR, in this order, the first word before the second; of a memory core also the words that R170 denies it.
The XVAL is the word, or the unit, and XPC the unit's own address.
A turn of the agenda that names a step of the device runs exactly that step. -/
def Obligations.StepRunsDecoded : Prop :=
  (∀ (s : State) (f : Firing),
    let b := s.beginTurn ⟨1, s.cur, none, [], []⟩
    let pc := f.pc.toNat
    s.agenda = [] → b.exists' b.cur = true → b.me.takeover = false → b.preemptor = none → b.t.fir = some f →
    (∀ ch, b.me.chunk = some ch → ch.sealed = false) → b.blocked = false → b.dueTrap = none → b.dueImprecise = none →
    (b.codeWord pc = none → step s = b.unitTrap .protExec pc false) ∧
    (∀ w, b.codeWord pc = some w →
      let v := b.fetchLine f (pc / 64)
      let denied (x : BitVec 32) : Prop := decodeWord x = .error .illegalOp ∨ isMemCore b.cur = true ∧ memIllegal x = true
      let odd (x : BitVec 32) (second : Bool) : Prop := (∃ i, decodeWord x = .error (.reservedBits i)) ∨ second = true ∧ x.msb = true
      (∀ i, w.msb = false → decodeWord w = .ok i → (isMemCore b.cur = true → memIllegal w = false) → b.windowFull 1 = false →
        b.chunkFull 1 = false →
        let u := v.openFor 4
        step s = u.endTurn 1 (setsSkip i) (exec i u) ∧ u.t.npc = f.pc + 4#64 ∧ u.mem = s.mem ∧ u.t.gp = s.t.gp ∧
        ∀ t, exec i u = .next t → TurnEnds (step s) t) ∧
      (w.msb = false ∨ pc % 8 ≠ 0 →
        (denied w → step s = v.unitTrap .illegalOp w.toNat false) ∧
        (¬denied w → odd w (decide (pc % 8 ≠ 0)) → step s = v.unitTrap .reservedBits w.toNat false)) ∧
      (w.msb = true → pc % 8 = 0 →
        (v.codeWord (pc + 4) = none → step s = v.unitTrap .protExec (pc + 4) true) ∧
        ∀ w2, v.codeWord (pc + 4) = some w2 →
          (denied w → step s = v.unitTrap .illegalOp w.toNat false) ∧
          (¬denied w → denied w2 → step s = v.unitTrap .illegalOp w2.toNat true) ∧
          (¬denied w → ¬denied w2 → odd w false → step s = v.unitTrap .reservedBits w.toNat false) ∧
          (¬denied w → ¬denied w2 → ¬odd w false → odd w2 true → step s = v.unitTrap .reservedBits w2.toNat true) ∧
          ∀ c a, decodeWord w = .ok c → decodeWord w2 = .ok a → ¬denied w → ¬denied w2 → w2.msb = false →
            (classA w = true ∨ classA w2 = false ∨ alwaysLone c = true ∨ (∃ k ∈ v.pairWrites c, k ∈ v.pairWrites a) →
              step s = v.unitTrap .illegalPair (w2.toNat * 2 ^ 32 + w.toNat) false) ∧
            (classA w = false → classA w2 = true → alwaysLone c = false → (∀ k ∈ v.pairWrites c, k ∉ v.pairWrites a) →
              v.windowFull 2 = false → v.chunkFull 2 = false →
              let u := v.openFor 8
              u.t.npc = f.pc + 8#64 ∧ u.mem = s.mem ∧ u.t.gp = s.t.gp ∧
              (∀ sc, exec c u = .next sc → sc.me.stayed = true → sc.revoking = false ∨ u.revoking = true →
                step s = u.endTurn 2 (setsSkip c) (.next sc) ∧ TurnEnds (step s) sc) ∧
              (∀ sc sa, exec c u = .next sc → sc.me.stayed = false →
                let sd := sc.forSecond u.t
                sd.t.gp = u.t.gp ∧ sd.t.gs = u.t.gs ∧ sd.t.v = u.t.v ∧ sd.mem = sc.mem ∧
                (exec a sd = .next sa → sa.me.stayed = false →
                  let t := sa.joinPair sc u.t
                  step s = u.endTurn 2 (setsSkip c) (.next t) ∧ TurnEnds (step s) t ∧
                  ((∀ d p q, (sa.me.waiting u.t.level).await ≠ .reply d p q) →
                    (∀ q : Fin 32, t.t.gp.get q = if sc.t.gp.get q = u.t.gp.get q then sa.t.gp.get q else sc.t.gp.get q) ∧
                    (∀ q : Fin 16, t.t.v.get q = if sc.t.v.get q = u.t.v.get q then sa.t.v.get q else sc.t.v.get q))) ∧
                (∀ sb, exec a sd = .next sa → sa.me.stayed = true → exec a (u.updMe fun k => { k with second := true }) = .next sb →
                  let t := if sb.me.stayed then sb else u.stall
                  step s = u.endTurn 2 (setsSkip c) (.next t) ∧ TurnEnds (step s) t)))))) ∧
  (∀ x : BitVec 32, (x.toNat / 2 ^ 25 % 2 ^ 6 ∈ [0x0F, 0x10, 0x11, 0x14] → memIllegal x = true) ∧
    (∀ i, decodeWord x = .ok i ∨ decodeWord x = .error (.reservedBits i) →
      (∃ r ∈ (useOf i).rv ++ (useOf i).wv ++ (useOf i).late, r = 16#5 ∨ r = 17#5) → memIllegal x = true)) ∧
  (∀ (v : State) (c : Cause) (x : Nat) (second : Bool) (f : Firing), v.me.chunk = none → v.t.fir = some f → f.pri ≤ 1 →
    v.t.inTrap = false → v.t.tr.xvec ≠ 0 → ∃ t, v.unitTrap c x second = .next t ∧ t.t.tr.xcause = word (c.code + 2 ^ 8 * b2n (v.t.pc.getLsbD 2 || v.me.second || second)) ∧
      t.t.tr.xval = word x ∧ t.t.tr.xpc = f.pc ∧ t.t.pc = v.t.tr.xvec ∧ t.t.sup = true ∧ t.t.inTrap = true ∧ t.t.gp = v.t.gp ∧
      t.mem = v.mem) ∧
  (∀ (s : State) (a : Turn) (r : List Turn) (i : Instr), s.agenda = a :: r → a.act = some i → deviceStep i = true →
    step s = exec i (({ s with agenda := r } : State).beginTurn a))

/-- R36, R66, R196, R204, R206, R317: what reset leaves where the manual gives a value: the system registers of every
core, its counters and latches, PERM, the channels' identifiers, every window undefined, every cluster's NEXT. -/
def Obligations.ResetValues : Prop :=
  ∀ c n k p : Nat,
    let s : State := { State.reset with cur := c }
    (∀ r, r ∈ [0x000, 0x001, 0x002, 0x003, 0x004, 0x005, 0x011, 0x020, 0x022, 0x030, 0x031, 0x040, 0x041, 0x050] → s.csr r = 0) ∧
    s.csr 0x021 = 256 ∧ s.csr 0x010 = word c ∧
    s.counterVal (c, n) = 0 ∧ FMap.get Latch.clear s.me.mbLatch n = Latch.clear ∧ s.me.perm = 0 ∧
    FMap.get 1 s.t.nextId n = 1 ∧ FMap.get 0 s.me.eng.doneId n = 0 ∧ FMap.get Latch.clear s.t.chLatch n = Latch.clear ∧
    wValid (FMap.get 0 s.wins k) = false ∧ FMap.get 0 (s.cluster k).next p = 0

/-- The canonical form of memory holds at reset (the model's own invariant, log 3). -/
def Obligations.MemoryWfReset : Prop := Memory.wf State.reset.mem = true

/-- The canonical form of memory (the model's own invariant, log 3) is kept by every step: of every core, engine, home,
hub die and launch actor, and of every turn that the agenda brings. -/
def Obligations.MemoryWfStep : Prop :=
  ∀ s t : State, Memory.wf s.mem = true → step s = .next t → Memory.wf t.mem = true
end

