-- ==== Sys2Proof/Laws/Map.lean ====
section
/-! SUPPORT. Laws of the sparse tables: what a read gives after a write, and that the writes of memory keep its
canonical form. -/
namespace Sys2Proof.Machine

@[simp] theorem FMap.get_put_self {V : Type} (d : V) (m : FMap V) (k : Nat) (v : V) :
    FMap.get d (FMap.put m k v) k = v := by
  induction m with
  | nil => simp [FMap.put, FMap.get]
  | cons p r ih =>
    simp only [FMap.put]
    split
    · simp [FMap.get]
    · split
      · simp [FMap.get]
      · simp [FMap.get, *]

@[simp] theorem FMap.get_put_other {V : Type} (d : V) (m : FMap V) (k j : Nat) (v : V) (h : j ≠ k) :
    FMap.get d (FMap.put m k v) j = FMap.get d m j := by
  induction m with
  | nil => simp only [FMap.put, FMap.get, h, if_false]; split <;> rfl
  | cons p r ih =>
    obtain ⟨k', v'⟩ := p
    simp only [FMap.put]
    split
    · subst_vars; simp [FMap.get, h]
    · split
      · simp only [FMap.get, h, if_false]
        repeat' split
        all_goals first | rfl | omega
      · simp only [FMap.get, ih]

@[simp] theorem FMap.find_put_self {V : Type} (m : FMap V) (k : Nat) (v : V) :
    FMap.find? (FMap.put m k v) k = some v := by
  induction m with
  | nil => simp [FMap.put, FMap.find?]
  | cons p r ih =>
    simp only [FMap.put]
    split
    · simp [FMap.find?]
    · split
      · simp [FMap.find?]
      · simp [FMap.find?, *]

@[simp] theorem FMap.find_put_other {V : Type} (m : FMap V) (k j : Nat) (v : V) (h : j ≠ k) :
    FMap.find? (FMap.put m k v) j = FMap.find? m j := by
  induction m with
  | nil => simp only [FMap.put, FMap.find?, h, if_false]; split <;> rfl
  | cons p r ih =>
    obtain ⟨k', v'⟩ := p
    simp only [FMap.put]
    split
    · subst_vars; simp [FMap.find?, h]
    · split
      · simp only [FMap.find?, h, if_false]
        repeat' split
        all_goals first | rfl | omega
      · simp only [FMap.find?, ih]

/-- Keys below or at `k` at the front do not matter to a read above `k`. -/
theorem FMap.get_dropWhile {V : Type} (d : V) (r : FMap V) (k j : Nat) (h : k < j) :
    FMap.get d (r.dropWhile fun p => p.1 ≤ k) j = FMap.get d r j := by
  induction r with
  | nil => rfl
  | cons p r ih =>
    obtain ⟨k', v'⟩ := p
    simp only [List.dropWhile]
    split
    · rename_i hk
      simp only [decide_eq_true_eq] at hk
      simp only [FMap.get, show ¬ j = k' by omega, show ¬ j < k' by omega, if_false, ih]
    · rfl

/-- After the keys up to `k` are gone from the front, a read at or below `k` gives the default. -/
theorem FMap.get_dropWhile_le {V : Type} (d : V) (r : FMap V) (k j : Nat) (h : j ≤ k) :
    FMap.get d (r.dropWhile fun p => p.1 ≤ k) j = d := by
  induction r with
  | nil => rfl
  | cons p r ih =>
    obtain ⟨k', v'⟩ := p
    simp only [List.dropWhile]
    split
    · exact ih
    · rename_i hk
      simp only [decide_eq_false_iff_not] at hk
      simp only [FMap.get, show ¬ j = k' by omega, show j < k' by omega, if_false, if_true]

@[simp] theorem FMap.get_del_self {V : Type} (d : V) (m : FMap V) (k : Nat) : FMap.get d (FMap.del m k) k = d := by
  induction m with
  | nil => rfl
  | cons p r ih =>
    obtain ⟨k', v'⟩ := p
    simp only [FMap.del]
    split
    · exact FMap.get_dropWhile_le d r k k (Nat.le_refl k)
    · split
      · simp [FMap.get, *]
      · simp [FMap.get, *]

@[simp] theorem FMap.get_del_other {V : Type} (d : V) (m : FMap V) (k j : Nat) (h : j ≠ k) :
    FMap.get d (FMap.del m k) j = FMap.get d m j := by
  induction m with
  | nil => rfl
  | cons p r ih =>
    obtain ⟨k', v'⟩ := p
    simp only [FMap.del]
    split
    · rename_i hk
      rw [← hk] at *
      by_cases hj : j < k
      · rw [FMap.get_dropWhile_le d r k j (by omega)]; simp [FMap.get, h, hj]
      · rw [FMap.get_dropWhile d r k j (by omega)]; simp [FMap.get, h, hj]
    · split
      · rfl
      · simp only [FMap.get, ih]

@[simp] theorem FMap.get_set_self {V : Type} [DecidableEq V] (d : V) (m : FMap V) (k : Nat) (v : V) :
    FMap.get d (FMap.set d m k v) k = v := by
  unfold FMap.set; split <;> simp [*]

@[simp] theorem FMap.get_set_other {V : Type} [DecidableEq V] (d : V) (m : FMap V) (k j : Nat) (v : V) (h : j ≠ k) :
    FMap.get d (FMap.set d m k v) j = FMap.get d m j := by
  unfold FMap.set; split <;> simp [*]

/-! ### The canonical form -/

theorem FMap.sorted_tail {V : Type} {p : Nat × V} {r : FMap V} (h : FMap.sorted (p :: r) = true) :
    FMap.sorted r = true := by
  cases r with
  | nil => rfl
  | cons q r => simp [FMap.sorted] at h; exact h.2

/-- Every key of a sorted table lies above a bound that its first key is above. -/
theorem FMap.sorted_above {V : Type} {r : FMap V} {k : Nat} {v : V} (h : FMap.sorted ((k, v) :: r) = true) :
    ∀ p ∈ r, k < p.1 := by
  induction r generalizing k v with
  | nil => simp
  | cons q r ih =>
    obtain ⟨k', v'⟩ := q
    simp only [FMap.sorted, Bool.and_eq_true, decide_eq_true_eq] at h
    intro p hp
    simp only [List.mem_cons] at hp
    rcases hp with rfl | hp
    · exact h.1
    · exact Nat.lt_trans h.1 (ih h.2 p hp)

/-- A key below every key of a sorted table goes in front of it. -/
theorem FMap.sorted_cons {V : Type} {r : FMap V} {k : Nat} {v : V} (h : FMap.sorted r = true) (hk : ∀ p ∈ r, k < p.1) :
    FMap.sorted ((k, v) :: r) = true := by
  cases r with
  | nil => rfl
  | cons q r =>
    obtain ⟨k', v'⟩ := q
    simp only [FMap.sorted, Bool.and_eq_true, decide_eq_true_eq]
    exact ⟨hk (k', v') (by simp), h⟩

theorem FMap.mem_put {V : Type} {m : FMap V} {k : Nat} {v : V} {p : Nat × V} (h : p ∈ FMap.put m k v) :
    p = (k, v) ∨ p ∈ m := by
  induction m with
  | nil => simp [FMap.put] at h; exact .inl h
  | cons q r ih =>
    simp only [FMap.put] at h
    split at h
    · simp at h; rcases h with h | h <;> simp [h]
    · split at h
      · simp at h; rcases h with h | h | h <;> simp [h]
      · simp at h
        rcases h with h | h
        · simp [h]
        · rcases ih h with h | h <;> simp [h]

theorem FMap.sorted_put {V : Type} {m : FMap V} (k : Nat) (v : V) (h : FMap.sorted m = true) :
    FMap.sorted (FMap.put m k v) = true := by
  induction m with
  | nil => rfl
  | cons q r ih =>
    obtain ⟨k', v'⟩ := q
    have ha := FMap.sorted_above h
    have ht := FMap.sorted_tail h
    simp only [FMap.put]
    split
    · subst_vars; exact FMap.sorted_cons ht ha
    · split
      · refine FMap.sorted_cons h fun p hp => ?_
        simp only [List.mem_cons] at hp
        rcases hp with rfl | hp
        · assumption
        · exact Nat.lt_trans ‹_› (ha p hp)
      · refine FMap.sorted_cons (ih ht) fun p hp => ?_
        rcases FMap.mem_put hp with rfl | hp
        · show k' < k; omega
        · exact ha p hp

theorem FMap.mem_del {V : Type} {m : FMap V} {k : Nat} {p : Nat × V} (h : p ∈ FMap.del m k) : p ∈ m := by
  induction m with
  | nil => exact h
  | cons q r ih =>
    simp only [FMap.del] at h
    split at h
    · exact List.mem_cons_of_mem _ ((List.dropWhile_sublist _).mem h)
    · split at h
      · exact h
      · simp only [List.mem_cons] at h ⊢
        rcases h with h | h
        · exact .inl h
        · exact .inr (ih h)

theorem FMap.sorted_dropWhile {V : Type} {m : FMap V} (f : Nat × V → Bool) (h : FMap.sorted m = true) :
    FMap.sorted (m.dropWhile f) = true := by
  induction m with
  | nil => rfl
  | cons q r ih =>
    simp only [List.dropWhile]
    split
    · exact ih (FMap.sorted_tail h)
    · exact h

theorem FMap.sorted_del {V : Type} {m : FMap V} (k : Nat) (h : FMap.sorted m = true) :
    FMap.sorted (FMap.del m k) = true := by
  induction m with
  | nil => rfl
  | cons q r ih =>
    obtain ⟨k', v'⟩ := q
    simp only [FMap.del]
    split
    · exact FMap.sorted_dropWhile _ (FMap.sorted_tail h)
    · split
      · exact h
      · exact FMap.sorted_cons (ih (FMap.sorted_tail h)) fun p hp => FMap.sorted_above h p (FMap.mem_del hp)

theorem FMap.sorted_filter {V : Type} {m : FMap V} (f : Nat × V → Bool) (h : FMap.sorted m = true) :
    FMap.sorted (m.filter f) = true := by
  induction m with
  | nil => rfl
  | cons q r ih =>
    obtain ⟨k', v'⟩ := q
    simp only [List.filter]
    split
    · exact FMap.sorted_cons (ih (FMap.sorted_tail h)) fun p hp => FMap.sorted_above h p (List.mem_filter.1 hp).1
    · exact ih (FMap.sorted_tail h)

/-- The canonical form as two facts. -/
theorem Memory.wf_iff (m : FMap Byte) : Memory.wf m = true ↔ FMap.sorted m = true ∧ ∀ p ∈ m, p.2 ≠ 0#8 := by
  simp [Memory.wf, Bool.and_eq_true]

/-- A write of a byte keeps the canonical form. -/
theorem Memory.wf_set {m : FMap Byte} (k : Nat) (v : Byte) (h : Memory.wf m = true) :
    Memory.wf (FMap.set 0#8 m k v) = true := by
  rw [Memory.wf_iff] at h ⊢
  unfold FMap.set
  split
  · exact ⟨FMap.sorted_del k h.1, fun p hp => h.2 p (FMap.mem_del hp)⟩
  · refine ⟨FMap.sorted_put k v h.1, fun p hp => ?_⟩
    rcases FMap.mem_put hp with rfl | hp
    · assumption
    · exact h.2 p hp

/-- So does leaving bytes out. -/
theorem Memory.wf_filter {m : FMap Byte} (f : Nat × Byte → Bool) (h : Memory.wf m = true) :
    Memory.wf (m.filter f) = true := by
  rw [Memory.wf_iff] at h ⊢
  exact ⟨FMap.sorted_filter f h.1, fun p hp => h.2 p (List.mem_filter.1 hp).1⟩

/-- So does a list of masked writes. -/
theorem Memory.wf_writes (w : List (Nat × Byte × Byte)) (m : FMap Byte) (h : Memory.wf m = true) :
    Memory.wf (w.foldl (fun m p => FMap.set 0#8 m p.1 (overlay (FMap.get 0#8 m p.1) p.2)) m) = true := by
  induction w generalizing m with
  | nil => exact h
  | cons p w ih => exact ih _ (Memory.wf_set _ _ h)

end Sys2Proof.Machine
end

