-- ==== Sys2Proof/Laws/State.lean ====
section
/-! SUPPORT. What each update of the state changes, one lemma per field: a proof cites these and unfolds no record
update. -/
namespace Sys2Proof.Machine

/-! ### Updates of a core leave the rest of the package -/

@[simp] theorem State.putCore_mem (s : State) (c : Nat) (k : Core) : (s.putCore c k).mem = s.mem := rfl
@[simp] theorem State.putCore_wins (s : State) (c : Nat) (k : Core) : (s.putCore c k).wins = s.wins := rfl
@[simp] theorem State.putCore_clusters (s : State) (c : Nat) (k : Core) : (s.putCore c k).clusters = s.clusters := rfl
@[simp] theorem State.putCore_dies (s : State) (c : Nat) (k : Core) : (s.putCore c k).dies = s.dies := rfl
@[simp] theorem State.putCore_parts (s : State) (c : Nat) (k : Core) : (s.putCore c k).parts = s.parts := rfl
@[simp] theorem State.putCore_insts (s : State) (c : Nat) (k : Core) : (s.putCore c k).insts = s.insts := rfl
@[simp] theorem State.putCore_net (s : State) (c : Nat) (k : Core) : (s.putCore c k).net = s.net := rfl
@[simp] theorem State.putCore_posts (s : State) (c : Nat) (k : Core) : (s.putCore c k).posts = s.posts := rfl
@[simp] theorem State.putCore_credits (s : State) (c : Nat) (k : Core) : (s.putCore c k).credits = s.credits := rfl
@[simp] theorem State.putCore_far (s : State) (c : Nat) (k : Core) : (s.putCore c k).far = s.far := rfl
@[simp] theorem State.putCore_bars (s : State) (c : Nat) (k : Core) : (s.putCore c k).bars = s.bars := rfl
@[simp] theorem State.putCore_barHeld (s : State) (c : Nat) (k : Core) : (s.putCore c k).barHeld = s.barHeld := rfl
@[simp] theorem State.putCore_dvs (s : State) (c : Nat) (k : Core) : (s.putCore c k).dvs = s.dvs := rfl
@[simp] theorem State.putCore_xmsgs (s : State) (c : Nat) (k : Core) : (s.putCore c k).xmsgs = s.xmsgs := rfl
@[simp] theorem State.putCore_xins (s : State) (c : Nat) (k : Core) : (s.putCore c k).xins = s.xins := rfl
@[simp] theorem State.putCore_tokens (s : State) (c : Nat) (k : Core) : (s.putCore c k).tokens = s.tokens := rfl
@[simp] theorem State.putCore_iow (s : State) (c : Nat) (k : Core) : (s.putCore c k).iow = s.iow := rfl
@[simp] theorem State.putCore_hub (s : State) (c : Nat) (k : Core) : (s.putCore c k).hub = s.hub := rfl
@[simp] theorem State.putCore_cycle (s : State) (c : Nat) (k : Core) : (s.putCore c k).cycle = s.cycle := rfl
@[simp] theorem State.putCore_poison (s : State) (c : Nat) (k : Core) : (s.putCore c k).poison = s.poison := rfl
@[simp] theorem State.putCore_routes (s : State) (c : Nat) (k : Core) : (s.putCore c k).routes = s.routes := rfl
@[simp] theorem State.putCore_fresh (s : State) (c : Nat) (k : Core) : (s.putCore c k).fresh = s.fresh := rfl
@[simp] theorem State.putCore_agenda (s : State) (c : Nat) (k : Core) : (s.putCore c k).agenda = s.agenda := rfl
@[simp] theorem State.putCore_cur (s : State) (c : Nat) (k : Core) : (s.putCore c k).cur = s.cur := rfl
@[simp] theorem State.putCore_args (s : State) (c : Nat) (k : Core) : (s.putCore c k).args = s.args := rfl
@[simp] theorem State.putCore_payload (s : State) (c : Nat) (k : Core) : (s.putCore c k).payload = s.payload := rfl

@[simp] theorem State.updCore_mem (s : State) (c : Nat) (f : Core → Core) : (s.updCore c f).mem = s.mem := rfl
@[simp] theorem State.updCore_wins (s : State) (c : Nat) (f : Core → Core) : (s.updCore c f).wins = s.wins := rfl
@[simp] theorem State.updCore_clusters (s : State) (c : Nat) (f : Core → Core) : (s.updCore c f).clusters = s.clusters := rfl
@[simp] theorem State.updCore_dies (s : State) (c : Nat) (f : Core → Core) : (s.updCore c f).dies = s.dies := rfl
@[simp] theorem State.updCore_parts (s : State) (c : Nat) (f : Core → Core) : (s.updCore c f).parts = s.parts := rfl
@[simp] theorem State.updCore_insts (s : State) (c : Nat) (f : Core → Core) : (s.updCore c f).insts = s.insts := rfl
@[simp] theorem State.updCore_net (s : State) (c : Nat) (f : Core → Core) : (s.updCore c f).net = s.net := rfl
@[simp] theorem State.updCore_posts (s : State) (c : Nat) (f : Core → Core) : (s.updCore c f).posts = s.posts := rfl
@[simp] theorem State.updCore_credits (s : State) (c : Nat) (f : Core → Core) : (s.updCore c f).credits = s.credits := rfl
@[simp] theorem State.updCore_far (s : State) (c : Nat) (f : Core → Core) : (s.updCore c f).far = s.far := rfl
@[simp] theorem State.updCore_bars (s : State) (c : Nat) (f : Core → Core) : (s.updCore c f).bars = s.bars := rfl
@[simp] theorem State.updCore_barHeld (s : State) (c : Nat) (f : Core → Core) : (s.updCore c f).barHeld = s.barHeld := rfl
@[simp] theorem State.updCore_dvs (s : State) (c : Nat) (f : Core → Core) : (s.updCore c f).dvs = s.dvs := rfl
@[simp] theorem State.updCore_xmsgs (s : State) (c : Nat) (f : Core → Core) : (s.updCore c f).xmsgs = s.xmsgs := rfl
@[simp] theorem State.updCore_xins (s : State) (c : Nat) (f : Core → Core) : (s.updCore c f).xins = s.xins := rfl
@[simp] theorem State.updCore_tokens (s : State) (c : Nat) (f : Core → Core) : (s.updCore c f).tokens = s.tokens := rfl
@[simp] theorem State.updCore_iow (s : State) (c : Nat) (f : Core → Core) : (s.updCore c f).iow = s.iow := rfl
@[simp] theorem State.updCore_hub (s : State) (c : Nat) (f : Core → Core) : (s.updCore c f).hub = s.hub := rfl
@[simp] theorem State.updCore_cycle (s : State) (c : Nat) (f : Core → Core) : (s.updCore c f).cycle = s.cycle := rfl
@[simp] theorem State.updCore_poison (s : State) (c : Nat) (f : Core → Core) : (s.updCore c f).poison = s.poison := rfl
@[simp] theorem State.updCore_routes (s : State) (c : Nat) (f : Core → Core) : (s.updCore c f).routes = s.routes := rfl
@[simp] theorem State.updCore_fresh (s : State) (c : Nat) (f : Core → Core) : (s.updCore c f).fresh = s.fresh := rfl
@[simp] theorem State.updCore_agenda (s : State) (c : Nat) (f : Core → Core) : (s.updCore c f).agenda = s.agenda := rfl
@[simp] theorem State.updCore_cur (s : State) (c : Nat) (f : Core → Core) : (s.updCore c f).cur = s.cur := rfl
@[simp] theorem State.updCore_args (s : State) (c : Nat) (f : Core → Core) : (s.updCore c f).args = s.args := rfl
@[simp] theorem State.updCore_payload (s : State) (c : Nat) (f : Core → Core) : (s.updCore c f).payload = s.payload := rfl

@[simp] theorem State.putMe_mem (s : State) (k : Core) : (s.putMe k).mem = s.mem := rfl
@[simp] theorem State.putMe_wins (s : State) (k : Core) : (s.putMe k).wins = s.wins := rfl
@[simp] theorem State.putMe_clusters (s : State) (k : Core) : (s.putMe k).clusters = s.clusters := rfl
@[simp] theorem State.putMe_dies (s : State) (k : Core) : (s.putMe k).dies = s.dies := rfl
@[simp] theorem State.putMe_parts (s : State) (k : Core) : (s.putMe k).parts = s.parts := rfl
@[simp] theorem State.putMe_insts (s : State) (k : Core) : (s.putMe k).insts = s.insts := rfl
@[simp] theorem State.putMe_net (s : State) (k : Core) : (s.putMe k).net = s.net := rfl
@[simp] theorem State.putMe_posts (s : State) (k : Core) : (s.putMe k).posts = s.posts := rfl
@[simp] theorem State.putMe_credits (s : State) (k : Core) : (s.putMe k).credits = s.credits := rfl
@[simp] theorem State.putMe_far (s : State) (k : Core) : (s.putMe k).far = s.far := rfl
@[simp] theorem State.putMe_bars (s : State) (k : Core) : (s.putMe k).bars = s.bars := rfl
@[simp] theorem State.putMe_barHeld (s : State) (k : Core) : (s.putMe k).barHeld = s.barHeld := rfl
@[simp] theorem State.putMe_dvs (s : State) (k : Core) : (s.putMe k).dvs = s.dvs := rfl
@[simp] theorem State.putMe_xmsgs (s : State) (k : Core) : (s.putMe k).xmsgs = s.xmsgs := rfl
@[simp] theorem State.putMe_xins (s : State) (k : Core) : (s.putMe k).xins = s.xins := rfl
@[simp] theorem State.putMe_tokens (s : State) (k : Core) : (s.putMe k).tokens = s.tokens := rfl
@[simp] theorem State.putMe_iow (s : State) (k : Core) : (s.putMe k).iow = s.iow := rfl
@[simp] theorem State.putMe_hub (s : State) (k : Core) : (s.putMe k).hub = s.hub := rfl
@[simp] theorem State.putMe_cycle (s : State) (k : Core) : (s.putMe k).cycle = s.cycle := rfl
@[simp] theorem State.putMe_poison (s : State) (k : Core) : (s.putMe k).poison = s.poison := rfl
@[simp] theorem State.putMe_routes (s : State) (k : Core) : (s.putMe k).routes = s.routes := rfl
@[simp] theorem State.putMe_fresh (s : State) (k : Core) : (s.putMe k).fresh = s.fresh := rfl
@[simp] theorem State.putMe_agenda (s : State) (k : Core) : (s.putMe k).agenda = s.agenda := rfl
@[simp] theorem State.putMe_cur (s : State) (k : Core) : (s.putMe k).cur = s.cur := rfl
@[simp] theorem State.putMe_args (s : State) (k : Core) : (s.putMe k).args = s.args := rfl
@[simp] theorem State.putMe_payload (s : State) (k : Core) : (s.putMe k).payload = s.payload := rfl

@[simp] theorem State.updMe_mem (s : State) (f : Core → Core) : (s.updMe f).mem = s.mem := rfl
@[simp] theorem State.updMe_wins (s : State) (f : Core → Core) : (s.updMe f).wins = s.wins := rfl
@[simp] theorem State.updMe_clusters (s : State) (f : Core → Core) : (s.updMe f).clusters = s.clusters := rfl
@[simp] theorem State.updMe_dies (s : State) (f : Core → Core) : (s.updMe f).dies = s.dies := rfl
@[simp] theorem State.updMe_parts (s : State) (f : Core → Core) : (s.updMe f).parts = s.parts := rfl
@[simp] theorem State.updMe_insts (s : State) (f : Core → Core) : (s.updMe f).insts = s.insts := rfl
@[simp] theorem State.updMe_net (s : State) (f : Core → Core) : (s.updMe f).net = s.net := rfl
@[simp] theorem State.updMe_posts (s : State) (f : Core → Core) : (s.updMe f).posts = s.posts := rfl
@[simp] theorem State.updMe_credits (s : State) (f : Core → Core) : (s.updMe f).credits = s.credits := rfl
@[simp] theorem State.updMe_far (s : State) (f : Core → Core) : (s.updMe f).far = s.far := rfl
@[simp] theorem State.updMe_bars (s : State) (f : Core → Core) : (s.updMe f).bars = s.bars := rfl
@[simp] theorem State.updMe_barHeld (s : State) (f : Core → Core) : (s.updMe f).barHeld = s.barHeld := rfl
@[simp] theorem State.updMe_dvs (s : State) (f : Core → Core) : (s.updMe f).dvs = s.dvs := rfl
@[simp] theorem State.updMe_xmsgs (s : State) (f : Core → Core) : (s.updMe f).xmsgs = s.xmsgs := rfl
@[simp] theorem State.updMe_xins (s : State) (f : Core → Core) : (s.updMe f).xins = s.xins := rfl
@[simp] theorem State.updMe_tokens (s : State) (f : Core → Core) : (s.updMe f).tokens = s.tokens := rfl
@[simp] theorem State.updMe_iow (s : State) (f : Core → Core) : (s.updMe f).iow = s.iow := rfl
@[simp] theorem State.updMe_hub (s : State) (f : Core → Core) : (s.updMe f).hub = s.hub := rfl
@[simp] theorem State.updMe_cycle (s : State) (f : Core → Core) : (s.updMe f).cycle = s.cycle := rfl
@[simp] theorem State.updMe_poison (s : State) (f : Core → Core) : (s.updMe f).poison = s.poison := rfl
@[simp] theorem State.updMe_routes (s : State) (f : Core → Core) : (s.updMe f).routes = s.routes := rfl
@[simp] theorem State.updMe_fresh (s : State) (f : Core → Core) : (s.updMe f).fresh = s.fresh := rfl
@[simp] theorem State.updMe_agenda (s : State) (f : Core → Core) : (s.updMe f).agenda = s.agenda := rfl
@[simp] theorem State.updMe_cur (s : State) (f : Core → Core) : (s.updMe f).cur = s.cur := rfl
@[simp] theorem State.updMe_args (s : State) (f : Core → Core) : (s.updMe f).args = s.args := rfl
@[simp] theorem State.updMe_payload (s : State) (f : Core → Core) : (s.updMe f).payload = s.payload := rfl

@[simp] theorem State.updT_mem (s : State) (f : CoreT → CoreT) : (s.updT f).mem = s.mem := rfl
@[simp] theorem State.updT_wins (s : State) (f : CoreT → CoreT) : (s.updT f).wins = s.wins := rfl
@[simp] theorem State.updT_clusters (s : State) (f : CoreT → CoreT) : (s.updT f).clusters = s.clusters := rfl
@[simp] theorem State.updT_dies (s : State) (f : CoreT → CoreT) : (s.updT f).dies = s.dies := rfl
@[simp] theorem State.updT_parts (s : State) (f : CoreT → CoreT) : (s.updT f).parts = s.parts := rfl
@[simp] theorem State.updT_insts (s : State) (f : CoreT → CoreT) : (s.updT f).insts = s.insts := rfl
@[simp] theorem State.updT_net (s : State) (f : CoreT → CoreT) : (s.updT f).net = s.net := rfl
@[simp] theorem State.updT_posts (s : State) (f : CoreT → CoreT) : (s.updT f).posts = s.posts := rfl
@[simp] theorem State.updT_credits (s : State) (f : CoreT → CoreT) : (s.updT f).credits = s.credits := rfl
@[simp] theorem State.updT_far (s : State) (f : CoreT → CoreT) : (s.updT f).far = s.far := rfl
@[simp] theorem State.updT_bars (s : State) (f : CoreT → CoreT) : (s.updT f).bars = s.bars := rfl
@[simp] theorem State.updT_barHeld (s : State) (f : CoreT → CoreT) : (s.updT f).barHeld = s.barHeld := rfl
@[simp] theorem State.updT_dvs (s : State) (f : CoreT → CoreT) : (s.updT f).dvs = s.dvs := rfl
@[simp] theorem State.updT_xmsgs (s : State) (f : CoreT → CoreT) : (s.updT f).xmsgs = s.xmsgs := rfl
@[simp] theorem State.updT_xins (s : State) (f : CoreT → CoreT) : (s.updT f).xins = s.xins := rfl
@[simp] theorem State.updT_tokens (s : State) (f : CoreT → CoreT) : (s.updT f).tokens = s.tokens := rfl
@[simp] theorem State.updT_iow (s : State) (f : CoreT → CoreT) : (s.updT f).iow = s.iow := rfl
@[simp] theorem State.updT_hub (s : State) (f : CoreT → CoreT) : (s.updT f).hub = s.hub := rfl
@[simp] theorem State.updT_cycle (s : State) (f : CoreT → CoreT) : (s.updT f).cycle = s.cycle := rfl
@[simp] theorem State.updT_poison (s : State) (f : CoreT → CoreT) : (s.updT f).poison = s.poison := rfl
@[simp] theorem State.updT_routes (s : State) (f : CoreT → CoreT) : (s.updT f).routes = s.routes := rfl
@[simp] theorem State.updT_fresh (s : State) (f : CoreT → CoreT) : (s.updT f).fresh = s.fresh := rfl
@[simp] theorem State.updT_agenda (s : State) (f : CoreT → CoreT) : (s.updT f).agenda = s.agenda := rfl
@[simp] theorem State.updT_cur (s : State) (f : CoreT → CoreT) : (s.updT f).cur = s.cur := rfl
@[simp] theorem State.updT_args (s : State) (f : CoreT → CoreT) : (s.updT f).args = s.args := rfl
@[simp] theorem State.updT_payload (s : State) (f : CoreT → CoreT) : (s.updT f).payload = s.payload := rfl

@[simp] theorem State.withChunk_mem (s : State) (f : Chunk → Chunk) : (s.withChunk f).mem = s.mem := rfl
@[simp] theorem State.withChunk_wins (s : State) (f : Chunk → Chunk) : (s.withChunk f).wins = s.wins := rfl
@[simp] theorem State.withChunk_clusters (s : State) (f : Chunk → Chunk) : (s.withChunk f).clusters = s.clusters := rfl
@[simp] theorem State.withChunk_dies (s : State) (f : Chunk → Chunk) : (s.withChunk f).dies = s.dies := rfl
@[simp] theorem State.withChunk_parts (s : State) (f : Chunk → Chunk) : (s.withChunk f).parts = s.parts := rfl
@[simp] theorem State.withChunk_insts (s : State) (f : Chunk → Chunk) : (s.withChunk f).insts = s.insts := rfl
@[simp] theorem State.withChunk_net (s : State) (f : Chunk → Chunk) : (s.withChunk f).net = s.net := rfl
@[simp] theorem State.withChunk_posts (s : State) (f : Chunk → Chunk) : (s.withChunk f).posts = s.posts := rfl
@[simp] theorem State.withChunk_credits (s : State) (f : Chunk → Chunk) : (s.withChunk f).credits = s.credits := rfl
@[simp] theorem State.withChunk_far (s : State) (f : Chunk → Chunk) : (s.withChunk f).far = s.far := rfl
@[simp] theorem State.withChunk_bars (s : State) (f : Chunk → Chunk) : (s.withChunk f).bars = s.bars := rfl
@[simp] theorem State.withChunk_barHeld (s : State) (f : Chunk → Chunk) : (s.withChunk f).barHeld = s.barHeld := rfl
@[simp] theorem State.withChunk_dvs (s : State) (f : Chunk → Chunk) : (s.withChunk f).dvs = s.dvs := rfl
@[simp] theorem State.withChunk_xmsgs (s : State) (f : Chunk → Chunk) : (s.withChunk f).xmsgs = s.xmsgs := rfl
@[simp] theorem State.withChunk_xins (s : State) (f : Chunk → Chunk) : (s.withChunk f).xins = s.xins := rfl
@[simp] theorem State.withChunk_tokens (s : State) (f : Chunk → Chunk) : (s.withChunk f).tokens = s.tokens := rfl
@[simp] theorem State.withChunk_iow (s : State) (f : Chunk → Chunk) : (s.withChunk f).iow = s.iow := rfl
@[simp] theorem State.withChunk_hub (s : State) (f : Chunk → Chunk) : (s.withChunk f).hub = s.hub := rfl
@[simp] theorem State.withChunk_cycle (s : State) (f : Chunk → Chunk) : (s.withChunk f).cycle = s.cycle := rfl
@[simp] theorem State.withChunk_poison (s : State) (f : Chunk → Chunk) : (s.withChunk f).poison = s.poison := rfl
@[simp] theorem State.withChunk_routes (s : State) (f : Chunk → Chunk) : (s.withChunk f).routes = s.routes := rfl
@[simp] theorem State.withChunk_fresh (s : State) (f : Chunk → Chunk) : (s.withChunk f).fresh = s.fresh := rfl
@[simp] theorem State.withChunk_agenda (s : State) (f : Chunk → Chunk) : (s.withChunk f).agenda = s.agenda := rfl
@[simp] theorem State.withChunk_cur (s : State) (f : Chunk → Chunk) : (s.withChunk f).cur = s.cur := rfl
@[simp] theorem State.withChunk_args (s : State) (f : Chunk → Chunk) : (s.withChunk f).args = s.args := rfl
@[simp] theorem State.withChunk_payload (s : State) (f : Chunk → Chunk) : (s.withChunk f).payload = s.payload := rfl

@[simp] theorem State.endAfter_mem (s : State) : s.endAfter.mem = s.mem := rfl
@[simp] theorem State.endAfter_wins (s : State) : s.endAfter.wins = s.wins := rfl
@[simp] theorem State.endAfter_clusters (s : State) : s.endAfter.clusters = s.clusters := rfl
@[simp] theorem State.endAfter_dies (s : State) : s.endAfter.dies = s.dies := rfl
@[simp] theorem State.endAfter_parts (s : State) : s.endAfter.parts = s.parts := rfl
@[simp] theorem State.endAfter_insts (s : State) : s.endAfter.insts = s.insts := rfl
@[simp] theorem State.endAfter_net (s : State) : s.endAfter.net = s.net := rfl
@[simp] theorem State.endAfter_posts (s : State) : s.endAfter.posts = s.posts := rfl
@[simp] theorem State.endAfter_credits (s : State) : s.endAfter.credits = s.credits := rfl
@[simp] theorem State.endAfter_far (s : State) : s.endAfter.far = s.far := rfl
@[simp] theorem State.endAfter_bars (s : State) : s.endAfter.bars = s.bars := rfl
@[simp] theorem State.endAfter_barHeld (s : State) : s.endAfter.barHeld = s.barHeld := rfl
@[simp] theorem State.endAfter_dvs (s : State) : s.endAfter.dvs = s.dvs := rfl
@[simp] theorem State.endAfter_xmsgs (s : State) : s.endAfter.xmsgs = s.xmsgs := rfl
@[simp] theorem State.endAfter_xins (s : State) : s.endAfter.xins = s.xins := rfl
@[simp] theorem State.endAfter_tokens (s : State) : s.endAfter.tokens = s.tokens := rfl
@[simp] theorem State.endAfter_iow (s : State) : s.endAfter.iow = s.iow := rfl
@[simp] theorem State.endAfter_hub (s : State) : s.endAfter.hub = s.hub := rfl
@[simp] theorem State.endAfter_cycle (s : State) : s.endAfter.cycle = s.cycle := rfl
@[simp] theorem State.endAfter_poison (s : State) : s.endAfter.poison = s.poison := rfl
@[simp] theorem State.endAfter_routes (s : State) : s.endAfter.routes = s.routes := rfl
@[simp] theorem State.endAfter_fresh (s : State) : s.endAfter.fresh = s.fresh := rfl
@[simp] theorem State.endAfter_agenda (s : State) : s.endAfter.agenda = s.agenda := rfl
@[simp] theorem State.endAfter_cur (s : State) : s.endAfter.cur = s.cur := rfl
@[simp] theorem State.endAfter_args (s : State) : s.endAfter.args = s.args := rfl
@[simp] theorem State.endAfter_payload (s : State) : s.endAfter.payload = s.payload := rfl

@[simp] theorem State.effect_mem (s : State) (e : Effect) : (s.effect e).mem = s.mem := rfl
@[simp] theorem State.effect_wins (s : State) (e : Effect) : (s.effect e).wins = s.wins := rfl
@[simp] theorem State.effect_clusters (s : State) (e : Effect) : (s.effect e).clusters = s.clusters := rfl
@[simp] theorem State.effect_dies (s : State) (e : Effect) : (s.effect e).dies = s.dies := rfl
@[simp] theorem State.effect_parts (s : State) (e : Effect) : (s.effect e).parts = s.parts := rfl
@[simp] theorem State.effect_insts (s : State) (e : Effect) : (s.effect e).insts = s.insts := rfl
@[simp] theorem State.effect_net (s : State) (e : Effect) : (s.effect e).net = s.net := rfl
@[simp] theorem State.effect_posts (s : State) (e : Effect) : (s.effect e).posts = s.posts := rfl
@[simp] theorem State.effect_credits (s : State) (e : Effect) : (s.effect e).credits = s.credits := rfl
@[simp] theorem State.effect_far (s : State) (e : Effect) : (s.effect e).far = s.far := rfl
@[simp] theorem State.effect_bars (s : State) (e : Effect) : (s.effect e).bars = s.bars := rfl
@[simp] theorem State.effect_barHeld (s : State) (e : Effect) : (s.effect e).barHeld = s.barHeld := rfl
@[simp] theorem State.effect_dvs (s : State) (e : Effect) : (s.effect e).dvs = s.dvs := rfl
@[simp] theorem State.effect_xmsgs (s : State) (e : Effect) : (s.effect e).xmsgs = s.xmsgs := rfl
@[simp] theorem State.effect_xins (s : State) (e : Effect) : (s.effect e).xins = s.xins := rfl
@[simp] theorem State.effect_tokens (s : State) (e : Effect) : (s.effect e).tokens = s.tokens := rfl
@[simp] theorem State.effect_iow (s : State) (e : Effect) : (s.effect e).iow = s.iow := rfl
@[simp] theorem State.effect_hub (s : State) (e : Effect) : (s.effect e).hub = s.hub := rfl
@[simp] theorem State.effect_cycle (s : State) (e : Effect) : (s.effect e).cycle = s.cycle := rfl
@[simp] theorem State.effect_poison (s : State) (e : Effect) : (s.effect e).poison = s.poison := rfl
@[simp] theorem State.effect_routes (s : State) (e : Effect) : (s.effect e).routes = s.routes := rfl
@[simp] theorem State.effect_fresh (s : State) (e : Effect) : (s.effect e).fresh = s.fresh := rfl
@[simp] theorem State.effect_agenda (s : State) (e : Effect) : (s.effect e).agenda = s.agenda := rfl
@[simp] theorem State.effect_cur (s : State) (e : Effect) : (s.effect e).cur = s.cur := rfl
@[simp] theorem State.effect_args (s : State) (e : Effect) : (s.effect e).args = s.args := rfl
@[simp] theorem State.effect_payload (s : State) (e : Effect) : (s.effect e).payload = s.payload := rfl

@[simp] theorem State.setG_mem (s : State) (r : Reg) (w : Word) : (s.setG r w).mem = s.mem := rfl
@[simp] theorem State.setG_wins (s : State) (r : Reg) (w : Word) : (s.setG r w).wins = s.wins := rfl
@[simp] theorem State.setG_clusters (s : State) (r : Reg) (w : Word) : (s.setG r w).clusters = s.clusters := rfl
@[simp] theorem State.setG_dies (s : State) (r : Reg) (w : Word) : (s.setG r w).dies = s.dies := rfl
@[simp] theorem State.setG_parts (s : State) (r : Reg) (w : Word) : (s.setG r w).parts = s.parts := rfl
@[simp] theorem State.setG_insts (s : State) (r : Reg) (w : Word) : (s.setG r w).insts = s.insts := rfl
@[simp] theorem State.setG_net (s : State) (r : Reg) (w : Word) : (s.setG r w).net = s.net := rfl
@[simp] theorem State.setG_posts (s : State) (r : Reg) (w : Word) : (s.setG r w).posts = s.posts := rfl
@[simp] theorem State.setG_credits (s : State) (r : Reg) (w : Word) : (s.setG r w).credits = s.credits := rfl
@[simp] theorem State.setG_far (s : State) (r : Reg) (w : Word) : (s.setG r w).far = s.far := rfl
@[simp] theorem State.setG_bars (s : State) (r : Reg) (w : Word) : (s.setG r w).bars = s.bars := rfl
@[simp] theorem State.setG_barHeld (s : State) (r : Reg) (w : Word) : (s.setG r w).barHeld = s.barHeld := rfl
@[simp] theorem State.setG_dvs (s : State) (r : Reg) (w : Word) : (s.setG r w).dvs = s.dvs := rfl
@[simp] theorem State.setG_xmsgs (s : State) (r : Reg) (w : Word) : (s.setG r w).xmsgs = s.xmsgs := rfl
@[simp] theorem State.setG_xins (s : State) (r : Reg) (w : Word) : (s.setG r w).xins = s.xins := rfl
@[simp] theorem State.setG_tokens (s : State) (r : Reg) (w : Word) : (s.setG r w).tokens = s.tokens := rfl
@[simp] theorem State.setG_iow (s : State) (r : Reg) (w : Word) : (s.setG r w).iow = s.iow := rfl
@[simp] theorem State.setG_hub (s : State) (r : Reg) (w : Word) : (s.setG r w).hub = s.hub := rfl
@[simp] theorem State.setG_cycle (s : State) (r : Reg) (w : Word) : (s.setG r w).cycle = s.cycle := rfl
@[simp] theorem State.setG_poison (s : State) (r : Reg) (w : Word) : (s.setG r w).poison = s.poison := rfl
@[simp] theorem State.setG_routes (s : State) (r : Reg) (w : Word) : (s.setG r w).routes = s.routes := rfl
@[simp] theorem State.setG_fresh (s : State) (r : Reg) (w : Word) : (s.setG r w).fresh = s.fresh := rfl
@[simp] theorem State.setG_agenda (s : State) (r : Reg) (w : Word) : (s.setG r w).agenda = s.agenda := rfl
@[simp] theorem State.setG_cur (s : State) (r : Reg) (w : Word) : (s.setG r w).cur = s.cur := rfl
@[simp] theorem State.setG_args (s : State) (r : Reg) (w : Word) : (s.setG r w).args = s.args := rfl
@[simp] theorem State.setG_payload (s : State) (r : Reg) (w : Word) : (s.setG r w).payload = s.payload := rfl

/-! ### Updates of other parts leave the cores -/

@[simp] theorem State.updCluster_cores (s : State) (n : Nat) (f : Cluster → Cluster) : (s.updCluster n f).cores = s.cores := rfl
@[simp] theorem State.updCluster_mem (s : State) (n : Nat) (f : Cluster → Cluster) : (s.updCluster n f).mem = s.mem := rfl
@[simp] theorem State.updCluster_wins (s : State) (n : Nat) (f : Cluster → Cluster) : (s.updCluster n f).wins = s.wins := rfl
@[simp] theorem State.updCluster_dies (s : State) (n : Nat) (f : Cluster → Cluster) : (s.updCluster n f).dies = s.dies := rfl
@[simp] theorem State.updCluster_parts (s : State) (n : Nat) (f : Cluster → Cluster) : (s.updCluster n f).parts = s.parts := rfl
@[simp] theorem State.updCluster_insts (s : State) (n : Nat) (f : Cluster → Cluster) : (s.updCluster n f).insts = s.insts := rfl
@[simp] theorem State.updCluster_net (s : State) (n : Nat) (f : Cluster → Cluster) : (s.updCluster n f).net = s.net := rfl
@[simp] theorem State.updCluster_posts (s : State) (n : Nat) (f : Cluster → Cluster) : (s.updCluster n f).posts = s.posts := rfl
@[simp] theorem State.updCluster_credits (s : State) (n : Nat) (f : Cluster → Cluster) : (s.updCluster n f).credits = s.credits := rfl
@[simp] theorem State.updCluster_far (s : State) (n : Nat) (f : Cluster → Cluster) : (s.updCluster n f).far = s.far := rfl
@[simp] theorem State.updCluster_bars (s : State) (n : Nat) (f : Cluster → Cluster) : (s.updCluster n f).bars = s.bars := rfl
@[simp] theorem State.updCluster_barHeld (s : State) (n : Nat) (f : Cluster → Cluster) : (s.updCluster n f).barHeld = s.barHeld := rfl
@[simp] theorem State.updCluster_dvs (s : State) (n : Nat) (f : Cluster → Cluster) : (s.updCluster n f).dvs = s.dvs := rfl
@[simp] theorem State.updCluster_xmsgs (s : State) (n : Nat) (f : Cluster → Cluster) : (s.updCluster n f).xmsgs = s.xmsgs := rfl
@[simp] theorem State.updCluster_xins (s : State) (n : Nat) (f : Cluster → Cluster) : (s.updCluster n f).xins = s.xins := rfl
@[simp] theorem State.updCluster_tokens (s : State) (n : Nat) (f : Cluster → Cluster) : (s.updCluster n f).tokens = s.tokens := rfl
@[simp] theorem State.updCluster_iow (s : State) (n : Nat) (f : Cluster → Cluster) : (s.updCluster n f).iow = s.iow := rfl
@[simp] theorem State.updCluster_hub (s : State) (n : Nat) (f : Cluster → Cluster) : (s.updCluster n f).hub = s.hub := rfl
@[simp] theorem State.updCluster_cycle (s : State) (n : Nat) (f : Cluster → Cluster) : (s.updCluster n f).cycle = s.cycle := rfl
@[simp] theorem State.updCluster_poison (s : State) (n : Nat) (f : Cluster → Cluster) : (s.updCluster n f).poison = s.poison := rfl
@[simp] theorem State.updCluster_routes (s : State) (n : Nat) (f : Cluster → Cluster) : (s.updCluster n f).routes = s.routes := rfl
@[simp] theorem State.updCluster_fresh (s : State) (n : Nat) (f : Cluster → Cluster) : (s.updCluster n f).fresh = s.fresh := rfl
@[simp] theorem State.updCluster_agenda (s : State) (n : Nat) (f : Cluster → Cluster) : (s.updCluster n f).agenda = s.agenda := rfl
@[simp] theorem State.updCluster_cur (s : State) (n : Nat) (f : Cluster → Cluster) : (s.updCluster n f).cur = s.cur := rfl
@[simp] theorem State.updCluster_args (s : State) (n : Nat) (f : Cluster → Cluster) : (s.updCluster n f).args = s.args := rfl
@[simp] theorem State.updCluster_payload (s : State) (n : Nat) (f : Cluster → Cluster) : (s.updCluster n f).payload = s.payload := rfl

@[simp] theorem State.updDie_cores (s : State) (n : Nat) (f : Die → Die) : (s.updDie n f).cores = s.cores := rfl
@[simp] theorem State.updDie_mem (s : State) (n : Nat) (f : Die → Die) : (s.updDie n f).mem = s.mem := rfl
@[simp] theorem State.updDie_wins (s : State) (n : Nat) (f : Die → Die) : (s.updDie n f).wins = s.wins := rfl
@[simp] theorem State.updDie_clusters (s : State) (n : Nat) (f : Die → Die) : (s.updDie n f).clusters = s.clusters := rfl
@[simp] theorem State.updDie_parts (s : State) (n : Nat) (f : Die → Die) : (s.updDie n f).parts = s.parts := rfl
@[simp] theorem State.updDie_insts (s : State) (n : Nat) (f : Die → Die) : (s.updDie n f).insts = s.insts := rfl
@[simp] theorem State.updDie_net (s : State) (n : Nat) (f : Die → Die) : (s.updDie n f).net = s.net := rfl
@[simp] theorem State.updDie_posts (s : State) (n : Nat) (f : Die → Die) : (s.updDie n f).posts = s.posts := rfl
@[simp] theorem State.updDie_credits (s : State) (n : Nat) (f : Die → Die) : (s.updDie n f).credits = s.credits := rfl
@[simp] theorem State.updDie_far (s : State) (n : Nat) (f : Die → Die) : (s.updDie n f).far = s.far := rfl
@[simp] theorem State.updDie_bars (s : State) (n : Nat) (f : Die → Die) : (s.updDie n f).bars = s.bars := rfl
@[simp] theorem State.updDie_barHeld (s : State) (n : Nat) (f : Die → Die) : (s.updDie n f).barHeld = s.barHeld := rfl
@[simp] theorem State.updDie_dvs (s : State) (n : Nat) (f : Die → Die) : (s.updDie n f).dvs = s.dvs := rfl
@[simp] theorem State.updDie_xmsgs (s : State) (n : Nat) (f : Die → Die) : (s.updDie n f).xmsgs = s.xmsgs := rfl
@[simp] theorem State.updDie_xins (s : State) (n : Nat) (f : Die → Die) : (s.updDie n f).xins = s.xins := rfl
@[simp] theorem State.updDie_tokens (s : State) (n : Nat) (f : Die → Die) : (s.updDie n f).tokens = s.tokens := rfl
@[simp] theorem State.updDie_iow (s : State) (n : Nat) (f : Die → Die) : (s.updDie n f).iow = s.iow := rfl
@[simp] theorem State.updDie_hub (s : State) (n : Nat) (f : Die → Die) : (s.updDie n f).hub = s.hub := rfl
@[simp] theorem State.updDie_cycle (s : State) (n : Nat) (f : Die → Die) : (s.updDie n f).cycle = s.cycle := rfl
@[simp] theorem State.updDie_poison (s : State) (n : Nat) (f : Die → Die) : (s.updDie n f).poison = s.poison := rfl
@[simp] theorem State.updDie_routes (s : State) (n : Nat) (f : Die → Die) : (s.updDie n f).routes = s.routes := rfl
@[simp] theorem State.updDie_fresh (s : State) (n : Nat) (f : Die → Die) : (s.updDie n f).fresh = s.fresh := rfl
@[simp] theorem State.updDie_agenda (s : State) (n : Nat) (f : Die → Die) : (s.updDie n f).agenda = s.agenda := rfl
@[simp] theorem State.updDie_cur (s : State) (n : Nat) (f : Die → Die) : (s.updDie n f).cur = s.cur := rfl
@[simp] theorem State.updDie_args (s : State) (n : Nat) (f : Die → Die) : (s.updDie n f).args = s.args := rfl
@[simp] theorem State.updDie_payload (s : State) (n : Nat) (f : Die → Die) : (s.updDie n f).payload = s.payload := rfl

@[simp] theorem State.updPart_cores (s : State) (n : Nat) (f : Part → Part) : (s.updPart n f).cores = s.cores := rfl
@[simp] theorem State.updPart_mem (s : State) (n : Nat) (f : Part → Part) : (s.updPart n f).mem = s.mem := rfl
@[simp] theorem State.updPart_wins (s : State) (n : Nat) (f : Part → Part) : (s.updPart n f).wins = s.wins := rfl
@[simp] theorem State.updPart_clusters (s : State) (n : Nat) (f : Part → Part) : (s.updPart n f).clusters = s.clusters := rfl
@[simp] theorem State.updPart_dies (s : State) (n : Nat) (f : Part → Part) : (s.updPart n f).dies = s.dies := rfl
@[simp] theorem State.updPart_insts (s : State) (n : Nat) (f : Part → Part) : (s.updPart n f).insts = s.insts := rfl
@[simp] theorem State.updPart_net (s : State) (n : Nat) (f : Part → Part) : (s.updPart n f).net = s.net := rfl
@[simp] theorem State.updPart_posts (s : State) (n : Nat) (f : Part → Part) : (s.updPart n f).posts = s.posts := rfl
@[simp] theorem State.updPart_credits (s : State) (n : Nat) (f : Part → Part) : (s.updPart n f).credits = s.credits := rfl
@[simp] theorem State.updPart_far (s : State) (n : Nat) (f : Part → Part) : (s.updPart n f).far = s.far := rfl
@[simp] theorem State.updPart_bars (s : State) (n : Nat) (f : Part → Part) : (s.updPart n f).bars = s.bars := rfl
@[simp] theorem State.updPart_barHeld (s : State) (n : Nat) (f : Part → Part) : (s.updPart n f).barHeld = s.barHeld := rfl
@[simp] theorem State.updPart_dvs (s : State) (n : Nat) (f : Part → Part) : (s.updPart n f).dvs = s.dvs := rfl
@[simp] theorem State.updPart_xmsgs (s : State) (n : Nat) (f : Part → Part) : (s.updPart n f).xmsgs = s.xmsgs := rfl
@[simp] theorem State.updPart_xins (s : State) (n : Nat) (f : Part → Part) : (s.updPart n f).xins = s.xins := rfl
@[simp] theorem State.updPart_tokens (s : State) (n : Nat) (f : Part → Part) : (s.updPart n f).tokens = s.tokens := rfl
@[simp] theorem State.updPart_iow (s : State) (n : Nat) (f : Part → Part) : (s.updPart n f).iow = s.iow := rfl
@[simp] theorem State.updPart_hub (s : State) (n : Nat) (f : Part → Part) : (s.updPart n f).hub = s.hub := rfl
@[simp] theorem State.updPart_cycle (s : State) (n : Nat) (f : Part → Part) : (s.updPart n f).cycle = s.cycle := rfl
@[simp] theorem State.updPart_poison (s : State) (n : Nat) (f : Part → Part) : (s.updPart n f).poison = s.poison := rfl
@[simp] theorem State.updPart_routes (s : State) (n : Nat) (f : Part → Part) : (s.updPart n f).routes = s.routes := rfl
@[simp] theorem State.updPart_fresh (s : State) (n : Nat) (f : Part → Part) : (s.updPart n f).fresh = s.fresh := rfl
@[simp] theorem State.updPart_agenda (s : State) (n : Nat) (f : Part → Part) : (s.updPart n f).agenda = s.agenda := rfl
@[simp] theorem State.updPart_cur (s : State) (n : Nat) (f : Part → Part) : (s.updPart n f).cur = s.cur := rfl
@[simp] theorem State.updPart_args (s : State) (n : Nat) (f : Part → Part) : (s.updPart n f).args = s.args := rfl
@[simp] theorem State.updPart_payload (s : State) (n : Nat) (f : Part → Part) : (s.updPart n f).payload = s.payload := rfl

@[simp] theorem State.next_cores (s : State) : s.next.cores = s.cores := rfl
@[simp] theorem State.next_mem (s : State) : s.next.mem = s.mem := rfl
@[simp] theorem State.next_wins (s : State) : s.next.wins = s.wins := rfl
@[simp] theorem State.next_clusters (s : State) : s.next.clusters = s.clusters := rfl
@[simp] theorem State.next_dies (s : State) : s.next.dies = s.dies := rfl
@[simp] theorem State.next_parts (s : State) : s.next.parts = s.parts := rfl
@[simp] theorem State.next_insts (s : State) : s.next.insts = s.insts := rfl
@[simp] theorem State.next_net (s : State) : s.next.net = s.net := rfl
@[simp] theorem State.next_posts (s : State) : s.next.posts = s.posts := rfl
@[simp] theorem State.next_credits (s : State) : s.next.credits = s.credits := rfl
@[simp] theorem State.next_far (s : State) : s.next.far = s.far := rfl
@[simp] theorem State.next_bars (s : State) : s.next.bars = s.bars := rfl
@[simp] theorem State.next_barHeld (s : State) : s.next.barHeld = s.barHeld := rfl
@[simp] theorem State.next_dvs (s : State) : s.next.dvs = s.dvs := rfl
@[simp] theorem State.next_xmsgs (s : State) : s.next.xmsgs = s.xmsgs := rfl
@[simp] theorem State.next_xins (s : State) : s.next.xins = s.xins := rfl
@[simp] theorem State.next_tokens (s : State) : s.next.tokens = s.tokens := rfl
@[simp] theorem State.next_iow (s : State) : s.next.iow = s.iow := rfl
@[simp] theorem State.next_hub (s : State) : s.next.hub = s.hub := rfl
@[simp] theorem State.next_cycle (s : State) : s.next.cycle = s.cycle := rfl
@[simp] theorem State.next_poison (s : State) : s.next.poison = s.poison := rfl
@[simp] theorem State.next_routes (s : State) : s.next.routes = s.routes := rfl
@[simp] theorem State.next_agenda (s : State) : s.next.agenda = s.agenda := rfl
@[simp] theorem State.next_cur (s : State) : s.next.cur = s.cur := rfl
@[simp] theorem State.next_args (s : State) : s.next.args = s.args := rfl
@[simp] theorem State.next_payload (s : State) : s.next.payload = s.payload := rfl

@[simp] theorem State.logEvent_cores (s : State) (d : Nat) (c : Cause) (kind unit info : Nat) : (s.logEvent d c kind unit info).cores = s.cores := rfl
@[simp] theorem State.logEvent_mem (s : State) (d : Nat) (c : Cause) (kind unit info : Nat) : (s.logEvent d c kind unit info).mem = s.mem := rfl
@[simp] theorem State.logEvent_wins (s : State) (d : Nat) (c : Cause) (kind unit info : Nat) : (s.logEvent d c kind unit info).wins = s.wins := rfl
@[simp] theorem State.logEvent_clusters (s : State) (d : Nat) (c : Cause) (kind unit info : Nat) : (s.logEvent d c kind unit info).clusters = s.clusters := rfl
@[simp] theorem State.logEvent_parts (s : State) (d : Nat) (c : Cause) (kind unit info : Nat) : (s.logEvent d c kind unit info).parts = s.parts := rfl
@[simp] theorem State.logEvent_insts (s : State) (d : Nat) (c : Cause) (kind unit info : Nat) : (s.logEvent d c kind unit info).insts = s.insts := rfl
@[simp] theorem State.logEvent_net (s : State) (d : Nat) (c : Cause) (kind unit info : Nat) : (s.logEvent d c kind unit info).net = s.net := rfl
@[simp] theorem State.logEvent_posts (s : State) (d : Nat) (c : Cause) (kind unit info : Nat) : (s.logEvent d c kind unit info).posts = s.posts := rfl
@[simp] theorem State.logEvent_credits (s : State) (d : Nat) (c : Cause) (kind unit info : Nat) : (s.logEvent d c kind unit info).credits = s.credits := rfl
@[simp] theorem State.logEvent_far (s : State) (d : Nat) (c : Cause) (kind unit info : Nat) : (s.logEvent d c kind unit info).far = s.far := rfl
@[simp] theorem State.logEvent_bars (s : State) (d : Nat) (c : Cause) (kind unit info : Nat) : (s.logEvent d c kind unit info).bars = s.bars := rfl
@[simp] theorem State.logEvent_barHeld (s : State) (d : Nat) (c : Cause) (kind unit info : Nat) : (s.logEvent d c kind unit info).barHeld = s.barHeld := rfl
@[simp] theorem State.logEvent_dvs (s : State) (d : Nat) (c : Cause) (kind unit info : Nat) : (s.logEvent d c kind unit info).dvs = s.dvs := rfl
@[simp] theorem State.logEvent_xmsgs (s : State) (d : Nat) (c : Cause) (kind unit info : Nat) : (s.logEvent d c kind unit info).xmsgs = s.xmsgs := rfl
@[simp] theorem State.logEvent_xins (s : State) (d : Nat) (c : Cause) (kind unit info : Nat) : (s.logEvent d c kind unit info).xins = s.xins := rfl
@[simp] theorem State.logEvent_tokens (s : State) (d : Nat) (c : Cause) (kind unit info : Nat) : (s.logEvent d c kind unit info).tokens = s.tokens := rfl
@[simp] theorem State.logEvent_iow (s : State) (d : Nat) (c : Cause) (kind unit info : Nat) : (s.logEvent d c kind unit info).iow = s.iow := rfl
@[simp] theorem State.logEvent_hub (s : State) (d : Nat) (c : Cause) (kind unit info : Nat) : (s.logEvent d c kind unit info).hub = s.hub := rfl
@[simp] theorem State.logEvent_cycle (s : State) (d : Nat) (c : Cause) (kind unit info : Nat) : (s.logEvent d c kind unit info).cycle = s.cycle := rfl
@[simp] theorem State.logEvent_poison (s : State) (d : Nat) (c : Cause) (kind unit info : Nat) : (s.logEvent d c kind unit info).poison = s.poison := rfl
@[simp] theorem State.logEvent_routes (s : State) (d : Nat) (c : Cause) (kind unit info : Nat) : (s.logEvent d c kind unit info).routes = s.routes := rfl
@[simp] theorem State.logEvent_fresh (s : State) (d : Nat) (c : Cause) (kind unit info : Nat) : (s.logEvent d c kind unit info).fresh = s.fresh := rfl
@[simp] theorem State.logEvent_agenda (s : State) (d : Nat) (c : Cause) (kind unit info : Nat) : (s.logEvent d c kind unit info).agenda = s.agenda := rfl
@[simp] theorem State.logEvent_cur (s : State) (d : Nat) (c : Cause) (kind unit info : Nat) : (s.logEvent d c kind unit info).cur = s.cur := rfl
@[simp] theorem State.logEvent_args (s : State) (d : Nat) (c : Cause) (kind unit info : Nat) : (s.logEvent d c kind unit info).args = s.args := rfl
@[simp] theorem State.logEvent_payload (s : State) (d : Nat) (c : Cause) (kind unit info : Nat) : (s.logEvent d c kind unit info).payload = s.payload := rfl

@[simp] theorem State.updInst_cores (s : State) (n : Nat) (f : Inst → Inst) : (s.updInst n f).cores = s.cores := by unfold State.updInst; split <;> rfl
@[simp] theorem State.updInst_mem (s : State) (n : Nat) (f : Inst → Inst) : (s.updInst n f).mem = s.mem := by unfold State.updInst; split <;> rfl
@[simp] theorem State.updInst_wins (s : State) (n : Nat) (f : Inst → Inst) : (s.updInst n f).wins = s.wins := by unfold State.updInst; split <;> rfl
@[simp] theorem State.updInst_clusters (s : State) (n : Nat) (f : Inst → Inst) : (s.updInst n f).clusters = s.clusters := by unfold State.updInst; split <;> rfl
@[simp] theorem State.updInst_dies (s : State) (n : Nat) (f : Inst → Inst) : (s.updInst n f).dies = s.dies := by unfold State.updInst; split <;> rfl
@[simp] theorem State.updInst_parts (s : State) (n : Nat) (f : Inst → Inst) : (s.updInst n f).parts = s.parts := by unfold State.updInst; split <;> rfl
@[simp] theorem State.updInst_net (s : State) (n : Nat) (f : Inst → Inst) : (s.updInst n f).net = s.net := by unfold State.updInst; split <;> rfl
@[simp] theorem State.updInst_posts (s : State) (n : Nat) (f : Inst → Inst) : (s.updInst n f).posts = s.posts := by unfold State.updInst; split <;> rfl
@[simp] theorem State.updInst_credits (s : State) (n : Nat) (f : Inst → Inst) : (s.updInst n f).credits = s.credits := by unfold State.updInst; split <;> rfl
@[simp] theorem State.updInst_far (s : State) (n : Nat) (f : Inst → Inst) : (s.updInst n f).far = s.far := by unfold State.updInst; split <;> rfl
@[simp] theorem State.updInst_bars (s : State) (n : Nat) (f : Inst → Inst) : (s.updInst n f).bars = s.bars := by unfold State.updInst; split <;> rfl
@[simp] theorem State.updInst_barHeld (s : State) (n : Nat) (f : Inst → Inst) : (s.updInst n f).barHeld = s.barHeld := by unfold State.updInst; split <;> rfl
@[simp] theorem State.updInst_dvs (s : State) (n : Nat) (f : Inst → Inst) : (s.updInst n f).dvs = s.dvs := by unfold State.updInst; split <;> rfl
@[simp] theorem State.updInst_xmsgs (s : State) (n : Nat) (f : Inst → Inst) : (s.updInst n f).xmsgs = s.xmsgs := by unfold State.updInst; split <;> rfl
@[simp] theorem State.updInst_xins (s : State) (n : Nat) (f : Inst → Inst) : (s.updInst n f).xins = s.xins := by unfold State.updInst; split <;> rfl
@[simp] theorem State.updInst_tokens (s : State) (n : Nat) (f : Inst → Inst) : (s.updInst n f).tokens = s.tokens := by unfold State.updInst; split <;> rfl
@[simp] theorem State.updInst_iow (s : State) (n : Nat) (f : Inst → Inst) : (s.updInst n f).iow = s.iow := by unfold State.updInst; split <;> rfl
@[simp] theorem State.updInst_hub (s : State) (n : Nat) (f : Inst → Inst) : (s.updInst n f).hub = s.hub := by unfold State.updInst; split <;> rfl
@[simp] theorem State.updInst_cycle (s : State) (n : Nat) (f : Inst → Inst) : (s.updInst n f).cycle = s.cycle := by unfold State.updInst; split <;> rfl
@[simp] theorem State.updInst_poison (s : State) (n : Nat) (f : Inst → Inst) : (s.updInst n f).poison = s.poison := by unfold State.updInst; split <;> rfl
@[simp] theorem State.updInst_routes (s : State) (n : Nat) (f : Inst → Inst) : (s.updInst n f).routes = s.routes := by unfold State.updInst; split <;> rfl
@[simp] theorem State.updInst_fresh (s : State) (n : Nat) (f : Inst → Inst) : (s.updInst n f).fresh = s.fresh := by unfold State.updInst; split <;> rfl
@[simp] theorem State.updInst_agenda (s : State) (n : Nat) (f : Inst → Inst) : (s.updInst n f).agenda = s.agenda := by unfold State.updInst; split <;> rfl
@[simp] theorem State.updInst_cur (s : State) (n : Nat) (f : Inst → Inst) : (s.updInst n f).cur = s.cur := by unfold State.updInst; split <;> rfl
@[simp] theorem State.updInst_args (s : State) (n : Nat) (f : Inst → Inst) : (s.updInst n f).args = s.args := by unfold State.updInst; split <;> rfl
@[simp] theorem State.updInst_payload (s : State) (n : Nat) (f : Inst → Inst) : (s.updInst n f).payload = s.payload := by unfold State.updInst; split <;> rfl

/-! ### Reading a core back -/

@[simp] theorem State.putCore_core_self (s : State) (c : Nat) (k : Core) : (s.putCore c k).core c = k :=
  FMap.get_put_self _ _ _ _
@[simp] theorem State.putCore_core_other (s : State) (c d : Nat) (k : Core) (h : d ≠ c) :
    (s.putCore c k).core d = s.core d := FMap.get_put_other _ _ _ _ _ h
@[simp] theorem State.updCore_core_self (s : State) (c : Nat) (f : Core → Core) : (s.updCore c f).core c = f (s.core c) :=
  FMap.get_put_self _ _ _ _
@[simp] theorem State.updCore_core_other (s : State) (c d : Nat) (f : Core → Core) (h : d ≠ c) :
    (s.updCore c f).core d = s.core d := FMap.get_put_other _ _ _ _ _ h
@[simp] theorem State.putMe_me (s : State) (k : Core) : (s.putMe k).me = k := FMap.get_put_self _ _ _ _
@[simp] theorem State.updMe_me (s : State) (f : Core → Core) : (s.updMe f).me = f s.me := FMap.get_put_self _ _ _ _
@[simp] theorem State.updT_me (s : State) (f : CoreT → CoreT) : (s.updT f).me = { s.me with t := f s.t } :=
  FMap.get_put_self _ _ _ _
@[simp] theorem State.withChunk_me (s : State) (f : Chunk → Chunk) :
    (s.withChunk f).me = { s.me with chunk := some (f s.me.open') } := FMap.get_put_self _ _ _ _
@[simp] theorem State.putMe_core_other (s : State) (k : Core) (c : Nat) (h : c ≠ s.cur) :
    (s.putMe k).core c = s.core c := FMap.get_put_other _ _ _ _ _ h
@[simp] theorem State.updMe_core_other (s : State) (f : Core → Core) (c : Nat) (h : c ≠ s.cur) :
    (s.updMe f).core c = s.core c := FMap.get_put_other _ _ _ _ _ h
@[simp] theorem State.updT_core_other (s : State) (f : CoreT → CoreT) (c : Nat) (h : c ≠ s.cur) :
    (s.updT f).core c = s.core c := FMap.get_put_other _ _ _ _ _ h
@[simp] theorem State.withChunk_core_other (s : State) (f : Chunk → Chunk) (c : Nat) (h : c ≠ s.cur) :
    (s.withChunk f).core c = s.core c := FMap.get_put_other _ _ _ _ _ h
@[simp] theorem State.updT_t (s : State) (f : CoreT → CoreT) : (s.updT f).t = f s.t := by simp [State.t]
@[simp] theorem State.withChunk_t (s : State) (f : Chunk → Chunk) : (s.withChunk f).t = s.t := by simp [State.t]
@[simp] theorem State.endAfter_t (s : State) : s.endAfter.t = s.t := State.withChunk_t _ _
@[simp] theorem State.effect_t (s : State) (e : Effect) : (s.effect e).t = s.t := State.withChunk_t _ _
@[simp] theorem State.setG_t (s : State) (r : Reg) (w : Word) : (s.setG r w).t = s.t.setG r w := State.updT_t _ _
@[simp] theorem State.next_core (s : State) (c : Nat) : s.next.core c = s.core c := rfl
@[simp] theorem State.next_me (s : State) : s.next.me = s.me := rfl
@[simp] theorem State.next_t (s : State) : s.next.t = s.t := rfl


@[simp] theorem State.updCluster_core (s : State) (n : Nat) (f : Cluster → Cluster) (c : Nat) : (s.updCluster n f).core c = s.core c := rfl
@[simp] theorem State.updCluster_me (s : State) (n : Nat) (f : Cluster → Cluster) : (s.updCluster n f).me = s.me := rfl
@[simp] theorem State.updCluster_t (s : State) (n : Nat) (f : Cluster → Cluster) : (s.updCluster n f).t = s.t := rfl
@[simp] theorem State.updDie_core (s : State) (n : Nat) (f : Die → Die) (c : Nat) : (s.updDie n f).core c = s.core c := rfl
@[simp] theorem State.updDie_me (s : State) (n : Nat) (f : Die → Die) : (s.updDie n f).me = s.me := rfl
@[simp] theorem State.updDie_t (s : State) (n : Nat) (f : Die → Die) : (s.updDie n f).t = s.t := rfl
@[simp] theorem State.updPart_core (s : State) (n : Nat) (f : Part → Part) (c : Nat) : (s.updPart n f).core c = s.core c := rfl
@[simp] theorem State.updPart_me (s : State) (n : Nat) (f : Part → Part) : (s.updPart n f).me = s.me := rfl
@[simp] theorem State.updPart_t (s : State) (n : Nat) (f : Part → Part) : (s.updPart n f).t = s.t := rfl
@[simp] theorem State.logEvent_core (s : State) (d : Nat) (e : Cause) (kind unit info : Nat) (c : Nat) : (s.logEvent d e kind unit info).core c = s.core c := rfl
@[simp] theorem State.logEvent_me (s : State) (d : Nat) (e : Cause) (kind unit info : Nat) : (s.logEvent d e kind unit info).me = s.me := rfl
@[simp] theorem State.logEvent_t (s : State) (d : Nat) (e : Cause) (kind unit info : Nat) : (s.logEvent d e kind unit info).t = s.t := rfl
@[simp] theorem State.updInst_core (s : State) (n : Nat) (f : Inst → Inst) (c : Nat) : (s.updInst n f).core c = s.core c := by
  unfold State.updInst; split <;> rfl
@[simp] theorem State.updInst_me (s : State) (n : Nat) (f : Inst → Inst) : (s.updInst n f).me = s.me := by
  unfold State.updInst; split <;> rfl
@[simp] theorem State.updInst_t (s : State) (n : Nat) (f : Inst → Inst) : (s.updInst n f).t = s.t := by
  unfold State.updInst; split <;> rfl

/-! ### Reading the other parts back -/

@[simp] theorem State.updCluster_cluster_self (s : State) (n : Nat) (f : Cluster → Cluster) : (s.updCluster n f).cluster n = f (s.cluster n) :=
  FMap.get_put_self _ _ _ _
@[simp] theorem State.updCluster_cluster_other (s : State) (n m : Nat) (f : Cluster → Cluster) (h : m ≠ n) : (s.updCluster n f).cluster m = s.cluster m :=
  FMap.get_put_other _ _ _ _ _ h
@[simp] theorem State.putCore_cluster (s : State) (c : Nat) (k : Core) (n : Nat) : (s.putCore c k).cluster n = s.cluster n := rfl
@[simp] theorem State.updCore_cluster (s : State) (c : Nat) (f : Core → Core) (n : Nat) : (s.updCore c f).cluster n = s.cluster n := rfl
@[simp] theorem State.updMe_cluster (s : State) (f : Core → Core) (n : Nat) : (s.updMe f).cluster n = s.cluster n := rfl
@[simp] theorem State.updT_cluster (s : State) (f : CoreT → CoreT) (n : Nat) : (s.updT f).cluster n = s.cluster n := rfl
@[simp] theorem State.updDie_die_self (s : State) (n : Nat) (f : Die → Die) : (s.updDie n f).die n = f (s.die n) :=
  FMap.get_put_self _ _ _ _
@[simp] theorem State.updDie_die_other (s : State) (n m : Nat) (f : Die → Die) (h : m ≠ n) : (s.updDie n f).die m = s.die m :=
  FMap.get_put_other _ _ _ _ _ h
@[simp] theorem State.putCore_die (s : State) (c : Nat) (k : Core) (n : Nat) : (s.putCore c k).die n = s.die n := rfl
@[simp] theorem State.updCore_die (s : State) (c : Nat) (f : Core → Core) (n : Nat) : (s.updCore c f).die n = s.die n := rfl
@[simp] theorem State.updMe_die (s : State) (f : Core → Core) (n : Nat) : (s.updMe f).die n = s.die n := rfl
@[simp] theorem State.updT_die (s : State) (f : CoreT → CoreT) (n : Nat) : (s.updT f).die n = s.die n := rfl
@[simp] theorem State.updPart_part_self (s : State) (n : Nat) (f : Part → Part) : (s.updPart n f).part n = f (s.part n) :=
  FMap.get_put_self _ _ _ _
@[simp] theorem State.updPart_part_other (s : State) (n m : Nat) (f : Part → Part) (h : m ≠ n) : (s.updPart n f).part m = s.part m :=
  FMap.get_put_other _ _ _ _ _ h
@[simp] theorem State.putCore_part (s : State) (c : Nat) (k : Core) (n : Nat) : (s.putCore c k).part n = s.part n := rfl
@[simp] theorem State.updCore_part (s : State) (c : Nat) (f : Core → Core) (n : Nat) : (s.updCore c f).part n = s.part n := rfl
@[simp] theorem State.updMe_part (s : State) (f : Core → Core) (n : Nat) : (s.updMe f).part n = s.part n := rfl
@[simp] theorem State.updT_part (s : State) (f : CoreT → CoreT) (n : Nat) : (s.updT f).part n = s.part n := rfl
@[simp] theorem State.updInst_find_self (s : State) (n : Nat) (f : Inst → Inst) :
    FMap.find? (s.updInst n f).insts n = (FMap.find? s.insts n).map f := by
  unfold State.updInst; split <;> simp_all
@[simp] theorem State.updInst_find_other (s : State) (n m : Nat) (f : Inst → Inst) (h : m ≠ n) :
    FMap.find? (s.updInst n f).insts m = FMap.find? s.insts m := by
  unfold State.updInst; split
  · exact FMap.find_put_other _ _ _ _ h
  · rfl

/-! ### Registers -/

/-- A written general register reads back, g0 as zero (R32). -/
theorem CoreT.setG_g_self (t : CoreT) (r : Reg) (w : Word) (h : r ≠ 0#5) : (t.setG r w).g r = w := by
  unfold CoreT.setG CoreT.g
  by_cases hf : t.fir1.isSome <;> simp [h, hf]
/-- The other registers of the bank stay. -/
theorem CoreT.setG_g_other (t : CoreT) (r q : Reg) (w : Word) (h : q ≠ r) : (t.setG r w).g q = t.g q := by
  have hn : r.toNat ≠ q.toNat := fun e => h (BitVec.eq_of_toNat_eq e.symm)
  unfold CoreT.setG CoreT.g
  by_cases h0 : r = 0#5
  · simp [h0]
  · by_cases hf : t.fir1.isSome <;> simp [h0, hf, Vector.getElem_set_ne, hn]
@[simp] theorem CoreT.setG_zero (t : CoreT) (w : Word) : t.setG 0#5 w = t := by simp [CoreT.setG]
@[simp] theorem CoreT.g_zero (t : CoreT) : t.g 0#5 = 0 := by simp [CoreT.g]

@[simp] theorem CoreT.setG_v (t : CoreT) (r : Reg) (w : Word) : (t.setG r w).v = t.v := by
  unfold CoreT.setG; split <;> [rfl; (split <;> rfl)]
@[simp] theorem CoreT.setG_sd (t : CoreT) (r : Reg) (w : Word) : (t.setG r w).sd = t.sd := by
  unfold CoreT.setG; split <;> [rfl; (split <;> rfl)]
@[simp] theorem CoreT.setG_tr0 (t : CoreT) (r : Reg) (w : Word) : (t.setG r w).tr0 = t.tr0 := by
  unfold CoreT.setG; split <;> [rfl; (split <;> rfl)]
@[simp] theorem CoreT.setG_tr1 (t : CoreT) (r : Reg) (w : Word) : (t.setG r w).tr1 = t.tr1 := by
  unfold CoreT.setG; split <;> [rfl; (split <;> rfl)]
@[simp] theorem CoreT.setG_fir0 (t : CoreT) (r : Reg) (w : Word) : (t.setG r w).fir0 = t.fir0 := by
  unfold CoreT.setG; split <;> [rfl; (split <;> rfl)]
@[simp] theorem CoreT.setG_fir1 (t : CoreT) (r : Reg) (w : Word) : (t.setG r w).fir1 = t.fir1 := by
  unfold CoreT.setG; split <;> [rfl; (split <;> rfl)]
@[simp] theorem CoreT.setG_npc (t : CoreT) (r : Reg) (w : Word) : (t.setG r w).npc = t.npc := by
  unfold CoreT.setG; split <;> [rfl; (split <;> rfl)]
@[simp] theorem CoreT.setG_maskOpen (t : CoreT) (r : Reg) (w : Word) : (t.setG r w).maskOpen = t.maskOpen := by
  unfold CoreT.setG; split <;> [rfl; (split <;> rfl)]
@[simp] theorem CoreT.setG_maskCnt (t : CoreT) (r : Reg) (w : Word) : (t.setG r w).maskCnt = t.maskCnt := by
  unfold CoreT.setG; split <;> [rfl; (split <;> rfl)]
@[simp] theorem CoreT.setG_binds (t : CoreT) (r : Reg) (w : Word) : (t.setG r w).binds = t.binds := by
  unfold CoreT.setG; split <;> [rfl; (split <;> rfl)]
@[simp] theorem CoreT.setG_locals (t : CoreT) (r : Reg) (w : Word) : (t.setG r w).locals = t.locals := by
  unfold CoreT.setG; split <;> [rfl; (split <;> rfl)]
@[simp] theorem CoreT.setG_claims (t : CoreT) (r : Reg) (w : Word) : (t.setG r w).claims = t.claims := by
  unfold CoreT.setG; split <;> [rfl; (split <;> rfl)]
@[simp] theorem CoreT.setG_marks (t : CoreT) (r : Reg) (w : Word) : (t.setG r w).marks = t.marks := by
  unfold CoreT.setG; split <;> [rfl; (split <;> rfl)]
@[simp] theorem CoreT.setG_streams (t : CoreT) (r : Reg) (w : Word) : (t.setG r w).streams = t.streams := by
  unfold CoreT.setG; split <;> [rfl; (split <;> rfl)]
@[simp] theorem CoreT.setG_linkW (t : CoreT) (r : Reg) (w : Word) : (t.setG r w).linkW = t.linkW := by
  unfold CoreT.setG; split <;> [rfl; (split <;> rfl)]
@[simp] theorem CoreT.setG_linkE (t : CoreT) (r : Reg) (w : Word) : (t.setG r w).linkE = t.linkE := by
  unfold CoreT.setG; split <;> [rfl; (split <;> rfl)]
@[simp] theorem CoreT.setG_mq0 (t : CoreT) (r : Reg) (w : Word) : (t.setG r w).mq0 = t.mq0 := by
  unfold CoreT.setG; split <;> [rfl; (split <;> rfl)]
@[simp] theorem CoreT.setG_mq1 (t : CoreT) (r : Reg) (w : Word) : (t.setG r w).mq1 = t.mq1 := by
  unfold CoreT.setG; split <;> [rfl; (split <;> rfl)]
@[simp] theorem CoreT.setG_mqh (t : CoreT) (r : Reg) (w : Word) : (t.setG r w).mqh = t.mqh := by
  unfold CoreT.setG; split <;> [rfl; (split <;> rfl)]
@[simp] theorem CoreT.setG_mqh1 (t : CoreT) (r : Reg) (w : Word) : (t.setG r w).mqh1 = t.mqh1 := by
  unfold CoreT.setG; split <;> [rfl; (split <;> rfl)]
@[simp] theorem CoreT.setG_slots (t : CoreT) (r : Reg) (w : Word) : (t.setG r w).slots = t.slots := by
  unfold CoreT.setG; split <;> [rfl; (split <;> rfl)]
@[simp] theorem CoreT.setG_nextId (t : CoreT) (r : Reg) (w : Word) : (t.setG r w).nextId = t.nextId := by
  unfold CoreT.setG; split <;> [rfl; (split <;> rfl)]
@[simp] theorem CoreT.setG_chLatch (t : CoreT) (r : Reg) (w : Word) : (t.setG r w).chLatch = t.chLatch := by
  unfold CoreT.setG; split <;> [rfl; (split <;> rfl)]
@[simp] theorem CoreT.setG_dvCount (t : CoreT) (r : Reg) (w : Word) : (t.setG r w).dvCount = t.dvCount := by
  unfold CoreT.setG; split <;> [rfl; (split <;> rfl)]
@[simp] theorem CoreT.setG_xsCount (t : CoreT) (r : Reg) (w : Word) : (t.setG r w).xsCount = t.xsCount := by
  unfold CoreT.setG; split <;> [rfl; (split <;> rfl)]
@[simp] theorem CoreT.setG_extq (t : CoreT) (r : Reg) (w : Word) : (t.setG r w).extq = t.extq := by
  unfold CoreT.setG; split <;> [rfl; (split <;> rfl)]
@[simp] theorem CoreT.setG_watchRec (t : CoreT) (r : Reg) (w : Word) : (t.setG r w).watchRec = t.watchRec := by
  unfold CoreT.setG; split <;> [rfl; (split <;> rfl)]
@[simp] theorem CoreT.setG_watchSkip (t : CoreT) (r : Reg) (w : Word) : (t.setG r w).watchSkip = t.watchSkip := by
  unfold CoreT.setG; split <;> [rfl; (split <;> rfl)]

end Sys2Proof.Machine
end

