-- ==== Sys2Proof/Laws/Calm.lean ====
section
/-! SUPPORT. What squashes, knock-downs, wake-ups and signals leave alone (R290-R292, R312, R315): one relation, shown
once for each of these operations, so that no proof about a landing write unfolds them. -/
namespace Sys2Proof.Machine

/-! ### Racks -/

/-- A record keeps its geometry and gains no speculative token. -/
structure Rack.Thins (q r : Rack) : Prop where
  sz : r.sz = q.sz
  cntm1 : r.cntm1 = q.cntm1
  specs : ∀ x ∈ r.senders, x.2.2.1 = 0 ∨ ∃ y ∈ q.senders, y.2.2.1 = x.2.2.1

/-- Every record of `n` was one of `m`. -/
def racksThin (m n : FMap Rack) : Prop := ∀ b r, FMap.find? n b = some r → ∃ q, FMap.find? m b = some q ∧ q.Thins r

theorem Rack.Thins.refl (q : Rack) : q.Thins q := ⟨rfl, rfl, fun x hx => .inr ⟨x, hx, rfl⟩⟩

theorem Rack.Thins.trans {p q r : Rack} (a : p.Thins q) (b : q.Thins r) : p.Thins r := by
  refine ⟨b.sz.trans a.sz, b.cntm1.trans a.cntm1, fun x hx => ?_⟩
  obtain h | ⟨y, hy, e⟩ := b.specs x hx
  · exact .inl h
  · obtain h | ⟨z, hz, e'⟩ := a.specs y hy
    · exact .inl (e ▸ h)
    · exact .inr ⟨z, hz, e'.trans e⟩

/-- A change that keeps geometry and senders. -/
theorem Rack.thins_of {q r : Rack} (h : r.sz = q.sz ∧ r.cntm1 = q.cntm1 ∧ r.senders = q.senders) : q.Thins r :=
  ⟨h.1, h.2.1, fun x hx => .inr ⟨x, h.2.2 ▸ hx, rfl⟩⟩

theorem Rack.thins_filled (q : Rack) (n : Nat) : q.Thins (q.filled n) := Rack.thins_of ⟨rfl, rfl, rfl⟩

theorem Rack.thins_unsend (q : Rack) (key : Nat) : q.Thins (q.unsend key) :=
  ⟨rfl, rfl, fun x hx => .inr ⟨x, (List.mem_filter.1 hx).1, rfl⟩⟩

theorem Rack.thins_flush (q : Rack) : q.Thins q.flush := by
  unfold Rack.flush; split
  · exact ⟨rfl, rfl, fun x hx => .inr ⟨x, List.mem_of_mem_drop hx, rfl⟩⟩
  · exact Rack.Thins.refl q

theorem racksThin.refl (m : FMap Rack) : racksThin m m := fun _ r h => ⟨r, h, Rack.Thins.refl r⟩

theorem racksThin.trans {l m n : FMap Rack} (a : racksThin l m) (b : racksThin m n) : racksThin l n := fun k r h => by
  obtain ⟨q, hq, e⟩ := b k r h
  obtain ⟨p, hp, e'⟩ := a k q hq
  exact ⟨p, hp, e'.trans e⟩

theorem racksThin.put {m : FMap Rack} {k : Nat} {q r : Rack} (h : FMap.find? m k = some q) (e : q.Thins r) :
    racksThin m (FMap.put m k r) := fun j x hx => by
  by_cases hj : j = k
  · subst hj; rw [FMap.find_put_self] at hx; cases hx; exact ⟨q, h, e⟩
  · rw [FMap.find_put_other _ _ _ _ hj] at hx; exact ⟨x, hx, Rack.Thins.refl x⟩

/-! ### Cores -/

/-- What they leave of a core, its waits apart. -/
structure Core.Kept (k l : Core) : Prop where
  mb : l.mb = k.mb
  mbLatch : l.mbLatch = k.mbLatch
  perm : l.perm = k.perm
  out1 : l.out1 = k.out1
  copies : l.eng.copies = k.eng.copies
  mq : l.eng.mq = k.eng.mq
  doneId : l.eng.doneId = k.eng.doneId
  macs : l.eng.macs = k.eng.macs
  due : l.eng.due = k.eng.due
  tlb : l.tlb = k.tlb
  icache : l.icache = k.icache
  part : l.part = k.part
  draining : l.draining = k.draining
  repairs : l.repairs = k.repairs
  takeover : l.takeover = k.takeover
  stayed : l.stayed = k.stayed
  second : l.second = k.second
  racks : racksThin k.racks l.racks

/-- Numbers of the firings of a core. -/
def CoreT.serials (t : CoreT) : Option Nat × Option Nat := (t.fir0.map (·.serial), t.fir1.map (·.serial))

/-- What they leave of a core; one without an open chunk and without a held firing keeps its waits and its firings. -/
structure Core.Calm (k l : Core) : Prop extends Core.Kept k l where
  rest : k.chunk = none → k.held = none →
    l.chunk = none ∧ l.held = none ∧ l.wait0 = k.wait0 ∧ l.wait1 = k.wait1 ∧ l.t.serials = k.t.serials

theorem Core.Kept.refl (k : Core) : k.Kept k := by constructor <;> first | rfl | exact racksThin.refl _

theorem Core.Kept.trans {k l m : Core} (a : k.Kept l) (b : l.Kept m) : k.Kept m :=
  ⟨b.mb.trans a.mb, b.mbLatch.trans a.mbLatch, b.perm.trans a.perm, b.out1.trans a.out1, b.copies.trans a.copies,
    b.mq.trans a.mq, b.doneId.trans a.doneId, b.macs.trans a.macs, b.due.trans a.due, b.tlb.trans a.tlb,
    b.icache.trans a.icache, b.part.trans a.part, b.draining.trans a.draining, b.repairs.trans a.repairs,
    b.takeover.trans a.takeover, b.stayed.trans a.stayed, b.second.trans a.second, a.racks.trans b.racks⟩

theorem Core.Calm.refl (k : Core) : k.Calm k := ⟨Core.Kept.refl k, fun h g => ⟨h, g, rfl, rfl, rfl⟩⟩

theorem Core.Calm.trans {k l m : Core} (a : k.Calm l) (b : l.Calm m) : k.Calm m :=
  ⟨a.toKept.trans b.toKept, fun h g => by
    obtain ⟨h1, h2, h3, h4, h5⟩ := a.rest h g
    obtain ⟨g1, g2, g3, g4, g5⟩ := b.rest h1 h2
    exact ⟨g1, g2, g3.trans h3, g4.trans h4, g5.trans h5⟩⟩

/-- A core that has an open chunk or a held firing: nothing is said of its waits. -/
theorem Core.Kept.calm {k l : Core} (e : k.Kept l) (h : k.chunk ≠ none ∨ k.held ≠ none) : k.Calm l :=
  ⟨e, fun h1 h2 => by simp_all⟩

theorem Core.kept_both (k : Core) (f : CoreT → CoreT) : k.Kept (k.both f) := by
  constructor <;> first | rfl | exact racksThin.refl _

/-- A change of a core's tentative part that keeps its firings leaves the rest. -/
theorem Core.calm_both (k : Core) (f : CoreT → CoreT) (hf : ∀ t : CoreT, (f t).serials = t.serials) : k.Calm (k.both f) :=
  ⟨Core.kept_both k f, fun h g => by simp [Core.both, h, g, hf]⟩

theorem Core.calm_updRack (k : Core) (base : Nat) (f : Rack → Rack) (hf : ∀ q : Rack, q.Thins (f q)) : k.Calm (k.updRack base f) := by
  unfold Core.updRack
  split
  · rename_i r hr
    refine ⟨?_, fun h g => ⟨h, g, rfl, rfl, rfl⟩⟩
    constructor <;> first | rfl | exact racksThin.put hr (hf r)
  · refine Core.calm_both _ _ fun t => ?_
    split <;> rfl

theorem Core.calm_pend (k : Core) (c : Cause) (v : Word) (fir : Nat) : k.Calm (k.pendImprecise c v fir) := by
  unfold Core.pendImprecise; split
  · exact Core.Calm.refl k
  · refine ⟨?_, fun h g => ⟨h, g, rfl, rfl, rfl⟩⟩
    constructor <;> first | rfl | exact racksThin.refl _

theorem Core.calm_thaw (k : Core) (level : Nat) : k.Calm (k.thaw level) := by
  refine ⟨?_, fun h g => ⟨h, g, rfl, rfl, rfl⟩⟩
  constructor <;> first | rfl | exact racksThin.refl _

theorem Core.kept_settleSlots (k : Core) : k.Kept k.settleSlots := Core.kept_both _ _

theorem Core.kept_solo (k : Core) (x : Option Solo) : k.Kept { k with solo := x } := by
  constructor <;> first | rfl | exact racksThin.refl _

theorem Core.kept_setWaiting (k : Core) (level : Nat) (w : Waiting) : k.Kept (k.setWaiting level w) := by
  unfold Core.setWaiting; split <;> constructor <;> first | rfl | exact racksThin.refl _

theorem Core.kept_setSquashes (k : Core) (level n : Nat) : k.Kept (k.setSquashes level n) := by
  unfold Core.setSquashes; split <;> constructor <;> first | rfl | exact racksThin.refl _

theorem Core.kept_foldl {α : Type} (f : Core → α → Core) (hf : ∀ (k : Core) a, k.Kept (f k a)) (l : List α) (k : Core) :
    Core.Kept k (l.foldl f k) := by
  induction l generalizing k with
  | nil => exact Core.Kept.refl k
  | cons a l ih => exact (hf k a).trans (ih _)

theorem Core.kept_keepClaims (k : Core) (fir : Nat) : k.Kept (k.keepClaims fir) := by
  unfold Core.keepClaims
  refine Core.Kept.trans ?_ (Core.kept_foldl _ (fun k b =>
    (Core.calm_updRack k b (fun r => ({ r with pend := r.pend - 1 } : Rack).flush) fun q =>
      Rack.Thins.trans (q := { q with pend := q.pend - 1 }) (Rack.thins_of ⟨rfl, rfl, rfl⟩) (Rack.thins_flush _)).toKept) _ _)
  constructor <;> first | rfl | exact racksThin.refl _

theorem Core.kept_unheld (k : Core) : k.Kept k.unheld := by
  unfold Core.unheld; split <;> constructor <;> first | rfl | exact racksThin.refl _

theorem Core.calm_watchLand (k : Core) (kind src : Nat) (addrs : List Nat) : k.Calm (k.watchLand kind src addrs) := by
  unfold Core.watchLand
  dsimp only
  have step : ∀ (k : Core) (b : Bool) (o : Option Nat) (fir : Option Firing), k.Calm (match fir with
      | none => k
      | some f => if b = true then k else match o with
        | none => k
        | some a => (k.both fun t => { t with watchRec := word (kind <<< 61 + src <<< 48 + a) }).pendImprecise .watchLanding
            (word (kind <<< 61 + src <<< 48 + a)) f.serial) := by
    intro k b o fir
    repeat' split
    · exact Core.Calm.refl k
    · exact Core.Calm.refl k
    · exact Core.Calm.refl k
    · exact (Core.calm_both k (fun t => { t with watchRec := word (kind <<< 61 + src <<< 48 + _) }) fun _ => rfl).trans
        (Core.calm_pend _ _ _ _)
  exact (step k _ _ _).trans (step _ _ _ _)

/-! ### The package -/

/-- What they leave of the package beside its cores and its memory, whose uncorrectable errors move with it. -/
structure State.Quiet (s t : State) : Prop where
  wins : t.wins = s.wins
  parts : t.parts = s.parts
  net : t.net = s.net
  posts : t.posts = s.posts
  credits : t.credits = s.credits
  far : t.far = s.far
  bars : t.bars = s.bars
  barHeld : t.barHeld = s.barHeld
  dvs : t.dvs = s.dvs
  xmsgs : t.xmsgs = s.xmsgs
  xins : t.xins = s.xins
  iow : t.iow = s.iow
  routes : t.routes = s.routes
  hub : t.hub = s.hub
  cycle : t.cycle = s.cycle
  agenda : t.agenda = s.agenda
  cur : t.cur = s.cur
  args : t.args = s.args
  payload : t.payload = s.payload

/-- Every core's records were there before, and hold no new speculative token. -/
def State.Thin (s t : State) : Prop := ∀ c, racksThin (s.core c).racks (t.core c).racks

/-- What they leave of the package. Of memory, only the tokens behind vanished ones move up (R315). -/
structure State.Calm (s t : State) : Prop extends State.Quiet s t where
  core : ∀ c, (s.core c).Calm (t.core c)
  mem : MemIs s s.mem t

/-- The same but for the waits of one core. -/
structure State.CalmBut (c : Nat) (s t : State) : Prop extends State.Quiet s t where
  here : (s.core c).Kept (t.core c)
  core : ∀ d, d ≠ c → (s.core d).Calm (t.core d)
  mem : MemIs s s.mem t

theorem State.Quiet.refl (s : State) : s.Quiet s := by constructor <;> rfl

theorem State.Quiet.trans {s t u : State} (a : s.Quiet t) (b : t.Quiet u) : s.Quiet u :=
  ⟨b.wins.trans a.wins, b.parts.trans a.parts, b.net.trans a.net, b.posts.trans a.posts, b.credits.trans a.credits,
    b.far.trans a.far, b.bars.trans a.bars, b.barHeld.trans a.barHeld, b.dvs.trans a.dvs, b.xmsgs.trans a.xmsgs,
    b.xins.trans a.xins, b.iow.trans a.iow, b.routes.trans a.routes, b.hub.trans a.hub, b.cycle.trans a.cycle,
    b.agenda.trans a.agenda, b.cur.trans a.cur, b.args.trans a.args, b.payload.trans a.payload⟩

theorem State.Thin.inRack {s t : State} (h : s.Thin t) {a : Nat} : t.InRack a → s.InRack a := by
  rintro ⟨c, base, r, hr, h1, h2⟩
  obtain ⟨q, hq, e⟩ := h c base r hr
  refine ⟨c, base, q, hq, h1, ?_⟩
  simpa [Rack.n, Rack.slotSize, e.sz, e.cntm1] using h2

theorem State.Thin.noSpec {s t : State} (h : s.Thin t) (g : s.NoSpec) : t.NoSpec := by
  intro c base r hr x hx
  obtain ⟨q, hq, e⟩ := h c base r hr
  obtain h0 | ⟨y, hy, e'⟩ := e.specs x hx
  · exact h0
  · rw [← e']; exact g c base q hq y hy

theorem MemIs.of_mem {s t : State} (h : t.mem = s.mem) : MemIs s s.mem t := ⟨fun a _ => by unfold State.byte; rw [h], fun _ => h⟩

theorem MemIs.refl (s : State) : MemIs s s.mem s := MemIs.of_mem rfl

/-- What a first step makes of memory, a calm second one leaves (R315). -/
theorem MemIs.trans {s t u : State} {m : FMap Byte} (a : MemIs s m t) (h : s.Thin t) (b : MemIs t t.mem u) : MemIs s m u :=
  ⟨fun x hx => (b.1 x fun hx' => hx (h.inRack hx')).trans (a.1 x hx), fun hs => (b.2 (h.noSpec hs)).trans (a.2 hs)⟩

theorem State.Calm.thin {s t : State} (h : s.Calm t) : s.Thin t := fun c => (h.core c).racks
theorem State.CalmBut.thin {c : Nat} {s t : State} (h : s.CalmBut c t) : s.Thin t := fun d => by
  by_cases hd : d = c
  · subst hd; exact h.here.racks
  · exact (h.core d hd).racks

theorem State.Calm.refl (s : State) : s.Calm s := ⟨State.Quiet.refl s, fun _ => Core.Calm.refl _, MemIs.refl s⟩

theorem State.Calm.trans {s t u : State} (a : s.Calm t) (b : t.Calm u) : s.Calm u :=
  ⟨a.toQuiet.trans b.toQuiet, fun c => (a.core c).trans (b.core c), a.mem.trans a.thin b.mem⟩

theorem State.Calm.but {s t : State} (h : s.Calm t) (c : Nat) : s.CalmBut c t :=
  ⟨h.toQuiet, (h.core c).toKept, fun d _ => h.core d, h.mem⟩

theorem State.CalmBut.trans {c : Nat} {s t u : State} (a : State.CalmBut c s t) (b : State.CalmBut c t u) : State.CalmBut c s u :=
  ⟨a.toQuiet.trans b.toQuiet, a.here.trans b.here, fun d h => (a.core d h).trans (b.core d h), a.mem.trans a.thin b.mem⟩

theorem State.CalmBut.calm {c : Nat} {s t : State} (a : State.CalmBut c s t) (h : (s.core c).chunk ≠ none ∨ (s.core c).held ≠ none) :
    s.Calm t := ⟨a.toQuiet, fun d => by
  by_cases hd : d = c
  · subst hd; exact a.here.calm h
  · exact a.core d hd, a.mem⟩

/-- Every core's data counter keeps its value. -/
theorem State.Calm.counterVal {s t : State} (h : s.Calm t) (k : Nat × Nat) :
    FMap.get 0 (t.core k.1).mb k.2 = FMap.get 0 (s.core k.1).mb k.2 := by rw [(h.core k.1).mb]

/-- A committed byte outside the racks stays. -/
theorem State.Calm.byte {s t : State} (h : s.Calm t) {a : Nat} (ha : ¬s.InRack a) : t.byte a = s.byte a := h.mem.1 a ha

/-! ### Single updates -/

theorem State.quiet_putCore (s : State) (c : Nat) (k : Core) : s.Quiet (s.putCore c k) := by constructor <;> rfl

theorem State.calm_putCore (s : State) (c : Nat) (k : Core) (h : (s.core c).Calm k) : s.Calm (s.putCore c k) := by
  refine ⟨State.quiet_putCore s c k, fun d => ?_, MemIs.of_mem rfl⟩
  by_cases hd : d = c
  · subst hd; rw [State.putCore_core_self]; exact h
  · rw [State.putCore_core_other _ _ _ _ hd]; exact Core.Calm.refl _

theorem State.calmBut_putCore (s : State) (c : Nat) (k : Core) (h : (s.core c).Kept k) : State.CalmBut c s (s.putCore c k) :=
  ⟨State.quiet_putCore s c k, by rw [State.putCore_core_self]; exact h, fun d hd => by
    rw [State.putCore_core_other _ _ _ _ hd]; exact Core.Calm.refl _, MemIs.of_mem rfl⟩

/-- An update of the rest of the package that keeps the cores and memory. -/
theorem State.calm_of_cores {s t : State} (h : s.Quiet t) (e : t.cores = s.cores) (m : t.mem = s.mem) : s.Calm t :=
  ⟨h, fun c => by unfold State.core; rw [e]; exact Core.Calm.refl _, MemIs.of_mem m⟩

theorem State.calm_updCore (s : State) (c : Nat) (f : Core → Core) (h : ∀ k : Core, k.Calm (f k)) : s.Calm (s.updCore c f) :=
  State.calm_putCore s c _ (h _)

theorem State.calmBut_updCore (s : State) (c : Nat) (f : Core → Core) (h : ∀ k : Core, k.Kept (f k)) :
    State.CalmBut c s (s.updCore c f) := State.calmBut_putCore s c _ (h _)

theorem State.calm_updMe (s : State) (f : Core → Core) (h : ∀ k : Core, k.Calm (f k)) : s.Calm (s.updMe f) :=
  State.calm_putCore s s.cur _ (h _)

theorem State.calm_updCluster (s : State) (n : Nat) (f : Cluster → Cluster) : s.Calm (s.updCluster n f) :=
  State.calm_of_cores (by constructor <;> rfl) rfl rfl

theorem State.calm_updDie (s : State) (n : Nat) (f : Die → Die) : s.Calm (s.updDie n f) :=
  State.calm_of_cores (by constructor <;> rfl) rfl rfl

theorem State.calm_next (s : State) : s.Calm s.next := State.calm_of_cores (by constructor <;> rfl) rfl rfl

theorem State.calm_logEvent (s : State) (d : Nat) (c : Cause) (kind unit info : Nat) : s.Calm (s.logEvent d c kind unit info) :=
  State.calm_updDie s d _

theorem State.calm_insts (s : State) (m : FMap Inst) : s.Calm { s with insts := m } :=
  State.calm_of_cores (by constructor <;> rfl) rfl rfl

theorem State.calm_tokens (s : State) (m : FMap (List Nat)) : s.Calm { s with tokens := m } :=
  State.calm_of_cores (by constructor <;> rfl) rfl rfl

theorem State.calm_updInst (s : State) (i : Nat) (f : Inst → Inst) : s.Calm (s.updInst i f) := by
  unfold State.updInst; split
  · exact State.calm_insts s _
  · exact State.Calm.refl s

/-- A fold of calm steps is calm. -/
theorem State.calm_foldl {α : Type} (f : State → α → State) (h : ∀ (s : State) a, s.Calm (f s a)) (l : List α) (s : State) :
    State.Calm s (l.foldl f s) := by
  induction l generalizing s with
  | nil => exact State.Calm.refl s
  | cons a l ih => exact (h s a).trans (ih _)

/-- The value under a key of a mapped table is related to the one before. -/
theorem FMap.get_map_rel {V : Type} (R : V → V → Prop) (d : V) (g : V → V) (hd : R d d) (hg : ∀ v, R v (g v)) (m : FMap V) (k : Nat) :
    R (FMap.get d m k) (FMap.get d (m.map fun p => (p.1, g p.2)) k) := by
  induction m with
  | nil => exact hd
  | cons p r ih =>
    simp only [List.map, FMap.get]
    split
    · exact hg _
    · split
      · exact hd
      · exact ih

/-- Watchpoints note a landing write and leave the rest (R367). -/
theorem State.calm_watchAll (s : State) (kind src : Nat) (skip : Option Nat) (addrs : List Nat) :
    s.Calm (s.watchAll kind src skip addrs) :=
  State.calm_foldl _ (fun s _ => State.calm_updCore s _ _ fun k => Core.calm_watchLand k _ _ _) _ s

/-! ### Wake-ups, credits, fills -/

theorem State.calm_runq (s : State) (c : Nat) (f : List Entry → List Entry) :
    s.Calm (s.updCore c fun k => { k with runq := f k.runq }) :=
  State.calm_updCore s c _ fun k => by
    refine ⟨?_, fun h g => ⟨h, g, rfl, rfl, rfl⟩⟩
    constructor <;> first | rfl | exact racksThin.refl _

theorem State.calm_wake (s : State) (key : Nat) : s.Calm (s.wake key) := by
  unfold State.wake
  repeat' split
  all_goals first
    | exact State.Calm.refl s
    | exact (State.calm_runq s _ fun l => l ++ _).trans (State.calm_updInst _ _ _)

theorem State.calm_wakeCore (s : State) (c : Nat) : s.Calm (s.wakeCore c) :=
  State.calm_foldl (fun (s : State) (p : Nat × Inst) => s.wake p.1) (fun s p => State.calm_wake s p.1) _ s

theorem State.calm_addCredit (s : State) (inst p n : Nat) : s.Calm (s.addCredit inst p n) := by
  unfold State.addCredit; split
  · exact State.Calm.refl s
  · exact State.calm_updInst s _ _

theorem State.calm_returnRoom (s : State) (f : Firing) : s.Calm (s.returnRoom f) := by
  unfold State.returnRoom; split
  · exact State.Calm.refl s
  · exact State.calm_foldl _ (fun s p => State.calm_addCredit s _ _ _) _ s

theorem State.calm_leaveSolo (s : State) (c : Nat) : s.Calm (s.leaveSolo c) := by
  unfold State.leaveSolo; split
  · exact State.Calm.refl s
  · refine (State.calm_updCore s c _ fun k => ?_).trans (State.calm_tokens _ _)
    refine ⟨?_, fun h g => ⟨h, g, rfl, rfl, rfl⟩⟩
    constructor <;> first | rfl | exact racksThin.refl _

theorem State.calm_capture (s : State) (c base slot : Nat) : s.Calm (s.capture c base slot) := by
  unfold State.capture
  dsimp only
  repeat' split
  all_goals first
    | exact State.Calm.refl s
    | exact State.calm_updCore s c _ fun k => Core.calm_both _ _ fun _ => rfl

/-- A fill of a rack writes no memory (R127). -/
theorem State.calm_fillNow (s : State) (c base n : Nat) : s.Calm (s.fillNow c base n) := by
  unfold State.fillNow
  dsimp only
  refine State.Calm.trans ?_ (State.calm_wakeCore _ c)
  refine State.Calm.trans ?_ (State.calm_updCore _ c _ fun k => Core.calm_updRack k base _ fun q => Rack.thins_filled q n)
  exact State.calm_foldl _ (fun s i => State.calm_capture s _ _ _) _ s

theorem State.calm_fillWaiting (s : State) (c base : Nat) : s.Calm (s.fillWaiting c base) := by
  unfold State.fillWaiting
  repeat' split
  all_goals first
    | exact State.Calm.refl s
    | exact (State.calm_updCore s c _ fun k => Core.calm_updRack k base _ fun q =>
        Rack.thins_of (r := { q with wait := 0 }) ⟨rfl, rfl, rfl⟩).trans (State.calm_fillNow _ _ _ _)

/-! ### Speculative tokens that vanish -/

/-- A byte that no write names stays. -/
theorem State.poke_byte_other (s : State) (w : List (Nat × Byte × Byte)) (a : Nat) (h : ∀ p ∈ w, p.1 ≠ a) :
    (s.poke w).byte a = s.byte a := by
  unfold State.poke State.byte
  generalize s.mem = m
  induction w generalizing m with
  | nil => rfl
  | cons p w ih =>
    refine (ih (fun q hq => h q (List.mem_cons_of_mem _ hq)) _).trans ?_
    exact FMap.get_set_other _ _ _ _ _ fun e => h p (List.mem_cons_self ..) e.symm

theorem span_mem {a n k : Nat} (h : k ∈ span a n) : a ≤ k ∧ k < a + n := by
  induction n generalizing a with
  | zero => simp [span] at h
  | succ n ih =>
    rcases List.mem_cons.1 h with rfl | h
    · omega
    · have := ih h; omega

@[simp] theorem span_length (a n : Nat) : (span a n).length = n := by
  induction n generalizing a with
  | zero => rfl
  | succ n ih => simp [span, ih]

@[simp] theorem State.bytesAt_length (s : State) (a n : Nat) : (s.bytesAt a n).length = n := by simp [State.bytesAt]

theorem maskedBytes_addr {a : Nat} {b : List Byte} {p : Nat × Byte × Byte} (h : p ∈ maskedBytes a b) :
    a ≤ p.1 ∧ p.1 < a + b.length := by
  obtain ⟨x, hx, rfl⟩ := List.mem_map.1 h
  have := span_mem (List.of_mem_zip hx).2
  dsimp only; omega

/-- The bytes of a slot lie in its rack. -/
theorem State.slot_inRack {s : State} {c base : Nat} {r : Rack} (h : FMap.find? (s.core c).racks base = some r) {i a : Nat}
    (h1 : padOfCore c + r.slotOff base i ≤ a) (h2 : a < padOfCore c + r.slotOff base i + r.slotSize) : s.InRack a := by
  refine ⟨c, base, r, h, ?_, ?_⟩
  · unfold Rack.slotOff at h1; omega
  · have hn : i % r.n < r.n := Nat.mod_lt _ (by unfold Rack.n; omega)
    have : (i % r.n + 1) * r.slotSize ≤ r.n * r.slotSize := Nat.mul_le_mul_right _ hn
    rw [Nat.add_mul] at this
    unfold Rack.slotOff at h2; omega

theorem Rack.others_all {q : Rack} {key : Nat} (h : ∀ x ∈ q.senders, x.2.2.1 ≠ key) : (q.others key).length = q.senders.length := by
  unfold Rack.others
  rw [List.length_map, List.filter_eq_self.2]
  · simp
  · rintro ⟨x, n⟩ hx
    simpa using h x (List.of_mem_zip hx).1

theorem State.calm_unsendRack (s : State) (c base key : Nat) (hk : key ≠ 0) : s.Calm (s.unsendRack c base key) := by
  unfold State.unsendRack
  split
  · exact State.Calm.refl s
  · rename_i r hr
    dsimp only
    split
    · exact State.Calm.refl s
    · rename_i hlen
      refine State.Calm.trans ?_ (State.calm_wakeCore _ _)
      refine State.Calm.trans ?_ (State.calm_runq _ _ _)
      refine State.Calm.trans ?_ (State.calm_updCore _ c _ fun k => Core.calm_updRack k base _ fun q => Rack.thins_unsend q key)
      refine ⟨by constructor <;> rfl, fun _ => Core.Calm.refl _, ⟨fun a ha => ?_, fun hs => ?_⟩⟩
      · refine State.poke_byte_other s _ a ?_
        rintro p hp rfl
        obtain ⟨x, hx, hp⟩ := List.mem_flatMap.1 hp
        obtain ⟨q, _, rfl⟩ := List.mem_map.1 hx
        have := maskedBytes_addr hp
        rw [State.bytesAt_length] at this
        exact ha (State.slot_inRack hr this.1 this.2)
      · exact absurd (Rack.others_all fun x hx e => hk (e.symm.trans (hs c base r hr x hx))) hlen

theorem State.calm_unsend (s : State) (key : Nat) (hk : key ≠ 0) : s.Calm (s.unsend key) :=
  State.calm_foldl _ (fun s _ => State.calm_foldl _ (fun s _ => State.calm_unsendRack s _ _ _ hk) _ s) _ s

theorem State.calm_resolved (s : State) (inst : Nat) : s.Calm (s.resolved inst) := by
  refine ⟨by constructor <;> rfl, fun c => ?_, MemIs.of_mem rfl⟩
  let drop (f : Firing) : Firing := { f with deps := f.deps.filter (· ≠ inst) }
  let one (k : Core) : Core := k.both fun t => { t with fir0 := t.fir0.map drop }
  have hone : ∀ k : Core, k.Calm (one k) := fun k => Core.calm_both k _ fun t => by
    simp [CoreT.serials, Option.map_map, Function.comp_def, drop]
  refine FMap.get_map_rel Core.Calm Core.reset (fun k => { one k with held := (one k).held.map fun h => { h with fir := drop h.fir } })
    (Core.Calm.refl _) (fun k => (hone k).trans ⟨?_, fun h g => ⟨h, by simp [g], rfl, rfl, rfl⟩⟩) s.cores c
  constructor <;> first | rfl | exact racksThin.refl _

/-! ### Squashes, discards, knock-downs -/

theorem State.calm_squash (s : State) (c : Nat) (counts : Bool) : s.Calm (s.squash c counts) := by
  unfold State.squash
  dsimp only
  split
  · exact State.Calm.refl s
  · rename_i ch hch
    have key : ∀ (lv n : Nat) (hd : Option Held), (s.core c).Kept
        ((({ s.core c with t := ch.ckpt, chunk := none, held := hd } : Core).settleSlots.setSquashes lv n).setWaiting lv Waiting.idle) := by
      intro lv n hd
      refine Core.Kept.trans ?_ (Core.kept_setWaiting _ _ _)
      refine Core.Kept.trans ?_ (Core.kept_setSquashes _ _ _)
      refine Core.Kept.trans ?_ (Core.kept_settleSlots _)
      constructor <;> first | rfl | exact racksThin.refl _
    have busy : (s.core c).chunk ≠ none ∨ (s.core c).held ≠ none := .inl (by simp [hch])
    split
    · refine ((State.calm_putCore s c _ (Core.Kept.calm ?_ busy)).trans (State.calm_tokens _ _)).trans (State.calm_logEvent _ _ _ _ _ _)
      exact (key _ _ _).trans (Core.kept_solo _ _)
    · exact State.calm_putCore s c _ ((key _ _ _).calm busy)

theorem State.calmBut_discard (s : State) (c level : Nat) : State.CalmBut c s (s.discard c level) := by
  unfold State.discard
  dsimp only
  split
  · exact (State.Calm.refl s).but c
  · refine State.CalmBut.trans ?_ ((State.calm_wakeCore _ _).but c)
    refine State.CalmBut.trans ?_ ((State.calm_updInst _ _ _).but c)
    have base : ∀ (k : Core), (s.core c).Kept k → ∀ (s0 : State), s0 = s → ∀ n f l g, State.CalmBut c s
        ((s0.putCore c (Core.thaw { (((k.setWaiting level Waiting.idle).setSquashes level 0).keepClaims n).settleSlots |>.both g with pendImp := l } level)).returnRoom f) := by
      rintro k hk s0 rfl n f l g
      refine State.CalmBut.trans (State.calmBut_putCore s0 c _ ?_) ((State.calm_returnRoom _ _).but c)
      refine Core.Kept.trans ?_ (Core.calm_thaw _ _).toKept
      have h1 := hk.trans (Core.kept_setWaiting k level Waiting.idle)
      have h2 := h1.trans (Core.kept_setSquashes _ level 0)
      have h3 := h2.trans (Core.kept_keepClaims _ n)
      have h4 := (h3.trans (Core.kept_settleSlots _)).trans (Core.kept_both _ g)
      refine h4.trans ?_
      constructor <;> first | rfl | exact racksThin.refl _
    split
    · refine State.CalmBut.trans ?_ ((State.calm_leaveSolo _ _).but c)
      refine base _ ?_ s rfl _ _ _ _
      constructor <;> first | rfl | exact racksThin.refl _
    · exact base _ (Core.Kept.refl _) s rfl _ _ _ _

theorem State.calm_knockDown (fuel : Nat) (s : State) (c : Nat) (conflict : Bool) : s.Calm (State.knockDown fuel s c conflict) := by
  induction fuel generalizing s c conflict with
  | zero => exact State.Calm.refl s
  | succ n ih =>
    unfold State.knockDown
    dsimp only
    split
    · exact State.Calm.refl s
    · rename_i h hh
      refine State.CalmBut.calm (c := c) ?_ (.inr (by simp [hh]))
      refine State.CalmBut.trans ?_ ((State.calm_wakeCore _ _).but c)
      refine State.CalmBut.trans ?_ ((State.calm_foldl (fun (s : State) d => State.knockDown n s d false) (fun s d => ih s d _) _ _).but c)
      have hfill : ∀ (o : Option Nat) (s : State), s.Calm (match o with | some b => s.fillWaiting c b | none => s) := by
        intro o s; split
        · exact State.calm_fillWaiting _ _ _
        · exact State.Calm.refl s
      refine State.CalmBut.trans ?_ ((hfill _ _).but c)
      refine State.CalmBut.trans ?_ ((State.calm_updCluster _ _ _).but c)
      have hbar : ∀ (s : State) (f : Inst → Inst), s.Calm (if conflict = true then s.updInst h.fir.inst f else s) := by
        intro s f; split
        · exact State.calm_updInst _ _ _
        · exact State.Calm.refl s
      refine State.CalmBut.trans ?_ ((hbar _ _).but c)
      refine State.CalmBut.trans ?_ ((State.calm_resolved _ _).but c)
      have hu := State.calm_unsend s (h.fir.inst + 1) (by omega)
      refine State.CalmBut.trans (hu.but c) ?_
      split
      · exact State.calmBut_updCore _ c _ fun k => (Core.kept_unheld k).trans (Core.kept_both _ _)
      · split
        · refine State.CalmBut.trans (State.calmBut_updCore _ c _ fun k => ?_) (State.calmBut_discard _ _ _)
          refine Core.Kept.trans ?_ (Core.kept_both _ _)
          refine Core.Kept.trans ?_ (Core.kept_unheld _)
          split
          · constructor <;> first | rfl | exact racksThin.refl _
          · exact Core.Kept.refl k
        · refine State.CalmBut.trans ?_ ((State.calm_updInst _ _ _).but c)
          exact State.CalmBut.trans (State.calmBut_updCore _ c _ Core.kept_unheld) ((State.calm_returnRoom _ _).but c)

/-- A signal changes no counter and no engine, and of memory only the slots behind vanished tokens (R290, R312, R315). -/
theorem State.calm_signal (s : State) (scope u : Nat) (lines : List Nat) : s.Calm (s.signal scope u lines) := by
  unfold State.signal
  split
  · exact State.Calm.refl s
  · refine (State.calm_next s).trans (State.calm_foldl _ (fun s p => ?_) _ _)
    dsimp only
    split
    · exact State.Calm.refl s
    · have h1 : s.Calm (match (s.core p.1).held with
          | some h => if (h.chunks.any (fun ch => conflicts ch.rd lines s.fresh p.1) && !s.firmTurn p.1 h) = true
              then State.knockDown 8 s p.1 true else s
          | none => s) := by
        split
        · split
          · exact State.calm_knockDown _ _ _ _
          · exact State.Calm.refl s
        · exact State.Calm.refl s
      have h2 : ∀ v : State, v.Calm (match (v.core p.1).chunk with
          | some ch => if conflicts ch.rd lines v.fresh p.1 = true then v.squash p.1 true else v
          | none => v) := by
        intro v
        split
        · split
          · exact State.calm_squash _ _ _
          · exact State.Calm.refl _
        · exact State.Calm.refl _
      exact h1.trans (h2 _)

/-! ### A landing write -/

/-- A landing write changes memory by its masked bytes, makes whole bytes good again, and is otherwise calm (R198,
R290). -/
theorem State.land_calm (s : State) (u scope kind src : Nat) (w : List (Nat × Byte × Byte)) :
    ({ s.poke w with poison := (s.poke w).poison.filter fun a => !(w.any fun p => p.1 = a && p.2.1 = 0xFF#8) } : State).Calm
      (s.land u scope kind src w) :=
  (State.calm_watchAll _ _ _ _ _).trans (State.calm_signal _ _ _ _)

/-- Memory after a landing write (R198, R315). -/
theorem State.land_mem (s : State) (u scope kind src : Nat) (w : List (Nat × Byte × Byte)) :
    MemIs s (s.poke w).mem (s.land u scope kind src w) :=
  ⟨fun a ha => (State.land_calm s u scope kind src w).mem.1 a ha, fun hs => (State.land_calm s u scope kind src w).mem.2 hs⟩
@[simp] theorem State.land_cur (s : State) (u scope kind src : Nat) (w : List (Nat × Byte × Byte)) :
    (s.land u scope kind src w).cur = s.cur := (State.land_calm s u scope kind src w).cur
theorem State.land_core (s : State) (u scope kind src : Nat) (w : List (Nat × Byte × Byte)) (c : Nat) :
    (s.core c).Calm ((s.land u scope kind src w).core c) := (State.land_calm s u scope kind src w).core c

end Sys2Proof.Machine
end

