-- ==== Sys2Proof/Laws/Ops.lean ====
section
/-! SUPPORT. What the shared operations of an instruction do: how a meaning ends, what its pops change, what a general
register's write leaves alone. -/
namespace Sys2Proof.Machine

/-! ### How a meaning ends -/

@[simp] theorem finish_ok (s t : State) : finish s (.ok t) = .next t := rfl

/-- With registers and links ready, an instruction does its effect after its pops. -/
theorem State.doing_ready {s : State} {u : Use} (f : State → Res State) (h : s.ready u = .ok ()) : s.doing u f = f (s.take u) := by
  simp [State.doing, h, bind, Except.bind]

/-- Not ready, it ends as its readiness says. -/
theorem State.doing_error {s : State} {u : Use} {e : Stop} (f : State → Res State) (h : s.ready u = .error e) :
    s.doing u f = .error e := by
  simp [State.doing, h, bind, Except.bind]

/-- A meaning that writes one general register. -/
theorem puts_of {i : Instr} {s : State} {d : Reg} {w : Word} (h : exec i s = finish s (s.writeG (useOf i) d w)) : Puts i s d w := by
  intro hr; rw [h, State.writeG, State.doing_ready _ hr]; rfl

/-- A meaning that writes one vector field. -/
theorem putsV_of {i : Instr} {s : State} {d : Reg} {x : VReg} (h : exec i s = finish s (s.writeV (useOf i) d x)) : PutsV i s d x := by
  intro hr; rw [h, State.writeV, State.doing_ready _ hr]; rfl

/-- A meaning that traps. -/
theorem finish_trap (s : State) (c : Cause) (v : Word) : finish s (.error (.trap c v false)) = .next (s.takeTrap c v s.t.pc false s.secw) := rfl

/-! ### Pops -/

/-- What pops change of a core's tentative part: registers bound to streams, parked bits and the streams themselves
(R130, R133). -/
def CoreT.Popped (t u : CoreT) : Prop :=
  u = { t with gp := u.gp, gs := u.gs, v := u.v, park := u.park, streams := u.streams } ∧
  (∀ q : Reg, t.bound q.toNat = none → u.g q = t.g q) ∧
  (∀ n (h : n < 16), t.bound (32 + n) = none → u.v[n] = t.v[n]) ∧
  (∀ k, t.bound k = none → u.bound k = none)


theorem CoreT.Popped.refl (t : CoreT) : t.Popped t := ⟨rfl, fun _ _ => rfl, fun _ _ _ => rfl, fun _ h => h⟩

theorem CoreT.Popped.trans {t u w : CoreT} (a : t.Popped u) (b : u.Popped w) : t.Popped w := by
  obtain ⟨a1, a2, a3, a4⟩ := a
  obtain ⟨b1, b2, b3, b4⟩ := b
  refine ⟨?_, ?_, ?_, ?_⟩
  · rw [b1, a1]
  · intro q h; rw [b2 q (a4 _ h), a2 q h]
  · intro n hn h; rw [b3 n hn (a4 _ h), a3 n hn h]
  · intro k h; exact b4 _ (a4 _ h)

theorem CoreT.unpark_popped (t : CoreT) (r : Reg) : t.Popped (t.unpark r) := by
  unfold CoreT.unpark; split
  · exact CoreT.Popped.refl _
  · exact ⟨rfl, fun _ _ => rfl, fun _ _ _ => rfl, fun _ h => h⟩

theorem CoreT.bound_put (t : CoreT) (k j : Nat) (y : Stream) (hk : (t.bound k).isSome) (h : t.bound j = none) :
    ({ t with streams := FMap.put t.streams k y } : CoreT).bound j = none := by
  by_cases hj : j = k
  · subst hj; simp [h] at hk
  · have e1 : ({ t with streams := FMap.put t.streams k y } : CoreT).bound j = if t.inTrap || (t.fir1.isSome && j < 32) then none else FMap.find? (FMap.put t.streams k y) j := rfl
    have e2 : t.bound j = if t.inTrap || (t.fir1.isSome && j < 32) then none else FMap.find? t.streams j := rfl
    rw [e1, FMap.find_put_other _ _ _ _ hj, ← e2, h]

theorem CoreT.setG_popped (t : CoreT) (r : Reg) (w : Word) (hb : (t.bound r.toNat).isSome) : t.Popped (t.setG r w) := by
  refine ⟨?_, ?_, ?_, ?_⟩
  · unfold CoreT.setG; split
    · rfl
    · split <;> rfl
  · intro q h
    apply CoreT.setG_g_other
    rintro rfl; simp [h] at hb
  · intro n hn h; rw [CoreT.setG_v]
  · intro k h; unfold CoreT.bound CoreT.inTrap CoreT.tr at *; simpa using h

theorem CoreT.setV_popped (t : CoreT) (n : Nat) (w : VReg) (hb : (t.bound (32+n)).isSome) : t.Popped (t.setV n w) := by
  refine ⟨?_, ?_, ?_, ?_⟩
  · unfold CoreT.setV; split <;> rfl
  · intro q h; by_cases hn : n < 16 <;> simp [CoreT.setV, CoreT.g, hn]
  · intro m hm h
    have : m ≠ n := by rintro rfl; simp [h] at hb
    unfold CoreT.setV; split
    · simp [Vector.getElem_set_ne, this.symm]
    · rfl
  · intro k h; unfold CoreT.setV; split <;> exact h

theorem CoreT.popKey_popped (t : CoreT) (k : Nat) : t.Popped (t.popKey k) := by
  unfold CoreT.popKey
  split
  · exact CoreT.Popped.refl _
  · rename_i x hx
    split
    · exact CoreT.Popped.refl _
    · rename_i e rest he
      have h1 : t.Popped { t with streams := FMap.put t.streams k { x with staged := rest, popped := x.popped + 1 } } :=
        ⟨rfl, fun _ _ => rfl, fun _ _ _ => rfl, fun j h => CoreT.bound_put t k j _ (by simp [hx]) h⟩
      have hs : ({ t with streams := FMap.put t.streams k { x with staged := rest, popped := x.popped + 1 } } : CoreT).bound k = some { x with staged := rest, popped := x.popped + 1 } := by
        generalize hy : ({ x with staged := rest, popped := x.popped + 1 } : Stream) = y
        have e1 : ({ t with streams := FMap.put t.streams k y } : CoreT).bound k = if t.inTrap || (t.fir1.isSome && k < 32) then none else FMap.find? (FMap.put t.streams k y) k := rfl
        have e2 : t.bound k = if t.inTrap || (t.fir1.isSome && k < 32) then none else FMap.find? t.streams k := rfl
        rw [e1, FMap.find_put_self]
        rw [e2] at hx
        split at hx
        · cases hx
        · rename_i hc; rw [if_neg hc]
      dsimp only
      split
      · rename_i hk
        refine h1.trans (CoreT.setG_popped _ _ _ ?_)
        have : (BitVec.ofNat 5 k).toNat = k := by simp; omega
        rw [this, hs]; rfl
      · rename_i hk
        refine h1.trans (CoreT.setV_popped _ _ _ ?_)
        rw [show 32 + (k - 32) = k by omega, hs]; rfl

theorem CoreT.foldl_popped {α : Type} (f : CoreT → α → CoreT) (hf : ∀ (t : CoreT) a, t.Popped (f t a)) (l : List α) (t : CoreT) :
    CoreT.Popped t (l.foldl f t) := by
  induction l generalizing t with
  | nil => exact CoreT.Popped.refl _
  | cons a l ih => exact (hf t a).trans (ih _)
/-- The pops of general registers, vector registers and streams, without the links. -/
def popT (u : Use) (t : CoreT) : CoreT :=
  (keysOf u.rg u.rv).dedup.foldl (fun t k => t.popKey k) (u.rg.foldl (fun t r => t.unpark r) t)

theorem popT_popped (u : Use) (t : CoreT) : t.Popped (popT u t) :=
  (CoreT.foldl_popped _ CoreT.unpark_popped _ _).trans (CoreT.foldl_popped _ CoreT.popKey_popped _ _)

/-- What the pops of an instruction and the strips that it pushes make of the open chunk (R132, R289), given the core as
it was. -/
def ChunkRel (k : Core) (ls : List Nat) (o : Option Chunk) : Prop :=
  (ls = [] ∧ o = k.chunk) ∨ (∃ ch, o = some ch ∧
    ch = { k.open' with ckpt := ch.ckpt, rd := ch.rd, push := ch.push } ∧ (k.chunk ≠ none → ch.ckpt = k.open'.ckpt) ∧
    (∀ l, l ∈ ch.rd ↔ l ∈ k.open'.rd ∨ l ∈ ls))

/-- The same tentative part as far as a new chunk looks at it. -/
theorem Core.newChunk_of {k : Core} {t : CoreT} {o : Option Chunk} (h : t.tr = k.t.tr) :
    ({ k with t := t, chunk := o } : Core).newChunk = { k.newChunk with ckpt := t } := by
  simp [Core.newChunk, h]

/-- A pushed strip keeps that relation. -/
theorem ChunkRel.push {k : Core} {ls : List Nat} {t : CoreT} {o : Option Chunk} (ht : t.tr = k.t.tr) (h : ChunkRel k ls o)
    (p : List (Bool × VReg)) :
    ChunkRel k ls (some { ({ k with t := t, chunk := o } : Core).open' with
      push := ({ k with t := t, chunk := o } : Core).open'.push ++ p }) := by
  obtain ⟨hl, rfl⟩ | ⟨ch, rfl, e1, e2, e3⟩ := h
  · refine .inr ⟨_, rfl, ?_, ?_, ?_⟩
    · unfold Core.open'
      cases hk : k.chunk with
      | some ch => simp
      | none => simp only []; rw [Core.newChunk_of ht]
    · intro hne
      unfold Core.open'
      cases hk : k.chunk with
      | some ch => rfl
      | none => exact absurd hk hne
    · intro l
      unfold Core.open'
      cases hk : k.chunk with
      | some ch => simp [hl]
      | none => simp only []; rw [Core.newChunk_of ht]; simp [hl]
  · refine .inr ⟨_, rfl, ?_, e2, e3⟩
    simp only [Core.open']
    rw [e1]; rfl

theorem State.notePops_t (s : State) (u) : (s.notePops u).t = s.t := by
  unfold State.notePops; split
  · rfl
  · exact State.withChunk_t _ _

theorem State.notePops_me (s : State) (u) : (s.notePops u).me = { s.me with chunk := (s.notePops u).me.chunk } := by
  unfold State.notePops; split
  · rfl
  · simp [State.noteLines]

/-- The lines of popped elements enter the read signature (R289). -/
theorem State.notePops_chunk (s : State) (u) : ChunkRel s.me (s.t.popLines u) (s.notePops u).me.chunk := by
  unfold State.notePops; split
  · rename_i h; exact .inl ⟨List.isEmpty_iff.1 h, rfl⟩
  · unfold State.noteLines
    rw [State.withChunk_me]
    refine .inr ⟨_, rfl, rfl, fun _ => rfl, fun l => ?_⟩
    simp only [List.mem_append, List.mem_filter, Bool.not_eq_true', List.contains_eq_mem, decide_eq_false_iff_not]
    tauto

theorem State.pushStrip_else (s : State) (w x) : ElsewhereSame s (s.pushStrip w x) := ⟨rfl, fun _ hc => State.withChunk_core_other _ _ _ hc⟩

theorem State.notePops_else (s : State) (u) : ElsewhereSame s (s.notePops u) := by
  unfold State.notePops; split
  · exact ⟨rfl, fun _ _ => rfl⟩
  · exact ⟨rfl, fun _ hc => State.withChunk_core_other _ _ _ hc⟩

theorem State.updT_else (s : State) (f) : ElsewhereSame s (s.updT f) := ⟨rfl, fun _ hc => State.updT_core_other _ _ _ hc⟩

theorem ElsewhereSame.trans {s t u : State} (a : ElsewhereSame s t) (b : ElsewhereSame t u) : ElsewhereSame s u := by
  obtain ⟨a1, a2⟩ := a; obtain ⟨b1, b2⟩ := b
  refine ⟨?_, ?_⟩
  · rw [b1, a1]
  · intro c hc
    have : t.cur = s.cur := by rw [a1]
    rw [b2 c (by rw [this]; exact hc), a2 c hc]

/-- The tentative part after an instruction's pops: registers, streams, parked bits and links. -/
def CoreT.popped (t : CoreT) (u : Use) : CoreT :=
  { popT u t with linkW := if u.west then (popT u t).linkW.drop 1 else (popT u t).linkW,
                  linkE := if u.east then (popT u t).linkE.drop 1 else (popT u t).linkE }

/-- The pops of an instruction, one after another. -/
theorem State.take_eq (s : State) (u : Use) : s.take u =
   let s' := (s.notePops u).updT fun t => t.popped u
   let s' := if u.fwd && u.west then s'.pushStrip false (s.t.linkW.headD VReg.zero) else s'
   if u.fwd && u.east then s'.pushStrip true (s.t.linkE.headD VReg.zero) else s' := rfl

theorem State.take_else (s : State) (u) : ElsewhereSame s (s.take u) := by
  rw [State.take_eq]; dsimp only
  have h := ElsewhereSame.trans (State.notePops_else s u) (State.updT_else _ fun t => t.popped u)
  split <;> split
  · exact ElsewhereSame.trans (ElsewhereSame.trans h (State.pushStrip_else _ _ _)) (State.pushStrip_else _ _ _)
  · exact ElsewhereSame.trans h (State.pushStrip_else _ _ _)
  · exact ElsewhereSame.trans h (State.pushStrip_else _ _ _)
  · exact h

theorem State.take_t (s : State) (u) : (s.take u).t = s.t.popped u := by
  rw [State.take_eq]; dsimp only
  split <;> split <;> simp [State.pushStrip, State.notePops_t]

theorem CoreT.popped_tr (t : CoreT) (u : Use) : (t.popped u).tr = t.tr := by
  have h := (popT_popped u t).1
  unfold CoreT.popped CoreT.tr
  rw [h]

/-- A core that differs from another one in its tentative part and its open chunk alone. -/
theorem State.pushStrip_me {s : State} {k : Core} {t : CoreT} {o : Option Chunk} (h : s.me = { k with t := t, chunk := o }) (w x) :
    (s.pushStrip w x).me = { k with t := t, chunk := some { ({ k with t := t, chunk := o } : Core).open' with
      push := ({ k with t := t, chunk := o } : Core).open'.push ++ [(w, x)] } } := by
  simp only [State.pushStrip, State.withChunk_me, h]

/-- What pops leave of the step's core: its tentative part changes as `popped` says, and its open chunk as R289 and R132
say. -/
theorem State.take_me (s : State) (u) : ∃ o, (s.take u).me = { s.me with t := s.t.popped u, chunk := o } ∧
    ChunkRel s.me (s.t.popLines u) o ∧ (u.fwd = false → s.t.popLines u = [] → o = s.me.chunk) := by
  have ht := CoreT.popped_tr s.t u
  have h0 := State.notePops_chunk s u
  have h1 : ((s.notePops u).updT fun t => t.popped u).me = { s.me with t := s.t.popped u, chunk := (s.notePops u).me.chunk } := by
    rw [State.updT_me, State.notePops_t, State.notePops_me]
  rw [State.take_eq]; dsimp only
  split <;> split
  · exact ⟨_, State.pushStrip_me (State.pushStrip_me h1 _ _) _ _, (h0.push ht _).push ht _, fun h => by simp_all⟩
  · exact ⟨_, State.pushStrip_me h1 _ _, h0.push ht _, fun h => by simp_all⟩
  · exact ⟨_, State.pushStrip_me h1 _ _, h0.push ht _, fun h => by simp_all⟩
  · exact ⟨_, h1, h0, fun _ h => by unfold State.notePops; simp [h]⟩

theorem State.gframe (s : State) (u d w) : GFrame u d s ((s.take u).setG d w) := by
  obtain ⟨h1, h2, h3, h4⟩ := popT_popped u s.t
  obtain ⟨o, ho, hrel, hsame⟩ := State.take_me s u
  have hme : ((s.take u).setG d w).me = { s.me with t := (s.t.popped u).setG d w, chunk := o } := by
    simp only [State.setG, State.updT_me, ho, State.take_t]
  have ht : ((s.take u).setG d w).t = (s.t.popped u).setG d w := by rw [State.setG_t, State.take_t]
  refine ⟨ElsewhereSame.trans (State.take_else s u) (State.updT_else _ _), ?_, ?_, ?_, ?_, ?_, ?_, ?_, ?_, ?_⟩
  · intro a; unfold State.byte; rw [State.setG_mem]; rw [(State.take_else s u).1]
  · rw [ht, hme]
  · unfold ChunkSame; rw [hme]; exact hrel
  · intro hf hp; rw [hme]; exact hsame hf hp
  · rw [ht]
    unfold CoreT.popped
    generalize (if u.west then (popT u s.t).linkW.drop 1 else (popT u s.t).linkW) = a
    generalize (if u.east then (popT u s.t).linkE.drop 1 else (popT u s.t).linkE) = b
    unfold CoreT.setG
    split
    · dsimp only; rw [h1]
    · split <;> (dsimp only; rw [h1])
  · intro q hq hb
    rw [ht, CoreT.setG_g_other _ _ _ _ hq]
    exact h2 q hb
  · intro n hn hb
    simp only [ht, CoreT.setG_v]
    exact h3 n hn hb
  · intro hw; simp only [ht, CoreT.setG_linkW, CoreT.popped, hw]; rw [h1]; rfl
  · intro hw; simp only [ht, CoreT.setG_linkE, CoreT.popped, hw]; rw [h1]; rfl

theorem State.putV_else (s : State) (d x) : ElsewhereSame s (s.putV d x) := by
  unfold State.putV; split
  · exact State.pushStrip_else _ _ _
  · split
    · exact State.pushStrip_else _ _ _
    · exact State.updT_else _ _

theorem State.pushStrip_chunk (s : State) (w x) : ∃ ch, (s.pushStrip w x).me.chunk = some ch ∧ ch = { s.me.open' with push := ch.push } := ⟨_, by simp [State.pushStrip]; rfl, rfl⟩

end Sys2Proof.Machine
end

