-- ==== Sys2Proof/Tests/Slice0.lean ====
section
/-! SUPPORT. Tests of the model: every word of the opcode table decoded, the ill-formed terms that WellFormed refuses, one step of
single instructions with results worked out from the entries, and for each statement a state that meets its hypotheses. -/
namespace Sys2Proof.Tests
open Sys2Proof Sys2Proof.Machine

/-- A page of 64 KB for partition 0. -/
def page (va base : Nat) (io : Bool) : Tlb := ⟨0, va, ⟨base, 16, 0, io, true, true, true, true⟩⟩

/-- The pages of the tests: the scratchpad of core 0, its window 1, the counters, the I/O region, HBM, the scratchpads
of core 1 and of die 0. -/
def pages : List Tlb :=
  [page 0x200000 (padOfCore 0) false, page 0x210000 0x100000100000 false, page 0x300000 0x400000000000 false,
   page 0x400000 0x500000000000 true, page 0x500000 0 false, page 0x600000 (padOfCore 1) false, page 0x700000 (padOfDie 0) false]

/-- Core 0 runs a user firing, with those pages in its TLB and its cluster's. -/
def demo : State :=
  ((State.reset.withFetchWord 32 0).updCore 0 fun k => { k with tlb := pages }).updCluster 0 fun k => { k with tlb := pages }

/-- A general register takes a number. -/
def setR (s : State) (r : Reg) (n : Nat) : State := s.updT fun t => t.setG r (word n)

/-- A vector register takes the same lane everywhere. -/
def setL (s : State) (n : Nat) (x : Nat) : State := s.updT fun t => t.setV n (Vector.replicate 16 (BitVec.ofNat 32 x))

/-- Committed bytes of the scratchpad of core 0. -/
def setB (s : State) (off : Nat) (bs : List Byte) : State :=
  s.poke ((List.zip (span (padOfCore 0 + off) bs.length) bs).map fun p => (p.1, 0xFF#8, p.2))

/-- A system register of level 0 changes. -/
def setTr (s : State) (f : TrapRegs → TrapRegs) : State := s.updT fun t => { t with tr0 := f t.tr0 }

/-- The firing in supervisor mode. -/
def sup (s : State) : State := setTr s fun r => { r with xstat := 1 }

/-- The firing of level 0 changes. -/
def setF (s : State) (f : Firing → Firing) : State := s.updT fun t => { t with fir0 := t.fir0.map f }

/-- Does the outcome have a next state that satisfies a test? -/
def nextIs (o : Host.Outcome State Fault Refusal) (p : State → Bool) : Bool := match o with | .next t => p t | _ => false

/-- Does a result exist that satisfies a test? -/
def okIs {ε α : Type} (r : Except ε α) (p : α → Bool) : Bool := match r with | .ok x => p x | .error _ => false

theorem ok_of {ε α : Type} {r : Except ε α} {p : α → Bool} (h : okIs r p = true) : ∃ x, r = .ok x ∧ p x = true := by
  cases r with
  | ok x => exact ⟨x, rfl, h⟩
  | error _ => cases h

theorem some_of {α : Type} {r : Option α} {p : α → Bool} (h : r.any p = true) : ∃ x, r = some x ∧ p x = true := by
  cases r with
  | some x => exact ⟨x, rfl, h⟩
  | none => cases h

/-- Does a result fail with an error that satisfies a test? -/
def errIs {ε α : Type} (r : Except ε α) (p : ε → Bool) : Bool := match r with | .ok _ => false | .error e => p e

theorem test_decode_major_01 :
    decodeWord 0x021FFFF0#32 = .ok (.jal 1#5 1048560#20) ∧
    decodeWord 0x020FFFF0#32 = .ok (.j 1048560#20) := by decide

theorem test_decode_major_02 :
    decodeWord 0x04428FFD#32 = .ok (.beq 4#5 5#5 4093#12) ∧
    decodeWord 0x04429FFD#32 = .ok (.bne 4#5 5#5 4093#12) ∧
    decodeWord 0x0442AFFD#32 = .ok (.blt 4#5 5#5 4093#12) ∧
    decodeWord 0x0442BFFD#32 = .ok (.bge 4#5 5#5 4093#12) ∧
    decodeWord 0x0442CFFD#32 = .ok (.bltu 4#5 5#5 4093#12) ∧
    decodeWord 0x0442DFFD#32 = .ok (.bgeu 4#5 5#5 4093#12) := by decide

theorem test_decode_major_03 :
    decodeWord 0x06321FFC#32 = .ok (.jalr 3#5 4#5 8188#13) ∧
    decodeWord 0x06021FFC#32 = .ok (.jr 4#5 8188#13) ∧
    decodeWord 0x06323FFC#32 = .ok (.loop 3#5 4#5 8188#13) := by decide

theorem test_decode_major_04 :
    decodeWord 0x88320808#32 = .ok (.ldB 3#5 4#5 2056#12) ∧
    decodeWord 0x88321808#32 = .ok (.ldBu 3#5 4#5 2056#12) ∧
    decodeWord 0x88322808#32 = .ok (.ldH 3#5 4#5 2056#12) ∧
    decodeWord 0x88323808#32 = .ok (.ldHu 3#5 4#5 2056#12) ∧
    decodeWord 0x88324808#32 = .ok (.ldW 3#5 4#5 2056#12) ∧
    decodeWord 0x88325808#32 = .ok (.ldWu 3#5 4#5 2056#12) ∧
    decodeWord 0x88326808#32 = .ok (.ldD 3#5 4#5 2056#12) := by decide

theorem test_decode_major_05 :
    decodeWord 0x0A320808#32 = .ok (.stB 3#5 4#5 2056#12) ∧
    decodeWord 0x0A322808#32 = .ok (.stH 3#5 4#5 2056#12) ∧
    decodeWord 0x0A324808#32 = .ok (.stW 3#5 4#5 2056#12) ∧
    decodeWord 0x0A326808#32 = .ok (.stD 3#5 4#5 2056#12) := by decide

theorem test_decode_major_06 :
    decodeWord 0x0C321400#32 = .ok (.ldxB 3#5 4#5 5#5) ∧
    decodeWord 0x0C321401#32 = .ok (.ldxBu 3#5 4#5 5#5) ∧
    decodeWord 0x0C321402#32 = .ok (.ldxH 3#5 4#5 5#5) ∧
    decodeWord 0x0C321403#32 = .ok (.ldxHu 3#5 4#5 5#5) ∧
    decodeWord 0x0C321404#32 = .ok (.ldxW 3#5 4#5 5#5) ∧
    decodeWord 0x0C321405#32 = .ok (.ldxWu 3#5 4#5 5#5) ∧
    decodeWord 0x0C321406#32 = .ok (.ldxD 3#5 4#5 5#5) ∧
    decodeWord 0x0C321410#32 = .ok (.stxB 3#5 4#5 5#5) ∧
    decodeWord 0x0C321412#32 = .ok (.stxH 3#5 4#5 5#5) ∧
    decodeWord 0x0C321414#32 = .ok (.stxW 3#5 4#5 5#5) ∧
    decodeWord 0x0C321416#32 = .ok (.stxD 3#5 4#5 5#5) := by decide

theorem test_decode_major_07 :
    decodeWord 0x0E320808#32 = .ok (.vld 3#5 4#5 2056#12) ∧
    decodeWord 0x0E321808#32 = .ok (.vst 3#5 4#5 2056#12) ∧
    decodeWord 0x0E322808#32 = .ok (.vldt 3#5 4#5 2056#12) := by decide

theorem test_decode_major_08 :
    decodeWord 0x10321400#32 = .ok (.tmov 3#5 4#5 5#5) := by decide

theorem test_decode_major_09 :
    decodeWord 0x12321410#32 = .ok (.amoadd 3#5 4#5 5#5 1#1 0#1) ∧
    decodeWord 0x12321411#32 = .ok (.amofadd 3#5 4#5 5#5 1#1) ∧
    decodeWord 0x1232140A#32 = .ok (.amoswp 3#5 4#5 5#5 0#1 1#1) ∧
    decodeWord 0x123214D3#32 = .ok (.amocas 3#5 4#5 5#5 6#5 1#1 0#1) ∧
    decodeWord 0x12321414#32 = .ok (.amomin 3#5 4#5 5#5 1#1 0#1) ∧
    decodeWord 0x1232140D#32 = .ok (.amomax 3#5 4#5 5#5 0#1 1#1) := by decide

theorem test_decode_major_0a :
    decodeWord 0x14000860#32 = .ok (.fence 67#7) ∧
    decodeWord 0x14000001#32 = .ok .chend := by decide

theorem test_decode_major_0b :
    decodeWord 0x16029280#32 = .ok (.mbinc 5#5 37#6) ∧
    decodeWord 0x1608B280#32 = .ok (.mbincImm 17#5 37#6) ∧
    decodeWord 0x1642C000#32 = .ok (.mbincGlobal 4#5 5#5) ∧
    decodeWord 0x1648E000#32 = .ok (.mbincGlobalImm 4#5 17#5) ∧
    decodeWord 0x16324A01#32 = .ok (.mbwait 3#5 4#5 37#6) ∧
    decodeWord 0x16304A02#32 = .ok (.mbrd 3#5 37#6) ∧
    decodeWord 0x16024A03#32 = .ok (.mbset 4#5 37#6) ∧
    decodeWord 0x16304A04#32 = .ok (.mberr 3#5 37#6) ∧
    decodeWord 0x16304B04#32 = .ok (.mberrC 3#5 37#6) := by decide

theorem test_decode_major_0c :
    decodeWord 0x18021400#32 = .ok (.barInit 4#5 5#5) ∧
    decodeWord 0x18321401#32 = .ok (.barArv 3#5 4#5 5#5) ∧
    decodeWord 0x18321402#32 = .ok (.barDrop 3#5 4#5 5#5) ∧
    decodeWord 0x18321403#32 = .ok (.barWait 3#5 4#5 5#5) := by decide

theorem test_decode_major_0d :
    decodeWord 0x1A324000#32 = .ok (.cpy 3#5 4#5 2#2) ∧
    decodeWord 0x1A324001#32 = .ok (.cpy3 3#5 4#5 2#2) ∧
    decodeWord 0x1A324002#32 = .ok (.cwait 3#5 4#5 2#2) ∧
    decodeWord 0x1A304003#32 = .ok (.cstat 3#5 2#2) ∧
    decodeWord 0x1A305003#32 = .ok (.cstatC 3#5 2#2) ∧
    decodeWord 0x1A320004#32 = .ok (.perm 3#5 4#5) := by decide

theorem test_decode_major_0e :
    decodeWord 0x1C220000#32 = .ok (.rkset 2#5 4#5) ∧
    decodeWord 0x1C242001#32 = .ok (.rkwf 2#5 33#7) ∧
    decodeWord 0x1C242002#32 = .ok (.rkws 2#5 33#7) ∧
    decodeWord 0x1C243003#32 = .ok (.rkadv 2#5 33#7 1#1) ∧
    decodeWord 0x1C314004#32 = .ok (.rkrd 3#5 2#5 2#2) ∧
    decodeWord 0x1D920005#32 = .ok (.stbind 25#5 4#5 0#1) ∧
    decodeWord 0x1D900006#32 = .ok (.stunb 25#5 0#1) ∧
    decodeWord 0x1C020007#32 = .ok (.park 4#5) ∧
    decodeWord 0x1C020008#32 = .ok (.unpark 4#5) := by decide

theorem test_decode_major_0f :
    decodeWord 0x1E300000#32 = .ok (.mzero 3#5) ∧
    decodeWord 0x1E320001#32 = .ok (.mown 3#5 4#5) ∧
    decodeWord 0x1E020002#32 = .ok (.mfree 4#5) ∧
    decodeWord 0x1E321403#32 = .ok (.mma 3#5 4#5 5#5) ∧
    decodeWord 0x1E321404#32 = .ok (.mmar 3#5 4#5 5#5) ∧
    decodeWord 0x1E321604#32 = .ok (.mmarAk 3#5 4#5 5#5) ∧
    decodeWord 0x1E3214C5#32 = .ok (.mmag 3#5 4#5 5#5 6#5) ∧
    decodeWord 0x1E320006#32 = .ok (.mldc 3#5 4#5) ∧
    decodeWord 0x1E720007#32 = .ok (.mdrain 7#5 4#5) ∧
    decodeWord 0x1E71DC07#32 = .ok (.mdrainReg 7#5 3#5 11#4) ∧
    decodeWord 0x1E320008#32 = .ok (.mpar 3#5 4#5) ∧
    decodeWord 0x1E720009#32 = .ok (.msave 7#5 4#5) ∧
    decodeWord 0x1E32000A#32 = .ok (.mrest 3#5 4#5) ∧
    decodeWord 0x1E33800B#32 = .ok (.mstat 3#5 7#5) := by decide

theorem test_decode_major_0f_2 :
    decodeWord 0x1E33C00B#32 = .ok (.mstatC 3#5 7#5) ∧
    decodeWord 0x1E32000C#32 = .ok (.mwait 3#5 4#5) := by decide

theorem test_decode_major_10 :
    decodeWord 0x20024B00#32 = .ok (.gauge 4#5 37#6 2#2) ∧
    decodeWord 0x20325281#32 = .ok (.kmma 3#5 4#5 165#8) ∧
    decodeWord 0x20338002#32 = .ok (.kvar 3#5 7#5) ∧
    decodeWord 0x20338003#32 = .ok (.kstat 3#5 7#5) ∧
    decodeWord 0x20520004#32 = .ok (.seedw 5#5 4#5) ∧
    decodeWord 0x20328005#32 = .ok (.seedr 3#5 5#5) := by decide

theorem test_decode_major_11 :
    decodeWord 0x22320000#32 = .ok (.mqdef 3#5 4#5) ∧
    decodeWord 0x223218A1#32 = .ok (.mqld 3#5 4#5 6#5 5#5) ∧
    decodeWord 0x223218A2#32 = .ok (.mqsc 3#5 4#5 6#5 5#5) ∧
    decodeWord 0x220200A3#32 = .ok (.mqz 4#5 5#5) ∧
    decodeWord 0x223200A4#32 = .ok (.mqstat 3#5 4#5 5#5) := by decide

theorem test_decode_major_12 :
    decodeWord 0x2446D000#32 = .ok (.send 4#5 6#4 1#1 5#3) ∧
    decodeWord 0x244298C1#32 = .ok (.sendp 4#5 5#5 6#5 6#4) ∧
    decodeWord 0x24428002#32 = .ok (.hop 4#5 5#5) ∧
    decodeWord 0x24318006#32 = .ok (.kilnrd 3#5 3#5) ∧
    decodeWord 0x24000003#32 = .ok .done ∧
    decodeWord 0x24000004#32 = .ok .maskon ∧
    decodeWord 0x24000005#32 = .ok .maskoff := by decide

theorem test_decode_major_13 :
    decodeWord 0x26428000#32 = .ok (.launch 4#5 5#5) ∧
    decodeWord 0x26429801#32 = .ok (.launchi 4#5 5#5 6#5) ∧
    decodeWord 0x26320003#32 = .ok (.actnew 3#5 4#5) ∧
    decodeWord 0x26320005#32 = .ok (.lchstat 3#5 4#5) ∧
    decodeWord 0x26000002#32 = .ok .step ∧
    decodeWord 0x26000004#32 = .ok .actend := by decide

theorem test_decode_major_14 :
    decodeWord 0x28220000#32 = .ok (.rkpred 2#5 4#5) ∧
    decodeWord 0x28220001#32 = .ok (.dfit 2#5 4#5) ∧
    decodeWord 0x28220002#32 = .ok (.dftol 2#5 4#5) ∧
    decodeWord 0x28310003#32 = .ok (.dfstat 3#5 2#5) ∧
    decodeWord 0x28020004#32 = .ok (.ordt 4#5) ∧
    decodeWord 0x28302004#32 = .ok (.ordtReadNext 3#5) ∧
    decodeWord 0x28024004#32 = .ok (.ordtSetNext 4#5) ∧
    decodeWord 0x28306004#32 = .ok (.ordtReadT 3#5) ∧
    decodeWord 0x2842B005#32 = .ok (.ordsend 4#5 5#5 6#4) := by decide

theorem test_decode_major_15 :
    decodeWord 0x2A324A00#32 = .ok (.dvcfg 3#5 4#5 37#6) ∧
    decodeWord 0x2A320001#32 = .ok (.dvinj 3#5 4#5) ∧
    decodeWord 0x2A300002#32 = .ok (.dvext 3#5) ∧
    decodeWord 0x2A304A03#32 = .ok (.dvstat 3#5 37#6) ∧
    decodeWord 0x2A304B03#32 = .ok (.dvstatC 3#5 37#6) ∧
    decodeWord 0x2A324A04#32 = .ok (.xpost 3#5 4#5 37#6) ∧
    decodeWord 0x2A320005#32 = .ok (.xsend 3#5 4#5) ∧
    decodeWord 0x2A320006#32 = .ok (.xcc 3#5 4#5) := by decide

theorem test_decode_major_16 :
    decodeWord 0x2C1000A0#32 = .ok (.trap 32773#16) ∧
    decodeWord 0x2C1000A2#32 = .ok (.brk 32773#16) ∧
    decodeWord 0x2C320003#32 = .ok (.wfi 3#5 4#5) ∧
    decodeWord 0x2C302104#32 = .ok (.csrrd 3#5 33#12) ∧
    decodeWord 0x2C302105#32 = .ok (.csrwr 3#5 33#12) ∧
    decodeWord 0x2C302106#32 = .ok (.csrsw 3#5 33#12) ∧
    decodeWord 0x2C321407#32 = .ok (.ctxsave 3#5 4#5 5#5) ∧
    decodeWord 0x2C321408#32 = .ok (.ctxrest 3#5 4#5 5#5) ∧
    decodeWord 0x2C321608#32 = .ok (.ctxrestAny 3#5 4#5 5#5) ∧
    decodeWord 0x2C321409#32 = .ok (.watch 3#5 4#5 5#5) ∧
    decodeWord 0x2C32140A#32 = .ok (.winset 3#5 4#5 5#5) ∧
    decodeWord 0x2C32020A#32 = .ok (.winsetRead 3#5 4#5) ∧
    decodeWord 0x2C32000B#32 = .ok (.probe 3#5 4#5) ∧
    decodeWord 0x2C02400C#32 = .ok (.tlbi 4#5 2#2) := by decide

theorem test_decode_major_16_2 :
    decodeWord 0x2C32140D#32 = .ok (.hnew 3#5 4#5 5#5) ∧
    decodeWord 0x2C32000E#32 = .ok (.hrev 3#5 4#5) ∧
    decodeWord 0x2C32000F#32 = .ok (.hchk 3#5 4#5) ∧
    decodeWord 0x2C000001#32 = .ok .xret ∧
    decodeWord 0x2C000021#32 = .ok .xretK := by decide

theorem test_decode_major_20 :
    decodeWord 0x40321400#32 = .ok (.add 3#5 4#5 5#5) ∧
    decodeWord 0x40321401#32 = .ok (.sub 3#5 4#5 5#5) ∧
    decodeWord 0x40321402#32 = .ok (.and 3#5 4#5 5#5) ∧
    decodeWord 0x40321403#32 = .ok (.or 3#5 4#5 5#5) ∧
    decodeWord 0x40321404#32 = .ok (.xor 3#5 4#5 5#5) ∧
    decodeWord 0x40321405#32 = .ok (.sll 3#5 4#5 5#5) ∧
    decodeWord 0x40321406#32 = .ok (.srl 3#5 4#5 5#5) ∧
    decodeWord 0x40321407#32 = .ok (.sra 3#5 4#5 5#5) ∧
    decodeWord 0x40321408#32 = .ok (.slt 3#5 4#5 5#5) ∧
    decodeWord 0x40321409#32 = .ok (.sltu 3#5 4#5 5#5) ∧
    decodeWord 0x4032140A#32 = .ok (.mul 3#5 4#5 5#5) ∧
    decodeWord 0x4032140B#32 = .ok (.mulh 3#5 4#5 5#5) ∧
    decodeWord 0x4032140C#32 = .ok (.mulhu 3#5 4#5 5#5) ∧
    decodeWord 0x4032140D#32 = .ok (.div 3#5 4#5 5#5) := by decide

theorem test_decode_major_20_2 :
    decodeWord 0x4032140E#32 = .ok (.divu 3#5 4#5 5#5) ∧
    decodeWord 0x4032140F#32 = .ok (.rem 3#5 4#5 5#5) ∧
    decodeWord 0x40321410#32 = .ok (.remu 3#5 4#5 5#5) ∧
    decodeWord 0x40321411#32 = .ok (.min 3#5 4#5 5#5) ∧
    decodeWord 0x40321412#32 = .ok (.max 3#5 4#5 5#5) ∧
    decodeWord 0x40321413#32 = .ok (.minu 3#5 4#5 5#5) ∧
    decodeWord 0x40321414#32 = .ok (.maxu 3#5 4#5 5#5) ∧
    decodeWord 0x40320015#32 = .ok (.clz 3#5 4#5) ∧
    decodeWord 0x40320016#32 = .ok (.ctz 3#5 4#5) ∧
    decodeWord 0x40320017#32 = .ok (.popc 3#5 4#5) ∧
    decodeWord 0x40321418#32 = .ok (.andn 3#5 4#5 5#5) := by decide

theorem test_decode_major_21 :
    decodeWord 0x42327FF8#32 = .ok (.addi 3#5 4#5 32760#15) := by decide

theorem test_decode_major_22 :
    decodeWord 0x44327FF8#32 = .ok (.andi 3#5 4#5 32760#15) := by decide

theorem test_decode_major_23 :
    decodeWord 0x46327FF8#32 = .ok (.ori 3#5 4#5 32760#15) := by decide

theorem test_decode_major_24 :
    decodeWord 0x48327FF8#32 = .ok (.xori 3#5 4#5 32760#15) := by decide

theorem test_decode_major_25 :
    decodeWord 0x4A32002D#32 = .ok (.slli 3#5 4#5 45#6) ∧
    decodeWord 0x4A32006D#32 = .ok (.srli 3#5 4#5 45#6) ∧
    decodeWord 0x4A3200AD#32 = .ok (.srai 3#5 4#5 45#6) := by decide

theorem test_decode_major_26 :
    decodeWord 0x4C323FF8#32 = .ok (.slti 3#5 4#5 16376#14) ∧
    decodeWord 0x4C327FF8#32 = .ok (.sltiu 3#5 4#5 16376#14) := by decide

theorem test_decode_major_27 :
    decodeWord 0x4E38FFFF#32 = .ok (.li 3#5 589823#20) := by decide

theorem test_decode_major_28 :
    decodeWord 0x5038FFFF#32 = .ok (.lih 3#5 589823#20) := by decide

theorem test_decode_major_29 :
    decodeWord 0x52321405#32 = .ok (.lea 3#5 4#5 5#5 5#3) := by decide

theorem test_decode_major_2a :
    decodeWord 0x54322340#32 = .ok (.bfx 3#5 4#5 17#6 40#6) ∧
    decodeWord 0x54322341#32 = .ok (.bfxu 3#5 4#5 17#6 40#6) ∧
    decodeWord 0x54322342#32 = .ok (.bfi 3#5 4#5 17#6 40#6) := by decide

theorem test_decode_major_2b :
    decodeWord 0x563214C0#32 = .ok (.sel 3#5 4#5 5#5 6#5) := by decide

theorem test_decode_major_2c :
    decodeWord 0x58321400#32 = .ok (.fadd 3#5 4#5 5#5) ∧
    decodeWord 0x58321401#32 = .ok (.fsub 3#5 4#5 5#5) ∧
    decodeWord 0x58321402#32 = .ok (.fmul 3#5 4#5 5#5) ∧
    decodeWord 0x58321403#32 = .ok (.fdiv 3#5 4#5 5#5) ∧
    decodeWord 0x58320004#32 = .ok (.fsqrt 3#5 4#5) ∧
    decodeWord 0x58321405#32 = .ok (.fmin 3#5 4#5 5#5) ∧
    decodeWord 0x58321406#32 = .ok (.fmax 3#5 4#5 5#5) ∧
    decodeWord 0x58321407#32 = .ok (.feq 3#5 4#5 5#5) ∧
    decodeWord 0x58321408#32 = .ok (.flt 3#5 4#5 5#5) ∧
    decodeWord 0x58321409#32 = .ok (.fle 3#5 4#5 5#5) ∧
    decodeWord 0x5832000A#32 = .ok (.fabs 3#5 4#5) ∧
    decodeWord 0x5832000B#32 = .ok (.fneg 3#5 4#5) ∧
    decodeWord 0x5832000C#32 = .ok (.ftoi 3#5 4#5) ∧
    decodeWord 0x5832000D#32 = .ok (.ftoiu 3#5 4#5) := by decide

theorem test_decode_major_2c_2 :
    decodeWord 0x5832000E#32 = .ok (.itof 3#5 4#5) ∧
    decodeWord 0x5832000F#32 = .ok (.itofu 3#5 4#5) ∧
    decodeWord 0x58320010#32 = .ok (.fclass 3#5 4#5) := by decide

theorem test_decode_major_2d :
    decodeWord 0x5A3214C0#32 = .ok (.fmadd 3#5 4#5 5#5 6#5) ∧
    decodeWord 0x5A3214C1#32 = .ok (.fmsub 3#5 4#5 5#5 6#5) ∧
    decodeWord 0x5A3214C2#32 = .ok (.fnmadd 3#5 4#5 5#5 6#5) ∧
    decodeWord 0x5A3214C3#32 = .ok (.fnmsub 3#5 4#5 5#5 6#5) := by decide

theorem test_decode_major_2e :
    decodeWord 0x5C389600#32 = .ok (.vadd 3#5 17#5 5#5 1#1) ∧
    decodeWord 0x5C389601#32 = .ok (.vsub 3#5 17#5 5#5 1#1) ∧
    decodeWord 0x5C389602#32 = .ok (.vmul 3#5 17#5 5#5 1#1) ∧
    decodeWord 0x5C389603#32 = .ok (.vmin 3#5 17#5 5#5 1#1) ∧
    decodeWord 0x5C389604#32 = .ok (.vmax 3#5 17#5 5#5 1#1) ∧
    decodeWord 0x5C388205#32 = .ok (.vabs 3#5 17#5 1#1) ∧
    decodeWord 0x5C388206#32 = .ok (.vneg 3#5 17#5 1#1) ∧
    decodeWord 0x5C389607#32 = .ok (.vand 3#5 17#5 5#5 1#1) ∧
    decodeWord 0x5C389608#32 = .ok (.vor 3#5 17#5 5#5 1#1) ∧
    decodeWord 0x5C389609#32 = .ok (.vxor 3#5 17#5 5#5 1#1) ∧
    decodeWord 0x5C38960A#32 = .ok (.viadd 3#5 17#5 5#5 1#1) ∧
    decodeWord 0x5C38960B#32 = .ok (.visub 3#5 17#5 5#5 1#1) ∧
    decodeWord 0x5C38960C#32 = .ok (.vimul 3#5 17#5 5#5 1#1) ∧
    decodeWord 0x5C38960D#32 = .ok (.vceq 3#5 17#5 5#5 1#1) := by decide

theorem test_decode_major_2e_2 :
    decodeWord 0x5C38960E#32 = .ok (.vclt 3#5 17#5 5#5 1#1) ∧
    decodeWord 0x5C38960F#32 = .ok (.vcle 3#5 17#5 5#5 1#1) := by decide

theorem test_decode_major_2f :
    decodeWord 0x5E3894D0#32 = .ok (.vfma 3#5 17#5 5#5 6#5 1#1) ∧
    decodeWord 0x5E3894D1#32 = .ok (.vfms 3#5 17#5 5#5 6#5 1#1) ∧
    decodeWord 0x5E3894D2#32 = .ok (.vfnma 3#5 17#5 5#5 6#5 1#1) ∧
    decodeWord 0x5E3894D3#32 = .ok (.vfnms 3#5 17#5 5#5 6#5 1#1) ∧
    decodeWord 0x5E3894D4#32 = .ok (.vsel 3#5 17#5 5#5 6#5 1#1) := by decide

theorem test_decode_major_30 :
    decodeWord 0x60389E00#32 = .ok (.vpack 3#5 17#5 7#5 1#1) ∧
    decodeWord 0x60389E01#32 = .ok (.vunpk 3#5 17#5 7#5 1#1) ∧
    decodeWord 0x60388202#32 = .ok (.vitof 3#5 17#5 1#1) ∧
    decodeWord 0x60388203#32 = .ok (.vftoi 3#5 17#5 1#1) ∧
    decodeWord 0x60389604#32 = .ok (.vperm 3#5 17#5 5#5 1#1) ∧
    decodeWord 0x6038A605#32 = .ok (.vrot 3#5 17#5 9#5 1#1) ∧
    decodeWord 0x60388206#32 = .ok (.vrsum 3#5 17#5 1#1) ∧
    decodeWord 0x60388207#32 = .ok (.vrmax 3#5 17#5 1#1) ∧
    decodeWord 0x60388208#32 = .ok (.vrmin 3#5 17#5 1#1) ∧
    decodeWord 0x60388209#32 = .ok (.vrcpe 3#5 17#5 1#1) ∧
    decodeWord 0x6038820A#32 = .ok (.vrsqe 3#5 17#5 1#1) ∧
    decodeWord 0x6032000B#32 = .ok (.vbcast 3#5 4#5) ∧
    decodeWord 0x6032240C#32 = .ok (.vins 3#5 4#5 9#5) ∧
    decodeWord 0x6038A60D#32 = .ok (.vext 3#5 17#5 9#5 1#1) := by decide

theorem test_decode_major_30_2 :
    decodeWord 0x6032180E#32 = .ok (.gcomp 3#5 4#5 6#5) := by decide

/-! ### WellFormed: an ill-formed term for each check, which the check refuses -/

theorem test_wf_control : ([.jal 0 5, .jalr 0 4 0] : List Instr).all (fun i => !i.wellFormed) = true := by decide
theorem test_wf_vectorMemory : ([.vld 18 4 0, .vst 18 4 0, .vldt 31 4 0] : List Instr).all (fun i => !i.wellFormed) = true := by decide
theorem test_wf_mailbox : ([.mbincImm 0 4, .mbincGlobalImm 4 0] : List Instr).all (fun i => !i.wellFormed) = true := by decide
theorem test_wf_racks : ([.rkset 16 4, .rkwf 16 1, .rkws 31 1, .rkwf 0 65, .rkws 0 65, .rkadv 0 0 0, .rkadv 0 65 1, .rkadv 16 1 0,
    .rkrd 3 16 0, .rkpred 16 4, .dfit 16 4, .dftol 16 4, .dfstat 3 16] : List Instr).all (fun i => !i.wellFormed) = true := by decide
theorem test_wf_streams : ([.stbind 23 4 0, .stunb 0 0, .stbind 11 4 1, .stunb 16 1] : List Instr).all (fun i => !i.wellFormed) = true := by decide
theorem test_wf_matrix : ([.mmar 0 0 18, .mmarAk 0 18 1, .mmarAk 0 1 18, .mmag 0 0 18 0, .mdrainReg 0 18 0, .gauge 3 0 0, .kmma 0 0 0] :
    List Instr).all (fun i => !i.wellFormed) = true := by decide
theorem test_wf_seeds_marquetry : ([.seedw 8 4, .seedr 3 8, .mqld 16 4 1 0, .mqld 1 4 17 0, .mqsc 16 4 1 0, .mqsc 1 4 16 0] : List Instr).all
    (fun i => !i.wellFormed) = true := by decide
theorem test_wf_messages : ([.send 4 8 1 0, .send 4 15 0 1, .sendp 4 5 6 14, .ordsend 4 5 8, .kilnrd 3 4, .dvext 16] : List Instr).all
    (fun i => !i.wellFormed) = true := by decide
theorem test_wf_system : ([.csrrd 3 0x006, .csrwr 3 0x051, .csrsw 3 0xFFF, .tlbi 0 3, .tlbi 4 1] : List Instr).all
    (fun i => !i.wellFormed) = true := by decide
theorem test_wf_bitfields : ([.bfx 3 4 1 63, .bfxu 3 4 63 1, .bfi 3 4 32 32] : List Instr).all (fun i => !i.wellFormed) = true := by decide
theorem test_wf_vectorFields : ([.vadd 18 1 2 0, .vsub 1 18 2 0, .vmul 1 2 18 0, .vfma 1 2 3 18 0, .vsel 18 1 2 3 0, .vabs 1 31 0, .vrsum 3 18 0,
    .vbcast 18 4, .vperm 1 2 18 0] : List Instr).all (fun i => !i.wellFormed) = true := by decide
/-- FWD without a link among the operands that are read. -/
theorem test_wf_forward : ([.vadd 16 1 2 1, .vneg 17 1 1, .vfms 16 1 2 3 1, .vrmax 3 1 1, .vext 3 1 2 1] : List Instr).all
    (fun i => !i.wellFormed) = true := by decide
theorem test_wf_lanes : ([.vpack 1 2 12 0, .vunpk 1 2 31 0, .vrot 1 2 16 0, .vins 16 4 1, .vins 1 4 16, .vext 3 1 17 0] : List Instr).all
    (fun i => !i.wellFormed) = true := by decide
theorem test_wf_gcomp : ([.gcomp 16 2 4, .gcomp 1 3 4, .gcomp 1 2 5, .gcomp 4 2 4, .gcomp 5 2 4] : List Instr).all
    (fun i => !i.wellFormed) = true := by decide
/-- Words that R51 steps 1 and 2 refuse, by the cause they give: major 0, SUB5 2 of FENCE, a reserved bit of CHEND, a third operand
of CLZ, an undefined vector field, GAUGE's selector 3, FWD without a link, an undefined system register. -/
theorem test_decode_refuses :
    decodeWord 0#32 = .error .illegalOp ∧ decodeWord 0x14000002#32 = .error .illegalOp ∧ isReserved (decodeWord 0x14000021#32) = true ∧
    isReserved (decodeWord (encode (.clz 3 4) ||| 0x400#32)) = true ∧ decodeWord (encode (.vadd 18 1 2 0)) = .error .illegalOp ∧
    decodeWord (encode (.gauge 3 0 0)) = .error .illegalOp ∧ isReserved (decodeWord (encode (.vadd 16 1 2 1))) = true ∧
    decodeWord (encode (.csrrd 3 0x006)) = .error .illegalOp := by decide

/-- The shortest round trips through bytes: the first byte of a word is its least significant (R7, R42). -/
theorem test_decode_bytes : (decodeBytes [0x01#8, 0x00#8, 0x00#8, 0x14#8, 0xAA#8]).toOption = some (.chend, [0xAA#8]) := by decide

/-! ### One step each: results worked out by hand from the entries -/

/-- The general register after the instruction. -/
def gives (i : Instr) (s : State) (r : Reg) (x : Nat) : Bool := nextIs (exec i s) fun t => decide (t.gIn r = word x)

/-- A lane of a vector register after the instruction. -/
def lane (i : Instr) (s : State) (v : BitVec 5) (n : Fin 16) (x : Nat) : Bool :=
  nextIs (exec i s) fun t => decide ((t.vIn v).get n = BitVec.ofNat 32 x)

/-- g1 = a, g2 = b. -/
def two (a b : Nat) : State := setR (setR demo 1#5 a) 2#5 b
/-- All ones. -/
def m1 : Nat := 0xFFFFFFFFFFFFFFFF
/-- The most negative number. -/
def mn : Nat := 0x8000000000000000

theorem test_add_wraps : gives (.add 3 1 2) (two m1 2) 3 1 = true := by decide
theorem test_sub_borrows : gives (.sub 3 1 2) (two 0 1) 3 m1 = true := by decide
theorem test_andn : gives (.andn 3 1 2) (two 0xFF 0x0F) 3 0xF0 = true := by decide
theorem test_sll_takes_six_bits : gives (.sll 3 1 2) (two 1 65) 3 2 = true := by decide
theorem test_sra_sign : gives (.sra 3 1 2) (two mn 63) 3 m1 = true := by decide
theorem test_srl_zero_fill : gives (.srl 3 1 2) (two mn 63) 3 1 = true := by decide
theorem test_slt_signed : gives (.slt 3 1 2) (two m1 0) 3 1 = true := by decide
theorem test_sltu_unsigned : gives (.sltu 3 1 2) (two m1 0) 3 0 = true := by decide
theorem test_mulh_signed : gives (.mulh 3 1 2) (two m1 m1) 3 0 = true := by decide
theorem test_mulhu_unsigned : gives (.mulhu 3 1 2) (two m1 m1) 3 (m1 - 1) = true := by decide
theorem test_div_by_zero : gives (.div 3 1 2) (two 7 0) 3 m1 = true := by decide
theorem test_div_overflow : gives (.div 3 1 2) (two mn m1) 3 mn = true := by decide
theorem test_div_truncates : gives (.div 3 1 2) (two (m1 - 6) 2) 3 (m1 - 2) = true := by decide
theorem test_rem_sign : gives (.rem 3 1 2) (two (m1 - 6) 2) 3 m1 = true := by decide
theorem test_rem_by_zero : gives (.rem 3 1 2) (two 7 0) 3 7 = true := by decide
theorem test_divu : gives (.divu 3 1 2) (two m1 2) 3 0x7FFFFFFFFFFFFFFF = true := by decide
theorem test_min_signed : gives (.min 3 1 2) (two m1 0) 3 m1 = true := by decide
theorem test_maxu : gives (.maxu 3 1 2) (two m1 0) 3 m1 = true := by decide
theorem test_clz_zero : gives (.clz 3 1) (two 0 0) 3 64 = true := by decide
theorem test_ctz : gives (.ctz 3 1) (two mn 0) 3 63 = true := by decide
theorem test_popc : gives (.popc 3 1) (two m1 0) 3 64 = true := by decide
theorem test_addi_negative : gives (.addi 3 1 0x7FFF) (two 0 0) 3 m1 = true := by decide
theorem test_g0_reads_zero : gives (.addi 0 1 5) (two 9 0) 0 0 = true := by decide
theorem test_lih : gives (.lih 3 0xABCDE) (setR demo 3 0x12345) 3 0x12345ABCDE = true := by decide
theorem test_lea : gives (.lea 3 1 2 3) (two 0x100 2) 3 0x110 = true := by decide
theorem test_bfx_sign : gives (.bfx 3 1 4 3) (two 0xF0 0) 3 m1 = true := by decide
theorem test_bfxu : gives (.bfxu 3 1 4 3) (two 0xAF0 0) 3 0xF = true := by decide
theorem test_bfi : gives (.bfi 3 1 8 7) (setR (two 0x1FF 0) 3 m1) 3 m1 = true := by decide
theorem test_sel_zero : gives (.sel 3 1 2 4) (setR (two 5 6) 4 0) 3 6 = true := by decide
theorem test_fadd : gives (.fadd 3 1 2) (two 0x3F800000 0x40000000) 3 0x40400000 = true := by decide
/-- 1 + 2^-24 is a tie, which goes to the even 1. -/
theorem test_fadd_tie : gives (.fadd 3 1 2) (two 0x3F800000 0x33800000) 3 0x3F800000 = true := by decide
theorem test_fsub_zero : gives (.fsub 3 1 2) (two 0x3F800000 0x3F800000) 3 0 = true := by decide
theorem test_fmul_inf_zero : gives (.fmul 3 1 2) (two 0x7F800000 0) 3 0x7FC00000 = true := by decide
theorem test_fdiv_by_zero : gives (.fdiv 3 1 2) (two 0x3F800000 0x80000000) 3 0xFF800000 = true := by decide
theorem test_fsqrt : gives (.fsqrt 3 1) (two 0x40800000 0) 3 0x40000000 = true := by decide +kernel
theorem test_flt_nan : gives (.flt 3 1 2) (two 0x7FC00000 0) 3 0 = true := by decide
theorem test_feq_zeros : gives (.feq 3 1 2) (two 0 0x80000000) 3 1 = true := by decide
theorem test_fneg : gives (.fneg 3 1) (two 0x3F800000 0) 3 0xBF800000 = true := by decide
theorem test_itof : gives (.itof 3 1) (two m1 0) 3 0xBF800000 = true := by decide
/-- 3 × 2 + 1. -/
theorem test_fmadd : gives (.fmadd 3 1 2 4) (setR (two 0x40400000 0x40000000) 4 0x3F800000) 3 0x40E00000 = true := by decide
theorem test_vadd : lane (.vadd 3 1 2 0) (setL (setL demo 1 0x3F800000) 2 0x40000000) 3 15 0x40400000 = true := by decide +kernel
theorem test_vimul_wraps : lane (.vimul 3 1 2 0) (setL (setL demo 1 0x80000001) 2 2) 3 0 2 = true := by decide +kernel
theorem test_vsel_nonzero : lane (.vsel 3 1 2 4 0) (setL (setL (setL demo 1 5) 2 6) 4 1) 3 7 5 = true := by decide
theorem test_vins : lane (.vins 3 1 2) (two 9 0) 3 2 9 = true := by decide
theorem test_vins_keeps : lane (.vins 3 1 2) (setL (two 9 0) 3 4) 3 1 4 = true := by decide
theorem test_vext : gives (.vext 3 1 5 0) (setL demo 1 0x80000000) 3 0x80000000 = true := by decide
theorem test_vbcast : lane (.vbcast 3 1) (two 0x123456789 0) 3 11 0x23456789 = true := by decide
/-- A byte with its top bit set, extended by sign and by zero; a halfword is little-endian. -/
theorem test_ldB : gives (.ldB 3 1 0) (setB (two 0x200040 0) 0x40 [0x80#8]) 3 0xFFFFFFFFFFFFFF80 = true := by decide
theorem test_ldBu : gives (.ldBu 3 1 0) (setB (two 0x200040 0) 0x40 [0x80#8]) 3 0x80 = true := by decide
theorem test_ldHu : gives (.ldHu 3 1 0) (setB (two 0x200040 0) 0x40 [0x34#8, 0x12#8]) 3 0x1234 = true := by decide
theorem test_ldW_sign : gives (.ldW 3 1 0) (setB (two 0x200040 0) 0x40 (leBytes 4 0xFFFFFFFE)) 3 (m1 - 1) = true := by decide
theorem test_ldD_negative_offset : gives (.ldD 3 1 0xFF8) (setB (two 0x200048 0) 0x40 (leBytes 8 m1)) 3 m1 = true := by decide
theorem test_ldxD : gives (.ldxD 3 1 2) (setB (two 0x200040 8) 0x48 (leBytes 8 77)) 3 77 = true := by decide
/-- A store writes its low bytes and no more. -/
theorem test_stH : nextIs (exec (.stH 2 1 0) (two 0x200040 0x12345678)) (fun t =>
    t.seen (padOfCore 0 + 0x40) = 0x78#8 && t.seen (padOfCore 0 + 0x41) = 0x56#8 && t.seen (padOfCore 0 + 0x42) = 0#8) = true := by decide
/-- The address after the running word, which an instruction that transfers control replaces. -/
def next4 (s : State) : State := s.goto 0x10004

/-- demo runs at 0x10000, and its image ends at 0x10008 (a jump before it traps): an offset counts words, and a link is the address of the next word. -/
theorem test_jal_forward : nextIs (exec (.jal 31 1) (next4 demo)) (fun t => t.nextPc = 0x10004#64 && t.gIn 31 = 0x10004#64) = true := by decide
theorem test_beq_taken : nextIs (exec (.beq 1 2 1) (next4 (two 5 5))) (fun t => t.nextPc = 0x10004#64) = true := by decide
theorem test_blt_signed : nextIs (exec (.blt 1 2 0) (next4 (two m1 0))) (fun t => t.nextPc = 0x10000#64) = true := by decide
theorem test_bltu_falls : nextIs (exec (.bltu 1 2 0) (next4 (two m1 0))) (fun t => t.nextPc = 0x10004#64) = true := by decide
theorem test_loop_counts : nextIs (exec (.loop 3 1 0) (next4 (two 2 0))) (fun t => t.nextPc = 0x10000#64 && t.gIn 3 = 1#64) = true := by decide
theorem test_loop_ends : nextIs (exec (.loop 3 1 0) (next4 (two 1 0))) (fun t => t.nextPc = 0x10004#64 && t.gIn 3 = 0#64) = true := by decide
/-- The old value comes back, the sum goes to memory. -/
theorem test_amoadd : nextIs (exec (.amoadd 3 1 2 0 0) (setB (two 0x200040 2) 0x40 (leBytes 4 0xFFFFFFFF))) (fun t =>
    t.gIn 3 = 0xFFFFFFFFFFFFFFFF#64 && t.seenBytes (padOfCore 0 + 0x40) 4 = leBytes 4 1) = true := by decide
theorem test_amocas_fails : nextIs (exec (.amocas 3 1 2 4 0 1) (setB (setR (two 0x200040 2) 4 9) 0x40 (leBytes 8 8))) (fun t =>
    t.gIn 3 = 8#64 && t.seenBytes (padOfCore 0 + 0x40) 8 = leBytes 8 8) = true := by decide
/-- A misaligned halfword traps with MISALIGNED and its address. -/
theorem test_ldH_misaligned : nextIs (exec (.ldH 3 1 0) (two 0x200041 0)) (fun t =>
    t.t.tr.xcause = 36 && t.t.tr.xval = 0x200041#64 && t.t.tr.xpc = 0x10000#64) = true := by decide
/-- With a vector set, TRAP saves the address after it and goes to the vector in supervisor mode. -/
theorem test_trap : nextIs (exec (.trap 3) (setTr (next4 demo) fun r => { r with xvec := 0x10000 })) (fun t =>
    t.t.tr.xpc = 0x10004#64 && t.t.tr.xcause = 7#64 && t.t.tr.xval = 3#64 && t.t.tr.xstat = 0x11#64 && t.t.pc = 0x10000#64) = true := by decide
/-- A system register that user mode may not write: PRIVILEGED, with the instruction's word. -/
theorem test_csrwr_user : nextIs (exec (.csrwr 1 0x001) demo) (fun t => t.t.tr.xcause = 5) = true := by decide

/-! ### Witnesses: states and operands that meet the statements' hypotheses -/

/-- Registers that the witnesses read. -/
def regs : State := setR (setR (setR demo 4#5 0x200040) 5#5 7) 6#5 0xFFFFFFFFFFFFFFFF

theorem test_meets_IntegerArithmetic :
    regs.ready (useOf (.add 3#5 4#5 5#5)) = .ok () ∧ regs.ready (useOf (.div 0#5 4#5 0#5)) = .ok () ∧
    regs.gIn 5#5 = 7 ∧ regs.gIn 0#5 = 0 := ⟨rfl, rfl, rfl, rfl⟩

theorem test_meets_IntegerShiftsComparisons :
    regs.ready (useOf (.srai 3#5 6#5 63#6)) = .ok () ∧ regs.ready (useOf (.slti 3#5 6#5 0#14)) = .ok () := ⟨rfl, rfl⟩

/-- The field of BFX ends with bit 63. -/
theorem test_meets_IntegerImmediates :
    regs.ready (useOf (.bfx 3#5 4#5 17#6 46#6)) = .ok () ∧ (17#6 : BitVec 6).toNat + (46#6 : BitVec 6).toNat + 1 ≤ 64 ∧
    regs.ready (useOf (.lih 3#5 5#20)) = .ok () ∧ regs.ready (useOf (.clz 3#5 0#5)) = .ok () := ⟨rfl, by decide, rfl, rfl⟩

/-- An exact magnitude, one above a tie, and a tie; 1.0 and -2.0 have values. -/
theorem test_meets_ExactRounding :
    8 % 2 ^ 2 = 0 ∧ 7 % 2 ^ 2 ≠ 0 ∧ 2 * (6 % 2 ^ 2) = 2 ^ 2 ∧
    (Machine.Num.ofBits 0x3F800000#32).value.isSome = true ∧ (Machine.Num.ofBits 0xC0000000#32).value.isSome = true := by decide

/-- Two numbers that differ, a NaN and a number, both zeros. -/
theorem test_meets_ScalarFloat :
    let s := setR (setR (setR (setR demo 4#5 0x3F800000) 5#5 0xC0000000) 6#5 0x7FC00001) 7#5 0x80000000
    s.ready (useOf (.fmin 3#5 4#5 5#5)) = .ok () ∧ s.ready (useOf (.fmadd 3#5 4#5 5#5 6#5)) = .ok () ∧
    (Machine.Num.ofBits (s.fIn 4#5)).value = some 1 ∧ (Machine.Num.ofBits (s.fIn 5#5)).value = some (-2) ∧
    (Machine.Num.ofBits (s.fIn 6#5)).isNan = true ∧ s.fIn 7#5 = 0x80000000#32 ∧ s.fIn 0#5 = 0#32 := by
  have h1 : Machine.Num.ofBits 0x3F800000#32 = .fin false 8388608 (-23) := by decide
  have h2 : Machine.Num.ofBits 0xC0000000#32 = .fin true 8388608 (-22) := by decide
  refine ⟨rfl, rfl, ?_, ?_, rfl, rfl, rfl⟩
  · show (Machine.Num.ofBits 0x3F800000#32).value = _; rw [h1]; norm_num [Machine.Num.value, sgn]
  · show (Machine.Num.ofBits 0xC0000000#32).value = _; rw [h2]; norm_num [Machine.Num.value, sgn]

/-- A number that rounds to an integer, a NaN and both infinities. -/
theorem test_meets_ScalarConversions :
    let s := setR (setR (setR (setR demo 4#5 0x3F800000) 5#5 0xFF800000) 6#5 0x7FC00001) 7#5 0x7F800000
    s.ready (useOf (.ftoi 3#5 4#5)) = .ok () ∧ (Machine.Num.ofBits (s.fIn 4#5)).toInt s.rm = some 1 ∧
    (Machine.Num.ofBits (s.fIn 6#5)).isNan = true ∧ s.fIn 7#5 = 0x7F800000#32 ∧ s.fIn 5#5 = 0xFF800000#32 :=
  ⟨rfl, rfl, rfl, rfl, rfl⟩

theorem test_meets_FloatClass : regs.ready (useOf (.fclass 3#5 4#5)) = .ok () := rfl

/-- With a strip in the east queue, an instruction that reads it and passes it on is ready. -/
theorem test_meets_VectorArithmetic :
    let s := demo.updT fun t => { t with linkE := [VReg.zero] }
    s.ready (useOf (.vadd 3#5 17#5 5#5 1#1)) = .ok () ∧ s.ready (useOf (.vsel 16#5 1#5 2#5 3#5 0#1)) = .ok () := ⟨rfl, rfl⟩

theorem test_meets_VectorConversions :
    demo.ready (useOf (.vpack 3#5 4#5 11#5 0#1)) = .ok () ∧ (11#5 : BitVec 5).toNat < 12 ∧
    demo.ready (useOf (.gcomp 3#5 4#5 6#5)) = .ok () := ⟨rfl, by decide, rfl⟩

theorem test_meets_VectorMovesReductions :
    demo.ready (useOf (.vrot 3#5 4#5 15#5 0#1)) = .ok () ∧ (15#5 : BitVec 5).toNat < 16 ∧
    demo.ready (useOf (.vrsum 3#5 4#5 0#1)) = .ok () := ⟨rfl, by decide, rfl⟩

/-- A stream of two elements of 4 bytes. -/
def stream0 : Stream :=
  { src := 0x200000, esz := 4, sign := false, counts := [2, 1, 1, 1], strides := [4, 0, 0, 0], next := 2, popped := 0, staged := [],
    go := true, wins := [], user := true, level := 0, fir := 0, tlb := [] }

/-- A stream on g24 with a staged element, one that waits for its refill, and one that has ended. -/
def stream (s : State) (n : Nat) (staged : List Elem) (popped : Nat) : State :=
  s.updT fun t => { t with streams := FMap.put t.streams n { stream0 with staged := staged, popped := popped } }

theorem test_meets_StreamOperands :
    let s := stream (stream (stream demo 24 [⟨9, none, []⟩] 0) 25 [] 1) 26 [] 2
    (∀ k, k ∈ keysOf (useOf (.add 3#5 4#5 5#5)).wg [] ++ keysOf (useOf (.add 3#5 4#5 5#5)).rg [] → s.t.bound k = none) ∧
    (s.t.bound 24).isSome = true ∧ s.t.bound (3#5 : Reg).toNat = none ∧
    (∃ x, s.t.bound 24 = some x ∧ x.staged = [⟨9, none, []⟩]) ∧
    (∃ x, s.t.bound 25 = some x ∧ x.staged = [] ∧ x.popped < x.total) ∧
    (∃ x, s.t.bound 26 = some x ∧ x.staged = [] ∧ x.total ≤ x.popped) ∧ s.t.maskOpen = false :=
  ⟨by decide, rfl, rfl, ⟨_, rfl, rfl⟩, ⟨_, rfl, rfl, by decide⟩, ⟨_, rfl, rfl, by decide⟩, rfl⟩

/-- A strip stands in lw, and le is empty. -/
theorem test_meets_StreamOperands_links :
    let s := demo.updT fun t => { t with linkW := [VReg.zero] }
    3#5 ∉ [16#5, 17#5] ∧ s.t.bound (32 + 3) = none ∧ s.t.bound (32 + 16) = none ∧ s.t.bound (32 + 17) = none ∧
    s.ready (useOf (.vneg 3#5 16#5 1#1)) = .ok () ∧ s.t.linkE = [] ∧ s.t.maskOpen = false := by decide

theorem test_meets_PlainFrames :
    regDest (.mbrd 3#5 63#6) = some 3#5 ∧ demo.ready (useOf (.mbrd 3#5 63#6)) = .ok () ∧
    vecDest (.vbcast 15#5 4#5) = some 15#5 ∧ demo.ready (useOf (.vbcast 15#5 4#5)) = .ok () := ⟨rfl, rfl, rfl, rfl⟩

/-- A doubleword of the scratchpad and a word of a counter. -/
theorem test_meets_Loads :
    let s := setR regs 7#5 0x300004
    (∃ x, (s.after (.ldD 3#5 4#5 8#12)).access 0x200048 8 .read = .ok x ∧
      decide ((s.after (.ldD 3#5 4#5 8#12)).ioGate x = .ok ()) = true) ∧
    s.gIn 4#5 + (8#12 : BitVec 12).signExtend 64 = 0x200048 ∧ s.ready (useOf (.ldD 3#5 4#5 8#12)) = .ok () ∧
    (∃ x, (s.after (.ldxW 3#5 7#5 0#5)).access 0x300004 4 .read = .ok x ∧ decide (x.loc = .counter 0 1) = true) :=
  ⟨ok_of (by decide), rfl, rfl, ok_of (by decide)⟩

/-- Window 1 of the scratchpad of core 0 takes format 1. -/
def window : State := { demo with wins := FMap.put demo.wins (windowKey (padOfCore 0) 0x20000 1) (word (2 ^ 63 + 1)) }

/-- Plain bytes, a counter, an I/O register and an element, with room in the buffer. -/
theorem test_meets_Stores :
    let s := regs.after (.stD 5#5 4#5 0#12)
    (∃ x, s.access 0x200040 8 .write = .ok x ∧ (decide (s.ioGate x = .ok () ∧ x.loc = .pad (padOfCore 0) 0x20000 0 0x40) &&
      okIs (s.roomFor (maskedBytes x.dev (leBytes 8 7))) fun _ => true) = true) ∧
    regs.ready (useOf (.stD 5#5 4#5 0#12)) = .ok () ∧
    (∃ x, regs.access 0x3000FC 4 .write = .ok x ∧ decide (x.loc = .counter 0 63) = true) ∧
    (∃ x, regs.access 0x400000 4 .write = .ok x ∧ decide (x.loc = .io 0 ∧ regs.ioGate x = .ok ()) = true) ∧
    (∃ x, window.access 0x210004 4 .write = .ok x ∧ (decide (x.loc = .pad (padOfCore 0) 0x20000 1 4) &&
      okIs (window.roomFor (movedPut window.seen window.wins x (Moved.fp32 1#32))) fun _ => true) = true) :=
  ⟨ok_of (by decide), rfl, ok_of (by decide), ok_of (by decide), ok_of (by decide)⟩

/-- A strip, one column of a tile, and a move of two rows from one place to another. -/
theorem test_meets_VectorMemory :
    let s := setR regs 7#5 0x200400
    let m := setR s 6#5 (2 + 2 ^ 16 + 2 ^ 32)
    (∃ xs, (s.after (.vld 15#5 4#5 0#12)).slotAccs .read (slotAddrs 0x200040 4) = .ok xs ∧ decide (xs.length = 16) = true) ∧
    (∃ xs, (s.after (.vldt 15#5 4#5 0#12)).slotAccs .read (slotAddrs 0x200040 64) = .ok xs ∧ decide (xs.length = 16) = true) ∧
    (∃ xs, (s.after (.vst 15#5 4#5 0#12)).slotAccs .write (slotAddrs 0x200040 4) = .ok xs ∧
      okIs ((s.after (.vst 15#5 4#5 0#12)).putSlots (xs.zip ((s.vIn 15#5).toList.map Moved.fp32))) (fun _ => true) = true) ∧
    (∃ xs, (m.after (.tmov 7#5 4#5 6#5)).slotAccs .read (tileAddrs 0x200040 64 2) = .ok xs ∧
      okIs ((m.noteSlots xs).slotAccs .write (tileAddrs 0x200400 64 2)) (fun ys =>
        okIs ((m.noteSlots xs).putSlots (ys.zip (xs.map m.slotIn))) fun _ => true) = true) ∧
    m.ready (useOf (.tmov 7#5 4#5 6#5)) = .ok () :=
  ⟨ok_of (by decide), ok_of (by decide), ok_of (by decide), ok_of (by decide +kernel), rfl⟩

/-- Below and at the top of the virtual space; HBM from a compute core, which has no path; an unaligned word. -/
theorem test_meets_Accesses :
    (2 : Nat) ^ 48 ≤ 2 ^ 48 ∧ demo.translate demo.cur demo.myPart 0x800000 = none ∧
    (∃ p, demo.translate demo.cur demo.myPart 0x500000 = some p ∧ decide ((demo.t.sup || p.u) = true ∧ p.r = true ∧ p.w = true ∧
      demo.locate (p.base + 0x500000 % 2 ^ p.size) = .hbm ∧ isMemCore demo.cur = false) = true) ∧
    (∃ p, demo.translate demo.cur demo.myPart 0x200041 = some p ∧
      decide (demo.locate (p.base + 0x200041 % 2 ^ p.size) = .pad (padOfCore 0) 0x20000 0 0x41) = true) ∧
    regs.ready (useOf (.ldD 3#5 4#5 1#12)) = .ok () ∧
    (regs.after (.ldD 3#5 4#5 1#12)).access 0x200041 8 .read = .error (.trap .misaligned 0x200041 false) :=
  ⟨by decide, rfl, some_of (by decide), some_of (by decide), rfl, by decide⟩

/-- A walk that fails at an entry without V, and one whose first entry cannot be read; an unaligned store with an index. -/
theorem test_meets_Accesses_walks :
    demo.walk demo.myPart 0x800000 = .error 1 ∧ ({ demo with poison := [0] } : State).walk demo.myPart 0x800000 = .error 9 ∧
    ({ demo with poison := [0] } : State).translate demo.cur demo.myPart 0x800000 = none ∧
    regs.ready (useOf (.stxH 3#5 4#5 1#5)) = .ok () ∧
    (∀ a ∈ [0x200041], (regs.after (.stxH 3#5 4#5 1#5)).access a 2 .write = .error (.trap .misaligned (word a) false)) := by
  decide +kernel

/-- Pages that user mode may not touch, may not read, and may not write. -/
theorem test_meets_Accesses_pages :
    let s := demo.updCore 0 fun k => { k with tlb := [⟨0, 0, ⟨padOfCore 0, 16, 0, false, false, true, true, true⟩⟩,
      ⟨0, 0x10000, ⟨padOfCore 0, 16, 0, false, true, true, true, false⟩⟩,
      ⟨0, 0x20000, ⟨padOfCore 0, 16, 0, false, true, true, false, true⟩⟩, ⟨0, 0x30000, ⟨0x600000000000, 16, 0, false, true, true, true, true⟩⟩] }
    s.t.sup = false ∧ (∃ p, s.translate 0 0 0 = some p ∧ decide (p.u = false) = true) ∧
    (∃ p, s.translate 0 0 0x10000 = some p ∧ decide (p.u = true ∧ p.r = false) = true) ∧
    (∃ p, s.translate 0 0 0x20000 = some p ∧ decide (p.u = true ∧ p.r = true ∧ p.w = false) = true) ∧
    (∃ p, s.translate 0 0 0x30000 = some p ∧ decide (s.locate p.base = .nothing) = true) :=
  ⟨rfl, some_of (by decide), some_of (by decide), some_of (by decide), some_of (by decide)⟩

/-- The image is one unit at 0x10000: its first word is a legal target, the word past it leaves the image, and a
second word after a P bit of 1 is inside a pair. -/
theorem test_meets_JumpsBranches :
    let s := setR (setR demo 4#5 0x10000) 5#5 0x10002
    let q := State.reset.withFetchWord 32 0x80000000
    s.checkTarget 0x10000 = .ok () ∧ (BitVec.ofInt 64 ((s.gIn 4#5).toNat + 4 * (0#13 : BitVec 13).toInt)).toNat = 0x10000 ∧
    s.ready (useOf (.jr 5#5 0#13)) = .ok () ∧ 0x10002 % 4 ≠ 0 ∧
    BitVec.ofInt 64 ((s.gIn 4#5).toNat - 1 : Int) ≠ 0 ∧ BitVec.ofInt 64 ((1 : Nat) - 1 : Int) = 0 ∧
    (∃ f, s.t.fir = some f ∧ decide (f.hi < (BitVec.ofInt 64 (s.t.pc.toNat + 4 * (2#12 : BitVec 12).toInt)).toNat + 4 ∧ 0x10008 % 8 ≠ 4) = true) ∧
    (∃ w, q.codeWord 0x10000 = some w ∧ decide (w.msb = true ∧ 0x10004 % 8 = 4) = true) ∧
    q.ready (useOf (.beq 0#5 0#5 1#12)) = .ok () ∧ q.gIn 0#5 = q.gIn 0#5 ∧
    s.ready (useOf (.jal 3#5 2#20)) = .ok () ∧ s.checkTarget 0x10008 = .error (.trap .protExec 0x10008 false) ∧
    (BitVec.ofInt 64 (s.t.pc.toNat + 4 * (2#20 : BitVec 20).toInt)).toNat = 0x10008 :=
  ⟨by decide, rfl, rfl, by decide, by decide, by decide, some_of (by decide), some_of (by decide), rfl, rfl,
    rfl, by decide, by decide⟩

/-- A near atomic of 8 bytes in the scratchpad. -/
theorem test_meets_AtomicsNear :
    let s := regs.after (.amoadd 3#5 4#5 5#5 0#1 1#1)
    regs.ready (useOf (.amoadd 3#5 4#5 5#5 0#1 1#1)) = .ok () ∧
    (∃ x, s.atomicAccess 0x200040 8 true = .ok x ∧ (decide (x.dev = padOfCore 0 + 0x40) &&
      okIs ((s.noteRead x).roomFor (maskedBytes x.dev (leBytes 8 7))) fun _ => true) = true) :=
  ⟨rfl, ok_of (by decide)⟩

/-- A far atomic and a barrier request: a firing that is not held, no masked window, no open chunk. -/
theorem test_meets_FarRequests :
    regs.ready (useOf (.amoadd 3#5 4#5 5#5 1#1 1#1)) = .ok () ∧
    (∃ x, (regs.after (.amoadd 3#5 4#5 5#5 1#1 1#1)).atomicAccess 0x200040 8 false = .ok x ∧ decide (x.dev = padOfCore 0 + 0x40) = true) ∧
    (∃ x, (regs.after (.barWait 3#5 4#5 5#5)).atomicAccess 0x200040 32 false = .ok x ∧ decide (x.dev % 32 = 0) = true) ∧
    regs.t.heldNow = false ∧ regs.t.maskOpen = false ∧ regs.chunkBusy = false ∧ (3#5 : Reg) ≠ 0#5 :=
  ⟨rfl, ok_of (by decide), ok_of (by decide), rfl, rfl, rfl, by decide⟩

/-- Every class done; class 0 outstanding, with a copy of the core in flight; windows closed, open and of a handler. -/
theorem test_meets_FencesMasks :
    let w := demo.updT fun t => { t with maskOpen := true }
    let h := setTr demo fun r => { r with xstat := 0x10 }
    (∀ k, k < 7 → (0x7F#7).getLsbD k = true → demo.classDone demo.cur demo.fenceBounds k = true) ∧ demo.chunkBusy = false ∧
    (demo.t.special = false ∧ demo.t.maskOpen = false) ∧ (w.t.special = false ∧ w.t.maskOpen = true) ∧ h.t.special = true ∧
    demo.ready (useOf (.kilnrd 3#5 0#5)) = .ok () := by
  refine ⟨?_, rfl, ⟨rfl, rfl⟩, ⟨rfl, rfl⟩, rfl, rfl⟩
  decide

/-- A counter that has reached its value, one that has not, and one with a latched error. -/
theorem test_meets_Counters :
    let s := setR (setR demo 4#5 1) 5#5 0x3000FC
    let r := s.updMe fun k => { k with mb := [(37, 1)], mbLatch := [(37, ⟨true, false, 9, 0, 0⟩)] }
    let c := setTr r fun r => { r with mode := 2 }
    s.ready (useOf (.mbwait 3#5 4#5 37#6)) = .ok () ∧ ¬0 ≤ (BitVec.ofNat 32 (s.mbVal 37) - (s.gIn 4#5).truncate 32).toInt ∧
    s.t.maskOpen = false ∧ 0 ≤ (BitVec.ofNat 32 (r.mbVal 37) - (r.gIn 4#5).truncate 32).toInt ∧
    (r.mbLatch 37).ep = true ∧ r.t.cetrap = false ∧ c.t.cetrap = true ∧
    (∃ x, (s.after (.mbincGlobal 5#5 4#5)).access 0x3000FC 4 .write = .ok x ∧ decide (x.loc = .counter 0 63) = true) ∧
    (∃ x, (s.after (.mbincGlobal 4#5 5#5)).access 0x200040 4 .write = .ok x ∧
      decide (x.loc = .pad (padOfCore 0) 0x20000 0 0x40) = true) :=
  ⟨rfl, by decide +kernel, rfl, by decide +kernel, rfl, rfl, rfl, ok_of (by decide), ok_of (by decide)⟩

/-- A descriptor block of 128 bytes, an identifier reached and one that is not, and a latch. -/
theorem test_meets_Copies :
    let s := setR (setR demo 4#5 0x200080) 5#5 1
    let l := s.updT fun t => { t with chLatch := [(2, ⟨true, false, 9, 0, 0⟩)] }
    let c := setTr l fun r => { r with mode := 2 }
    (∃ r, (s.after (.cpy 3#5 4#5 2#2)).readBlock 0x200080 128 = .ok r ∧
      decide (s.staleSeen (fieldAt r.2 0x10 4) = false ∧ s.staleSeen (fieldAt r.2 0x14 4) = false) = true) ∧
    s.t.heldNow = false ∧ s.copyQueueFull = false ∧ s.ready (useOf (.cpy 3#5 4#5 2#2)) = .ok () ∧
    0 ≤ (BitVec.ofNat 32 (FMap.get 0 s.me.eng.doneId 2) - (s.gIn 0#5).truncate 32).toInt ∧
    ¬0 ≤ (BitVec.ofNat 32 (FMap.get 0 s.me.eng.doneId 2) - (s.gIn 5#5).truncate 32).toInt ∧ s.t.maskOpen = false ∧
    (l.chLatch 2).ep = true ∧ l.t.cetrap = false ∧ c.t.cetrap = true ∧
    0xFFFF / 2 ^ 16 % 2 ^ 45 = 0 ∧ 0x10000 / 2 ^ 16 % 2 ^ 45 ≠ 0 :=
  ⟨ok_of (by decide), rfl, rfl, rfl, by decide, by decide, rfl, rfl, rfl, rfl, by decide, by decide⟩

/-- A firing-local rack of four slots, two of them filled, bound to k2. -/
def racked : State := demo.updT fun t =>
  { t with locals := [(0x100, { rackOfWord 0x18100 0 with nfill := 2, fill := 2 })], binds := [(2, 0x100)] }

/-- A rack word that binds, one that unbinds, one with a reserved bit, one of the wrong shape. -/
theorem test_meets_Racks :
    let w := 0x80018100
    (w / 2 ^ 21 % 2 ^ 10 = 0 ∧ w / 2 ^ 32 = 0 ∧ w / 2 ^ 31 % 2 = 1) ∧
    (1 ≤ w / 2 ^ 15 % 64 ∧ w / 2 ^ 11 % 16 ≤ 8 ∧ w % 2 ^ 11 * 64 + (w / 2 ^ 15 % 64 + 1) * (64 * 2 ^ (w / 2 ^ 11 % 16)) ≤ 0x1C000) ∧
    (∃ q, racked.me.rack? 0x100 = some q ∧ decide (q.sz = 0 ∧ q.cntm1 = 3) = true) ∧
    demo.me.rack? 0x100 = none ∧
    (demo.me.racks ++ demo.t.locals).any (fun p => rackOverlap 0x100 (rackOfWord w 0) p.1 p.2) = false ∧ demo.t.locals.length < 16 ∧
    0x18100 / 2 ^ 31 % 2 = 0 ∧ ¬0x200000 / 2 ^ 21 % 2 ^ 10 = 0 ∧ ¬1 ≤ 0x80000000 / 2 ^ 15 % 64 ∧
    demo.ready (useOf (.rkset 2#5 4#5)) = .ok () ∧ FMap.find? demo.t.binds (2#5 : Reg).toNat = none ∧
    racked.boundRack 2#5 = .ok 0x100 ∧
    (∃ r, racked.recSeen 0x100 = .ok r ∧ decide (r.n = 4 ∧ r.nfill = 2 ∧ r.room = 2) = true) ∧
    racked.myOut 0x100 = none ∧ (∃ t, racked.countFree 0x100 2 = .ok t ∧ decide (FMap.get 0 t.t.claims 0x100 = 0) = true) ∧
    racked.t.maskOpen = false ∧ racked.ready (useOf (.rkwf 2#5 3#7)) = .ok () ∧ racked.t.heldNow = false :=
  ⟨by decide +kernel, by decide +kernel, some_of (by decide), rfl, by decide, by decide, by decide +kernel, by decide +kernel, by decide +kernel, rfl, rfl, rfl,
    ok_of (by decide), rfl, ok_of (by decide), rfl, rfl, rfl⟩

/-- RKSET's refusals: a record of another geometry, a rack that shares a byte, sixteen local records; and the other bounds. -/
theorem test_meets_Racks_unbound :
    let full := demo.updT fun t => { t with locals := (span 0 16).map fun n => (0x200 + 4 * n, rackOfWord 0x18200 0) }
    let w := 0x80018101
    (∃ q, racked.me.rack? 0x100 = some q ∧ decide (q.cntm1 ≠ 0x80010100 / 2 ^ 15 % 64) = true) ∧
    (1 ≤ w / 2 ^ 15 % 64 ∧ w / 2 ^ 11 % 16 ≤ 8 ∧ w % 2 ^ 11 * 64 + (w / 2 ^ 15 % 64 + 1) * (64 * 2 ^ (w / 2 ^ 11 % 16)) ≤ 0x1C000) ∧
    racked.me.rack? 0x101 = none ∧
    (racked.me.racks ++ racked.t.locals).any (fun p => rackOverlap 0x101 (rackOfWord w 0) p.1 p.2) = true ∧
    full.me.rack? 0x100 = none ∧ (full.me.racks ++ full.t.locals).any (fun p => rackOverlap 0x100 (rackOfWord 0x80018100 0) p.1 p.2) = false ∧
    16 ≤ full.t.locals.length ∧ demo.ready (useOf (.rkrd 3#5 2#5 0#2)) = .ok () ∧
    (2 : Nat) < (3#7 : BitVec 7).toNat ∧ (4 : Nat) < (5#7 : BitVec 7).toNat ∧ racked.ready (useOf (.rkadv 2#5 3#7 1#1)) = .ok () :=
  ⟨some_of (by decide +kernel), by decide +kernel, rfl, by decide +kernel, by decide +kernel, by decide +kernel, by decide +kernel, rfl,
    by decide, by decide, rfl⟩

/-- A stream descriptor of 4-byte elements. -/
def strm : State :=
  setR (setB demo 0x40 (leBytes 8 0x200000 ++ leBytes 8 2 ++ leBytes 4 2 ++ leBytes 4 1 ++ leBytes 4 1 ++ leBytes 4 1 ++ leBytes 8 4)) 4#5 0x200040

theorem test_meets_StreamsParking :
    (∃ r, (strm.after (.stbind 24#5 4#5 0#1)).readBlock 0x200040 64 = .ok r ∧
      decide (strm.streamBad r.2 (streamOf r.2 false true 0 0) false = none) = true) ∧
    strm.ready (useOf (.stbind 24#5 4#5 0#1)) = .ok () ∧ demo.t.special = false ∧ demo.ready (useOf (.park 4#5)) = .ok () ∧
    (setTr demo fun r => { r with xstat := 0x10 }).t.special = true ∧ (24#5 : Reg) ≠ 0#5 ∧ (0x1000000 : Nat).testBit 24 = true ∧
    (demo.after (.park 4#5)).t.bound 24 = none :=
  ⟨ok_of (by decide +kernel), rfl, rfl, rfl, rfl, by decide, by decide, rfl⟩

/-- The firing's instance owns slot 3, whose parameter copy is zero; its rack k2 has filled slots. -/
def owned : State := (setR (setR racked 4#5 0x200040) 5#5 0x200080).updT fun t =>
  { t with slots := [(3, { Slot.free with owner := some (instKey 0 0 0 0) })] }

theorem test_meets_MatrixCommands :
    owned.checkSlot 3 = .ok () ∧ owned.t.heldNow = false ∧
    (∃ r, (owned.after (.mma 3#5 4#5 5#5)).slotFor 3 = .ok r ∧ decide (r.2 = 3 ∧ r.1.matQueueFull = false) = true) ∧
    owned.ready (useOf (.mma 3#5 4#5 5#5)) = .ok () ∧ owned.ready (useOf (.mmag 3#5 4#5 5#5 6#5)) = .ok () ∧
    (∃ r, (owned.after (.mmar 3#5 4#5 2#5)).srcOf 2#5 ((owned.lay 3).testBit 3) = .ok r ∧ decide (r.1.matQueueFull = false) = true) ∧
    owned.srcBound 2#5 = .ok () ∧ owned.srcBound 17#5 = .ok () ∧
    (∃ r, owned.srcOf 17#5 ((owned.lay 3).testBit 2) = .ok r ∧ decide (r.2 = .link false) = true) :=
  ⟨rfl, rfl, ok_of (by decide), rfl, rfl, ok_of (by decide), rfl, rfl, ok_of (by decide)⟩

/-- Slot 3 owned, slot 4 free, slot 5 of another instance, slot 6 held by a trap. -/
def slotted : State := owned.updT fun t => { t with slots := t.slots ++
  [(5, { Slot.free with owner := some 1 }), (6, { Slot.free with owner := some (instKey 0 0 0 0), held := true })] }

theorem test_meets_AccumulatorSlots :
    ((span 0 32).filter fun k => (0x20 : Nat).testBit k).filter (fun k => !slotted.slotFree k && !slotted.ownsSlot k) = [5] ∧
    ((span 0 32).filter fun k => (0x18 : Nat).testBit k).filter (fun k => !slotted.slotFree k && !slotted.ownsSlot k) = [] ∧
    slotted.ready (useOf (.mown 3#5 4#5)) = .ok () ∧ allOk slotted.checkSlot [3] = .ok () ∧
    (slotted.slot 6).held = true ∧ (slotted.slot 5).held = false ∧ slotted.ownsSlot 5 = false ∧ slotted.ownsSlot 3 = true ∧
    slotted.checkSlot 3 = .ok () ∧ slotted.slotBusy 3 = false ∧
    (∃ r, (slotted.after (.mpar 3#5 4#5)).readBlock 0x200040 64 = .ok r ∧ decide (r.2.length = 64) = true) ∧
    fieldAt (slotted.slot 3).par 0xD 1 ≤ 11 ∧ fieldAt (slotted.slot 3).par 0xE 1 ≤ 1 ∧ slotted.ready (useOf (.mpar 3#5 4#5)) = .ok () ∧
    (∃ r, (slotted.after (.mwait 3#5 4#5)).slotsFor [3] = .ok r ∧
      (decide (r.mwaitWord [3] = 0) && !([3].any fun k => r.slotBusy (r.slotSeen k))) = true) ∧
    (∃ r, (slotted.after (.kvar 3#5 3#5)).slotFor 3 = .ok r ∧ (!r.1.slotBusy r.2) = true) ∧ slotted.t.cetrap = false :=
  ⟨by decide, by decide, rfl, rfl, rfl, rfl, rfl, rfl, rfl, rfl, ok_of (by decide), by decide, by decide, rfl, ok_of (by decide), ok_of (by decide), rfl⟩

theorem test_meets_KerfCommands :
    owned.t.heldNow = false ∧ owned.checkSlot 3 = .ok () ∧ (7#5 : Reg).toNat < 8 ∧ owned.ready (useOf (.seedw 7#5 4#5)) = .ok () ∧
    (∃ r, (owned.after (.gauge 4#5 0#6 1#2)).kerfBlock 0x200040 = .ok r ∧ decide (r.1.matQueueFull = false) = true) ∧
    owned.ready (useOf (.gauge 4#5 0#6 1#2)) = .ok () ∧
    (∃ r, (owned.after (.kmma 3#5 4#5 1#8)).kerfBlock 0x200040 = .ok r ∧ decide (r.1.matQueueFull = false) = true) ∧
    owned.ready (useOf (.kmma 3#5 4#5 1#8)) = .ok () :=
  ⟨rfl, rfl, by decide, rfl, ok_of (by decide), rfl, ok_of (by decide), rfl⟩

/-- A dense one-level descriptor of one dimension and one feature: N = 15, 16 values, table region 1, gradient region 2. -/
def mqBytes : List Byte :=
  leBytes 4 0 ++ leBytes 4 0x1000 ++ leBytes 4 0x2000 ++ rep 20 0#8 ++ leBytes 4 (15 * 2 ^ 16 + 4) ++ rep 92 0#8

/-- It stands at 0x200080; its table lies in window 1; two regions live in the handle table. -/
def mq : State :=
  (setR (setR (setB { window with wins := FMap.put demo.wins (windowKey (padOfCore 0) 0x20000 1) (word (2 ^ 63)) } 0x80 mqBytes)
    4#5 0x200080) 5#5 0).updPart 0 fun p =>
      { p with handles := [(1, ⟨0x210000, 4096, true, true, true⟩), (2, ⟨0x200400, 4096, true, true, true⟩)] }

/-- The same with the descriptor registered. -/
def mqd : State := mq.updT fun t => { t with mq0 := [(0x200080, mqBytes)] }

theorem test_meets_MarquetryInstructions :
    (∃ r, (mq.after (.mqdef 3#5 4#5)).readBlock 0x200080 128 = .ok r ∧ decide (mqBad r.2 = false ∧
      (mq.regionSeen mq.myPart (mqThnd r.2)).isSome = true ∧ mq.staleSeen (mqGhnd r.2) = false) = true) ∧
    mq.t.mqSet.length < 8 ∧ mq.mqAt 0x200080 = none ∧ (∃ d, mqd.mqAt 0x200080 = some d ∧ decide (mqL d = 1) = true) ∧
    mqd.mqCheck 0x200080 0 3 false true = .ok mqBytes ∧ mqd.mqCheck 0x200080 0 3 true true = .ok mqBytes ∧
    mqd.ready { useOf (.mqld 3#5 4#5 6#5 5#5) with wv := mqd.mqRange 3#5 4#5 5#5 } = .ok () ∧
    (∃ r, mqd.regionSeen mqd.myPart (mqThnd mqBytes) = some r ∧ decide (r.r = true ∧
      mqd.mqBadSlot mqBytes r ((mqReads mqBytes 0 0 (mqd.vIn 6#5).toList).flatMap fun l => l.map fun p => 0x210000 + 4 * p.1) = none) = true) ∧
    (∃ a, mqd.slotAccs .read ((mqReads mqBytes 0 0 (mqd.vIn 6#5).toList).flatMap fun l => l.map fun p => 0x210000 + 4 * p.1) = .ok a ∧
      decide (a.length = 2) = true) ∧
    mqd.t.heldNow = false ∧ (mqd.regionSeen mqd.myPart (mqGhnd mqBytes)).isSome = true ∧
    mqd.ready { useOf (.mqsc 3#5 4#5 6#5 5#5) with rv := 6#5 :: mqd.mqRange 3#5 4#5 5#5 } = .ok () ∧
    mqd.me.eng.mq.length - 1 + mqd.mqPending < 2 ∧ mqd.ready (useOf (.mqz 4#5 5#5)) = .ok () :=
  ⟨ok_of (by decide +kernel), by decide, rfl, some_of (by decide), by decide +kernel, by decide +kernel, rfl,
    some_of (by decide +kernel), ok_of (by decide +kernel), rfl, rfl, rfl, by decide, rfl⟩

/-- An actor: one rack port of rate 1 in k0's rack, one output port of rate 1, a state block of 64 bytes. -/
def actorBytes : List Byte :=
  leBytes 4 0 ++ [0#8, 0#8, 1#8, 1#8] ++ leBytes 4 1 ++ leBytes 4 64 ++ leBytes 2 0x40 ++ rep 14 0#8 ++ leBytes 4 1 ++
    rep 28 0#8 ++ leBytes 4 0x80018100 ++ rep 60 0#8

/-- A running launch of that actor on die 0, with two instances. -/
def launch0 : Launch :=
  { st := 3, cause := 0, head := leBytes 8 0x10000 ++ leBytes 4 8 ++ [0#8, 0#8, 0#8, 0#8, 1#8, 1#8] ++ rep 46 0#8,
    actors := [⟨actorBytes, 2⟩], dies := [0], step := 0, repa := 0, repc := none, compl := none, pgen := 0, endRep := [], mask := 1, ending := false, memory := false }

/-- Instance 1 rests at a step boundary on core 1. -/
def inst1 : Inst :=
  { part := 0, lslot := 0, aidx := 0, num := 1, core := some 1, st := .home, atStep := true, busy := false, credit := [],
    block := 0x1000, mail := [], since := none, noDry := none, barred := [], again := false,
    tables := (span 0 6).map fun t => (t, 1), fwd := none,
    dest := none, markers := [], forced := false }

/-- The firing belongs to that launch; its rack is the rack of k2 with two filled slots; cluster 0 is allotted. -/
def running : State :=
  let r : Rack := { rackOfWord 0x18100 0 with nfill := 2, fill := 2, owner := some (instKey 0 0 0 0), port := some 0 }
  let s := demo.updPart 0 fun p => { p with slots := [(0, launch0)], cfg := [(8, 1#8), (0x158, 2#8)] }
  let s := (s.updMe fun k => { k with racks := [(0x100, r)] }).updT fun t => { t with binds := [(2, 0x100)] }
  let s := s.updCore 1 fun k => { k with racks := [(0x100, { r with owner := some (instKey 0 0 0 1), nfill := 0, fill := 0 })] }
  { s with insts := FMap.put s.insts (instKey 0 0 0 1) inst1 }

/-- A packet of 32 bytes stands at 0x200040, its header in g5. -/
def packet : State := setR (setR (setB running 0x40 (leBytes 8 0xFFF000000000)) 4#5 0x200040) 5#5 0xFFF000000000

theorem test_meets_MessagesEnds :
    let h := setTr packet fun r => { r with xstat := 0x10 }
    let full := packet.updMe fun k => { k with out0 := rep 8 (Pkt.fromHub 0 []) }
    (∃ r, (packet.after (.send 4#5 15#4 0#1 0#3)).readPacket 0x200040 = .ok r ∧
      okIs (r.1.aim r.2 15 (0, 0)) (fun q => q.1.outboxRoom q.1.t.special) = true) ∧
    (∃ q, packet.aim (rep 32 0#8) 0 (0, 0) = .ok q ∧ q.1.outboxRoom q.1.t.special = true) ∧
    (0xFFF000000000 / 2 ^ 51 % 8 = 0 ∧ hdrMalformed 0xFFF000000000 = false ∧ hdrLen 0xFFF000000000 = 32) ∧
    packet.ready (useOf (.sendp 5#5 4#5 6#5 15#4)) = .ok () ∧
    (∃ q, full.aim (rep 32 0#8) 15 (0, 0) = .ok q ∧ decide (q.1.outboxRoom q.1.t.special = false) = true) ∧ full.t.maskOpen = false ∧
    packet.t.inTrap = false ∧ h.t.inTrap = true ∧ (∃ f, packet.t.fir = some f ∧ decide (f.pri = 0) = true) ∧
    packet.ready { useOf (.hop 4#5 5#5) with rg := 4#5 :: 5#5 :: hopRegs 0x200040 } = .ok () ∧
    (packet.gIn 5#5).toNat / 2 ^ 51 = 0 ∧ packet.outboxRoom packet.t.special = true :=
  ⟨ok_of (by decide +kernel), ok_of (by decide +kernel), by decide, rfl, ok_of (by decide +kernel), rfl, rfl, rfl,
    some_of (by decide), rfl, by decide +kernel, rfl⟩

theorem test_meets_LaunchInstructions :
    let s := setR (setR (setR running 4#5 0x200040) 5#5 0x200080) 6#5 0x2000C0
    s.t.heldNow = false ∧ (s.gIn 4#5).toNat % 64 = 0 ∧ (s.gIn 5#5).toNat % 16 = 0 ∧ (s.gIn 6#5).toNat % 32 = 0 ∧
    (s.after (.launch 4#5 5#5)).outboxRoom false = true ∧ s.ready (useOf (.launch 4#5 5#5)) = .ok () ∧
    (∃ w, (s.after (.launchi 4#5 5#5 6#5)).readWords 0x2000C0 2 = .ok w ∧ (decide (fieldAt w.2 0 8 % 4 = 0) &&
      okIs (w.1.access 0x2000D0 4 .read) fun x => ((w.1.noteRead x).ioSeal x).outboxRoom false) = true) ∧
    (∃ i, FMap.find? s.insts s.t.inst = some i ∧ (s.launchOf i).any (fun l => decide (0 < l.actors.length ∧
      (at' ⟨[], 0⟩ l.actors 0).count + s.newPending i.lslot 0 < 65536 ∧ l.actors.foldl (fun t x => t + x.count) 0
        + (span 0 l.actors.length).foldl (fun t x => t + s.newPending i.lslot x) 0 < 1048576)) = true) ∧
    s.ready (useOf (.actnew 3#5 0#5)) = .ok () :=
  ⟨rfl, by decide +kernel, by decide +kernel, by decide +kernel, rfl, rfl, ok_of (by decide +kernel), some_of (by decide +kernel), rfl⟩

/-- The rack of k2 marked, with window 1 valid without scaling. -/
def marked : State :=
  let s := setR (setR running 4#5 0x200400) 5#5 1
  { s with wins := FMap.put s.wins (windowKey (padOfCore 0) 0x20000 1) (word (2 ^ 63)) }.updT fun t =>
    { t with marks := [(0x100, { Mark.clear with pred := true })] }

theorem test_meets_DryFitOrder :
    let w := FMap.get 0 marked.wins (windowKey (padOfCore marked.cur) 0x20000 1)
    let h := setTr marked fun r => { r with xstat := 0x10 }
    let late := marked.updCluster 0 fun c => { c with next := [(0, 7)] }
    let ord := setF marked fun f => { f with ran := 3, ord := some 5 }
    marked.boundRack 2#5 = .ok 0x100 ∧ (∃ r, marked.recSeen 0x100 = .ok r ∧ decide (r.sz ≤ 6 ∧ marked.stagingOk 0x200400 r.slotSize = true) = true) ∧
    marked.t.special = false ∧ h.t.special = true ∧ wValid w = true ∧ wbits w 9 8 = 0 ∧ (marked.markOf 0x100).pred = true ∧
    (running.marksIn 0 0 < 16 ∧ running.reserveRoom 0 0 8192 = true) ∧ marked.rateOnePort 0x100 = true ∧ 0x200400 % 64 = 0 ∧
    (Machine.Num.ofBits ((marked.gIn 5#5).truncate 32)).isNan = false ∧ flt ((marked.gIn 5#5).truncate 32) 0#32 = false ∧
    marked.ready (useOf (.rkpred 2#5 5#5)) = .ok () ∧
    (∃ f, marked.t.fir = some f ∧ decide (f.ran = 0 ∧ f.ord = none ∧ f.held = false ∧
      marked.orderBad marked.cur f.part f.inst 0 = false ∧ marked.nextOf marked.cur f.part = 0 ∧
      marked.orderBad marked.cur f.part f.inst 9 = false ∧ marked.nextOf marked.cur f.part ≠ 9) = true) ∧
    late.nextOf 0 0 = 7 ∧ marked.me.held = none ∧ (∃ f, ord.t.fir = some f ∧ decide (f.ran ≠ 0 ∧ f.ord = some 5) = true) ∧
    marked.orderedIn (clusterOf marked.cur) marked.myPart = [] :=
  ⟨rfl, ok_of (by decide +kernel), rfl, rfl, by decide, by decide, rfl, by decide +kernel, by decide +kernel, by decide,
    by decide +kernel, by decide +kernel, rfl, some_of (by decide +kernel), rfl, rfl, some_of (by decide), by decide +kernel⟩

/-- A group of core 0 and core 1, a collective of context 5 in flight, a strip to take, a registered region. -/
def group : State :=
  let d := leBytes 4 0 ++ leBytes 2 3 ++ leBytes 2 0 ++ leBytes 8 1 ++ rep 48 0#8
  let s := setR (setR (setB running 0x40 d) 4#5 0x200040) 5#5 0x1000
  let s := s.updPart 0 fun p => { p with handles := [(1, ⟨0x200000, 4096, true, true, true⟩)] }
  { s with dvs := [⟨0, 5, 0, false, [], [], 0, none, false⟩] }.updT fun t => { t with extq := [rep 64 0#8] }

theorem test_meets_CollectivesTransport :
    group.t.heldNow = false ∧ group.dvFlight group.myPart 37 = 0 ∧ group.gIn 0#5 = 0 ∧ group.gIn 4#5 ≠ 0 ∧
    (∃ r, (group.after (.dvcfg 3#5 4#5 37#6)).readBlock 0x200040 64 = .ok r ∧ decide (r.2.length = 64) = true) ∧
    group.dvFlight group.myPart 5 ≠ 0 ∧ group.ready (useOf (.dvcfg 3#5 0#5 5#6)) = .ok () ∧ group.dvOccupied < 66 ∧
    group.ready (useOf (.dvinj 3#5 4#5)) = .ok () ∧ group.t.extq = [rep 64 0#8] ∧ running.t.extq = [] ∧
    running.ready (useOf (.dvext 3#5)) = .ok () ∧ running.t.maskOpen = false ∧
    (∃ g, group.regionSeen group.myPart 0x1000 = some g ∧ decide (g.w = true ∧ g.rem = true) = true) ∧
    (group.part group.myPart).regs.length < 4096 ∧ running.regionSeen running.myPart 0x1000 = none ∧
    (∃ r, (group.after (.xsend 3#5 4#5)).readBlock 0x200040 64 = .ok r ∧ decide (group.staleSeen 0 = false) = true) ∧
    FMap.find? group.hub.nodes 7 = none ∧ group.ready (useOf (.xcc 3#5 4#5)) = .ok () ∧
    FMap.find? ({ group with hub := { group.hub with nodes := [(7, ⟨2, 0, 0, []⟩)] } } : State).hub.nodes 7 = some ⟨2, 0, 0, []⟩ :=
  ⟨rfl, rfl, rfl, by decide, ok_of (by decide +kernel), by decide, rfl, by decide, rfl, rfl, rfl, rfl, rfl, some_of (by decide),
    by decide, rfl, ok_of (by decide +kernel), rfl, rfl, rfl⟩

/-- The manual's encodings of a group descriptor: this one is not refused. -/
theorem test_meets_CollectivesTransport_group :
    gBad (leBytes 4 0 ++ leBytes 2 3 ++ leBytes 2 0 ++ leBytes 8 1 ++ rep 48 0#8) (running.cfg 0 8 40) = false := by decide +kernel

/-- A firing with a trap vector and an owned slot; the same in a handler; the same without a vector. -/
def trapped : State := setTr (owned.updT fun t => t) fun r => { r with xvec := 0x10000 }

theorem test_meets_TrapEntry :
    (∃ f, trapped.t.fir = some f ∧ decide (f.pri ≤ 1) = true) ∧ trapped.me.chunk = none ∧ trapped.t.inTrap = false ∧
    trapped.t.tr.xvec ≠ 0 ∧ (trapped.slot 3).owner = some (instKey 0 0 0 0) ∧ FMap.find? trapped.t.slots 3 ≠ none ∧
    (∀ ch, ({ trapped.me.newChunk with cnt := 0 } : Chunk) = ch → ch.cnt = 0) :=
  ⟨some_of (by decide), rfl, rfl, by decide, rfl, by decide, by rintro _ rfl; rfl⟩

theorem test_meets_TrapReturn :
    let s := setTr running fun r => { r with xstat := 0x13, xpc := 0x10000, xvec := 0x10000 }
    let z := setTr running fun r => { r with xvec := 0 }
    (∃ f, s.t.fir = some f ∧ decide (f.down = false ∧ f.pri = s.t.level) = true) ∧ s.t.sup = true ∧ s.t.inTrap = true ∧ s.chunkBusy = false ∧
    s.t.tr.xpc.toNat % 4 = 0 ∧ s.noChunk.checkTarget s.t.tr.xpc.toNat = .ok () ∧
    ((sup running).t.sup = true ∧ (sup running).t.inTrap = false) ∧ running.t.sup = false ∧
    s.me.chunk = none ∧ s.me.held = none ∧ (FMap.find? s.insts (instKey 0 0 0 0)).isSome = true ∧ z.t.tr.xvec = 0 :=
  ⟨some_of (by decide), rfl, rfl, rfl, by decide, by decide +kernel, ⟨rfl, rfl⟩, rfl, rfl, rfl, rfl, rfl⟩

/-- User mode may write register 6 and above; a WFI whose deadline is past, to come, and armed with and without events. -/
theorem test_meets_SystemRegisters :
    let s := setR (setR running 4#5 0xFFFFFFFFFFFFFFFF) 5#5 0
    let a (m : Nat) := s.updMe fun k => k.setWaiting 0 ⟨.wfi 3#5 (2 ^ 64 - 1) m, none, none⟩
    (sup s).t.sup = true ∧ s.t.sup = false ∧ 6 ≤ (0x010#12 : BitVec 12).toNat ∧ (5#12 : BitVec 12).toNat < 6 ∧
    s.ready (useOf (.csrsw 4#5 0x022#12)) = .ok () ∧ s.ready (useOf (.watch 3#5 4#5 5#5)) = .ok () ∧
    s.ready (useOf (.wfi 3#5 4#5)) = .ok () ∧ s.chunkBusy = false ∧ ({ s with cycle := 8 } : State).timeUp 1 = true ∧ s.timeUp (s.gIn 5#5).toNat = false ∧
    State.timeUp State.reset 1 = false ∧ s.t.maskOpen = false ∧ (s.me.waiting s.t.level).await = .none ∧
    ((a 2).me.waiting 0).await = .wfi 3#5 (2 ^ 64 - 1) 2 ∧ ((a 0).me.waiting 0).await = .wfi 3#5 (2 ^ 64 - 1) 0 ∧
    (2 : Nat) ≠ 0 ∧ (a 2).ready (useOf (.wfi 3#5 4#5)) = .ok () :=
  ⟨rfl, rfl, by decide, by decide, rfl, rfl, rfl, rfl,
    by simp only [State.timeUp, State.time, Bool.and_eq_true, decide_eq_true_eq]; exact ⟨by decide, by split <;> omega⟩, rfl, by decide, rfl, rfl,
    rfl, rfl, by decide, rfl⟩

/-- Window 1 by its address; a translation and none; a live region and none; a free handle. -/
theorem test_meets_TranslationsHandles :
    let s := setR (setR group 4#5 0x210000) 5#5 0x1000
    (∃ q, s.windowAt 0x210000 = .ok q ∧ decide (s.windowOwned 0x210000 q.2.1 q.2.2.2 = true ∧ wRefused q.2.2.1 0 = false) = true) ∧
    s.ready (useOf (.winset 3#5 4#5 0#5)) = .ok () ∧ (s.translate s.cur s.myPart 0x210000).isSome = true ∧
    s.translate s.cur s.myPart 0x800000 = none ∧ s.walk s.myPart 0x800000 = .error 1 ∧ s.ready (useOf (.probe 3#5 4#5)) = .ok () ∧
    (sup s).t.sup = true ∧ s.t.sup = false ∧ s.chunkBusy = false ∧ (sup s).ready (useOf (.tlbi 4#5 2#2)) = .ok () ∧
    (∃ n, s.freeHandle s.myPart = some n ∧ decide (0 < n) = true) ∧
    (0x210000 % 64 = 0 ∧ 0xC000000000 % 2 ^ 40 % 64 = 0 ∧ 0xC000000000 % 2 ^ 40 ≤ 0xC000000000 ∧ 0x210000 + 0xC000000000 ≤ 2 ^ 48) ∧
    s.ready (useOf (.hnew 3#5 4#5 5#5)) = .ok () ∧ s.t.heldNow = false ∧ (s.region s.myPart 0x1000).isSome = true ∧
    s.t.maskOpen = false ∧ s.ready (useOf (.hrev 3#5 5#5)) = .ok () ∧ s.region s.myPart 0x2000 = none :=
  ⟨ok_of (by decide +kernel), rfl, by decide, by decide +kernel, by decide +kernel, rfl, rfl, rfl, rfl, rfl, some_of (by decide +kernel), by decide, rfl, rfl,
    by decide, rfl, rfl, rfl⟩

/-- A supervisor firing saves instance 1 of its launch, which rests on core 1, to 0x200400, and restores it from there. -/
def saver : State := setR (setR (sup running) 4#5 0x1000) 5#5 0x200400

theorem test_meets_ContextInstructions :
    saver.t.sup = true ∧ running.t.sup = false ∧ saver.chunkBusy = false ∧ saver.t.heldNow = false ∧
    saver.byHandle saver.myPart 0x1000 = .ok (instKey 0 0 0 1, inst1) ∧ 0x200400 % 256 = 0 ∧ inst1.core = some 1 ∧
    inst1.resting = true ∧ instKey 0 0 0 1 ≠ saver.t.inst ∧ saver.engineIdle (instKey 0 0 0 1) = true ∧ inst1.st ≠ .stream ∧
    (∃ xs, saver.imageWrites 0x200400 ((saver.contextImage (instKey 0 0 0 1) 1 inst1).length / 64) = .ok xs ∧
      saver.mayCommit saver.cur (saver.imageChunk xs (saver.contextImage (instKey 0 0 0 1) 1 inst1)) = true) ∧
    saver.ready (useOf (.ctxsave 3#5 4#5 5#5)) = .ok () ∧
    ((saver.imageSpans (instKey 0 0 0 1) 1 inst1).any (fun p => saver.spoiled p.1 p.2) = false ∧
      (saver.imageSpans (instKey 0 0 0 1) 1 inst1).any (fun p => ({ saver with poison := [p.1] } : State).spoiled p.1 p.2) = true) :=
  ⟨rfl, rfl, rfl, rfl, by decide +kernel, by decide, rfl, rfl, by decide, by decide +kernel, by decide,
    ok_of (by decide +kernel), rfl, by decide +kernel⟩

/-- The image of an actor without racks and slots, its CRC-32C 0x4F379562 computed apart from the model. -/
def imageBytes0 : List Byte :=
  leBytes 8 0x8000000001 ++ leBytes 8 0x1000 ++ leBytes 8 1 ++ leBytes 8 64 ++ leBytes 4 0x4F379562 ++ rep 92 0#8

/-- The image stands in memory, and the launch's actor has that shape. -/
def restorer : State :=
  (setB saver 0x400 imageBytes0).updPart 0 fun p =>
    { p with slots := [(0, { launch0 with actors := [⟨leBytes 16 (2 ^ 64 + 64 * 2 ^ 96) ++ rep 112 0#8, 2⟩] })] }

/-- What the image holds. -/
def image0 : Image := ⟨1, rep 64 0#8, [], []⟩

theorem test_crc32c : crc32c (imageBytes0.take 0x20 ++ rep 4 0#8 ++ imageBytes0.drop 0x24) = 0x4F379562 := by
  have e : imageBytes0.take 0x20 ++ rep 4 0#8 ++ imageBytes0.drop 0x24 =
    (leBytes 16 0x10000000008000000001) ++ leBytes 16 0x400000000000000001 ++ rep 32 0#8 ++ rep 32 0#8 ++ rep 32 0#8 := by decide +kernel
  have h1 : (leBytes 16 0x10000000008000000001).foldl (fun c b => crcBit 8 (c ^^^ b.toNat)) 0xFFFFFFFF = 0x1A9652D5 := by decide +kernel
  have h2 : (leBytes 16 0x400000000000000001).foldl (fun c b => crcBit 8 (c ^^^ b.toNat)) 0x1A9652D5 = 0xCB61D555 := by decide +kernel
  have h3 : (rep 32 0#8).foldl (fun c b => crcBit 8 (c ^^^ b.toNat)) 0xCB61D555 = 0x96FFBC1E := by decide +kernel
  have h4 : (rep 32 0#8).foldl (fun c b => crcBit 8 (c ^^^ b.toNat)) 0x96FFBC1E = 0x272D58E8 := by decide +kernel
  have h5 : (rep 32 0#8).foldl (fun c b => crcBit 8 (c ^^^ b.toNat)) 0x272D58E8 = 0xB0C86A9D := by decide +kernel
  unfold crc32c
  rw [e, List.foldl_append, List.foldl_append, List.foldl_append, List.foldl_append, h1, h2, h3, h4, h5]
  decide

theorem test_meets_ContextInstructions_restore :
    let s := restorer
    (∃ r, (s.after (.ctxrest 3#5 4#5 5#5)).readBlock 0x200400 64 = .ok r ∧
      decide (fieldAt r.2 4 4 = 128) = true) ∧
    (∃ q, (s.after (.ctxrest 3#5 4#5 5#5)).imageBytes 0x200400 2 = .ok q ∧ (decide (q.2 = imageBytes0) &&
      ((s.liftInst (instKey 0 0 0 1)).restoreCore (instKey 0 0 0 1) inst1 image0 false).any fun k =>
        ((q.1.noChunk.setG 3#5 (word k)).restore (instKey 0 0 0 1) k (some 1) image0).isSome) = true) ∧
    readImageFor 0 (s.descOfInst inst1) imageBytes0 = some image0 ∧
    s.ready (useOf (.ctxrest 3#5 4#5 5#5)) = .ok () ∧ inst1.st = .home := by
  refine ⟨ok_of (by decide +kernel), ok_of (by decide +kernel), ?_, rfl, rfl⟩
  unfold readImageFor
  rw [test_crc32c]
  decide +kernel

/-! ### Witnesses: steps of the device -/

/-- The state of a device step: its operands and bytes. -/
def turn (s : State) (args : List Nat) (bytes : List Byte) : State := { s with args := args, payload := bytes }

/-- Increments on the way to counter 5 of core 1, a credit, and a stream in refill. -/
def arriving : State :=
  let s := (stream running 24 [] 0).updT fun t => { t with streams := t.streams.map fun p => (p.1, { p.2 with next := 0 }) }
  { s with posts := [⟨9, 1, 5, 3, none⟩, ⟨8, 1, 5, 3, some (9, 0, 4)⟩], credits := [(instKey 0 0 0 0, 0, 1)] }

theorem test_meets_CounterCacheSteps :
    let s := turn arriving [1] []
    (pick s.posts 1).isSome = true ∧ (s.core 1).takeover = false ∧
    (∀ q ∈ s.posts.take 1, ¬(q.agent = 8 ∧ q.core = 1 ∧ q.idx = 5)) ∧
    pick s.credits 0 = some ((instKey 0 0 0 0, 0, 1), []) ∧ (FMap.find? s.insts (instKey 0 0 0 0)).isSome = true ∧
    s.walk s.me.part 0x800000 = .error 1 ∧
    (∃ x, (s.die 0).code[0]? = some x ∧ decide (x.image ≤ 0x10004 ∧ 0x10004 < x.image + x.bytes.length ∧ 0 ∈ s.codeUsers 0 x.id) = true) ∧
    (∃ x, FMap.find? s.t.streams 24 = some x ∧ decide (s.me.takeover = false ∧ s.refillRoom 24 x ≠ 0) = true) :=
  ⟨rfl, rfl, by decide, rfl, rfl, by decide +kernel, some_of (by decide +kernel), some_of (by decide +kernel)⟩

/-- A page table at 0 whose second level maps the first gigabyte to the core scratchpads, the next to the counters and the
third to HBM. -/
def walked (s : State) : State :=
  s.poke (((span 0 8).zip (leBytes 8 (2 ^ 63 + 0x1000)) ++ (span 0x1000 24).zip (leBytes 8 (2 ^ 63 + 2 ^ 58 + 0x10000000000F) ++
    leBytes 8 (2 ^ 63 + 2 ^ 58 + 0x40000000000F) ++ leBytes 8 (2 ^ 63 + 2 ^ 58 + 0xF))).map fun p => (p.1, 0xFF#8, p.2))

theorem test_meets_CounterCacheSteps_walk :
    (∃ l, (walked running).walk 0 0x3FFFFFF8 = .ok l ∧ decide (l.base = padOfCore 0 ∧ l.size = 30) = true) ∧
    running.me.part = 0 := ⟨ok_of (by decide +kernel), rfl⟩

/-- A copy of eight 4-byte elements from 0x200040 to 0x200400 on channel 2, its counter 7 of core 0. -/
def copy0 : Copy :=
  { inst := instKey 0 0 0 0, part := 0, user := true, peng := false, ch := 2, id := 1, three := false,
    desc := leBytes 8 0x200040 ++ leBytes 8 0x200400 ++ leBytes 8 0 ++ leBytes 4 2 ++ leBytes 4 3 ++ leBytes 8 0 ++
      leBytes 4 8 ++ leBytes 4 1 ++ leBytes 4 1 ++ leBytes 4 1 ++ leBytes 8 4 ++ rep 24 0#8 ++ leBytes 8 4 ++ rep 24 0#8 ++ rep 8 0#8,
    active := true, wins := [], regions := (none, none), perms := [], cnt := some (0, 7), pos := 0, bytes := 0, place := none,
    bad := none, tlb := [], born := 0 }

/-- The copies of core 0. -/
def copies (l : List Copy) : State :=
  turn (running.updEng 0 fun g => { g with copies := l }) [2] []

theorem test_meets_CopySteps :
    let w := copies [copy0, { copy0 with ch := 1, active := false }]
    let s := copies [copy0]
    let d := copies [{ copy0 with pos := 8, bytes := 32 }]
    let b := copies [{ copy0 with bad := some .protWrite }]
    let f := copies [{ copy0 with desc := leBytes 8 0x800000 ++ copy0.desc.drop 8 }]
    (s.refillDue = false ∧ s.me.eng.nextCh = some 2 ∧ s.me.eng.nextCh ≠ some 1 ∧ f.me.eng.nextCh = some 2 ∧ arriving.refillDue = true) ∧
    (w.me.eng.copies.filter fun x => x.active).length < 32 ∧ w.me.eng.copies.findIdx? (fun x => !x.active) = some 1 ∧
    s.me.takeover = false ∧ s.me.eng.head 2 = some copy0 ∧ copy0.active = true ∧ copy0.pos < copy0.total ∧ copy0.rk = false ∧
    (∃ x, s.copyElems 0 copy0 ⟨[], [], 0⟩ (s.copyRun 0 copy0) = .ok x ∧ decide (s.away (x.out.map (·.1)) = false ∧ x.out.length = 32) = true) ∧
    (∃ x, f.me.eng.head 2 = some x ∧ errIs (f.copyElems 0 x ⟨[], [], 0⟩ (f.copyRun 0 x)) (fun e => decide (e = .noTranslation)) = true) ∧
    (∃ x, d.me.eng.head 2 = some x ∧ decide (x.total ≤ x.pos ∧ d.cntAway x.cnt = false ∧ d.copyTurn 0 x = true) = true) ∧
    (∃ x, b.me.eng.head 2 = some x ∧ decide (x.bad = some .protWrite ∧ x.peng = false ∧ (FMap.get Latch.clear b.t.chLatch 2).ep = false ∧ b.me.chunk = none ∧ b.me.held = none) = true) :=
  ⟨by decide +kernel, by decide, rfl, rfl, by decide +kernel, rfl, by decide +kernel, by decide +kernel, ok_of (by decide +kernel),
    some_of (by decide +kernel), some_of (by decide +kernel), some_of (by decide +kernel)⟩

/-- A copy that holds the handle 0x1000, its last beat landed: HREV revokes the handle and then waits for it. -/
def revoking : State :=
  setR (group.updEng 0 fun g => { g with copies :=
    [{ copy0 with desc := copy0.desc.take 16 ++ leBytes 4 0x1000 ++ copy0.desc.drop 20, pos := 8, bytes := 32 }] }) 4#5 0x1000

theorem test_meets_TranslationsHandles_revoke :
    let w := revoking.updT fun t => { t with maskOpen := true }
    let a := revoking.updMe fun k => k.setWaiting 0 ⟨.hrev 0x1000 0, none, none⟩
    let z := a.updEng 0 fun g => { g with copies := [] }
    revoking.holding 0 0x1000 = 1 ∧ revoking.landed 0 0x1000 = 1 ∧ (group.holding 0 0x1000 = 0) ∧
    (revoking.me.waiting revoking.t.level).await = .none ∧ revoking.chunkBusy = false ∧ revoking.t.heldNow = false ∧
    revoking.ready (useOf (.hrev 3#5 4#5)) = .ok () ∧ (revoking.region 0 0x1000).isSome = true ∧ revoking.t.maskOpen = false ∧
    (w.region 0 0x1000).isSome = true ∧ w.holding 0 0x1000 ≠ 0 ∧ w.t.maskOpen = true ∧ w.ready (useOf (.hrev 3#5 4#5)) = .ok () ∧
    (a.me.waiting 0).await = .hrev 0x1000 0 ∧ a.holding 0 0x1000 ≠ 0 ∧ z.holding 0 0x1000 = 0 ∧ z.ready (useOf (.hrev 3#5 4#5)) = .ok () :=
  ⟨by decide +kernel, by decide +kernel, by decide +kernel, rfl, rfl, rfl, rfl, by decide +kernel, rfl, by decide +kernel, by decide +kernel, rfl, rfl,
    rfl, by decide +kernel, by decide +kernel, rfl⟩

/-- A rack-mode copy of 16 elements into one slot of the rack of core 1, and the slots that are left there. -/
def copyK : Copy :=
  let d := leBytes 8 0x200040 ++ leBytes 8 0x600000 ++ leBytes 8 0 ++ leBytes 4 (2 + 8 + 16) ++ leBytes 4 3 ++ leBytes 8 0 ++
    leBytes 4 16 ++ leBytes 4 1 ++ leBytes 4 1 ++ leBytes 4 1 ++ leBytes 8 4 ++ rep 24 0#8 ++ leBytes 8 4 ++ rep 24 0#8 ++
    leBytes 8 0x80018100
  { copy0 with desc := d }

theorem test_meets_CopySteps_rack :
    let s := copies [copyK]
    copyK.rk = true ∧ copyK.rkn ≠ 0 ∧ copyK.place = none ∧ s.me.eng.head 2 = some copyK ∧
    (∃ k, s.copyRack 0 copyK = .ok k ∧ decide (k.1 = 1 ∧ k.2.1 = 0x100 ∧ copyK.rkn ≤ k.2.2.1.n - k.2.2.1.nfill - k.2.2.1.reserved) = true) :=
  ⟨by decide +kernel, by decide +kernel, rfl, by decide +kernel, ok_of (by decide +kernel)⟩

/-- A matrix command. -/
def mat0 : MatCmd :=
  { op := .mzero, slot := 3, par := [], inst := 0, part := 0, user := true, peng := false, fir := 0, frozen := 0, handler := false, forked := true, started := false,
    wins := [], scale := 0, gaugeA := [], gaugeB := [], bad := none, cnt := none, regions := (none, none), sa := [], sb := [], tlb := [], born := 0 }

/-- A Marquetry command that adds or zeroes in the scratchpad of die 0. -/
def mq0 (zero : Bool) : MqCmd :=
  { zero := zero, desc := mqBytes, lo := 0, hi := 0, mb := 7, pt := rep 16 0x3F000000#32, grad := rep 16 0x3F800000#32, inst := 0, part := 0,
    user := true, peng := false, forked := true, need := 64, base := 0x700000, pos := 0, bad := none, tlb := [], born := 0 }

/-- Commands at the engines of core 0, which reach the die scratchpad at 0x700000. -/
def engines (mat : List MatCmd) (mq : List MqCmd) : State :=
  owned.updEng 0 fun g => { g with mat := mat, mq := mq }

theorem test_meets_EngineSteps :
    let a := engines [mat0] [mq0 false]
    let b := engines [{ mat0 with started := true }] [mq0 true]
    let c := engines [] [{ mq0 false with bad := some .protWrite }]
    a.me.takeover = false ∧ a.me.eng.mat = [mat0] ∧ mat0.started = false ∧ b.matAway 0 { mat0 with started := true } = false ∧ b.me.held = none ∧
    (∃ x, FMap.find? b.t.slots 3 = some x ∧ decide (x.freeing = false) = true) ∧ mat0.op.links = (none, none) ∧ mat0.op = .mzero ∧
    (∃ n, (mq0 false).work.head? = some n ∧ decide ((a.mqWord 0 (mq0 false) [] ((mq0 false).at n.1)).isOk = true) = true) ∧
    (∃ n, (mq0 true).work.head? = some n ∧ decide ((b.mqzWords 0 (mq0 true) []
      ((((mq0 true).work.take 64).map (·.1)).takeWhile fun k => (mq0 true).at k / 256 = (mq0 true).at n.1 / 256)).isOk = true) = true) ∧
    (∃ m, c.me.eng.mq.head? = some m ∧ decide (m.bad = some .protWrite ∧ m.peng = false ∧ (FMap.get Latch.clear c.me.mbLatch m.mb).ep = false) = true) :=
  ⟨rfl, rfl, rfl, by decide +kernel, rfl, some_of (by decide), rfl, rfl, some_of (by decide +kernel), some_of (by decide +kernel), some_of (by decide)⟩

/-- A state whose racks hold no speculative token. -/
theorem noSpec_of {s : State} (h : s.cores.all (fun p => p.2.racks.all fun q => q.2.senders.all fun x => x.2.2.1 = 0) = true) : s.NoSpec := by
  intro c base r hr x hx
  have mem {V : Type} {m : FMap V} {k : Nat} {v : V} (e : FMap.find? m k = some v) : ∃ p ∈ m, p.2 = v := by
    induction m with
    | nil => simp [FMap.find?] at e
    | cons p l ih =>
      simp only [FMap.find?] at e
      split at e
      · exact ⟨p, by simp, by simpa using e⟩
      · split at e
        · cases e
        · obtain ⟨q, hq, rfl⟩ := ih e; exact ⟨q, by simp [hq], rfl⟩
  simp only [List.all_eq_true, decide_eq_true_eq] at h
  have get {V : Type} (d : V) (m : FMap V) (k : Nat) : FMap.get d m k = (FMap.find? m k).getD d := by
    induction m with
    | nil => rfl
    | cons p l ih => simp only [FMap.get, FMap.find?]; split_ifs <;> simp [ih]
  have e : (s.core c).racks = ((FMap.find? s.cores c).getD Core.reset).racks := by rw [State.core, get]
  rw [e] at hr
  cases hc : FMap.find? s.cores c with
  | none => simp [hc, Core.reset, FMap.find?] at hr
  | some k =>
    obtain ⟨p, hp, rfl⟩ := mem hc
    have hr' : FMap.find? p.2.racks base = some r := by simpa [hc] using hr
    obtain ⟨q, hq, rfl⟩ := mem hr'
    exact h p hp q hq x hx

/-- Core 0 waits for a reply into g3; an atomic and a barrier request are on their way, and a wait is held. -/
def homeward : State :=
  let s := running.updMe fun k => k.setWaiting 0 ⟨.reply 3#5 0x10000 ⟨k.t, k.t, []⟩, none, none⟩
  { s with far := [⟨0, 0, true, padOfCore 0 + 0x40, 7, 0, 0, 0x200040, true, 0, 0, 0⟩],
           bars := [⟨0, 0, padOfCore 0 + 0x60, 1, 0, 0x200060, 0, 0⟩, ⟨0, 1, padOfCore 0 + 0x80, 1, 0, 0x200080, 0, 0⟩,
                    ⟨0, 3, padOfCore 0 + 0xA0, 0, 0, 0x2000A0, 0, 0⟩, ⟨0, 3, padOfCore 0 + 0xC0, 1, 0, 0x2000C0, 0, 0⟩] }

theorem test_meets_HomeSteps :
    let s := homeward
    let q := ({ s with tokens := [(arbiter 0 0, [1])] }.updCore 1 fun k => { k with solo := some ⟨0, 0, 256, [], false, true⟩ }).updMe fun k =>
      { k with chunk := some { k.newChunk with cnt := 1 } }
    let a := s.updMe fun k => { k with wait0 := { k.wait0 with reply := some (9, none) } }
    let r := s.updMe fun k => { k with wait0 := { k.wait0 with reply := some (0, some (.barrierOver, 0x200080)) } }
    (pick s.far 0).isSome = true ∧ s.homeFree (padOfCore 0 + 0x40) = true ∧ s.badBytes (padOfCore 0 + 0x40) 8 = false ∧
    (s.core 0).chunk = none ∧ (s.core 0).held = none ∧ ((s.core 0).waiting 0).await = .reply 3#5 0x10000 ⟨running.t, running.t, []⟩ ∧
    ((s.bar (padOfCore 0 + 0x60)).apply 0 1).isOk = true ∧ (s.bar (padOfCore 0 + 0x80)).apply 1 1 = .error .barrierOver ∧
    s.waitOver ⟨0, 3, padOfCore 0 + 0xA0, 0, 0, 0x2000A0, 0, 0⟩ = true ∧ s.waitOver ⟨0, 3, padOfCore 0 + 0xC0, 1, 0, 0x2000C0, 0, 0⟩ = false ∧
    (s.homeOf (padOfCore 0 + 0x40) = some 0 ∧ s.t.fir0.any (·.serial = 0) = true ∧ s.homeOf (padOfCore 0 + 0x60) = some 0 ∧
      s.badBytes (padOfCore 0 + 0x60) 20 = false ∧ s.homeFree (padOfCore 0 + 0x60) = true ∧ s.barHeld = []) ∧ s.NoSpec ∧
    (q.homeFree (padOfCore 0 + 0x40) = true ∧ (q.enterHome (padOfCore 0 + 0x40)).homeWaits (padOfCore 0 + 0x40) = true) ∧
    (a.me.waiting 0).reply = some (9, none) ∧ (r.me.waiting 0).reply = some (0, some (.barrierOver, 0x200080)) :=
  ⟨rfl, by decide +kernel, rfl, rfl, rfl, rfl, by decide +kernel, by decide +kernel, by decide +kernel, by decide +kernel, by decide +kernel,
    noSpec_of (by decide +kernel), by decide +kernel, rfl, rfl⟩

/-- Core 1 idle, with instance 1 in its queue, its rack filled, and room behind its port. -/
def queued : State :=
  let e : Entry := ⟨instKey 0 0 0 1, 0, 0, 0, false⟩
  let s := { running with insts := FMap.put running.insts (instKey 0 0 0 1) { inst1 with atStep := false }, cur := 1 }
  s.updCore 1 fun k => { k with runq := [e], racks := [(0x100, { rackOfWord 0x18100 0 with nfill := 2, fill := 2, owner := some (instKey 0 0 0 1), port := some 0 })] }

/-- Core 0 runs a priority-0 firing, and a priority-1 instance of the core is in its queue. -/
def preempting : State :=
  let e : Entry := ⟨instKey 0 0 0 2, 1, 0, 0, false⟩
  let d := leBytes 4 0 ++ [1#8, 0#8, 1#8, 0#8] ++ leBytes 4 1 ++ leBytes 4 64 ++ leBytes 2 0 ++ rep 110 0#8
  let r : Rack := { rackOfWord 0x18700 0 with nfill := 1, fill := 1, owner := some (instKey 0 0 1 0), port := some 0, mail := true }
  let s := running.updPart 0 fun p => { p with slots := [(0, { launch0 with actors := [⟨actorBytes, 2⟩, ⟨d, 1⟩] })] }
  let s := s.updCore 0 fun k => { k with runq := [{ e with inst := instKey 0 0 1 0 }], racks := k.racks ++ [(0x700, r)] }
  { s with insts := FMap.put s.insts (instKey 0 0 1 0) { inst1 with aidx := 1, num := 0, core := some 0, atStep := false, mail := [(0, 0x700)] } }

theorem test_meets_IssueSteps :
    (∃ e, queued.choose 1 = some e ∧ decide (e.1.inst = instKey 0 0 0 1) = true) ∧ queued.t.fir = none ∧ queued.me.chunk = none ∧
    queued.me.draining = false ∧ queued.me.takeover = false ∧ (FMap.find? queued.insts (instKey 0 0 0 1)).isSome = true ∧
    queued.preemptor = none ∧ preempting.me.chunk = none ∧
    (∃ e, preempting.preemptor = some e ∧
      (FMap.find? preempting.insts e.inst).any (fun i => decide (aPri (preempting.descOfInst i) = 1)) = true) :=
  ⟨some_of (by decide +kernel), rfl, rfl, rfl, rfl, rfl, by decide +kernel, rfl, some_of (by decide +kernel)⟩

/-- An ended chunk, free to commit and behind another core's token; solo mode; a held firing; a dry one; a due trap. -/
def sealed : State := demo.updMe fun k => { k with chunk := some { k.newChunk with sealed := true } }
/-- A held firing, dry on a rack whose real tile has landed or without a prediction. -/
def holding (dry : Option Nat) : State :=
  let s := setF running fun f => { f with held := true, dry := dry }
  s.updMe fun k => { k with held := k.t.fir0.map fun f => { heldOf f k.t with tile := rep 64 0#8 },
                            racks := k.racks.map fun p => (p.1, { p.2 with wait := 1 }) }

theorem test_meets_ResolutionSteps :
    let b := { sealed with tokens := [(arbiter 0 0, [1])] }.updCore 1 fun k => { k with solo := some ⟨0, 0, 256, [], false, true⟩ }
    let g := { demo with tokens := [(arbiter 0 0, [0])] }.updMe fun k => { k with solo := some ⟨0, 0, 256, [], false, false⟩ }
    let late := setF (holding none) fun f => f
    let ordered := late.updMe fun k => { k with held := k.held.map fun h => { h with fir := { h.fir with ord := some 5 } } }
    let bad := (holding (some 0x100)).updMe fun k => { k with held := k.held.map fun h => { h with tile := rep 4 0#8 ++ [0#8, 0#8, 0x80#8, 0x3F#8] ++ rep 56 0#8 } }
    let due := trapped.updMe fun k => { k with wait0 := { k.wait0 with trap := some (.staleHandle, 0, 0x10000) } }
    let more := sealed.updT fun t => { t with marks := [(0x100, { Mark.clear with pred := true })] }
    let glue := (late.updPart 0 fun p => { p with cfg := [(8, 1#8)] }).updT fun t => { t with marks := [(0x100, { Mark.clear with pred := true })] }
    (∃ ch, sealed.me.chunk = some ch ∧ (ch.sealed && sealed.mayCommit 0 ch && sealed.chunkFits 0 && !b.mayCommit 0 ch) = true) ∧
    (∃ ch, more.me.chunk = some ch ∧ (ch.sealed && more.mayCommit 0 ch && !more.chunkFits 0) = true) ∧
    (late.marksFit 0 { late.me with held := none } ((late.cluster 0).overflow.filter (· ≠ 0)).length = true ∧
      glue.me.held = late.me.held ∧ (late.me.held.any fun h => glue.mayGlue 0 h) = true ∧
      glue.marksFit 0 { glue.me with held := none } ((glue.cluster 0).overflow.filter (· ≠ 0)).length = false) ∧
    sealed.t.heldNow = false ∧
    (∃ so, g.me.solo = some so ∧ decide ((FMap.get [] g.tokens (arbiter so.scope 0)).head? = some 0) = true) ∧
    (∃ h, late.me.held = some h ∧ (late.mayGlue 0 h) = true) ∧ (∃ h, ordered.me.held = some h ∧ (!ordered.mayGlue 0 h) = true) ∧
    (∃ h, (holding (some 0x100)).me.held = some h ∧ (decide (h.fir.dry = some 0x100 ∧ h.accepted = false ∧ ((holding (some 0x100)).me.rack? 0x100).any (fun r => r.wait ≠ 0) = true) &&
      (tileVerdict ((holding (some 0x100)).me.firmMark 0x100) ((holding (some 0x100)).bytesAt (padOfCore 0 + 0x4080) 64) h.tile).1) = true) ∧
    (∃ h, bad.me.held = some h ∧ (!(tileVerdict (bad.me.firmMark 0x100) (bad.bytesAt (padOfCore 0 + 0x4080) 64) h.tile).1) = true) ∧
    due.dueTrap = some (.staleHandle, 0, 0x10000) ∧ due.me.chunk = none ∧ due.t.inTrap = false ∧ due.t.tr.xvec ≠ 0 :=
  ⟨some_of (by decide +kernel), some_of (by decide +kernel), by decide +kernel, rfl, some_of (by decide +kernel), some_of (by decide +kernel),
    some_of (by decide +kernel), some_of (by decide +kernel), some_of (by decide +kernel), rfl, rfl, rfl, by decide⟩

theorem test_meets_KilnSteps :
    let s := turn (running.updPart 0 fun p => { p with cfg := FMap.put p.cfg 0x90 1#8 }) [500, 52, 0, 10, 0, 10, 0, 10, 0, 500] []
    let w := setF running fun f => { f with cycles := 64 }
    let u := { running with hub := { running.hub with switching := [0] } }.updCluster 0 fun c => { c with kilns := [(0, ⟨0, 7, 0, false⟩)] }
    s.kilnPlanOk (pairsOf (s.args.take 8)) (pairsOf (s.args.drop 8)) = true ∧ s.kilnPlanOk [] [] = false ∧
    (0 ∈ allClusters ∧ s.sharers 0 = [(0, 1)] ∧ (s.sharers 0).foldl (fun n p => n + p.2) 0 ≠ 0 ∧ s.hub.switching.contains 0 = false) ∧
    (u.hub.switching.contains 0 = true ∧ FMap.find? (u.cluster 0).kilns 0 = some ⟨0, 7, 0, false⟩) ∧
    (running.t.fir.any fun f => decide (f.cls < 4 ∧ f.cycles < 64 * (f.draws + 1))) = true ∧
    (w.t.fir.any fun f => decide (f.cls < 4 ∧ 64 * (f.draws + 1) ≤ f.cycles)) = true ∧
    (running.updEng 0 fun g => { g with due := [⟨8, 0, 0⟩] }).me.eng.due = [⟨8, 0, 0⟩] ∧ (running.die 0).hot = false := by
  decide +kernel

/-- Instance 1 has a message port whose rack has room; a packet of 32 bytes is on its way to it. -/
def posted : State :=
  let d := leBytes 4 0 ++ [0#8, 0#8, 1#8, 0#8] ++ leBytes 4 1 ++ leBytes 4 64 ++ leBytes 2 0 ++ rep 110 0#8
  let r : Rack := { rackOfWord 0x18700 0 with owner := some (instKey 0 0 0 1), port := some 0, mail := true }
  let s := running.updPart 0 fun p => { p with slots := [(0, { launch0 with actors := [⟨d, 2⟩] })] }
  let s := s.updCore 1 fun k => { k with racks := [(0x700, r)] }
  { s with insts := FMap.put s.insts (instKey 0 0 0 1) { inst1 with atStep := false, mail := [(0, 0x700)] },
           net := [Pkt.fromHub 0 (leBytes 8 0x1000 ++ rep 24 1#8), Pkt.fromHub 0 (leBytes 8 0x2000 ++ rep 24 1#8)] }

theorem test_meets_MessageSteps :
    let p := Pkt.fromHub 0 (leBytes 8 0x1000 ++ rep 24 1#8)
    let q := Pkt.fromHub 0 (leBytes 8 0x2000 ++ rep 24 1#8)
    let r := (posted.updDie 0 fun d => { d with ring := [(0, [⟨1, 0, 0, false, p⟩])] })
    let up : State := { posted with hub := { posted.hub with bringup := 6 } }
    let a : List Byte := leBytes 8 (0xFFF000000000 + 2 ^ 61) ++ rep 56 0#8
    let m := (walked posted).updPart 0 fun p => { p with cfg := FMap.put p.cfg 0x9B 0x80#8 }
    (pick posted.net 0).isSome = true ∧ inTurn p (posted.net.take 0) = true ∧ inTurn q (posted.net.take 1) = true ∧
    hdrActor p.hdr ≠ 0xFFF000000000 ∧ (∃ k, posted.addressee p = .ok k ∧ decide (k.1 = instKey 0 0 0 1 ∧ k.2.2 = 0 ∧ k.2.1.core = some 1 ∧
      k.2.1.st = .home ∧ posted.portBase k.2.1 0 = 0x700) = true) ∧ errIs (posted.addressee q) (fun c => decide (c = .unknownActor)) = true ∧
    (posted.core 1).takeover = false ∧ (∀ d, d < 4 → posted.ring d 0 = []) ∧
    (∃ k, (posted.core 1).rack? 0x700 = some k ∧ decide (k.nfill < k.n) = true) ∧
    hdrActor (pktHeader a) = 0xFFF000000000 ∧ hdrPort (pktHeader a) = 0 ∧ a.length ≤ 64 ∧
    r.ring 0 0 = [⟨1, 0, 0, false, p⟩] ∧ p.key = instKey 0 0 0 1 ∧ hdrPort p.hdr = 0 ∧ r.ringBad 0 0 ⟨1, 0, 0, false, p⟩ = false ∧ (∀ x ∈ r.ringsFor 0 p.key 0, 0 ≤ x.ord) ∧
    m.ringMapped 0 0 = true ∧ pktFault 8 true a = some .badPacketLength ∧ pktFault 0 true a = none ∧ (posted.part 0).window.length < 64 ∧
    (0x100 : Nat).testBit 8 = true ∧ up.pcieUp = true ∧ posted.pcieUp = false :=
  ⟨rfl, by decide +kernel, by decide +kernel, by decide +kernel, ok_of (by decide +kernel), by decide +kernel, rfl, by decide +kernel,
    some_of (by decide +kernel), by decide +kernel, by decide +kernel, by decide +kernel, rfl, by decide +kernel, by decide +kernel, by decide +kernel, by decide +kernel,
    by decide +kernel, by decide +kernel, by decide +kernel, by decide +kernel, by decide, rfl, rfl⟩

/-- Requests of 64 bytes: OP, RECA, WAITA. -/
def request (op rec wait : Nat) : Req :=
  { bytes := leBytes 8 0 ++ leBytes 8 op ++ leBytes 8 rec ++ rep 16 0#8 ++ leBytes 8 wait ++ rep 16 0#8,
    repc := none, count := .none, kept := none, slot := 0, tokens := [] }

/-- The record of a launch of one group on die 0. -/
def record0 : Record :=
  { head := leBytes 8 0x10000 ++ leBytes 4 8 ++ [1#8, 0#8, 1#8, 0#8, 1#8, 1#8] ++ rep 6 0#8 ++ leBytes 4 1 ++ rep 36 0#8,
    descs := [actorBytes], tokens := [], compl := none }

/-- The launch actor of partition 0 has a request. -/
def asking (q : Req) : State := running.updPart 0 fun p => { p with reqs := [q] }

theorem test_meets_LaunchSteps :
    let q := { request 0 0x40 0 with kept := some record0 }
    let s := asking q
    reqBad (request 0 0x40 0).bytes = false ∧ reqOp (request 0 0x40 0).bytes = 0 ∧
    errIs (((asking (request 0 0x40 0)).updPart 0 fun p => { p with reqs := [] }).checkedRecord 0 (request 0 0x40 0) none)
      (fun c => decide (c = .noTranslation)) = true ∧
    okIs (s.checkedRecord 0 q none) (fun r => decide (fieldAt r.head 0x18 4 ≠ 0 ∧ bit (fieldAt r.head 0x12 1) 1 = false)) = true ∧
    q.slot = 0 ∧ s.freeSlot 0 = some 1 ∧ reqBad (request 1 0x40 0x300000).bytes = false ∧ reqWait (request 1 0x40 0x300000).bytes ≠ 0 ∧
    reqWait (request 1 0x40 0).bytes = 0 ∧ ({ request 1 0x40 0 with count := .known 3 } : Req).count = .known 3 ∧
    ({ request 1 0x40 0 with count := .unread .noTranslation } : Req).count = .unread .noTranslation ∧
    (reqBad (request 7 0x40 0).bytes = true ∧ reqRep (request 7 0x40 0).bytes % 16 = 0) ∧
    okIs (s.checkedRecord 0 q (some 0)) (fun _ => true) = true ∧ q.tokens = [] ∧ s.imageFault 0 record0.head (s.dieSets 0 record0.head false) = none :=
  ⟨by decide +kernel, by decide +kernel, by decide +kernel, by decide +kernel, rfl, by decide +kernel, by decide +kernel, by decide +kernel,
    by decide +kernel, rfl, rfl, by decide +kernel, by decide +kernel, rfl, by decide +kernel⟩

/-- A launch is placed and replies; one with a token that finds no room waits for it. -/
theorem test_meets_LaunchSteps_place :
    let s := asking { request 0 0x40 0 with kept := some record0 }
    let l := newLaunch record0 1 (s.memoryImage 0 record0.head) [] 0 none
    let m := { l with actors := [⟨leBytes 4 0 ++ [0#8, 0#8, 1#8, 0#8] ++ leBytes 4 1 ++ leBytes 4 64 ++ leBytes 2 0 ++ rep 110 0#8, 1⟩] }
    let v (l : Launch) := (s.takeSlot 0 1 { l with st := 1 }).trySets 0 1 l ((s.takeSlot 0 1 { l with st := 1 }).dieSets 0 record0.head false)
    (v l).any (fun v => (v.launched 0 1 (request 0 0x40 0) l []).2.isNone) = true ∧
    (v m).any (fun v => ((v.updInst (instKey 0 1 0 0) fun i => { i with st := .stream }).launched 0 1 (request 0 0x40 0) m
      [leBytes 8 0 ++ rep 24 1#8]).2.isSome) = true := by
  decide +kernel

/-- An indirect launch waits for counter 3 of core 0; a launch waits for a slot; instance 1 waits for its place. -/
theorem test_meets_LaunchSteps_wait :
    let q := request 1 0x40 0x4000000C
    let s := walked (running.updPart 0 fun p => { p with indirect := [q], waiting := [{ request 0 0x40 0 with kept := some record0 }] })
    let u : State := { running with insts := FMap.put running.insts (instKey 0 0 0 1) { inst1 with st := .unplaced, core := none, atStep := false } }
    let v := u.updCore 1 fun k => { k with racks := [] }
    (pick (s.part 0).indirect 0).isSome = true ∧ okIs (s.waitCounter 0 0x4000000C) (fun k => decide (k = (0, 3))) = true ∧
    errIs (s.waitCounter 0 0x800000000000) (fun c => decide (c = .noTranslation)) = true ∧
    reached32 (s.counterVal (0, 3)) (reqVal q.bytes) = true ∧ reached32 0 1 = false ∧ (pick (s.part 0).waiting 0).isSome = true ∧
    ((s.updPart 0 fun p => { p with waiting := [] }).launch 0 { request 0 0x40 0 with kept := some record0 } none []).2.isNone = true ∧
    (v.insts.filter fun p => p.2.part = 0 && p.2.st = .unplaced).map (·.1) = [instKey 0 0 0 1] ∧ (v.placeOne (instKey 0 0 0 1)).isSome = true := by
  decide +kernel

/-- An end request; a launch that ends, whose instances have all exited; one whose instances have all stepped. -/
theorem test_meets_LaunchEndSteps :
    let q := request 2 0 0
    let gone := { running with insts := [] }.updPart 0 fun p => { p with slots := [(0, { launch0 with ending := true })] }
    let z := { running with insts := [(instKey 0 0 0 1, inst1)] }
    reqBad q.bytes = false ∧ reqOp q.bytes = 2 ∧ (running.liveLaunch 0 0 0).isSome = true ∧ (running.liveLaunch 0 0 7) = none ∧
    launch0.isLive = true ∧ (gone.exitIdle 0 0).live 0 0 = 0 ∧ (∀ k ∈ (gone.exitIdle 0 0).instsOf 0 0, gone.engineIdle k = true) ∧
    gone.unreplied 0 0 = false ∧
    z.allStepped 0 0 = true ∧ (∀ p ∈ z.steppers 0 0, p.2.st ≠ .quiesce ∧ p.2.st ≠ .stream ∧ p.2.st ≠ .switching) ∧
    launch0.rect = false ∧ [0] = (span 0 4).filter (bit 1) ∧ fieldAt launch0.head 0x10 1 ≤ 1 ∧ 1 ≤ fieldAt launch0.head 0x11 1 ∧
    (∀ d ∈ [0], d ∈ z.allotDies 0 launch0.memory) ∧
    ((z.updPart 0 fun p => { p with slots := FMap.put p.slots 0 { launch0 with dies := [0], st := 4 } }).loadAll 0
      (fieldAt launch0.head 0 8) (fieldAt launch0.head 8 4) [0]).any (fun w => (w.quiesceAll
      (fun t i => t.coolest i (t.tries { launch0 with dies := [0], st := 4 } i)) ((z.steppers 0 0).filter fun p => p.2.st = .home &&
        (match p.2.core with | some c => !([0].contains (dieOf c)) | none => false))).isSome) = true := by
  decide +kernel

/-- Instance 1 through its move: at rest with core 2 to go to, quiesced, streaming, switching, draining. -/
def mover (st : InstSt) (f : Inst → Inst) : State :=
  { running with insts := FMap.put running.insts (instKey 0 0 0 1) (f { inst1 with st := st }) }

theorem test_meets_MigrationSteps :
    let s := mover .home id
    let far (h : List Bool) : State := (s.updPart 0 fun p => { p with cfg := [(8, 3#8), (0x158, 2#8)] }).updCluster 0 fun c => { c with hist := h }
    let hot := far (rep 8 true)
    let out := s.updCore 1 fun k => { k with draining := true }
    let b := mover .stream fun i => { i with dest := some 2 }
    let w := mover .switching fun i => { i with tables := (span 0 6).map fun t => (t, 1), fwd := some 2 }
    let d := mover .drain fun i => { i with markers := [5, 4, 3, 2, 1, 0], fwd := some 2 }
    inst1.busy = false ∧ inst1.atStep = true ∧ (8 ≤ hot.heat 0 ∧ 16 ∈ hot.coolCores inst1 1 false ∧ 2 ∉ hot.coolCores inst1 1 false) ∧
    (far (rep 7 true)).heat 0 < 8 ∧ ((out.core 1).draining = true ∧ 2 ∈ out.coolCores inst1 1 true ∧ 1 ∉ out.coolCores inst1 1 true) ∧
    s.engineIdle (instKey 0 0 0 1) = true ∧
    (b.moveTo (instKey 0 0 0 1) (([2] ++ b.byHeat (b.roomy inst1 (b.targets inst1 1 false))).filter fun d => b.allotted 0 d)).isSome = true ∧
    (FMap.find? w.insts (instKey 0 0 0 1)).any (fun i => decide (i.core = some 1 ∧ i.moving = true ∧ 5 ∉ i.markers ∧
      FMap.find? i.tables 5 = i.core)) = true ∧
    (FMap.find? d.insts (instKey 0 0 0 1)).any (fun i => decide (i.st = .drain) && (span 0 6).all (fun n => i.markers.contains n)) = true := by
  decide +kernel

/-- Group 5 of core 0 alone: INT32 sums; an injection whose 64 bytes stand at 0x200040. -/
def gdesc : List Byte := leBytes 4 0 ++ leBytes 2 1 ++ leBytes 2 0 ++ leBytes 8 1 ++ rep 48 0#8

/-- Group 6 of core 0 and of core 2048, the first of die 1. -/
def gdesc2 : List Byte := leBytes 4 0 ++ leBytes 2 1 ++ leBytes 2 0 ++ leBytes 8 1 ++ leBytes 8 (2 ^ 16) ++ rep 40 0#8

/-- An injection of core 0 and the collective instance that it belongs to. -/
def inj0 : DvInj :=
  { core := 0, entry := [5#8, 0#8, 0#8, 0#8] ++ leBytes 4 64 ++ leBytes 8 0x200040 ++ leBytes 8 0x200080 ++ rep 8 0#8 ++ leBytes 4 2 ++ rep 28 0#8,
    cnt := some (0, 7), tlb := [], read := false, done := false, peng := false, user := true, inst := instKey 0 0 0 0, waits := false, born := 0 }

/-- Collective instances in flight: nothing arrived; the cluster's value ready; the die's; all of it. -/
def collective (grp : Nat) (d : List Byte) (nodes : FMap DvNode) : State :=
  { running.updPart 0 fun p => { p with groups := [(grp, ⟨d, 0, 0, []⟩)] } with dvs := [⟨0, grp, 0, false, [inj0], nodes, 0, none, false⟩] }

theorem test_meets_CollectiveSteps :
    let s := collective 5 gdesc []
    let v : Dv := ⟨0, 5, 0, false, [inj0], [], 0, none, false⟩
    let c : Dv := { v with nodes := [(0, ⟨[0], rep 16 1⟩)] }
    let t : Dv := { v with nodes := [(0, ⟨[0], rep 16 1⟩), (dieNode 0, ⟨[0], rep 16 1⟩)] }
    (s.group 0 5).desc = gdesc ∧ clusterOf 0 = 0 ∧ v.inj.findIdx? (fun x => x.core = 0 && !x.read && !x.done) = some 0 ∧ v.inj.findIdx? (fun x => x.core = 0 && !x.done && !x.waits) = some 0 ∧ inj0.waits = false ∧
    eReads gdesc inj0.entry (gRank gdesc 0) = true ∧ (s.dvRead 0 inj0).isSome = true ∧
    (c.full gdesc 0).isSome = true ∧ c.has (dieNode 0) 0 = false ∧ dieNode 0 ≠ rootNode ∧
    gTop gdesc2 = rootNode ∧ (t.full gdesc2 (dieNode 0)).isSome = true ∧ t.has rootNode 0 = false ∧
    gTop gdesc = dieNode 0 ∧ gCount gdesc ≤ t.inj.length ∧ (t.result gdesc).isSome = true ∧ gXq gdesc = false ∧ gType gdesc = 0 ∧ gOp gdesc = 0 ∧
    (s.core 0).takeover = false ∧ s.cntAway inj0.cnt = false ∧ (s.cores.all fun p => !p.2.takeover) = true := by
  decide +kernel

/-- A send of 8,192 bytes from region 1, its first packet sent; a registered handle that takes arriving bytes. -/
def msg0 : Xmsg :=
  { core := 0, part := 0, inst := 0, desc := leBytes 8 0x1000 ++ leBytes 8 0 ++ leBytes 8 0 ++ leBytes 4 8192 ++ leBytes 4 7 ++ rep 8 0#8 ++ leBytes 4 3 ++ rep 20 0#8,
    base := 0x2000, peng := false, user := true, sent := [⟨0, [], 0⟩], acked := [], bad := none, cnt := some (0, 7), tlb := [], num := 4 }

/-- The message on its way, its pages in the tables. -/
def sending (x : Xmsg) : State :=
  { walked (running.updPart 0 fun p => { p with handles := [(1, ⟨0x2000, 8192, true, true, true⟩)], regs := [(0x1000, (0, 9))] }) with xmsgs := [x] }

theorem test_meets_TransportSteps :
    let s := sending msg0
    let l := sending { msg0 with sent := [⟨0, [], 0⟩, ⟨4096, [], 0⟩], acked := [0] }
    s.xmsg? 4 = some msg0 ∧ msg0.packet 4096 = true ∧ msg0.sentAt 4096 = false ∧ msg0.uud = false ∧ (s.xRead msg0 [] (msg0.pieces 4096)).isOk = true ∧
    msg0.sentAt 0 = true ∧ 0 ∉ msg0.acked ∧ s.cntAway msg0.cnt = false ∧ msg0.acked.length + 1 < xPackets msg0.len ∧ (s.xRead msg0 [] (msg0.pieces 0)).isOk = true ∧
    (l.xmsg? 4).any (fun x => decide (x.sentAt 4096 = true ∧ 4096 ∉ x.acked ∧ xPackets x.len ≤ x.acked.length + 1)) = true ∧
    (FMap.get Latch.clear (s.core 0).mbLatch 7).ep = false ∧ s.xins = [] ∧ s.xAdmit 0 0x1001 0 64 = none ∧
    (s.xAdmit 0 0x1000 0 64).any (fun q => (s.xPlace q.1 0 [] (linePieces (q.2.2.base + 0 + 0) (xSize 64 0) 66) (rep 64 1#8)).2.2) = true ∧
    (s.cores.all fun p => !p.2.takeover) = true ∧ (3 : Nat) % 2 ^ 32 ≠ 0 := by
  decide +kernel

/-- The same as an UUD message, with a packet to leave and with none. -/
theorem test_meets_TransportSteps_uud :
    let x := { msg0 with desc := msg0.desc.take 56 ++ [1#8] ++ rep 7 0#8 }
    let y := { x with sent := [⟨0, [], 0⟩, ⟨4096, [], 0⟩] }
    (sending x).xmsg? 4 = some x ∧ x.uud = true ∧ x.packet 4096 = true ∧ x.sentAt 4096 = false ∧ x.sent.length < xPackets x.len ∧
    ((sending x).xRead x [] (x.pieces 4096)).isOk = true ∧ (sending y).xmsg? 4 = some y ∧ y.uud = true ∧
    xPackets y.len ≤ y.sent.length ∧ y.cnt = some (0, 7) ∧ y.peng = false ∧ (sending y).cntAway y.cnt = false := by
  decide +kernel

/-- A chunk to repair, a worn core, a core to retire with and without spares, a pseudo-channel, a lane. -/
theorem test_meets_ServiceSteps :
    let s := sealed
    let w := running.updCore 3 fun k => { k with repairs := rep 8 0 }
    let d := running.updCore 3 fun k => { k with draining := true }
    let n := d.updCluster 0 fun k => { k with spares := 0 }
    (s.core 0).chunk.isSome = true ∧ (w.core 3).draining = false ∧ (w.core 3).worn w.cycle = true ∧ d.unitUp 0 3 = true ∧ d.drained 0 3 = true ∧
    (d.cluster (clusterOf 3)).spares > 0 ∧ (n.cluster (clusterOf 3)).spares = 0 ∧ (∀ p ∈ n.insts, p.2.core ≠ some 3) ∧
    (∀ x, x ∈ d.hub.retired ++ d.hub.moving → x / 128 ≠ 7) ∧ 7 * 128 + 95 ∈ ({ d.hub with moving := [7 * 128 + 95] } : Hub).moving ∧
    FMap.get 0 d.hub.lanes 7 < 9 ∧ s.exists' 0 = true ∧ 0 < 0xC000000000 ∧ unitOfHbm 0 = 0 ∧ 1 ≠ unitOfHbm 0 := by
  decide +kernel

theorem test_meets_HubSteps :
    let h := running.hub
    let p := { h with posted := true }
    let up : State := { running with hub := { h with bringup := 6 } }
    (h.units.contains (6, 1) = false ∧ h.sound 0 = true ∧ h.sound 1 = true ∧ h.linksUp 1 = true ∧
      ({ h with links := (false, true) } : Hub).sound 0 = false) ∧
    (({ h with links := (true, false) } : Hub).linksUp 1 = false ∧ h.units.contains (5, 1) = false ∧ h.updating = []) ∧
    (p.posted = true ∧ p.updating = [] ∧ p.switching = []) ∧ ({ h with updating := [0, 1] } : Hub).sound 0 = true ∧
    ({ h with updating := [1] } : Hub).updating = [1] ∧ (2 ∈ ({ h with switching := [2, 3] } : Hub).switching ∧
      ({ h with switching := [2, 3] } : Hub).switching ≠ [2] ∧ ({ h with switching := [2] } : Hub).switching = [2]) ∧
    h.bringup < 6 ∧ running.pcieUp = false ∧ up.pcieUp = true ∧ h.spdm = 0 ∧ ({ up with hub := { up.hub with spdm := 3 } } : State).pcieUp = true := by
  decide +kernel

theorem test_meets_RecordSteps :
    let s := { running with hub := { running.hub with bringup := 6 } }
    s.pcieUp = true ∧ running.pcieUp = false ∧ (turn s [1, 385, 0x94] (leBytes 4 5)).args = [1, 385, 0x94] ∧
    (turn s [1, 385, 0x94] (leBytes 4 5)).payload = leBytes 4 5 ∧ s.mayRetire 0 9 0 = false ∧
    ({ s with iow := [⟨0, 1, 0x500000000000 + 385 * 2 ^ 20 + 0x94, leBytes 4 5⟩], args := [] } : State).iow.length = 1 ∧
    s.supDue 385 = false ∧ s.supDue 1 = false ∧ (0x300000000 : Nat) / 2 ^ 52 % 16 = 0 ∧ s.mayRetire 0 0 (0x300000000 / 2 ^ 32 % 2 ^ 13) = true := by decide +kernel

theorem test_meets_EncodeDecode :
    Instr.isWord (.bfx 3#5 4#5 17#6 46#6) = true ∧ Instr.wellFormed (.bfx 3#5 4#5 17#6 46#6) = true := by decide

/-- The firing's next word is ADDI g4, g4, 1. -/
theorem test_meets_StepRunsDecoded :
    let s := State.reset.withFetchWord 32 0x42420001
    let b := s.beginTurn ⟨1, s.cur, none, [], []⟩
    let u := (b.fetchLine (b.t.fir.getD ⟨0, 0, 0, 0, 0, 0, 0, 0, 0, false, 0, 0, 0, 0, 0, [], [], false, false, none, none, 0, [], false⟩) (0x10000 / 64)).openFor 4
    s.agenda = [] ∧ b.exists' b.cur = true ∧ b.me.takeover = false ∧ b.preemptor = none ∧ b.me.chunk = none ∧ b.blocked = false ∧
    b.dueTrap = none ∧ b.dueImprecise = none ∧ b.codeWord 0x10000 = some 0x42420001#32 ∧ (0x42420001#32).msb = false ∧
    decodeWord 0x42420001#32 = .ok (.addi 4#5 4#5 1#15) ∧ isMemCore b.cur = false ∧ b.windowFull 1 = false ∧ b.chunkFull 1 = false ∧
    (b.t.fir.map (·.pc)) = some 0x10000 ∧ deviceStep .scrub = true ∧
    nextIs (exec (.addi 4#5 4#5 1#15) u) (fun t => decide (t.me.solo = none ∧ t.t.fir.isSome = true ∧ t.me.stayed = false ∧
      t.t.heldNow = false ∧ t.me.chunk.any (·.now) = false)) = true ∧
    nextIs (exec (.trap 5#16) u) (fun t => decide (t.me.stayed = true)) = true := by decide +kernel

theorem test_meets_MemoryWfStep :
    Memory.wf (walked running).mem = true ∧ nextIs (step (walked running)) (fun _ => true) = true := by decide +kernel

/-! ### Witnesses: clause by clause -/

/-- A zero, a number below zero, infinities of both signs and a NaN, with signs that differ. -/
theorem test_meets_ScalarFloat_corners :
    (Machine.Num.ofBits 0x80000000#32).value = some 0 ∧ (Machine.Num.ofBits 0x40000000#32).value = some 2 ∧
    (Machine.Num.ofBits 0xC0000000#32).value = some (-2) ∧ (Machine.Num.ofBits 0x7FC00001#32).isNan = true ∧
    (Machine.Num.ofBits 0x7F800000#32).value = none ∧ ((0x7F800000#32).msb != (0xFF800000#32).msb) = true := by
  have h0 : Machine.Num.ofBits 0x80000000#32 = .fin true 0 (-149) := by decide
  have h1 : Machine.Num.ofBits 0x40000000#32 = .fin false 8388608 (-22) := by decide
  have h2 : Machine.Num.ofBits 0xC0000000#32 = .fin true 8388608 (-22) := by decide
  rw [h0, h1, h2]
  refine ⟨?_, ?_, ?_, rfl, rfl, rfl⟩ <;> norm_num [Machine.Num.value, sgn]

/-- A reciprocal below 2^-126, one of 2^149, and one between; a sum that is not finite, 32 zeros, and 32 ones. -/
theorem test_meets_VectorConversions_values :
    (∃ p, (Machine.Num.ofBits 0x7F400000#32).value = some p ∧ p ≠ 0 ∧ |p|⁻¹ < (2 : ℚ) ^ (-126 : ℤ)) ∧
    (∃ p, (Machine.Num.ofBits 0x80000001#32).value = some p ∧ p ≠ 0 ∧ p < 0 ∧ (2 : ℚ) ^ 128 ≤ |p|⁻¹) ∧
    (∃ p, (Machine.Num.ofBits 0x40400000#32).value = some p ∧ 0 < p ∧ (2 : ℚ) ^ (-126 : ℤ) ≤ |p|⁻¹ ∧ |p|⁻¹ < (2 : ℚ) ^ 128) ∧
    Machine.Num.ofBits (fadd .rne 0x7F800000#32 0x3F800000#32) = .inf false ∧
    (∀ x ∈ List.zipWith (fadd .rne) (rep 32 0x3F800000#32) (rep 32 0#32), x = 0x3F800000#32) ∧
    (∀ x ∈ List.zipWith (fadd .rne) (rep 32 0#32) (rep 32 0#32), x = 0#32) ∧
    (Machine.Num.ofBits 0x3F800000#32).value = some 1 ∧ (Machine.Num.ofBits 0#32).value = some 0 := by
  have h1 : Machine.Num.ofBits 0x7F400000#32 = .fin false 12582912 104 := by decide
  have h2 : Machine.Num.ofBits 0x80000001#32 = .fin true 1 (-149) := by decide
  have h3 : Machine.Num.ofBits 0x40400000#32 = .fin false 12582912 (-22) := by decide
  have h4 : Machine.Num.ofBits 0x3F800000#32 = .fin false 8388608 (-23) := by decide
  have h5 : Machine.Num.ofBits 0#32 = .fin false 0 (-149) := by decide
  have e1 : fadd .rne 0x3F800000#32 0#32 = 0x3F800000#32 := by decide +kernel
  have e0 : fadd .rne 0#32 0#32 = 0#32 := by decide +kernel
  refine ⟨⟨3 * 2 ^ 126, ?_, by norm_num, ?_⟩, ⟨-(2 ^ 149)⁻¹, ?_, by norm_num, by norm_num, ?_⟩, ⟨3, ?_, by norm_num, ?_, ?_⟩,
    by decide +kernel, by simp [rep, e1], by simp [rep, e0], ?_, ?_⟩
  · rw [h1]; norm_num [Machine.Num.value, sgn]
  · rw [abs_of_pos (by norm_num)]; norm_num
  · rw [h2]; norm_num [Machine.Num.value, sgn]
  · rw [abs_neg, abs_of_pos (by norm_num)]; norm_num
  · rw [h3]; norm_num [Machine.Num.value, sgn]
  · rw [abs_of_pos (by norm_num)]; norm_num
  · rw [abs_of_pos (by norm_num)]; norm_num
  · rw [h4]; norm_num [Machine.Num.value, sgn]
  · rw [h5]; norm_num [Machine.Num.value, sgn]

/-- A group of 1 and 3, whose largest magnitude is between 2 and 4; groups with a NaN and with infinities. -/
theorem test_meets_VectorMovesReductions_group :
    (∀ t ∈ [Machine.Num.fin false 1 0, .fin false 3 0], ∃ p, t.value = some p ∧ |p| < (2 : ℚ) ^ ((1 : ℤ) + 1)) ∧
    (∃ t ∈ [Machine.Num.fin false 1 0, .fin false 3 0], ∃ p, t.value = some p ∧ (2 : ℚ) ^ (1 : ℤ) ≤ |p|) ∧
    (∃ t ∈ [Machine.Num.nan 0x7FC00001#32], t.isNan = true) ∧ .inf false ∈ [Machine.Num.inf false, .inf true] ∧
    .inf true ∈ [Machine.Num.inf false, .inf true] ∧
    ((∀ t ∈ [Machine.Num.inf false], t.isNan = false) ∧ .inf false ∈ [Machine.Num.inf false] ∧ .inf true ∉ [Machine.Num.inf false]) := by
  refine ⟨?_, ⟨.fin false 3 0, by simp, 3, ?_, ?_⟩, ⟨.nan 0x7FC00001#32, by simp, rfl⟩, by simp, by simp, by decide, by simp, by simp⟩
  · simp only [List.mem_cons, List.not_mem_nil, or_false]
    rintro t (rfl | rfl)
    · exact ⟨1, by norm_num [Machine.Num.value, sgn], by norm_num⟩
    · exact ⟨3, by norm_num [Machine.Num.value, sgn], by norm_num⟩
  · norm_num [Machine.Num.value, sgn]
  · norm_num

/-- An instruction reads g4, which is parked, and leaves g6's bit. -/
theorem test_meets_StreamOperands_parked :
    let s := regs.updT fun t => { t with park := [(4, 0), (6, 0)] }
    s.t.fir1 = none ∧ 4 ∈ keysOf (useOf (.add 3#5 4#5 5#5)).rg [] ∧ 6 ∉ keysOf (useOf (.add 3#5 4#5 5#5)).rg [] ∧
    FMap.find? s.t.park 6 = some 0 := by decide

/-- Pages past the mailbox, in window 1 at the element past its last and before it, and over a cluster's scratchpad. -/
def edges : State :=
  let w := { demo with wins := FMap.put demo.wins (windowKey (padOfCore 0) 0x20000 1) (word (2 ^ 63)) }
  (w.updPart 0 fun p => { p with cfg := [(8, 1#8), (0x158, 2#8)] }).updCore 0 fun k =>
    { k with tlb := pages ++ [page 0x810000 (padOfCore 0 + 0x10000) false, page 0x820000 0x100000110000 false,
        page 0x830000 0x100000120000 false, page 0x840000 (padOfCluster 0 + 0x1F0000) false] }

/-- Element windows: V is 0; the last element and the one past it; a doubleword and an odd address; the mailbox's first element. -/
theorem test_meets_Accesses_windows :
    let d := FMap.get 0 edges.winsIn (windowKey (padOfCore 0) 0x20000 1)
    let at' (v : Nat) := (edges.translate 0 0 v).map fun p => edges.locate (p.base + v % 2 ^ p.size)
    wValid (FMap.get 0 demo.winsIn (windowKey (padOfCore 0) 0x20000 1)) = false ∧ wValid d = true ∧
    8 * 0x20000 / fmtWidth (wFmt d) = 0x8000 ∧ at' 0x830000 = some (.pad (padOfCore 0) 0x20000 1 0x20000) ∧ 0x8000 ≤ 0x20000 / 4 ∧
    at' 0x82FFFC = some (.pad (padOfCore 0) 0x20000 1 0x1FFFC) ∧ 0x1FFFC / 4 < 0x8000 ∧ (8 ≠ 4 ∨ 0x10000011FFFC % 4 ≠ 0) ∧
    0x10000011FFFE % 4 ≠ 0 ∧ (rawSpan d 1 0x1C000 4).1 + (rawSpan d 1 0x1C000 4).2 = 0x1C004 ∧
    (rawSpan d 1 0x1BFFC 4).1 + (rawSpan d 1 0x1BFFC 4).2 = 0x1C000 ∧ edges.inReserve d (.pad (padOfCore 0) 0x20000 1 0) 4 = false ∧
    (∃ a ∈ ({ edges with poison := [padOfCore 0] } : State).poison, padOfCore 0 + (rawSpan d 1 0 4).1 ≤ a ∧
      a < padOfCore 0 + (rawSpan d 1 0 4).1 + (rawSpan d 1 0 4).2) := by
  refine ⟨?_, ?_, ?_, ?_, ?_, ?_, ?_, ?_, ?_, ?_, ?_, ?_, _, List.mem_singleton.mpr rfl, ?_, ?_⟩ <;> decide +kernel

/-- Window 0: the mailbox's first byte and the last before it; a cluster's reserve; a byte that cannot be corrected, and the
same in HBM from a memory core. -/
theorem test_meets_Accesses_edges :
    let at' (v : Nat) := (edges.translate 0 0 v).map fun p => edges.locate (p.base + v % 2 ^ p.size)
    let p : State := { demo with poison := [padOfCore 0 + 0x47] }
    let m := { demo with cur := 1280, poison := [0x17] }
    at' 0x81C000 = some (.pad (padOfCore 0) 0x20000 0 0x1C000) ∧ 0x1C000 < 0x1C000 + 1 ∧
    at' 0x81BFF8 = some (.pad (padOfCore 0) 0x20000 0 0x1BFF8) ∧ ¬0x1C000 < 0x1BFF8 + 8 ∧
    at' 0x84FFF8 = some (.pad (padOfCluster 0) 0x200000 0 0x1FFFF8) ∧ edges.inReserve 0 (.pad (padOfCluster 0) 0x200000 0 0x1FFFF8) 8 = true ∧
    edges.inReserve 0 (.pad (padOfCluster 0) 0x200000 0 (0x200000 - 2 * 65536 - 8)) 8 = false ∧
    (∃ a ∈ p.poison, padOfCore 0 + 0x40 ≤ a ∧ a < padOfCore 0 + 0x40 + 8) ∧
    (m.locate 0x10 = .hbm ∧ isMemCore m.cur = true ∧ 0x10 % 8 = 0 ∧ ∃ a ∈ m.poison, 0x10 ≤ a ∧ a < 0x10 + 8) := by
  refine ⟨?_, ?_, ?_, ?_, ?_, ?_, ?_, ⟨_, List.mem_singleton.mpr rfl, ?_, ?_⟩, ?_, ?_, ?_, _, List.mem_singleton.mpr rfl, ?_, ?_⟩ <;>
    decide +kernel

/-- A copy forked before FENCE is outstanding: with a closed window, an open one, behind an instruction, and armed before it. -/
theorem test_meets_FencesMasks_waits :
    let s : State := { copies [copy0] with fresh := 1 }
    let a := s.updMe fun k => k.setWaiting 0 ⟨.fence 0 0 0, none, none⟩
    let b := s.updMe fun k => { k with chunk := some { k.newChunk with cnt := 1 } }
    s.classDone s.cur s.fenceBounds 0 = false ∧ (0x01#7).getLsbD 0 = true ∧ s.chunkBusy = false ∧ s.t.maskOpen = false ∧
    (s.updT fun t => { t with maskOpen := true }).t.maskOpen = true ∧ b.chunkBusy = true ∧ (s.me.waiting s.t.level).await = .none ∧
    a.fenceBounds = (0, 0, 0) ∧ a.classDone a.cur a.fenceBounds 0 = true := by decide +kernel

/-- No chunk has read the latch that MBERR.C clears, and the firing is still there. -/
theorem test_meets_Counters_clear :
    (demo.core 0).held = none ∧ (demo.core 0).chunk = none ∧ (∃ f, (demo.core 0).t.fir0 = some f ∧ decide (f.serial = 0) = true) ∧
    (∀ ch, (demo.updMe fun k => { k with chunk := some k.newChunk }).me.chunk = some ch → latchLine 0 37 ∉ ch.rd) :=
  ⟨rfl, rfl, some_of (by decide), by rintro _ ⟨⟩; decide⟩

/-- A held slot and one that is not owned, each the lowest of a mask that names an owned one before it. -/
theorem test_meets_AccumulatorSlots_refused :
    let s := setTr slotted fun r => { r with mode := 2 }
    let l := s.updT fun t => { t with slots := FMap.upd Slot.free t.slots 3 fun x => { x with latch := ⟨true, false, 61, 0, 0⟩ } }
    ((span 0 32).filter fun k => (0x28 : Nat).testBit k) = [3] ++ 5 :: [] ∧
    ((span 0 32).filter fun k => (0x48 : Nat).testBit k) = [3] ++ 6 :: [] ∧ allOk slotted.checkSlot [3] = .ok () ∧
    slotted.ready (useOf (.mfree 4#5)) = .ok () ∧ slotted.ready (useOf (.mmag 5#5 4#5 1#5 6#5)) = .ok () ∧
    slotted.ready (useOf (.kmma 6#5 4#5 1#8)) = .ok () ∧ slotted.t.heldNow = false ∧ (slotted.slot (6#5 : Reg).toNat).held = true ∧
    (∃ r, (l.after (.mwait 3#5 4#5)).slotsFor [3] = .ok r ∧ decide (r.mwaitWord [3] ≠ 0) = true) ∧ l.t.cetrap = true :=
  ⟨by decide, by decide, rfl, rfl, rfl, rfl, rfl, rfl, ok_of (by decide +kernel), rfl⟩

/-- Every field's value has room in it: what `Shows` asks. -/
def fits (l : List (Nat × Nat × Nat)) : Bool := l.all fun f => decide (f.2.2 < 2 ^ (f.1 + 1 - f.2.1))

/-- The values of the status words at their bounds have room in their fields. -/
theorem test_meets_Shows :
    fits [(63, 48, 0xFFFF), (33, 32, 3), (31, 16, 0xFFFF), (15, 0, 0xFFFF)] = true ∧
    fits [(63, 32, min (2 ^ 32 - 1) (2 ^ 40)), (31, 16, min (2 ^ 16 - 1) (2 ^ 20)), (1, 0, 3)] = true ∧
    fits [(20, 15, 63), (14, 11, 8), (10, 0, 0x100), (31, 24, 300 % 256), (14, 8, 64), (6, 0, 64)] = true ∧
    fits [(55, 48, Cause.matrixOperand.code), (47, 40, 3), (31, 16, 0xFFFF)] = true ∧
    fits [(60, 56, 31), (55, 40, mqN mqBytes 0), (39, 37, mqD mqBytes - 1), (36, 33, mqL mqBytes - 1), (30, 0, mqBase mqBytes 0)] = true ∧
    fits [(63, 43, running.live 0 0), (42, 27, 65535 % 2 ^ 16), (23, 20, running.dmask 0 0), (11, 8, 5), (7, 0, 0)] = true ∧
    fits [(60, 59, 3), (55, 48, 255), (47, 40, 255), (39, 32, 0xFF), (31, 0, (0xFFFFFFFF#32).toNat)] = true ∧
    fits [(59, 56, 15), (47, 32, 0xFFFF), (31, 16, 0xFFFF), (12, 0, 5120)] = true ∧
    fits [(62, 60, 4), (58, 57, 2), (56, 54, 6), (47, 0, 2 ^ 48 - 1)] = true ∧
    fits [(59, 48, 4095), (47, 40, min 255 300), (39, 0, 0xC000000000)] = true := by decide +kernel

/-- LCHSTAT of a live launch, of a slot that is free, and of another generation. -/
theorem test_meets_LaunchInstructions_status :
    running.genOf 0 (bits 0 11 0) = bits 0 23 12 ∧ FMap.find? (running.part 0).slots 0 = some launch0 ∧
    running.genOf 0 (bits 7 11 0) = bits 7 23 12 ∧ FMap.find? (running.part 0).slots 7 = none ∧
    running.genOf 0 (bits 0x1000 11 0) ≠ bits 0x1000 23 12 ∧ (running.dryHead 0x100) = none := by decide +kernel

/-- A region that lives, one that an open chunk makes, and none. -/
theorem test_meets_TranslationsHandles_describe :
    FMap.find? (group.part group.myPart).handles (0x1000 / 4096) = some ⟨0x200000, 4096, true, true, true⟩ ∧
    FMap.find? (group.part group.myPart).handles 2 = none ∧ (group.ownNews.find? fun p => p.1 = 2) = none := by decide +kernel

/-- The tile of the dry firing holds a byte that cannot be corrected, and a byte beside it does not count. -/
theorem test_meets_ResolutionSteps_tile :
    let a := padOfCore 0 + 0x4080
    let s : State := { holding (some 0x100) with poison := [a + 63] }
    let z : State := { holding (some 0x100) with poison := [a + 64] }
    (∃ r, s.me.rack? 0x100 = some r ∧ decide (r.wait ≠ 0 ∧ padOfCore s.cur + r.slotOff 0x100 r.fill = a ∧ r.slotSize = 64) = true) ∧
    (∃ x ∈ s.poison, a ≤ x ∧ x < a + 64) ∧ (∀ x ∈ z.poison, x < a ∨ a + 64 ≤ x) :=
  ⟨some_of (by decide +kernel), ⟨_, List.mem_singleton.mpr rfl, by decide +kernel⟩, by decide +kernel⟩

/-- A reserve below what the die's work may draw, and one of 0; shares beyond the cap; an idle core; a listed one. -/
theorem test_meets_KilnSteps_reserve :
    let dies (r : Nat) := pairsOf [500, r, 0, 10, 0, 10, 0, 10]
    (dies 51)[0]? = some (500, 51) ∧ 51 < running.freeDraws 0 ∧ running.freeDraws 0 = 52 ∧ (dies 0)[0]? = some (500, 0) ∧
    capUnits running.hub.cap < (pairsOf [2 ^ 40, 52, 0, 10, 0, 10, 0, 10]).foldl (fun n p => n + p.1 + p.2) 0 ∧
    ((running.core 9).t.fir0 = none ∧ (running.core 9).t.fir1 = none ∧ (running.core 9).runq = [] ∧ running.placedOn 9 = []) ∧
    (FMap.find? running.cores 0).isSome = true ∧ (running.t.fir0.any fun f => decide (f.cls = 0)) = true := by decide +kernel

/-- A reply block in the scratchpad of core 1, which a spare takes over: the page table maps it. -/
theorem test_meets_LaunchSteps_away :
    let q : Req := { request 0 0x40 0 with bytes := leBytes 8 0 ++ leBytes 8 0 ++ leBytes 8 0x40 ++ leBytes 8 0x1000040 ++ rep 32 0#8 }
    let s := (walked (running.updPart 0 fun p => { p with reqs := [q], indirect := [q], waiting := [q] })).updCore 1 fun k =>
      { k with takeover := true }
    (s.part 0).reqs = [q] ∧ s.replyAway 0 (reqRep q.bytes) = true ∧ (pick (s.part 0).indirect 0).isSome = true ∧
    (pick (s.part 0).waiting 0).isSome = true ∧ running.replyAway 0 (reqRep q.bytes) = false ∧
    (∀ c, c < 2 → (running.core c).takeover = false) ∧ reqBad q.bytes = false ∧ launch0.endRep = [] := by decide +kernel

/-- The chosen core takes the streaming instance; a list of cores by their heat. -/
theorem test_meets_MigrationSteps_chosen :
    let b := mover .stream fun i => { i with dest := some 2 }
    (b.moveInst (instKey 0 0 0 1) 2).isSome = true ∧ b.allotted 0 2 = true ∧ b.byHeat [2, 16] = [2, 16] ∧
    b.heat (clusterOf 16) ≤ 16 := by decide +kernel

/-- An injection that waits, one of a failed piece, one that gives no data; a queue with and without a place. -/
theorem test_meets_CollectiveSteps_queue :
    let v : Dv := ⟨0, 5, 0, false, [inj0], [], 0, none, false⟩
    let w : Dv := { v with inj := [{ inj0 with waits := true }] }
    let s := collective 5 gdesc []
    let q : State := { s with dvs := [w] }
    let full : State := { s with dvs := [{ v with inj := rep 64 inj0 }, w] }
    w.inj.findIdx? (fun x => x.core = 0 && !x.read && !x.done) = some 0 ∧ w.inj[0]? = some { inj0 with waits := true } ∧
    ({ v with bad := some .dovetailMismatch } : Dv).bad = some .dovetailMismatch ∧ s.dvWaiting 0 = [] ∧ q.dvWaiting 0 = [0] ∧
    q.dvHeld 0 < 64 ∧ full.dvWaiting 0 = [0] ∧ 64 ≤ full.dvHeld 0 ∧ clusterOf 0 = 0 := by decide +kernel

/-- A posted image with a byte that cannot be corrected, and one without. -/
theorem test_meets_HubSteps_image :
    (∃ x ∈ ({ running with poison := [0xBFFFFFFFFF] } : State).poison, running.hub.mailbox.1 ≤ x ∧ x < 0xC000000000) ∧
    (∀ x ∈ ({ running with poison := [0xC000000000] } : State).poison, x < running.hub.mailbox.1 ∨ 0xC000000000 ≤ x) :=
  ⟨⟨_, List.mem_singleton.mpr rfl, by decide +kernel⟩, by decide +kernel⟩

/-- A core whose firing stands at a unit of two words. -/
def unit (w w2 : Nat) : State :=
  let s := State.reset.withFetchWord 64 (w2 * 2 ^ 32 + w)
  let b := s.beginTurn ⟨1, s.cur, none, [], []⟩
  (b.t.fir.map fun f => b.fetchLine f (0x10000 / 64)).getD b

/-- A pair: CHEND and ADD g5, g4, g0. Both complete; the second reads g4 as it stood. -/
theorem test_meets_StepRunsDecoded_pair :
    let w := 2 ^ 31 + (encode .chend).toNat
    let w2 := (encode (.add 5#5 4#5 0#5)).toNat
    let v := unit w w2
    let u := v.openFor 8
    v.codeWord 0x10004 = some (BitVec.ofNat 32 w2) ∧ (BitVec.ofNat 32 w).msb = true ∧ (BitVec.ofNat 32 w2).msb = false ∧
    decodeWord (BitVec.ofNat 32 w) = .ok .chend ∧ decodeWord (BitVec.ofNat 32 w2) = .ok (.add 5#5 4#5 0#5) ∧ isMemCore v.cur = false ∧
    classA (BitVec.ofNat 32 w) = false ∧ classA (BitVec.ofNat 32 w2) = true ∧ alwaysLone .chend = false ∧
    (∀ k ∈ v.pairWrites .chend, k ∉ v.pairWrites (.add 5#5 4#5 0#5)) ∧ v.windowFull 2 = false ∧ v.chunkFull 2 = false ∧
    nextIs (exec .chend u) (fun sc => decide (sc.me.stayed = false) && nextIs (exec (.add 5#5 4#5 0#5) (sc.forSecond u.t)) fun sa =>
      decide (sa.me.stayed = false ∧ (sa.me.waiting u.t.level).await = .none)) = true ∧ u.revoking = false := by decide +kernel

/-- A pair whose first member waits, and one whose second member does, for lw is empty. -/
theorem test_meets_StepRunsDecoded_waits :
    let u := (unit 0 0).openFor 8
    nextIs (exec (.cwait 3#5 0#5 0#2) (setR u 4#5 1)) (fun _ => true) = true ∧
    nextIs (exec (.mbwait 3#5 4#5 37#6) (setR u 4#5 1)) (fun sc => decide (sc.me.stayed = true ∧ sc.revoking = false)) = true ∧
    nextIs (exec .chend u) (fun sc => nextIs (exec (.vneg 3#5 16#5 0#1) (sc.forSecond u.t)) fun sa => decide (sa.me.stayed = true)) = true ∧
    nextIs (exec (.vneg 3#5 16#5 0#1) (u.updMe fun k => { k with second := true })) (fun _ => true) = true := by decide +kernel

/-- Words that are refused: no instruction, a reserved field, bit 31 of a second word, two members of class C, two writes of g5,
the words of the lanes and links of a memory core, and a unit cut off by the image's end. -/
theorem test_meets_StepRunsDecoded_refused :
    decodeWord 0#32 = .error .illegalOp ∧ (match decodeWord 0x40000019#32 with | .error .illegalOp => true | _ => false) = true ∧
    (match decodeWord 0x14000021#32 with | .error (.reservedBits _) => true | _ => false) = true ∧ (0xC0521400#32).msb = true ∧ 0x10004 % 8 ≠ 0 ∧
    classA (encode .chend) = false ∧ classA (encode (.add 5#5 4#5 0#5)) = true ∧ alwaysLone .maskon = true ∧
    (∃ k ∈ (unit 0 0).pairWrites (.mbrd 5#5 37#6), k ∈ (unit 0 0).pairWrites (.add 5#5 4#5 0#5)) ∧
    isMemCore 1280 = true ∧ (encode (.mzero 3#5)).toNat / 2 ^ 25 % 2 ^ 6 = 0x0F ∧ decodeWord (encode (.vneg 3#5 16#5 0#1)) = .ok (.vneg 3#5 16#5 0#1) ∧
    16#5 ∈ (useOf (.vneg 3#5 16#5 0#1)).rv ∧ (unit 0x80000000 0).codeWord 0x10008 = none ∧
    trapped.me.chunk = none ∧ trapped.t.inTrap = false ∧ trapped.t.tr.xvec ≠ 0 ∧ (trapped.t.fir.any fun f => decide (f.pri ≤ 1)) = true := by
  refine ⟨?_, ?_, ?_, ?_, ?_, ?_, ?_, ?_, ⟨5, ?_, ?_⟩, ?_, ?_, ?_, ?_, ?_, ?_, ?_, ?_, ?_⟩ <;> decide +kernel

end Sys2Proof.Tests
end

section
/-! Proofs of the control-transfer statement: how a meaning with a given effect completes or traps, targets and counts as
numbers, what a target check answers, and the transfers and branches put together from these. -/
namespace Sys2Proof.Machine

/-! ### A meaning through its effect after the pops -/

/-- A ready instruction whose effect succeeds completes in what the effect answers. -/
theorem does_of_effect {i : Instr} {s t : State} {f : State → Res State}
    (he : exec i s = finish s (s.doing (useOf i) f)) (hf : f (s.after i) = .ok t) : Does i s t := by
  intro hr
  rw [he, State.doing_ready f hr, ← State.after, hf, finish_ok]

/-- A ready instruction whose effect faults traps, with the fault's cause and value. -/
theorem traps_of_effect {i : Instr} {s : State} {f : State → Res State} {c : Cause} {v : Word}
    (he : exec i s = finish s (s.doing (useOf i) f)) (hr : s.ready (useOf i) = .ok ())
    (hf : f (s.after i) = .error (.trap c v false)) : Traps i s c v := by
  rw [Traps, he, State.doing_ready f hr, ← State.after, hf, finish_trap]

/-! ### An effect behind a check -/

/-- Behind a check that passes, the effect is what follows. -/
theorem check_passes {r : Res Unit} {e : Res State} (h : r = .ok ()) : (do r; e) = e := by
  rw [h]; rfl

/-- Behind a check that fails, nothing of the effect is left (R57). -/
theorem check_stops {r : Res Unit} {e : Res State} {x : Stop} (h : r = .error x) : (do r; e) = .error x := by
  rw [h]; rfl

theorem faultIf_pos {b : Bool} {c : Cause} {v : Nat} (h : b = true) : faultIf b c v = .error (.trap c (word v) false) :=
  if_pos h

theorem faultIf_neg {b : Bool} {c : Cause} {v : Nat} (h : ¬b = true) : faultIf b c v = .ok () := if_neg h

/-! ### Targets and counts as numbers -/

/-- A word plus four times a sign-extended offset, modulo 2^64 (R45, R47). -/
theorem add_sext_shiftLeft_two {n : Nat} (x : Word) (off : BitVec n) :
    x + (sext off <<< 2) = BitVec.ofInt 64 (x.toNat + 4 * off.toInt) := by
  have hshift : sext off <<< 2 = BitVec.ofInt 64 4 * BitVec.ofInt 64 off.toInt := by
    rw [BitVec.shiftLeft_eq_mul_twoPow, BitVec.mul_comm]
    rfl
  rw [hshift, BitVec.ofInt_add, BitVec.ofInt_mul, BitVec.ofInt_natCast, BitVec.ofNat_toNat, BitVec.setWidth_eq]

theorem State.target_eq {n : Nat} (s : State) (off : BitVec n) :
    s.target off = (BitVec.ofInt 64 (s.t.pc.toNat + 4 * off.toInt)).toNat := by
  rw [State.target, add_sext_shiftLeft_two]

theorem State.regTarget_eq (s : State) (a : Reg) (off : BitVec 13) :
    s.regTarget a off = (BitVec.ofInt 64 ((s.gIn a).toNat + 4 * off.toInt)).toNat := by
  rw [State.regTarget, add_sext_shiftLeft_two]

/-- LOOP's count, modulo 2^64 (R142). -/
theorem sub_one_eq_ofInt (x : Word) : x - 1 = BitVec.ofInt 64 (x.toNat - 1 : Int) := by
  rw [Int.sub_eq_add_neg, BitVec.ofInt_add, BitVec.ofInt_natCast, BitVec.ofNat_toNat, BitVec.setWidth_eq,
    BitVec.sub_eq_add_neg]
  rfl

/-! ### What a target check answers -/

/-- R46: the second word of a unit whose P bit is 1. -/
theorem State.checkTarget_second {s : State} {f : Firing} {target : Nat} {w : BitVec 32} (hf : s.t.fir = some f)
    (h4 : target % 8 = 4) (hw : s.codeWord (target - 4) = some w) (hp : w.msb = true) :
    s.checkTarget target = .error (.trap .targetInPair (word target) false) := by
  have hbit : w.getLsbD 31 = true := by rw [← hp, BitVec.msb_eq_getLsbD_last]
  simp [State.checkTarget, hf, h4, hw, hbit, fault]

/-- R122: a first word that does not lie in the image. -/
theorem State.checkTarget_outside {s : State} {f : Firing} {target : Nat} (hf : s.t.fir = some f)
    (h4 : target % 8 ≠ 4) (hout : target < f.lo ∨ f.hi < target + 4) :
    s.checkTarget target = .error (.trap .protExec (word target) false) := by
  have hin : ¬(f.lo ≤ target ∧ target + 4 ≤ f.hi) := by omega
  simp [State.checkTarget, hf, h4, hin, fault]

/-! ### JAL, J, JALR, JR and LOOP (R140, R142) -/

section Transfers
variable {s : State} {d a : Reg} {off : BitVec 20} {o : BitVec 13}

theorem jal_does (hc : s.checkTarget (s.target off) = .ok ()) :
    Does (.jal d off) s (((s.after (.jal d off)).setG d s.nextPc).goto (s.target off)) :=
  does_of_effect rfl (check_passes hc)

theorem j_does (hc : s.checkTarget (s.target off) = .ok ()) : Does (.j off) s ((s.after (.j off)).goto (s.target off)) :=
  does_of_effect rfl (check_passes hc)

/-- The alignment check of a register target, passed. -/
theorem aligned_passes {g : Nat} {e : Res State} (h : g % 4 = 0) : (do faultIf (g % 4 ≠ 0) .misaligned g; e) = e :=
  check_passes (faultIf_neg (by simp [h]))

/-- The alignment check of a register target, failed. -/
theorem misaligned_stops {g : Nat} {e : Res State} (h : g % 4 ≠ 0) :
    (do faultIf (g % 4 ≠ 0) .misaligned g; e) = .error (.trap .misaligned (word g) false) :=
  check_stops (faultIf_pos (by simp [h]))

theorem jalr_does (h4 : s.regTarget a o % 4 = 0) (hc : s.checkTarget (s.regTarget a o) = .ok ()) :
    Does (.jalr d a o) s (((s.after (.jalr d a o)).setG d s.nextPc).goto (s.regTarget a o)) :=
  does_of_effect rfl ((aligned_passes h4).trans (check_passes hc))

theorem jr_does (h4 : s.regTarget a o % 4 = 0) (hc : s.checkTarget (s.regTarget a o) = .ok ()) :
    Does (.jr a o) s ((s.after (.jr a o)).goto (s.regTarget a o)) :=
  does_of_effect rfl ((aligned_passes h4).trans (check_passes hc))

theorem loop_again (hn : s.gIn a - 1 ≠ 0) (hc : s.checkTarget (s.target o) = .ok ()) :
    Does (.loop d a o) s (((s.after (.loop d a o)).setG d (s.gIn a - 1)).goto (s.target o)) :=
  does_of_effect rfl ((if_neg hn).trans (check_passes hc))

theorem loop_leaves (hz : s.gIn a - 1 = 0) : Does (.loop d a o) s ((s.after (.loop d a o)).setG d (s.gIn a - 1)) :=
  does_of_effect rfl (if_pos hz)

end Transfers

/-! ### The branches (R141) -/

section Branches
variable {i : Instr} {s : State} {taken : Bool} {off : BitVec 12}

/-- The six comparisons share one meaning. -/
theorem branchesIf_of {cond : Prop} (he : exec i s = branch i taken off s) (hcond : taken = true ↔ cond) :
    BranchesIf i s cond off.toInt := by
  rw [BranchesIf, ← State.target_eq]
  refine ⟨fun hn => ?_, fun hc hok => ?_⟩
  · exact does_of_effect he (if_neg (mt hcond.1 hn))
  · exact does_of_effect he ((if_pos (hcond.2 hc)).trans (check_passes hok))

/-- A taken branch traps as the check of its target says. -/
theorem branch_traps {c : Cause} {v : Word} (he : exec i s = branch i taken off s) (ht : taken = true)
    (hr : s.ready (useOf i) = .ok ()) (hc : s.checkTarget (s.target off) = .error (.trap c v false)) : Traps i s c v :=
  traps_of_effect he hr ((if_pos ht).trans (check_stops hc))

end Branches

/-- Settles O17: each transfer is an update of the state behind the checks of its target, which decide alone whether it
completes or traps. -/
theorem jumpsBranches : Obligations.JumpsBranches := by
  unfold Obligations.JumpsBranches
  simp only [← State.target_eq, ← State.regTarget_eq, ← sub_one_eq_ofInt]
  refine ⟨fun s d a off o => ?_, fun s a b off => ?_, fun s a b off f w hr hab hf => ?_⟩
  · refine ⟨jal_does, j_does, jalr_does, jr_does, fun hr hm => traps_of_effect rfl hr (misaligned_stops hm), loop_again,
      loop_leaves, fun hr hm => traps_of_effect rfl hr (misaligned_stops hm), fun c v hc => ⟨fun hr => ?jal, fun hr => ?j⟩,
      fun c v h4 hc => ⟨fun hr => ?jalr, fun hr => ?jr⟩, fun c v hn hc hr => ?loop⟩
    case jal | j => exact traps_of_effect rfl hr (check_stops hc)
    case jalr | jr => exact traps_of_effect rfl hr ((aligned_passes h4).trans (check_stops hc))
    case loop => exact traps_of_effect rfl hr ((if_neg hn).trans (check_stops hc))
  · refine ⟨branchesIf_of rfl beq_iff_eq, branchesIf_of rfl bne_iff_ne, branchesIf_of rfl BitVec.slt_iff_toInt_lt,
      branchesIf_of rfl ?bge, branchesIf_of rfl BitVec.ult_iff_toNat_lt, branchesIf_of rfl ?bgeu⟩
    case bge => rw [Bool.not_eq_true', ← Bool.not_eq_true, BitVec.slt_iff_toInt_lt, not_lt]
    case bgeu => rw [Bool.not_eq_true', ← Bool.not_eq_true, BitVec.ult_iff_toNat_lt, not_lt]
  · have htaken : (s.gIn a == s.gIn b) = true := beq_iff_eq.2 hab
    exact ⟨fun h4 hw hp => branch_traps rfl htaken hr (State.checkTarget_second hf h4 hw hp),
      fun h4 hout => branch_traps rfl htaken hr (State.checkTarget_outside hf h4 hout)⟩

end Sys2Proof.Machine
end

section
/-! Proofs of the statements on conversions and classes: FP32 bits read by exponent field and fraction, the conversion to a
whole number case by case, and the class bit. -/
namespace Sys2Proof.Machine

/-! ### FP32 bits by exponent field and fraction (R60) -/

section Fields
variable {x : Lane}

/-- The magnitude code is the exponent field above the fraction. -/
theorem magnitude_eq_fields (x : Lane) : x.toNat % 2 ^ 31 = x.toNat / 2 ^ 23 % 256 * 2 ^ 23 + x.toNat % 2 ^ 23 := by
  omega

theorem Num.ofBits_nan (he : x.toNat / 2 ^ 23 % 256 = 255) (hf : x.toNat % 2 ^ 23 ≠ 0) : Num.ofBits x = .nan x := by
  have hc : x.toNat % 2 ^ 31 > 0x7F800000 := by rw [magnitude_eq_fields, he]; omega
  exact if_pos hc

theorem Num.ofBits_inf (he : x.toNat / 2 ^ 23 % 256 = 255) (hf : x.toNat % 2 ^ 23 = 0) : Num.ofBits x = .inf x.msb := by
  have hc : x.toNat % 2 ^ 31 = 0x7F800000 := by rw [magnitude_eq_fields, he, hf]; rfl
  exact (if_neg (by omega)).trans (if_pos hc)

/-- Below the exponent field of ones the bits are a finite number, with the significand of their code. -/
theorem Num.ofBits_finite (he : x.toNat / 2 ^ 23 % 256 ≠ 255) :
    Num.ofBits x = .fin x.msb (codeMag (shapeOf 0) (x.toNat % 2 ^ 31)).1 (codeMag (shapeOf 0) (x.toNat % 2 ^ 31)).2 := by
  have hc : x.toNat % 2 ^ 31 < 0x7F800000 := by omega
  exact (if_neg (by omega)).trans (if_neg (by omega))

/-- A zero or a subnormal number: the significand is the fraction. -/
theorem codeMag_subnormal (he : x.toNat / 2 ^ 23 % 256 = 0) :
    (codeMag (shapeOf 0) (x.toNat % 2 ^ 31)).1 = x.toNat % 2 ^ 23 := by
  have hshift : (x.toNat % 2 ^ 31) >>> 23 = 0 := by rw [Nat.shiftRight_eq_div_pow]; omega
  simp only [codeMag, shapeOf, hshift, if_true]
  omega

/-- A normal number: the significand has a leading one. -/
theorem codeMag_normal (he : x.toNat / 2 ^ 23 % 256 ≠ 0) :
    (codeMag (shapeOf 0) (x.toNat % 2 ^ 31)).1 = 2 ^ 23 + x.toNat % 2 ^ 23 := by
  have hshift : (x.toNat % 2 ^ 31) >>> 23 ≠ 0 := by rw [Nat.shiftRight_eq_div_pow]; omega
  simp only [codeMag, shapeOf, hshift, if_false]
  omega

end Fields

/-! ### The class bit (R159) -/

section Classes
variable {x : Lane}

theorem fclass_nan (he : x.toNat / 2 ^ 23 % 256 = 255) (hf : x.toNat % 2 ^ 23 ≠ 0) :
    fclass x = 2 ^ (if x.getLsbD 22 then 9 else 8) := by
  rw [fclass, Num.ofBits_nan he hf, apply_ite (2 ^ ·)]
  rfl

theorem fclass_inf (he : x.toNat / 2 ^ 23 % 256 = 255) (hf : x.toNat % 2 ^ 23 = 0) :
    fclass x = 2 ^ (if x.msb then 0 else 7) := by
  rw [fclass, Num.ofBits_inf he hf, apply_ite (2 ^ ·)]
  rfl

theorem fclass_zero (he : x.toNat / 2 ^ 23 % 256 = 0) (hf : x.toNat % 2 ^ 23 = 0) :
    fclass x = 2 ^ (if x.msb then 3 else 4) := by
  rw [fclass, Num.ofBits_finite (by omega), codeMag_subnormal he]
  cases x.msb <;> exact if_pos hf

theorem fclass_subnormal (he : x.toNat / 2 ^ 23 % 256 = 0) (hf : x.toNat % 2 ^ 23 ≠ 0) :
    fclass x = 2 ^ (if x.msb then 2 else 5) := by
  have hsub : x.toNat % 2 ^ 31 < 2 ^ 23 := by omega
  rw [fclass, Num.ofBits_finite (by omega), codeMag_subnormal he]
  refine (if_neg hf).trans ?_
  cases x.msb <;> exact if_pos hsub

theorem fclass_normal (h255 : x.toNat / 2 ^ 23 % 256 ≠ 255) (h0 : x.toNat / 2 ^ 23 % 256 ≠ 0) :
    fclass x = 2 ^ (if x.msb then 1 else 6) := by
  have hsub : ¬x.toNat % 2 ^ 31 < 2 ^ 23 := by omega
  rw [fclass, Num.ofBits_finite h255, codeMag_normal h0]
  refine (if_neg (by omega)).trans ?_
  cases x.msb <;> exact if_neg hsub

end Classes

/-- Settles O7: the class bit is the power of two of the class's number, for each reading of exponent field and fraction. -/
theorem floatClass : Obligations.FloatClass := by
  unfold Obligations.FloatClass
  intro s d a x neg e f
  refine puts_of (congrArg (fun n => setsG (.fclass d a) d (word n) s) ?_)
  by_cases h255 : e = 255
  · by_cases hf : f = 0
    · rw [if_pos h255, if_pos hf]
      exact fclass_inf h255 hf
    · rw [if_pos h255, if_neg hf]
      exact fclass_nan h255 hf
  · by_cases h0 : e = 0
    · by_cases hf : f = 0
      · rw [if_neg h255, if_pos h0, if_pos hf]
        exact fclass_zero h0 hf
      · rw [if_neg h255, if_pos h0, if_neg hf]
        exact fclass_subnormal h0 hf
    · rw [if_neg h255, if_neg h0]
      exact fclass_normal h255 h0

/-! ### Rounding to a whole number and clamping (R158) -/

section Conversions
variable {rm : Rm} {lo hi : Int} {x : Lane}

/-- A finite number is rounded and clamped; nothing else rounds to a whole number. -/
theorem ftoi_of_toInt {n : Int} (h : (Num.ofBits x).toInt rm = some n) : ftoi rm lo hi x = max lo (min hi n) := by
  unfold ftoi
  cases hx : Num.ofBits x with
  | fin neg m e => rw [hx] at h; simp only [h, Option.getD_some]
  | inf neg => rw [hx] at h; cases h
  | nan b => rw [hx] at h; cases h

theorem ftoi_of_isNan (h : (Num.ofBits x).isNan = true) : ftoi rm lo hi x = 0 := by
  unfold ftoi
  cases hx : Num.ofBits x with
  | fin neg m e => rw [hx] at h; cases h
  | inf neg => rw [hx] at h; cases h
  | nan b => rfl

theorem ftoi_posInf : ftoi rm lo hi 0x7F800000#32 = hi := by
  rw [ftoi, Num.ofBits_inf (by decide) (by decide)]; rfl

theorem ftoi_negInf : ftoi rm lo hi 0xFF800000#32 = lo := by
  rw [ftoi, Num.ofBits_inf (by decide) (by decide)]; rfl

/-- The clamp to the unsigned range, on numbers from 0 up. -/
theorem ofInt_clamp_unsigned (n : Int) : BitVec.ofInt 64 (max 0 (min (2 ^ 64 - 1) n)) = word (min (2 ^ 64 - 1) n.toNat) := by
  have hclamp : max 0 (min (2 ^ 64 - 1) n) = ((min (2 ^ 64 - 1) n.toNat : Nat) : Int) := by omega
  rw [hclamp, BitVec.ofInt_natCast, word]

end Conversions

/-- FTOI writes what its conversion to the signed range gives. -/
theorem ftoi_puts {s : State} {d a : Reg} {w : Word}
    (h : BitVec.ofInt 64 (ftoi s.rm (-2 ^ 63) (2 ^ 63 - 1) (s.fIn a)) = w) : Puts (.ftoi d a) s d w :=
  puts_of (congrArg (fun w => setsG (.ftoi d a) d w s) h)

/-- FTOIU writes what its conversion to the unsigned range gives. -/
theorem ftoiu_puts {s : State} {d a : Reg} {w : Word}
    (h : BitVec.ofInt 64 (ftoi s.rm 0 (2 ^ 64 - 1) (s.fIn a)) = w) : Puts (.ftoiu d a) s d w :=
  puts_of (congrArg (fun w => setsG (.ftoiu d a) d w s) h)

/-- Settles O6: FTOI and FTOIU by the kind of number that the operand is, ITOF and ITOFU by their one rounding, and the
quoted roundings of 2.5 and -2.5 by evaluation. -/
theorem scalarConversions : Obligations.ScalarConversions := by
  unfold Obligations.ScalarConversions
  intro s d a
  refine ⟨fun n hn => ⟨ftoi_puts ?_, ftoiu_puts ?_⟩, fun hnan => ⟨ftoi_puts ?_, ftoiu_puts ?_⟩,
    fun hpos => ⟨ftoi_puts ?_, ftoiu_puts ?_⟩, fun hneg => ⟨ftoi_puts ?_, ftoiu_puts ?_⟩, puts_of rfl, puts_of rfl,
    by decide, by decide, by decide⟩
  · rw [ftoi_of_toInt hn]
  · rw [ftoi_of_toInt hn, ofInt_clamp_unsigned]
  · rw [ftoi_of_isNan hnan]; rfl
  · rw [ftoi_of_isNan hnan]; rfl
  · rw [hpos, ftoi_posInf]; rfl
  · rw [hpos, ftoi_posInf]; rfl
  · rw [hneg, ftoi_negInf]; rfl
  · rw [hneg, ftoi_negInf]; rfl

end Sys2Proof.Machine
end

section
/-! Proof of the statement on TRAP and BRK: what an update of the running level makes of its trap registers and its firing,
what is left of them when a trap enters the handler, and the cause that XCAUSE shows. -/
namespace Sys2Proof.Machine

/-! ### Trap registers and firing of the running level (R355) -/

section RunningLevel
variable (t : CoreT)

@[simp] theorem CoreT.updTr_tr (f : TrapRegs → TrapRegs) : (t.updTr f).tr = f t.tr := by
  by_cases h : t.fir1.isSome <;> simp [CoreT.updTr, CoreT.tr, h]

@[simp] theorem CoreT.updTr_fir (f : TrapRegs → TrapRegs) : (t.updTr f).fir = t.fir := by
  by_cases h : t.fir1.isSome <;> simp [CoreT.updTr, CoreT.fir, h]

@[simp] theorem CoreT.setFir_tr (f : Firing) : (t.setFir f).tr = t.tr := by
  by_cases h : t.fir1.isSome <;> simp [CoreT.setFir, CoreT.tr, h]

@[simp] theorem CoreT.setFir_fir (f : Firing) : (t.setFir f).fir = some f := by
  by_cases h : t.fir1.isSome <;> simp [CoreT.setFir, CoreT.fir, h]

@[simp] theorem CoreT.updFir_tr (g : Firing → Firing) : (t.updFir g).tr = t.tr := by
  unfold CoreT.updFir
  split <;> simp [*]

@[simp] theorem CoreT.updFir_fir (g : Firing → Firing) : (t.updFir g).fir = t.fir.map g := by
  unfold CoreT.updFir
  split <;> simp [*]

end RunningLevel

theorem CoreT.pc_of_fir {t : CoreT} {f : Firing} (h : t.fir = some f) : t.pc = f.pc := by
  rw [CoreT.pc, h]

/-! ### What a trap's entry leaves of the tentative part -/

section Cores
variable (k : Core)

@[simp] theorem Core.both_t (f : CoreT → CoreT) : (k.both f).t = f k.t := rfl

@[simp] theorem Core.setWaiting_t (level : Nat) (w : Waiting) : (k.setWaiting level w).t = k.t := by
  unfold Core.setWaiting
  split <;> rfl

@[simp] theorem Core.unarm_t (level : Nat) : (k.unarm level).t = k.t := by
  unfold Core.unarm
  split <;> simp

@[simp] theorem Core.freeze_tr (level inst : Nat) : (k.freeze level inst).t.tr = k.t.tr := rfl

@[simp] theorem Core.freeze_fir (level inst : Nat) : (k.freeze level inst).t.fir = k.t.fir := rfl

end Cores

@[simp] theorem State.updMe_t (s : State) (f : Core → Core) : (s.updMe f).t = (f s.me).t := by
  rw [State.t, State.updMe_me]

@[simp] theorem State.stay_t (s : State) : s.stay.t = s.t := State.updMe_t _ _

/-! ### Entering the handler (R357) -/

/-- What a trap's entry writes first of a tentative part: the cause, the value and the address, and the match record of a
watchpoint. -/
def CoreT.saveTrap (t : CoreT) (c : Cause) (cause xval xpc : Word) : CoreT :=
  { t.updTr (fun r => { r with xcause := cause, xval := xval, xpc := xpc }) with
    watchRec := if c = .watchData then xval else t.watchRec }

/-- The tentative part in the handler at `vec` of a priority-`pri` firing, with `stat` in XSTAT. -/
def CoreT.toHandler (t : CoreT) (pri : Nat) (vec stat : Word) : CoreT :=
  { (t.updTr fun r => { r with xstat := stat }).updFir (fun g => { g with pc := vec }) with
    npc := vec, maskOpen := false, mqh := if pri = 1 then t.mqh else [], mqh1 := if pri = 1 then [] else t.mqh1 }

/-- XSTAT in the handler (R38): supervisor mode and INTRAP, with the mode, the priority, the window and the dry state of
the trapped firing. -/
def CoreT.handlerStat (t : CoreT) (f : Firing) (c : Cause) : Word :=
  word (1 + 2 * (t.tr.xstat.toNat % 2) + 4 * f.pri + 8 * b2n (t.maskOpen && c ≠ .maskWindow) + 16 + 32 * b2n f.held)

section Entry
variable {t : CoreT} {s : State} {f : Firing} {c : Cause} {cause xval xpc vec stat : Word} {pri : Nat} {imp secw : Bool}

@[simp] theorem CoreT.saveTrap_tr :
    (t.saveTrap c cause xval xpc).tr = { t.tr with xcause := cause, xval := xval, xpc := xpc } :=
  t.updTr_tr _

@[simp] theorem CoreT.saveTrap_fir : (t.saveTrap c cause xval xpc).fir = t.fir := t.updTr_fir _

@[simp] theorem CoreT.toHandler_tr : (t.toHandler pri vec stat).tr = { t.tr with xstat := stat } :=
  (CoreT.updFir_tr _ _).trans (t.updTr_tr _)

@[simp] theorem CoreT.toHandler_fir : (t.toHandler pri vec stat).fir = t.fir.map fun g => { g with pc := vec } :=
  (CoreT.updFir_fir _ _).trans (congrArg _ (t.updTr_fir _))

/-- With no open chunk a trap is taken at once. -/
theorem State.takeTrap_of_no_chunk (h : s.me.chunk = none) :
    s.takeTrap c xval xpc imp secw = (s.enterTrap c xval xpc imp secw).stay := by
  rw [State.takeTrap, h]

variable (hf : s.t.fir = some f) (hin : s.t.inTrap = false) (hvec : s.t.tr.xvec ≠ 0)
include hf hin hvec

/-- A firing outside a handler that has a vector saves what trapped it, freezes the matrix unit and goes to its handler. -/
theorem State.enterTrap_handler : s.enterTrap c xval xpc imp secw =
    (s.next.updMe fun k => k.both fun t => t.saveTrap c (xcauseOf c imp secw) xval xpc).updMe fun k =>
      ((k.freeze f.pri f.inst).unarm s.t.level).both fun t => t.toHandler f.pri s.t.tr.xvec (s.t.handlerStat f c) := by
  simp only [State.enterTrap, State.next_t, hf, hin, if_neg hvec, Bool.false_eq_true, if_false]
  rfl

theorem State.enterTrap_handler_tr : (s.enterTrap c xval xpc imp secw).t.tr =
    { s.t.tr with xcause := xcauseOf c imp secw, xval := xval, xpc := xpc, xstat := s.t.handlerStat f c } := by
  rw [State.enterTrap_handler hf hin hvec]
  simp [State.t]

theorem State.enterTrap_handler_pc : (s.enterTrap c xval xpc imp secw).t.pc = s.t.tr.xvec := by
  have hfir : (s.enterTrap c xval xpc imp secw).t.fir = some { f with pc := s.t.tr.xvec } := by
    rw [State.enterTrap_handler hf hin hvec]
    have hme : s.me.t.fir = some f := hf
    simp [hme]
  rw [CoreT.pc_of_fir hfir]

end Entry

/-! ### The cause that XCAUSE shows (R37, R354) -/

theorem Cause.code_lt (c : Cause) : c.code < 256 := by
  cases c <;> decide

/-- The low byte of XCAUSE is the cause's code. -/
theorem xcauseOf_code (c : Cause) (imp secw : Bool) : (xcauseOf c imp secw).toNat % 256 = c.code := by
  have hcode := c.code_lt
  rw [xcauseOf, word, BitVec.toNat_ofNat]
  omega

/-! ### TRAP and BRK (R370) -/

/-- Either instruction enters the handler with its cause, its immediate and the address after it. -/
theorem trapOp_enters {s : State} {f : Firing} (c : Cause) (imm : BitVec 16) (hk : s.me.chunk = none)
    (hf : s.t.fir = some f) (hin : s.t.inTrap = false) (hvec : s.t.tr.xvec ≠ 0) :
    ∃ t, trapOp c imm s = .next t ∧ t.t.tr.xcause.toNat % 256 = c.code ∧ t.t.tr.xval = imm.zeroExtend 64 ∧
      t.t.tr.xpc = s.nextPc ∧ t.t.pc = s.t.tr.xvec := by
  refine ⟨_, rfl, ?_⟩
  rw [State.takeTrap_of_no_chunk hk, State.stay_t, State.enterTrap_handler_tr hf hin hvec]
  exact ⟨xcauseOf_code _ _ _, rfl, rfl, State.enterTrap_handler_pc hf hin hvec⟩

/-- Settles O34: both instructions take the trap of their cause, and where no chunk is open the handler is entered. -/
theorem trapBreak : Obligations.TrapBreak := by
  unfold Obligations.TrapBreak
  exact fun s imm => ⟨rfl, rfl, rfl, rfl, fun f hk hf hin hvec =>
    ⟨trapOp_enters .trapInsn imm hk hf hin hvec, trapOp_enters .breakpoint imm hk hf hin hvec⟩⟩

end Sys2Proof.Machine
end

section
/-! Decoding inverts encoding (R42, R47-R51). A word is a row of fields set side by side; a field of it is read off the
part that it lies in, and so are its major opcode, its codes and its operands. -/
namespace Sys2Proof

-- One proof after another: the threads of many proofs at once do not fit the memory of the check.
set_option Elab.async false

/-! ### A field of a word set together from fields -/

section Fields
variable {v w s l : Nat} (x : BitVec v) (y : BitVec w)

/- The widths are no_index: of a word they stand as 32, which is no sum. -/
@[simp] theorem extractLsb'_high (h : w ≤ s) :
    BitVec.extractLsb' (n := no_index (v + w)) s l
      (@HAppend.hAppend (BitVec v) (BitVec w) (no_index (BitVec (v + w))) _ x y) = x.extractLsb' (s - w) l :=
  BitVec.extractLsb'_append_eq_of_le h

@[simp] theorem extractLsb'_low (h : s + l ≤ w) :
    BitVec.extractLsb' (n := no_index (v + w)) s l
      (@HAppend.hAppend (BitVec v) (BitVec w) (no_index (BitVec (v + w))) _ x y) = y.extractLsb' s l :=
  BitVec.extractLsb'_append_eq_of_add_le h

@[simp] theorem msb_high (h : 0 < v) :
    BitVec.msb (n := no_index (v + w))
      (@HAppend.hAppend (BitVec v) (BitVec w) (no_index (BitVec (v + w))) _ x y) = x.msb := by
  rw [BitVec.msb_append, if_neg h.ne']

end Fields

/-- A number in the lower half of its width has a clear top bit. -/
@[simp] theorem msb_ofNat_of_lt {w n : Nat} (h : 2 * n < 2 ^ w) : (BitVec.ofNat w n).msb = false := by
  rw [BitVec.msb_eq_false_iff_two_mul_lt, BitVec.toNat_ofNat, Nat.mod_eq_of_lt (by omega)]
  exact h

section Rows
variable (w : BitVec 32) (i : Instr)

@[simp] theorem fMaj_eq : fMaj w = w.extractLsb' 25 6 := rfl
@[simp] theorem fD_eq : fD w = w.extractLsb' 20 5 := rfl
@[simp] theorem fA_eq : fA w = w.extractLsb' 15 5 := rfl
@[simp] theorem fB_eq : fB w = w.extractLsb' 10 5 := rfl
@[simp] theorem fC_eq : fC w = w.extractLsb' 5 5 := rfl
@[simp] theorem fSub_eq : fSub w = w.extractLsb' 0 5 := rfl
@[simp] theorem fFn_eq : fFn w = w.extractLsb' 0 10 := rfl
@[simp] theorem row_of_zero {z : Bool} (h : z = true) : row z i = .ok i := if_pos h
@[simp] theorem rowIf_true (z : Bool) : rowIf true z i = row z i := rfl

end Rows

/-! ### Every instruction -/

/-- The instruction comes back from its word, whose bit 31 is clear. -/
def ReadsBack (i : Instr) : Prop :=
  i.isWord = true → i.wellFormed = true → decodeWord (encode i) = .ok i ∧ (encode i).msb = false

theorem readsBack_deviceStep {i : Instr} (h : i.isWord = false) : ReadsBack i := fun hw => by simp [h] at hw

/- One lemma for the instructions that a decoder reads: the major opcode chooses the decoder, the code its arm, and the
operands are the fields of the word. -/

theorem readsBack_classC :
    (∀ link off, ReadsBack (.jal link off)) ∧ (∀ off, ReadsBack (.j off)) ∧ (∀ d a b, ReadsBack (.tmov d a b)) := by
  and_intros <;> intros <;> intro hw hf <;>
    simp_all [decodeWord, decClassC, encode.eq_def, Instr.wellFormed, Instr.wordOrEvent.eq_def]

theorem readsBack_classA :
    (∀ d a imm, ReadsBack (.addi d a imm)) ∧ (∀ d a imm, ReadsBack (.andi d a imm)) ∧
    (∀ d a imm, ReadsBack (.ori d a imm)) ∧ (∀ d a imm, ReadsBack (.xori d a imm)) ∧
    (∀ d a imm, ReadsBack (.slti d a imm)) ∧ (∀ d a imm, ReadsBack (.sltiu d a imm)) ∧
    (∀ d imm, ReadsBack (.li d imm)) ∧ (∀ d imm, ReadsBack (.lih d imm)) ∧ (∀ d a b sh, ReadsBack (.lea d a b sh)) ∧
    (∀ d a b c, ReadsBack (.sel d a b c)) := by
  and_intros <;> intros <;> intro hw hf <;>
    simp_all [decodeWord, decClassA, encode.eq_def, Instr.wellFormed, Instr.wordOrEvent.eq_def]

theorem readsBack_branch :
    (∀ a b off, ReadsBack (.beq a b off)) ∧ (∀ a b off, ReadsBack (.bne a b off)) ∧
    (∀ a b off, ReadsBack (.blt a b off)) ∧ (∀ a b off, ReadsBack (.bge a b off)) ∧
    (∀ a b off, ReadsBack (.bltu a b off)) ∧ (∀ a b off, ReadsBack (.bgeu a b off)) := by
  and_intros <;> intros <;> intro hw hf <;>
    simp_all [decodeWord, decClassC, decBranch, encode.eq_def, Instr.wellFormed, Instr.wordOrEvent.eq_def]

theorem readsBack_jumpReg :
    (∀ d a off, ReadsBack (.jalr d a off)) ∧ (∀ a off, ReadsBack (.jr a off)) ∧
    (∀ d a off, ReadsBack (.loop d a off)) := by
  and_intros <;> intros <;> intro hw hf <;>
    simp_all [decodeWord, decClassC, decJumpReg, encode.eq_def, Instr.wellFormed, Instr.wordOrEvent.eq_def]

theorem readsBack_load :
    (∀ d a imm, ReadsBack (.ldB d a imm)) ∧ (∀ d a imm, ReadsBack (.ldBu d a imm)) ∧
    (∀ d a imm, ReadsBack (.ldH d a imm)) ∧ (∀ d a imm, ReadsBack (.ldHu d a imm)) ∧
    (∀ d a imm, ReadsBack (.ldW d a imm)) ∧ (∀ d a imm, ReadsBack (.ldWu d a imm)) ∧
    (∀ d a imm, ReadsBack (.ldD d a imm)) := by
  and_intros <;> intros <;> intro hw hf <;>
    simp_all [decodeWord, decClassC, decLoad, encode.eq_def, Instr.wellFormed, Instr.wordOrEvent.eq_def]

theorem readsBack_store :
    (∀ d a imm, ReadsBack (.stB d a imm)) ∧ (∀ d a imm, ReadsBack (.stH d a imm)) ∧
    (∀ d a imm, ReadsBack (.stW d a imm)) ∧ (∀ d a imm, ReadsBack (.stD d a imm)) := by
  and_intros <;> intros <;> intro hw hf <;>
    simp_all [decodeWord, decClassC, decStore, encode.eq_def, Instr.wellFormed, Instr.wordOrEvent.eq_def]

theorem readsBack_indexed :
    (∀ d a b, ReadsBack (.ldxB d a b)) ∧ (∀ d a b, ReadsBack (.ldxBu d a b)) ∧ (∀ d a b, ReadsBack (.ldxH d a b)) ∧
    (∀ d a b, ReadsBack (.ldxHu d a b)) ∧ (∀ d a b, ReadsBack (.ldxW d a b)) ∧ (∀ d a b, ReadsBack (.ldxWu d a b)) ∧
    (∀ d a b, ReadsBack (.ldxD d a b)) ∧ (∀ d a b, ReadsBack (.stxB d a b)) ∧ (∀ d a b, ReadsBack (.stxH d a b)) ∧
    (∀ d a b, ReadsBack (.stxW d a b)) ∧ (∀ d a b, ReadsBack (.stxD d a b)) := by
  and_intros <;> intros <;> intro hw hf <;>
    simp_all [decodeWord, decClassC, decIndexed, encode.eq_def, Instr.wellFormed, Instr.wordOrEvent.eq_def]

theorem readsBack_vecMem :
    (∀ d a imm, ReadsBack (.vld d a imm)) ∧ (∀ d a imm, ReadsBack (.vst d a imm)) ∧
    (∀ d a imm, ReadsBack (.vldt d a imm)) := by
  and_intros <;> intros <;> intro hw hf <;>
    simp_all [decodeWord, decClassC, decVecMem, encode.eq_def, Instr.wellFormed, Instr.wordOrEvent.eq_def]

theorem readsBack_atomic :
    (∀ d a b far w64, ReadsBack (.amoadd d a b far w64)) ∧ (∀ d a b far, ReadsBack (.amofadd d a b far)) ∧
    (∀ d a b far w64, ReadsBack (.amoswp d a b far w64)) ∧ (∀ d a b c far w64, ReadsBack (.amocas d a b c far w64))
    ∧ (∀ d a b far w64, ReadsBack (.amomin d a b far w64)) ∧ (∀ d a b far w64, ReadsBack (.amomax d a b far w64)) := by
  and_intros <;> intros <;> intro hw hf <;>
    simp_all [decodeWord, decClassC, decAtomic, encode.eq_def, Instr.wellFormed, Instr.wordOrEvent.eq_def]

theorem readsBack_fence :
    (∀ cls, ReadsBack (.fence cls)) ∧ ReadsBack .chend := by
  and_intros <;> intros <;> intro hw hf <;>
    simp_all [decodeWord, decClassC, decFence, encode.eq_def, Instr.wellFormed, Instr.wordOrEvent.eq_def]

theorem readsBack_mailbox :
    (∀ b n, ReadsBack (.mbinc b n)) ∧ (∀ imm n, ReadsBack (.mbincImm imm n)) ∧ (∀ a b, ReadsBack (.mbincGlobal a b))
    ∧ (∀ a imm, ReadsBack (.mbincGlobalImm a imm)) ∧ (∀ d a n, ReadsBack (.mbwait d a n)) ∧
    (∀ d n, ReadsBack (.mbrd d n)) ∧ (∀ a n, ReadsBack (.mbset a n)) ∧ (∀ d n, ReadsBack (.mberr d n)) ∧
    (∀ d n, ReadsBack (.mberrC d n)) := by
  and_intros <;> intros <;> intro hw hf <;>
    simp_all [decodeWord, decClassC, decMailbox, encode.eq_def, Instr.wellFormed, Instr.wordOrEvent.eq_def]

theorem readsBack_barrier :
    (∀ a b, ReadsBack (.barInit a b)) ∧ (∀ d a b, ReadsBack (.barArv d a b)) ∧ (∀ d a b, ReadsBack (.barDrop d a b))
    ∧ (∀ d a b, ReadsBack (.barWait d a b)) := by
  and_intros <;> intros <;> intro hw hf <;>
    simp_all [decodeWord, decClassC, decBarrier, encode.eq_def, Instr.wellFormed, Instr.wordOrEvent.eq_def]

theorem readsBack_copy :
    (∀ d a ch, ReadsBack (.cpy d a ch)) ∧ (∀ d a ch, ReadsBack (.cpy3 d a ch)) ∧
    (∀ d a ch, ReadsBack (.cwait d a ch)) ∧ (∀ d ch, ReadsBack (.cstat d ch)) ∧ (∀ d ch, ReadsBack (.cstatC d ch)) ∧
    (∀ d a, ReadsBack (.perm d a)) := by
  and_intros <;> intros <;> intro hw hf <;>
    simp_all [decodeWord, decClassC, decCopy, encode.eq_def, Instr.wellFormed, Instr.wordOrEvent.eq_def]

theorem readsBack_rack :
    (∀ k a, ReadsBack (.rkset k a)) ∧ (∀ k n, ReadsBack (.rkwf k n)) ∧ (∀ k n, ReadsBack (.rkws k n)) ∧
    (∀ k n w, ReadsBack (.rkadv k n w)) ∧ (∀ d k x, ReadsBack (.rkrd d k x)) ∧
    (∀ t a vec, ReadsBack (.stbind t a vec)) ∧ (∀ t vec, ReadsBack (.stunb t vec)) ∧ (∀ a, ReadsBack (.park a)) ∧
    (∀ a, ReadsBack (.unpark a)) := by
  and_intros <;> intros <;> intro hw hf <;>
    simp_all [decodeWord, decClassC, decRack, encode.eq_def, Instr.wellFormed, Instr.wordOrEvent.eq_def]

theorem readsBack_matrix :
    (∀ d, ReadsBack (.mzero d)) ∧ (∀ d a, ReadsBack (.mown d a)) ∧ (∀ a, ReadsBack (.mfree a)) ∧
    (∀ d a b, ReadsBack (.mma d a b)) ∧ (∀ d a b, ReadsBack (.mmar d a b)) ∧ (∀ d a b, ReadsBack (.mmarAk d a b)) ∧
    (∀ d a b c, ReadsBack (.mmag d a b c)) ∧ (∀ d a, ReadsBack (.mldc d a)) ∧ (∀ s a, ReadsBack (.mdrain s a)) ∧
    (∀ s d n, ReadsBack (.mdrainReg s d n)) ∧ (∀ d a, ReadsBack (.mpar d a)) ∧ (∀ s a, ReadsBack (.msave s a)) ∧
    (∀ d a, ReadsBack (.mrest d a)) ∧ (∀ d s, ReadsBack (.mstat d s)) ∧ (∀ d s, ReadsBack (.mstatC d s)) ∧
    (∀ d a, ReadsBack (.mwait d a)) := by
  and_intros <;> intros <;> intro hw hf <;>
    simp_all [decodeWord, decClassC, decMatrix, encode.eq_def, Instr.wellFormed, Instr.wordOrEvent.eq_def]

theorem readsBack_kerf :
    (∀ a n x, ReadsBack (.gauge a n x)) ∧ (∀ d a m, ReadsBack (.kmma d a m)) ∧ (∀ d s, ReadsBack (.kvar d s)) ∧
    (∀ d s, ReadsBack (.kstat d s)) ∧ (∀ n a, ReadsBack (.seedw n a)) ∧ (∀ d n, ReadsBack (.seedr d n)) := by
  and_intros <;> intros <;> intro hw hf <;>
    simp_all [decodeWord, decClassC, decKerf, encode.eq_def, Instr.wellFormed, Instr.wordOrEvent.eq_def]

theorem readsBack_marquetry :
    (∀ d a, ReadsBack (.mqdef d a)) ∧ (∀ d a c b, ReadsBack (.mqld d a c b)) ∧
    (∀ d a c b, ReadsBack (.mqsc d a c b)) ∧ (∀ a b, ReadsBack (.mqz a b)) ∧ (∀ d a b, ReadsBack (.mqstat d a b)) := by
  and_intros <;> intros <;> intro hw hf <;>
    simp_all [decodeWord, decClassC, decMarquetry, encode.eq_def, Instr.wellFormed, Instr.wordOrEvent.eq_def]

theorem readsBack_message :
    (∀ a oport eret eport, ReadsBack (.send a oport eret eport)) ∧ (∀ a b c oport, ReadsBack (.sendp a b c oport)) ∧
    (∀ a b, ReadsBack (.hop a b)) ∧ ReadsBack .done ∧ ReadsBack .maskon ∧ ReadsBack .maskoff ∧
    (∀ d x, ReadsBack (.kilnrd d x)) := by
  and_intros <;> intros <;> intro hw hf <;>
    simp_all [decodeWord, decClassC, decMessage, encode.eq_def, Instr.wellFormed, Instr.wordOrEvent.eq_def]

theorem readsBack_launch :
    (∀ a b, ReadsBack (.launch a b)) ∧ (∀ a b c, ReadsBack (.launchi a b c)) ∧ ReadsBack .step ∧
    (∀ d a, ReadsBack (.actnew d a)) ∧ ReadsBack .actend ∧ (∀ d a, ReadsBack (.lchstat d a)) := by
  and_intros <;> intros <;> intro hw hf <;>
    simp_all [decodeWord, decClassC, decLaunch, encode.eq_def, Instr.wellFormed, Instr.wordOrEvent.eq_def]

theorem readsBack_dryFit :
    (∀ k a, ReadsBack (.rkpred k a)) ∧ (∀ k a, ReadsBack (.dfit k a)) ∧ (∀ k a, ReadsBack (.dftol k a)) ∧
    (∀ d k, ReadsBack (.dfstat d k)) ∧ (∀ a, ReadsBack (.ordt a)) ∧ (∀ d, ReadsBack (.ordtReadNext d)) ∧
    (∀ a, ReadsBack (.ordtSetNext a)) ∧ (∀ d, ReadsBack (.ordtReadT d)) ∧
    (∀ a b oport, ReadsBack (.ordsend a b oport)) := by
  and_intros <;> intros <;> intro hw hf <;>
    simp_all [decodeWord, decClassC, decDryFit, encode.eq_def, Instr.wellFormed, Instr.wordOrEvent.eq_def]

theorem readsBack_collective :
    (∀ d a grp, ReadsBack (.dvcfg d a grp)) ∧ (∀ d a, ReadsBack (.dvinj d a)) ∧ (∀ d, ReadsBack (.dvext d)) ∧
    (∀ d grp, ReadsBack (.dvstat d grp)) ∧ (∀ d grp, ReadsBack (.dvstatC d grp)) ∧
    (∀ d a n, ReadsBack (.xpost d a n)) ∧ (∀ d a, ReadsBack (.xsend d a)) ∧ (∀ d a, ReadsBack (.xcc d a)) := by
  and_intros <;> intros <;> intro hw hf <;>
    simp_all [decodeWord, decClassC, decCollective, encode.eq_def, Instr.wellFormed, Instr.wordOrEvent.eq_def]

theorem readsBack_system :
    (∀ imm, ReadsBack (.trap imm)) ∧ ReadsBack .xret ∧ ReadsBack .xretK ∧ (∀ imm, ReadsBack (.brk imm)) ∧
    (∀ d a, ReadsBack (.wfi d a)) ∧ (∀ g csr, ReadsBack (.csrrd g csr)) ∧ (∀ g csr, ReadsBack (.csrwr g csr)) ∧
    (∀ g csr, ReadsBack (.csrsw g csr)) ∧ (∀ d a b, ReadsBack (.ctxsave d a b)) ∧
    (∀ d a b, ReadsBack (.ctxrest d a b)) ∧ (∀ d a b, ReadsBack (.ctxrestAny d a b)) ∧
    (∀ d a b, ReadsBack (.watch d a b)) ∧ (∀ d a b, ReadsBack (.winset d a b)) ∧
    (∀ d a, ReadsBack (.winsetRead d a)) ∧ (∀ d a, ReadsBack (.probe d a)) ∧ (∀ a x, ReadsBack (.tlbi a x)) ∧
    (∀ d a b, ReadsBack (.hnew d a b)) ∧ (∀ d a, ReadsBack (.hrev d a)) ∧ (∀ d a, ReadsBack (.hchk d a)) := by
  and_intros <;> intros <;> intro hw hf <;>
    simp_all [decodeWord, decClassC, decSystem, encode.eq_def, Instr.wellFormed, Instr.wordOrEvent.eq_def]

theorem readsBack_integer :
    (∀ d a b, ReadsBack (.add d a b)) ∧ (∀ d a b, ReadsBack (.sub d a b)) ∧ (∀ d a b, ReadsBack (.and d a b)) ∧
    (∀ d a b, ReadsBack (.or d a b)) ∧ (∀ d a b, ReadsBack (.xor d a b)) ∧ (∀ d a b, ReadsBack (.sll d a b)) ∧
    (∀ d a b, ReadsBack (.srl d a b)) ∧ (∀ d a b, ReadsBack (.sra d a b)) ∧ (∀ d a b, ReadsBack (.slt d a b)) ∧
    (∀ d a b, ReadsBack (.sltu d a b)) ∧ (∀ d a b, ReadsBack (.mul d a b)) ∧ (∀ d a b, ReadsBack (.mulh d a b)) ∧
    (∀ d a b, ReadsBack (.mulhu d a b)) ∧ (∀ d a b, ReadsBack (.div d a b)) ∧ (∀ d a b, ReadsBack (.divu d a b)) ∧
    (∀ d a b, ReadsBack (.rem d a b)) ∧ (∀ d a b, ReadsBack (.remu d a b)) ∧ (∀ d a b, ReadsBack (.min d a b)) ∧
    (∀ d a b, ReadsBack (.max d a b)) ∧ (∀ d a b, ReadsBack (.minu d a b)) ∧ (∀ d a b, ReadsBack (.maxu d a b)) ∧
    (∀ d a, ReadsBack (.clz d a)) ∧ (∀ d a, ReadsBack (.ctz d a)) ∧ (∀ d a, ReadsBack (.popc d a)) ∧
    (∀ d a b, ReadsBack (.andn d a b)) := by
  and_intros <;> intros <;> intro hw hf <;>
    simp_all [decodeWord, decClassA, decInteger, encode.eq_def, Instr.wellFormed, Instr.wordOrEvent.eq_def]

theorem readsBack_shiftImm :
    (∀ d a sh, ReadsBack (.slli d a sh)) ∧ (∀ d a sh, ReadsBack (.srli d a sh)) ∧
    (∀ d a sh, ReadsBack (.srai d a sh)) := by
  and_intros <;> intros <;> intro hw hf <;>
    simp_all [decodeWord, decClassA, decShiftImm, encode.eq_def, Instr.wellFormed, Instr.wordOrEvent.eq_def]

theorem readsBack_bitfield :
    (∀ d a pos len, ReadsBack (.bfx d a pos len)) ∧ (∀ d a pos len, ReadsBack (.bfxu d a pos len)) ∧
    (∀ d a pos len, ReadsBack (.bfi d a pos len)) := by
  and_intros <;> intros <;> intro hw hf <;>
    simp_all [decodeWord, decClassA, decBitfield, encode.eq_def, Instr.wellFormed, Instr.wordOrEvent.eq_def]

theorem readsBack_scalarFp :
    (∀ d a b, ReadsBack (.fadd d a b)) ∧ (∀ d a b, ReadsBack (.fsub d a b)) ∧ (∀ d a b, ReadsBack (.fmul d a b)) ∧
    (∀ d a b, ReadsBack (.fdiv d a b)) ∧ (∀ d a, ReadsBack (.fsqrt d a)) ∧ (∀ d a b, ReadsBack (.fmin d a b)) ∧
    (∀ d a b, ReadsBack (.fmax d a b)) ∧ (∀ d a b, ReadsBack (.feq d a b)) ∧ (∀ d a b, ReadsBack (.flt d a b)) ∧
    (∀ d a b, ReadsBack (.fle d a b)) ∧ (∀ d a, ReadsBack (.fabs d a)) ∧ (∀ d a, ReadsBack (.fneg d a)) ∧
    (∀ d a, ReadsBack (.ftoi d a)) ∧ (∀ d a, ReadsBack (.ftoiu d a)) ∧ (∀ d a, ReadsBack (.itof d a)) ∧
    (∀ d a, ReadsBack (.itofu d a)) ∧ (∀ d a, ReadsBack (.fclass d a)) := by
  and_intros <;> intros <;> intro hw hf <;>
    simp_all [decodeWord, decClassA, decScalarFp, encode.eq_def, Instr.wellFormed, Instr.wordOrEvent.eq_def]

theorem readsBack_scalarFma :
    (∀ d a b c, ReadsBack (.fmadd d a b c)) ∧ (∀ d a b c, ReadsBack (.fmsub d a b c)) ∧
    (∀ d a b c, ReadsBack (.fnmadd d a b c)) ∧ (∀ d a b c, ReadsBack (.fnmsub d a b c)) := by
  and_intros <;> intros <;> intro hw hf <;>
    simp_all [decodeWord, decClassA, decScalarFma, encode.eq_def, Instr.wellFormed, Instr.wordOrEvent.eq_def]

theorem readsBack_vector :
    (∀ d a b fwd, ReadsBack (.vadd d a b fwd)) ∧ (∀ d a b fwd, ReadsBack (.vsub d a b fwd)) ∧
    (∀ d a b fwd, ReadsBack (.vmul d a b fwd)) ∧ (∀ d a b fwd, ReadsBack (.vmin d a b fwd)) ∧
    (∀ d a b fwd, ReadsBack (.vmax d a b fwd)) ∧ (∀ d a fwd, ReadsBack (.vabs d a fwd)) ∧
    (∀ d a fwd, ReadsBack (.vneg d a fwd)) ∧ (∀ d a b fwd, ReadsBack (.vand d a b fwd)) ∧
    (∀ d a b fwd, ReadsBack (.vor d a b fwd)) ∧ (∀ d a b fwd, ReadsBack (.vxor d a b fwd)) ∧
    (∀ d a b fwd, ReadsBack (.viadd d a b fwd)) ∧ (∀ d a b fwd, ReadsBack (.visub d a b fwd)) ∧
    (∀ d a b fwd, ReadsBack (.vimul d a b fwd)) ∧ (∀ d a b fwd, ReadsBack (.vceq d a b fwd)) ∧
    (∀ d a b fwd, ReadsBack (.vclt d a b fwd)) ∧ (∀ d a b fwd, ReadsBack (.vcle d a b fwd)) := by
  and_intros <;> intros <;> intro hw hf <;>
    simp_all [decodeWord, decClassA, decVector, encode.eq_def, Instr.wellFormed, Instr.wordOrEvent.eq_def]

theorem readsBack_vectorFma :
    (∀ d a b c fwd, ReadsBack (.vfma d a b c fwd)) ∧ (∀ d a b c fwd, ReadsBack (.vfms d a b c fwd)) ∧
    (∀ d a b c fwd, ReadsBack (.vfnma d a b c fwd)) ∧ (∀ d a b c fwd, ReadsBack (.vfnms d a b c fwd)) ∧
    (∀ d a b c fwd, ReadsBack (.vsel d a b c fwd)) := by
  and_intros <;> intros <;> intro hw hf <;>
    simp_all [decodeWord, decClassA, decVectorFma, encode.eq_def, Instr.wellFormed, Instr.wordOrEvent.eq_def]

theorem readsBack_vectorMove :
    (∀ d a fmt fwd, ReadsBack (.vpack d a fmt fwd)) ∧ (∀ d a fmt fwd, ReadsBack (.vunpk d a fmt fwd)) ∧
    (∀ d a fwd, ReadsBack (.vitof d a fwd)) ∧ (∀ d a fwd, ReadsBack (.vftoi d a fwd)) ∧
    (∀ d a b fwd, ReadsBack (.vperm d a b fwd)) ∧ (∀ d a n fwd, ReadsBack (.vrot d a n fwd)) ∧
    (∀ d a fwd, ReadsBack (.vrsum d a fwd)) ∧ (∀ d a fwd, ReadsBack (.vrmax d a fwd)) ∧
    (∀ d a fwd, ReadsBack (.vrmin d a fwd)) ∧ (∀ d a fwd, ReadsBack (.vrcpe d a fwd)) ∧
    (∀ d a fwd, ReadsBack (.vrsqe d a fwd)) ∧ (∀ d a, ReadsBack (.vbcast d a)) ∧ (∀ d a n, ReadsBack (.vins d a n))
    ∧ (∀ d a n fwd, ReadsBack (.vext d a n fwd)) ∧ (∀ d a b, ReadsBack (.gcomp d a b)) := by
  and_intros <;> intros <;> intro hw hf <;>
    simp_all [decodeWord, decClassA, decVectorMove, encode.eq_def, Instr.wellFormed, Instr.wordOrEvent.eq_def]

/-- Every instruction's word is one of the words above; a device step has none. -/
theorem readsBack (i : Instr) : ReadsBack i := by
  cases h : i.isWord with
  | false => exact readsBack_deviceStep h
  | true =>
    cases i <;> simp only [Instr.isWord, Instr.wordOrEvent.eq_def, Bool.false_eq_true] at h <;>
      simp only [readsBack_classC, readsBack_classA, readsBack_branch, readsBack_jumpReg, readsBack_load,
        readsBack_store, readsBack_indexed, readsBack_vecMem, readsBack_atomic, readsBack_fence,
        readsBack_mailbox, readsBack_barrier, readsBack_copy, readsBack_rack, readsBack_matrix,
        readsBack_kerf, readsBack_marquetry, readsBack_message, readsBack_launch, readsBack_dryFit,
        readsBack_collective, readsBack_system, readsBack_integer, readsBack_shiftImm, readsBack_bitfield,
        readsBack_scalarFp, readsBack_scalarFma, readsBack_vector, readsBack_vectorFma, readsBack_vectorMove]

/-- Settles O56: the words of each major opcode, by the decoder of that opcode. -/
theorem encodeDecode : Obligations.EncodeDecode := by
  unfold Obligations.EncodeDecode
  exact readsBack

end Sys2Proof
end

section
/-! Integer and address instructions (R134-R139): each writes one register, and its word is the one that the numbers
give. -/
namespace Sys2Proof.Machine

-- One proof after another: the threads of many proofs at once do not fit the memory of the check.
set_option Elab.async false

/-- An instruction whose whole effect is one register's new value, that value under another name. -/
theorem puts_of_setsG {i : Instr} {s : State} {d : Reg} {w v : Word} (h : exec i s = setsG i d w s) (hw : w = v) :
    Puts i s d v := hw ▸ puts_of h

/-! ### Words as numbers modulo 2^64 -/

section Words
variable (x y : Word)

@[simp] theorem word_toNat : word x.toNat = x := by simp [word]

theorem toNat_word (n : Nat) : (word n).toNat = n % 2 ^ 64 := BitVec.toNat_ofNat n 64

theorem word_eq_of_mod {n : Nat} (h : x.toNat = n % 2 ^ 64) : x = word n :=
  BitVec.eq_of_toNat_eq (h.trans (toNat_word n).symm)

theorem add_eq_word : x + y = word (x.toNat + y.toNat) := word_eq_of_mod _ (BitVec.toNat_add x y)

theorem mul_eq_word : x * y = word (x.toNat * y.toNat) := word_eq_of_mod _ (BitVec.toNat_mul x y)

theorem sub_eq_ofInt : x - y = BitVec.ofInt 64 (x.toNat - y.toNat : Int) := by
  rw [Int.sub_eq_add_neg, BitVec.ofInt_add, BitVec.ofInt_neg, BitVec.ofInt_natCast, BitVec.ofInt_natCast,
    BitVec.ofNat_toNat, BitVec.ofNat_toNat, BitVec.setWidth_eq, BitVec.setWidth_eq, BitVec.sub_eq_add_neg]

theorem ofInt_of_toInt_bmod {v : Int} (h : x.toInt = v.bmod (2 ^ 64)) : x = BitVec.ofInt 64 v :=
  BitVec.eq_of_toInt_eq (h.trans (BitVec.toInt_ofInt v).symm)

theorem ofInt_of_toInt {v : Int} (h : x.toInt = v) : x = BitVec.ofInt 64 v := h ▸ BitVec.ofInt_toInt.symm

theorem sdiv_eq_ofInt : x.sdiv y = BitVec.ofInt 64 (x.toInt.tdiv y.toInt) := ofInt_of_toInt_bmod _ (BitVec.toInt_sdiv x y)

theorem srem_eq_ofInt : x.srem y = BitVec.ofInt 64 (x.toInt.tmod y.toInt) := ofInt_of_toInt _ (BitVec.toInt_srem x y)

theorem udiv_eq_word : x / y = word (x.toNat / y.toNat) :=
  word_eq_of_mod _ (by rw [BitVec.toNat_udiv, Nat.mod_eq_of_lt ((Nat.div_le_self _ _).trans_lt x.isLt)])

theorem umod_eq_word : x % y = word (x.toNat % y.toNat) :=
  word_eq_of_mod _ (by rw [BitVec.toNat_umod, Nat.mod_eq_of_lt ((Nat.mod_le _ _).trans_lt x.isLt)])

theorem shiftLeft_eq_word (n : Nat) : x <<< n = word (x.toNat * 2 ^ n) :=
  word_eq_of_mod _ (by rw [BitVec.toNat_shiftLeft, Nat.shiftLeft_eq])

theorem ushiftRight_eq_word (n : Nat) : x >>> n = word (x.toNat / 2 ^ n) :=
  word_eq_of_mod _ (by
    rw [BitVec.toNat_ushiftRight, Nat.shiftRight_eq_div_pow, Nat.mod_eq_of_lt ((Nat.div_le_self _ _).trans_lt x.isLt)])

theorem sshiftRight_eq_ofInt (n : Nat) : x.sshiftRight n = BitVec.ofInt 64 (x.toInt / 2 ^ n) :=
  ofInt_of_toInt _ (by rw [BitVec.toInt_sshiftRight, Int.shiftRight_eq_div_pow]; rfl)

/-- The sign-extension of a field is the number that the field holds. -/
theorem sext_eq_ofInt {n : Nat} (f : BitVec n) : sext f = BitVec.ofInt 64 f.toInt := rfl

theorem toInt_sext {n : Nat} (f : BitVec n) (h : n ≤ 64) : (sext f).toInt = f.toInt := BitVec.toInt_signExtend_of_le h

theorem add_sext_eq_ofInt {n : Nat} (f : BitVec n) : x + sext f = BitVec.ofInt 64 (x.toInt + f.toInt) := by
  rw [BitVec.ofInt_add, BitVec.ofInt_toInt, sext_eq_ofInt]

/-- A shifted word with a field in the bits that the shift has freed. -/
theorem shiftLeft_or_zext {n : Nat} (f : BitVec n) (h : n ≤ 64) : x <<< n ||| zext f = word (x.toNat * 2 ^ n + f.toNat) := by
  have hdisj : x <<< n &&& zext f = 0 := by
    ext i hi
    by_cases hin : i < n
    · simp [zext, hin]
    · simp [zext, BitVec.getLsbD_of_ge f i (Nat.le_of_not_lt hin)]
  have hf : (zext f).toNat = f.toNat :=
    BitVec.toNat_setWidth_of_le h
  rw [← BitVec.add_eq_or_of_and_eq_zero _ _ hdisj, add_eq_word, hf, shiftLeft_eq_word, toNat_word]
  exact BitVec.eq_of_toNat_eq (by simp [toNat_word])

/-! ### Truth values and choices -/

theorem flag_decide (p : Prop) [Decidable p] : flag (decide p) = if p then 1 else 0 := by simp [flag]

/-- A choice by the strict order is the one by the other where level operands make no difference. -/
theorem ite_lt_eq_ite_le {α : Type} [LinearOrder α] {m n : α} {v w : Word} (h : m = n → v = w) :
    (if decide (m < n) then v else w) = if m ≤ n then v else w := by
  rcases lt_trichotomy m n with hlt | heq | hgt
  · simp [hlt, hlt.le]
  · simp [heq, h heq]
  · simp [hgt.not_gt, hgt.not_ge]

/-! ### Quotients and remainders with a zero divisor (R134) -/

theorem divS_eq : divS x y = if y = 0 then BitVec.ofInt 64 (-1) else BitVec.ofInt 64 (x.toInt.tdiv y.toInt) := by
  rw [divS, sdiv_eq_ofInt]; rfl

theorem remS_eq : remS x y = if y = 0 then x else BitVec.ofInt 64 (x.toInt.tmod y.toInt) := by
  rw [remS, srem_eq_ofInt]

theorem divU_eq : divU x y = if y = 0 then word (2 ^ 64 - 1) else word (x.toNat / y.toNat) := by
  rw [divU, udiv_eq_word]; rfl

theorem remU_eq : remU x y = if y = 0 then x else word (x.toNat % y.toNat) := by
  rw [remU, umod_eq_word]

/-! ### Bit fields (R138) -/

theorem getLsbD_ones (n k : Nat) (h : k < 64) : (ones n).getLsbD k = decide (k < n) := by
  rw [ones, word, BitVec.getLsbD_ofNat, Nat.testBit_two_pow_sub_one]
  simp [h]

theorem getLsbD_fieldU {pos len k : Nat} (hk : k < 64) :
    (fieldU x pos len).getLsbD k = (decide (k ≤ len) && x.getLsbD (pos + k)) := by
  rw [fieldU, BitVec.getLsbD_and, BitVec.getLsbD_ushiftRight, getLsbD_ones _ _ hk, Bool.and_comm]
  simp

theorem getLsbD_fieldS {pos len k : Nat} (hlen : len < 64) (hk : k < 64) :
    (fieldS x pos len).getLsbD k = x.getLsbD (pos + min k len) := by
  rw [fieldS, BitVec.getLsbD_sshiftRight]
  by_cases hle : 63 - len + k < 64
  · have hmin : min k len = k := by omega
    have hsub : 63 - len + k - (63 - len) = k := by omega
    simp [hle, hmin, hk]
  · have hmin : min k len = len := by omega
    simp [hle, hmin, Nat.not_le.mpr hk, BitVec.msb_eq_getLsbD_last, show 63 - (63 - len) = len by omega]

theorem getLsbD_fieldPut {pos len k : Nat} (hk : k < 64) :
    (fieldPut x y pos len).getLsbD k = if pos ≤ k ∧ k ≤ pos + len then y.getLsbD (k - pos) else x.getLsbD k := by
  have hin : (ones (len + 1)).getLsbD (k - pos) = decide (k - pos < len + 1) := getLsbD_ones _ _ (by omega)
  simp only [fieldPut, BitVec.getLsbD_or, BitVec.getLsbD_and, BitVec.getLsbD_not, BitVec.getLsbD_shiftLeft, hin, hk]
  by_cases hp : pos ≤ k
  · by_cases hl : k ≤ pos + len
    · have : k - pos < len + 1 := by omega
      simp [hp, hl, this, Nat.not_lt.mpr hp]
    · have : ¬k - pos < len + 1 := by omega
      simp [hp, hl, this]
  · simp [hp, Nat.lt_of_not_le hp]

/-! ### Counts of bits (R134) -/

theorem leadZeros_spec : ∀ n : Nat, leadZeros x n ≤ n ∧ (∀ k, n - leadZeros x n ≤ k → k < n → x.getLsbD k = false) ∧
    (leadZeros x n < n → x.getLsbD (n - 1 - leadZeros x n) = true)
  | 0 => by simp [leadZeros]
  | n + 1 => by
    obtain ⟨hle, hzero, hone⟩ := leadZeros_spec n
    cases hbit : x.getLsbD n with
    | true =>
      simp only [leadZeros, hbit, if_true]
      exact ⟨by omega, fun k _ _ => by omega, fun _ => hbit⟩
    | false =>
      simp only [leadZeros, hbit, Bool.false_eq_true, if_false]
      refine ⟨by omega, fun k hk hkn => ?_, fun h => ?_⟩
      · rcases Nat.lt_succ_iff_lt_or_eq.mp hkn with hlt | rfl
        · exact hzero k (by omega) hlt
        · exact hbit
      · have hidx : n + 1 - 1 - (leadZeros x n + 1) = n - 1 - leadZeros x n := by omega
        rw [hidx]
        exact hone (by omega)

theorem trailZeros_spec : ∀ n : Nat, n ≤ 64 → trailZeros x n ≤ n ∧
    (∀ k, 64 - n ≤ k → k < 64 - n + trailZeros x n → x.getLsbD k = false) ∧
    (trailZeros x n < n → x.getLsbD (64 - n + trailZeros x n) = true)
  | 0, _ => ⟨le_rfl, fun k hk hlt => absurd hlt (Nat.not_lt.mpr hk), fun h => absurd h (Nat.lt_irrefl 0)⟩
  | n + 1, hn => by
    obtain ⟨hle, hzero, hone⟩ := trailZeros_spec n (by omega)
    have hlow : 64 - (n + 1) = 63 - n := by omega
    cases hbit : x.getLsbD (63 - n) with
    | true =>
      simp only [trailZeros, hbit, if_true, hlow]
      exact ⟨by omega, fun k _ _ => by omega, fun _ => hbit⟩
    | false =>
      simp only [trailZeros, hbit, Bool.false_eq_true, if_false, hlow]
      refine ⟨by omega, fun k hk hkn => ?_, fun h => ?_⟩
      · rcases Nat.eq_or_lt_of_le hk with rfl | hlt
        · exact hbit
        · exact hzero k (by omega) (by omega)
      · have hidx : 63 - n + (trailZeros x n + 1) = 64 - n + trailZeros x n := by omega
        rw [hidx]
        exact hone (by omega)

theorem popCount_eq_countP : ∀ n : Nat, popCount x n = (List.range n).countP fun k => x.getLsbD k
  | 0 => rfl
  | n + 1 => by
    rw [popCount, popCount_eq_countP n, List.range_succ, List.countP_append, List.countP_singleton]
    rfl

end Words

/-- Settles O1: sums, products and quotients as numbers modulo 2^64. -/
theorem integerArithmetic : Obligations.IntegerArithmetic := by
  unfold Obligations.IntegerArithmetic
  refine ⟨fun s d a b => ?_, fun s d a b => ?_⟩
  · exact ⟨puts_of_setsG rfl (add_eq_word _ _), puts_of_setsG rfl (sub_eq_ofInt _ _), puts_of_setsG rfl (mul_eq_word _ _),
      puts_of_setsG rfl rfl, puts_of_setsG rfl rfl, puts_of_setsG rfl rfl, puts_of_setsG rfl rfl, puts_of_setsG rfl rfl,
      puts_of_setsG rfl rfl⟩
  · exact ⟨puts_of_setsG rfl (divS_eq _ _), puts_of_setsG rfl (remS_eq _ _), puts_of_setsG rfl (divU_eq _ _),
      puts_of_setsG rfl (remU_eq _ _)⟩

/-- Settles O2: shifts multiply and divide by powers of two, and comparisons order the numbers. -/
theorem integerShiftsComparisons : Obligations.IntegerShiftsComparisons := by
  unfold Obligations.IntegerShiftsComparisons
  refine ⟨fun s d a b sh => ?_, fun s d a b j => ?_⟩
  · exact ⟨puts_of_setsG rfl (shiftLeft_eq_word _ _), puts_of_setsG rfl (ushiftRight_eq_word _ _),
      puts_of_setsG rfl (sshiftRight_eq_ofInt _ _), puts_of_setsG rfl (shiftLeft_eq_word _ _),
      puts_of_setsG rfl (ushiftRight_eq_word _ _), puts_of_setsG rfl (sshiftRight_eq_ofInt _ _)⟩
  · have hj : (sext j).toInt = j.toInt := toInt_sext j (by decide)
    exact ⟨puts_of_setsG rfl (flag_decide _), puts_of_setsG rfl (flag_decide _),
      puts_of_setsG rfl (hj ▸ flag_decide ((s.gIn a).toInt < (sext j).toInt)), puts_of_setsG rfl (flag_decide _),
      puts_of_setsG rfl (ite_lt_eq_ite_le BitVec.eq_of_toInt_eq),
      puts_of_setsG rfl (ite_lt_eq_ite_le fun h => (BitVec.eq_of_toInt_eq h).symm),
      puts_of_setsG rfl (ite_lt_eq_ite_le BitVec.eq_of_toNat_eq),
      puts_of_setsG rfl (ite_lt_eq_ite_le fun h => (BitVec.eq_of_toNat_eq h).symm)⟩

/-- Settles O3: immediates as numbers, bit fields bit by bit, and counts by the bits that they pass. -/
theorem integerImmediates : Obligations.IntegerImmediates := by
  unfold Obligations.IntegerImmediates
  refine ⟨fun s d a b c i w sh => ?_, fun s d a pos len _ => ?_, fun s d a => ?_⟩
  · refine ⟨puts_of_setsG rfl (add_sext_eq_ofInt _ _), puts_of_setsG rfl rfl, puts_of_setsG rfl rfl, puts_of_setsG rfl rfl,
      puts_of_setsG rfl rfl, puts_of_setsG rfl (shiftLeft_or_zext _ w (by decide)), puts_of_setsG rfl ?_,
      puts_of_setsG rfl (ite_not _ _ _).symm⟩
    rw [shiftLeft_eq_word, add_eq_word, toNat_word]
    exact BitVec.eq_of_toNat_eq (by simp [toNat_word])
  · have hlen : len.toNat < 64 := len.isLt
    exact ⟨⟨_, puts_of_setsG rfl rfl, fun k hk => getLsbD_fieldU _ hk⟩,
      ⟨_, puts_of_setsG rfl rfl, fun k hk => getLsbD_fieldS _ hlen hk⟩,
      ⟨_, puts_of_setsG rfl rfl, fun k hk => getLsbD_fieldPut _ _ hk⟩⟩
  · obtain ⟨hl, hl0, hl1⟩ := leadZeros_spec (s.gIn a) 64
    obtain ⟨ht, ht0, ht1⟩ := trailZeros_spec (s.gIn a) 64 le_rfl
    refine ⟨⟨_, hl, puts_of_setsG rfl rfl, fun k hk => ?_, fun h => ?_⟩,
      ⟨_, ht, puts_of_setsG rfl rfl, fun k hk => ht0 k (by omega) (by omega), fun h => ?_⟩,
      puts_of_setsG rfl (congrArg word (popCount_eq_countP _ 64))⟩
    · by_cases hk64 : k < 64
      · exact hl0 k hk hk64
      · exact BitVec.getLsbD_of_ge _ _ (Nat.le_of_not_lt hk64)
    · exact hl1 h
    · simpa using ht1 h

end Sys2Proof.Machine
end

section
/-! Exact values and the one rounding (R58-R71): the value of a number, aligned significands, what a rounding to a whole
number errs by, and FP32 bits read and rounded back. -/
namespace Sys2Proof.Machine

-- One proof after another: the threads of many proofs at once do not fit the memory of the check.
set_option Elab.async false

/-! ### Exact values (R60, R151) -/

section Values
variable {x y : Num} {p q : ℚ}

@[simp] theorem Num.value_fin (neg : Bool) (m : Nat) (e : Int) :
    (Num.fin neg m e).value = some ((sgn neg m : ℚ) * (2 : ℚ) ^ e) := rfl
@[simp] theorem Num.value_inf (neg : Bool) : (Num.inf neg).value = none := rfl
@[simp] theorem Num.value_nan (b : Lane) : (Num.nan b).value = none := rfl

/-- Only a finite number has a value. -/
theorem Num.exists_fin_of_value (h : x.value = some p) : ∃ neg m e, x = .fin neg m e ∧ (sgn neg m : ℚ) * 2 ^ e = p := by
  cases x with
  | fin neg m e => exact ⟨neg, m, e, rfl, Option.some.inj h⟩
  | inf neg => cases h
  | nan b => cases h

theorem Num.isNan_eq_false_of_value (h : x.value = some p) : x.isNan = false := by
  obtain ⟨neg, m, e, rfl, _⟩ := Num.exists_fin_of_value h
  rfl

theorem sgn_mul_pow (neg : Bool) (m k : Nat) : sgn neg (m <<< k) = sgn neg m * 2 ^ k := by
  cases neg <;> simp [sgn, Nat.shiftLeft_eq]

/-- A significand moved to a smaller power of two keeps its value. -/
theorem sgn_align (neg : Bool) (m : Nat) {e l : Int} (h : l ≤ e) :
    (sgn neg (m <<< (e - l).toNat) : ℚ) * (2 : ℚ) ^ l = sgn neg m * (2 : ℚ) ^ e := by
  have hpow : (2 : ℚ) ^ (e - l).toNat * (2 : ℚ) ^ l = (2 : ℚ) ^ e := by
    rw [← zpow_natCast, Int.toNat_of_nonneg (by omega), ← zpow_add₀ two_ne_zero, Int.sub_add_cancel]
  rw [sgn_mul_pow, Int.cast_mul, Int.cast_pow, Int.cast_ofNat, mul_assoc, hpow]

@[simp] theorem Num.value_ofInt (z : Bool) (v e : Int) : (Num.ofInt z v e).value = some ((v : ℚ) * (2 : ℚ) ^ e) := by
  unfold Num.ofInt
  split
  · next h => simp [h, sgn]
  · rw [Num.value_fin]
    congr 2
    by_cases hneg : v < 0
    · rw [decide_eq_true hneg, sgn, if_pos rfl, show -(v.natAbs : Int) = v by omega]
    · rw [decide_eq_false hneg, sgn, if_neg Bool.false_ne_true, Int.natAbs_of_nonneg (by omega)]

theorem Num.value_add (rm : Rm) (hx : x.value = some p) (hy : y.value = some q) : (Num.add rm x y).value = some (p + q) := by
  obtain ⟨a, m, e, rfl, rfl⟩ := Num.exists_fin_of_value hx
  obtain ⟨b, n, f, rfl, rfl⟩ := Num.exists_fin_of_value hy
  rw [Num.add, Num.value_ofInt, Int.cast_add, add_mul, sgn_align _ _ (min_le_left e f), sgn_align _ _ (min_le_right e f)]

theorem sgn_mul (a b : Bool) (m n : Nat) : sgn (a != b) (m * n) = sgn a m * sgn b n := by
  cases a <;> cases b <;> simp [sgn]

theorem Num.value_mul (hx : x.value = some p) (hy : y.value = some q) : (Num.mul x y).value = some (p * q) := by
  obtain ⟨a, m, e, rfl, rfl⟩ := Num.exists_fin_of_value hx
  obtain ⟨b, n, f, rfl, rfl⟩ := Num.exists_fin_of_value hy
  rw [Num.mul, Num.value_fin, sgn_mul, Int.cast_mul, zpow_add₀ two_ne_zero, mul_mul_mul_comm]

theorem sgn_not (a : Bool) (m : Nat) : sgn (!a) m = -sgn a m := by
  cases a <;> simp [sgn]

theorem Num.value_negate (hx : x.value = some p) : x.negate.value = some (-p) := by
  obtain ⟨a, m, e, rfl, rfl⟩ := Num.exists_fin_of_value hx
  rw [Num.negate, Num.value_fin, sgn_not, Int.cast_neg, neg_mul]

/-- Finite numbers are ordered by their values (R152). -/
theorem Num.lt_iff_of_value (hx : x.value = some p) (hy : y.value = some q) : x.lt y = true ↔ p < q := by
  obtain ⟨a, m, e, rfl, rfl⟩ := Num.exists_fin_of_value hx
  obtain ⟨b, n, f, rfl, rfl⟩ := Num.exists_fin_of_value hy
  have hpos : (0 : ℚ) < 2 ^ min e f := zpow_pos two_pos _
  rw [Num.lt, decide_eq_true_iff, ← sgn_align a m (min_le_left e f), ← sgn_align b n (min_le_right e f),
    mul_lt_mul_iff_left₀ hpos, Int.cast_lt]

theorem sgn_eq_zero {a : Bool} {m : Nat} : sgn a m = 0 ↔ m = 0 := by
  cases a <;> simp [sgn]

/-- A value is zero where the significand is. -/
theorem Num.value_fin_eq_zero {neg : Bool} {m : Nat} {e : Int} : (sgn neg m : ℚ) * (2 : ℚ) ^ e = 0 ↔ m = 0 := by
  rw [mul_eq_zero, Int.cast_eq_zero, sgn_eq_zero]
  exact or_iff_left (zpow_ne_zero e two_ne_zero)

end Values

/-! ### Rounding to a whole number (R71) -/

section Rounding
variable (rm : Rm) (neg : Bool) {m sh : Nat}

theorem roundMag_exact (h : m % 2 ^ sh = 0) : roundMag rm neg m sh * 2 ^ sh = m := by
  simp only [roundMag, if_pos h, Nat.shiftRight_eq_div_pow]
  exact Nat.div_mul_cancel (Nat.dvd_of_mod_eq_zero h)

theorem roundMag_rtz : roundMag .rtz neg m sh = m / 2 ^ sh := by
  simp only [roundMag, Nat.shiftRight_eq_div_pow, ite_self]

theorem roundMag_rdn (h : m % 2 ^ sh ≠ 0) : roundMag .rdn neg m sh = m / 2 ^ sh + if neg then 1 else 0 := by
  rw [roundMag, if_neg h, Nat.shiftRight_eq_div_pow]
  cases neg <;> rfl

theorem roundMag_rup (h : m % 2 ^ sh ≠ 0) : roundMag .rup neg m sh = m / 2 ^ sh + if neg then 0 else 1 := by
  rw [roundMag, if_neg h, Nat.shiftRight_eq_div_pow]
  cases neg <;> rfl

/-- To nearest, by the remainder against the half: down below it, up above it, and at it to the even neighbour. -/
theorem roundMag_rne : roundMag .rne neg m sh =
    if 2 * (m % 2 ^ sh) < 2 ^ sh ∨ 2 * (m % 2 ^ sh) = 2 ^ sh ∧ m / 2 ^ sh % 2 = 0 then m / 2 ^ sh else m / 2 ^ sh + 1 := by
  have hpos : 0 < 2 ^ sh := Nat.two_pow_pos sh
  simp only [roundMag, Nat.shiftRight_eq_div_pow, Bool.or_eq_true, Bool.and_eq_true, decide_eq_true_eq]
  by_cases h0 : m % 2 ^ sh = 0
  · rw [if_pos h0, if_pos (Or.inl (by omega))]
  · rw [if_neg h0]
    by_cases hup : 2 * (m % 2 ^ sh) > 2 ^ sh ∨ 2 * (m % 2 ^ sh) = 2 ^ sh ∧ m / 2 ^ sh % 2 = 1
    · rw [if_pos hup, if_neg (by omega)]
    · rw [if_neg hup, if_pos (by omega)]

/-- To nearest errs by at most a half. -/
theorem roundMag_rne_near : 2 * (roundMag .rne neg m sh * 2 ^ sh) ≤ 2 * m + 2 ^ sh ∧
    2 * m ≤ 2 * (roundMag .rne neg m sh * 2 ^ sh) + 2 ^ sh := by
  have hm : m / 2 ^ sh * 2 ^ sh + m % 2 ^ sh = m := Nat.div_add_mod' m (2 ^ sh)
  have hlt : m % 2 ^ sh < 2 ^ sh := Nat.mod_lt _ (Nat.two_pow_pos sh)
  rw [roundMag_rne]
  split
  · omega
  · rw [Nat.add_mul, Nat.one_mul]
    omega

theorem roundMag_rne_tie (h : 2 * (m % 2 ^ sh) = 2 ^ sh) : roundMag .rne neg m sh % 2 = 0 := by
  rw [roundMag_rne]
  split <;> omega

end Rounding

/-! ### Magnitude codes of FP32 (R60) -/

/-- The exponent of a code's least significant bit: that of the subnormal numbers, or the exponent field's. -/
theorem codeMag_fp32 (c : Nat) : codeMag (shapeOf 0) c =
    if c / 2 ^ 23 = 0 then (c % 2 ^ 23, -149) else (2 ^ 23 + c % 2 ^ 23, ((c / 2 ^ 23 : Nat) : Int) - 150) := by
  simp only [codeMag, shapeOf, Nat.shiftRight_eq_div_pow]
  split
  · rfl
  · congr 1
    omega

/-- A significand that lies on the grid of its exponent is its own rounding. -/
theorem magCode_of_exact (rm : Rm) (neg : Bool) {m : Nat} {e q : Int} (hm : m ≠ 0)
    (hq : q = max ((m.log2 : Int) + e - 23) (-149)) (hle : q ≤ e) :
    magCode rm (shapeOf 0) neg m e = (q + 149).toNat * 2 ^ 23 + m * 2 ^ (e - q).toNat := by
  have hqmin : (1 : Int) - (shapeOf 0).bias - (shapeOf 0).fb = -149 := rfl
  have hmax : max ((m.log2 : Int) + e - (shapeOf 0).fb) (-149) = q := hq.symm
  rw [magCode, if_neg hm]
  simp only [hqmin, hmax, if_pos hle, Nat.shiftLeft_eq]
  rw [show q - -149 = q + 149 by omega]
  rfl

/-- The code of a code's value is the code. -/
theorem magCode_codeMag (rm : Rm) (neg : Bool) (c : Nat) :
    magCode rm (shapeOf 0) neg (codeMag (shapeOf 0) c).1 (codeMag (shapeOf 0) c).2 = c := by
  have hsplit : c / 2 ^ 23 * 2 ^ 23 + c % 2 ^ 23 = c := Nat.div_add_mod' c _
  have hfrac : c % 2 ^ 23 < 2 ^ 23 := Nat.mod_lt _ (by decide)
  rw [codeMag_fp32]
  by_cases hsub : c / 2 ^ 23 = 0
  · rw [if_pos hsub]
    dsimp only
    by_cases h0 : c % 2 ^ 23 = 0
    · rw [h0, magCode, if_pos rfl]
      omega
    · have hlog : (c % 2 ^ 23).log2 < 23 := (Nat.log2_lt h0).2 hfrac
      have hq : (-149 : Int) = max (((c % 2 ^ 23).log2 : Int) + -149 - 23) (-149) := by omega
      rw [magCode_of_exact rm neg h0 hq (le_refl _), Int.sub_self, Int.toNat_zero, pow_zero, mul_one]
      have hz : (-149 + 149 : Int).toNat = 0 := rfl
      rw [hz, Nat.zero_mul]
      omega
  · rw [if_neg hsub]
    dsimp only
    have hlog : (2 ^ 23 + c % 2 ^ 23).log2 = 23 := (Nat.log2_eq_iff (by omega)).2 (by omega)
    have hm : 2 ^ 23 + c % 2 ^ 23 ≠ 0 := by omega
    have hq : ((c / 2 ^ 23 : Nat) : Int) - 150 =
        max (((2 ^ 23 + c % 2 ^ 23).log2 : Int) + (((c / 2 ^ 23 : Nat) : Int) - 150) - 23) (-149) := by
      rw [hlog]
      omega
    rw [magCode_of_exact rm neg hm hq (le_refl _), Int.sub_self, Int.toNat_zero, pow_zero, mul_one]
    have hfield : (((c / 2 ^ 23 : Nat) : Int) - 150 + 149).toNat = c / 2 ^ 23 - 1 := by omega
    have hle : 2 ^ 23 ≤ c / 2 ^ 23 * 2 ^ 23 := Nat.le_mul_of_pos_left _ (Nat.pos_of_ne_zero hsub)
    rw [hfield, Nat.sub_one_mul, ← add_assoc, Nat.sub_add_cancel hle]
    exact hsplit

/-! ### FP32 bits (R60, R151) -/

/-- The sign bit above a magnitude code gives the bits again. -/
theorem signBit_add_magnitude (x : Lane) : signBit x.msb + x.toNat % 2 ^ 31 = x.toNat := by
  have hlt : x.toNat < 2 ^ 32 := x.isLt
  rw [BitVec.msb_eq_decide, signBit]
  split
  · simp_all
    omega
  · simp_all

theorem ofNat_signBit_add (x : Lane) {c : Nat} (h : x.toNat % 2 ^ 31 = c) : BitVec.ofNat 32 (signBit x.msb + c) = x := by
  rw [← h, signBit_add_magnitude]
  simp

/-- A NaN, an infinity or a finite number, by the magnitude code. -/
theorem Num.ofBits_cases (x : Lane) :
    (0x7F800000 < x.toNat % 2 ^ 31 ∧ Num.ofBits x = .nan x) ∨ (x.toNat % 2 ^ 31 = 0x7F800000 ∧ Num.ofBits x = .inf x.msb) ∨
    (x.toNat % 2 ^ 31 < 0x7F800000 ∧
      Num.ofBits x = .fin x.msb (codeMag (shapeOf 0) (x.toNat % 2 ^ 31)).1 (codeMag (shapeOf 0) (x.toNat % 2 ^ 31)).2) := by
  rcases lt_trichotomy (x.toNat % 2 ^ 31) 0x7F800000 with h | h | h
  · exact .inr (.inr ⟨h, (if_neg h.not_gt).trans (if_neg h.ne)⟩)
  · exact .inr (.inl ⟨h, (if_neg (by omega)).trans (if_pos h)⟩)
  · exact .inl ⟨h, if_pos h⟩

/-- Bits that are no NaN come back from their number, in every mode. -/
theorem toBits_ofBits (rm : Rm) (x : Lane) :
    (Num.ofBits x).toBits rm = if (Num.ofBits x).isNan then qnan else x := by
  rcases Num.ofBits_cases x with ⟨_, h⟩ | ⟨hc, h⟩ | ⟨hc, h⟩
  · rw [h]; rfl
  · rw [h, Num.toBits, ofNat_signBit_add x hc]; rfl
  · rw [h]
    simp only [Num.toBits, magCode_codeMag rm x.msb]
    rw [if_pos (by omega), ofNat_signBit_add x rfl]
    rfl

/-- Settles O4: roundings by their remainder, bits by their magnitude code, and sums and products by aligned significands. -/
theorem exactRounding : Obligations.ExactRounding := by
  unfold Obligations.ExactRounding
  refine ⟨fun rm neg m sh => ?_, toBits_ofBits, fun rm x y p q hx hy => ?_⟩
  · exact ⟨roundMag_exact rm neg, roundMag_rtz neg, roundMag_rdn neg, roundMag_rup neg, (roundMag_rne_near neg).1,
      (roundMag_rne_near neg).2, roundMag_rne_tie neg⟩
  · exact ⟨Num.value_add rm hx hy, Num.value_mul hx hy, Num.value_negate hx⟩

end Sys2Proof.Machine
end

section
/-! Scalar floating point (R151, R152, R157, R160): bits by the kind of number that they stand for, the operations' corners
on those kinds, and comparisons and choices by value. -/
namespace Sys2Proof.Machine

-- One proof after another: the threads of many proofs at once do not fit the memory of the check.
set_option Elab.async false

/-! ### Bits by the kind of their number -/

section Kinds
variable {x : Lane} {p : ℚ}

theorem Num.ofBits_of_isNan (h : (Num.ofBits x).isNan = true) : Num.ofBits x = .nan x := by
  rcases Num.ofBits_cases x with ⟨_, hx⟩ | ⟨_, hx⟩ | ⟨_, hx⟩
  · exact hx
  · rw [hx] at h; cases h
  · rw [hx] at h; cases h

/-- A finite number's sign is its bits' sign. -/
theorem Num.ofBits_of_value (h : (Num.ofBits x).value = some p) :
    ∃ m e, Num.ofBits x = .fin x.msb m e ∧ (sgn x.msb m : ℚ) * (2 : ℚ) ^ e = p := by
  rcases Num.ofBits_cases x with ⟨_, hx⟩ | ⟨_, hx⟩ | ⟨_, hx⟩
  · rw [hx] at h; cases h
  · rw [hx] at h; cases h
  · rw [hx] at h
    exact ⟨_, _, hx, Option.some.inj h⟩

theorem Num.ofBits_of_value_zero (h : (Num.ofBits x).value = some 0) : ∃ e, Num.ofBits x = .fin x.msb 0 e := by
  obtain ⟨m, e, hx, hv⟩ := Num.ofBits_of_value h
  rw [Num.value_fin_eq_zero] at hv
  exact ⟨e, hv ▸ hx⟩

theorem Num.ofBits_of_value_ne_zero (h : (Num.ofBits x).value = some p) (h0 : p ≠ 0) :
    ∃ m e, m ≠ 0 ∧ Num.ofBits x = .fin x.msb m e := by
  obtain ⟨m, e, hx, hv⟩ := Num.ofBits_of_value h
  exact ⟨m, e, fun hm => h0 (hv ▸ Num.value_fin_eq_zero.2 hm), hx⟩

/-- A number below zero has its sign bit set. -/
theorem Num.ofBits_of_value_neg (h : (Num.ofBits x).value = some p) (hneg : p < 0) :
    ∃ m e, m ≠ 0 ∧ Num.ofBits x = .fin true m e := by
  obtain ⟨m, e, hx, hv⟩ := Num.ofBits_of_value h
  have hm : m ≠ 0 := fun hm => hneg.ne (hv ▸ Num.value_fin_eq_zero.2 hm)
  cases hs : x.msb with
  | true => exact ⟨m, e, hm, hs ▸ hx⟩
  | false =>
    have hpos : (0 : ℚ) ≤ (m : Int) * 2 ^ e := by positivity
    rw [hs] at hv
    exact absurd (hv ▸ hpos) (not_le.2 hneg)

theorem Num.ofBits_of_infinite (h : x = 0x7F800000#32 ∨ x = 0xFF800000#32) : Num.ofBits x = .inf x.msb := by
  rcases h with rfl | rfl <;> rfl

theorem Num.exists_fin_of_isSome (h : (Num.ofBits x).value.isSome = true) : ∃ m e, Num.ofBits x = .fin x.msb m e := by
  obtain ⟨p, hp⟩ := Option.isSome_iff_exists.1 h
  obtain ⟨m, e, hx, _⟩ := Num.ofBits_of_value hp
  exact ⟨m, e, hx⟩

end Kinds

/-! ### The words of rounded corners -/

theorem zext_toBits_inf (rm : Rm) (neg : Bool) :
    zext ((Num.inf neg).toBits rm) = if neg then (0xFF800000 : Word) else 0x7F800000 := by
  cases neg <;> rfl

/-- A zero keeps its sign in every mode. -/
theorem toBits_zero (rm : Rm) (neg : Bool) (e : Int) :
    (Num.fin neg 0 e).toBits rm = if neg then 0x80000000#32 else 0#32 := by
  have hc : magCode rm (shapeOf 0) neg 0 e = 0 := if_pos rfl
  simp only [Num.toBits, hc]
  rw [if_pos (Nat.zero_le _), Nat.add_zero]
  cases neg <;> rfl

theorem zext_toBits_zero (rm : Rm) (neg : Bool) (e : Int) :
    zext ((Num.fin neg 0 e).toBits rm) = if neg then (0x80000000 : Word) else 0 := by
  rw [toBits_zero]
  cases neg <;> rfl

/-- The bits of a zero are its sign alone. -/
theorem toBits_zero_of_value_zero {x : Lane} (rm : Rm) (h : (Num.ofBits x).value = some 0) :
    (Num.fin x.msb 0 0).toBits rm = x := by
  obtain ⟨e, hx⟩ := Num.ofBits_of_value_zero h
  have hback := toBits_ofBits rm x
  rw [Num.isNan_eq_false_of_value h, if_neg Bool.false_ne_true, hx, toBits_zero] at hback
  rw [toBits_zero, hback]

/-! ### The operations on each kind (R151, R157) -/

section Corners
variable {rm : Rm} {x y : Num}

theorem Num.add_nan (h : x.isNan = true ∨ y.isNan = true) : Num.add rm x y = .qnan := by
  cases x <;> cases y <;> simp_all [Num.add, Num.isNan]

theorem Num.mul_nan (h : x.isNan = true ∨ y.isNan = true) : Num.mul x y = .qnan := by
  cases x <;> cases y <;> simp_all [Num.mul, Num.isNan]

theorem Num.div_nan (h : x.isNan = true ∨ y.isNan = true) : Num.div x y = .qnan := by
  cases x <;> cases y <;> simp_all [Num.div, Num.isNan]

@[simp] theorem Num.isNan_negate : x.negate.isNan = x.isNan := by
  cases x <;> rfl

theorem Num.div_zero {a b : Bool} {m : Nat} {e f : Int} (h : m ≠ 0) : Num.div (.fin a m e) (.fin b 0 f) = .inf (a != b) := by
  simp [Num.div, h]

theorem Num.zero_div_zero {a b : Bool} {e f : Int} : Num.div (.fin a 0 e) (.fin b 0 f) = .qnan := rfl

theorem Num.zero_div {a b : Bool} {n : Nat} {e f : Int} (h : n ≠ 0) :
    Num.div (.fin a 0 e) (.fin b n f) = .fin (a != b) 0 (e - f - 65) := by
  simp [Num.div, h]

theorem Num.sqrt_below_zero {m : Nat} {e : Int} (h : m ≠ 0) : Num.sqrt (.fin true m e) = .qnan :=
  (if_neg h).trans (if_pos rfl)

end Corners

/-! ### Comparisons and choices by value (R152) -/

section Choices
variable {x y : Lane} {p q : ℚ} (hx : (Num.ofBits x).value = some p) (hy : (Num.ofBits y).value = some q)
include hx hy

theorem flt_iff_of_value : flt x y = true ↔ p < q := Num.lt_iff_of_value hx hy

theorem fle_iff_of_value : fle x y = true ↔ p ≤ q := by
  have hlt := Num.lt_iff_of_value hy hx
  rw [fle, Num.le, Num.isNan_eq_false_of_value hx, Num.isNan_eq_false_of_value hy, Bool.not_false, Bool.true_and,
    Bool.true_and, Bool.not_eq_true', ← Bool.not_eq_true, hlt, not_lt]

theorem feq_iff_of_value : feq x y = true ↔ p = q := by
  have hxy := Num.lt_iff_of_value hx hy
  have hyx := Num.lt_iff_of_value hy hx
  rw [feq, Num.eq, Num.isNan_eq_false_of_value hx, Num.isNan_eq_false_of_value hy, Bool.not_false, Bool.true_and,
    Bool.true_and, Bool.and_eq_true, Bool.not_eq_true', Bool.not_eq_true', ← Bool.not_eq_true, ← Bool.not_eq_true,
    hxy, hyx, not_lt, not_lt]
  exact ⟨fun h => le_antisymm h.2 h.1, fun h => ⟨h.ge, h.le⟩⟩

theorem Num.before_of_value_lt (h : p < q) :
    (Num.ofBits x).before (Num.ofBits y) = true ∧ (Num.ofBits y).before (Num.ofBits x) = false := by
  have hxy : (Num.ofBits x).lt (Num.ofBits y) = true := (Num.lt_iff_of_value hx hy).2 h
  have hyx : (Num.ofBits y).lt (Num.ofBits x) = false := by
    rw [← Bool.not_eq_true, Num.lt_iff_of_value hy hx]
    exact h.not_gt
  simp [Num.before, hxy, hyx]

theorem fmin_of_value_lt (h : p < q) : fmin x y = x ∧ fmin y x = x := by
  obtain ⟨hb, hn⟩ := Num.before_of_value_lt hx hy h
  simp [fmin, Num.isNan_eq_false_of_value hx, Num.isNan_eq_false_of_value hy, hb, hn]

theorem fmax_of_value_lt (h : p < q) : fmax x y = y ∧ fmax y x = y := by
  obtain ⟨hb, hn⟩ := Num.before_of_value_lt hx hy h
  simp [fmax, Num.isNan_eq_false_of_value hx, Num.isNan_eq_false_of_value hy, hb, hn]

end Choices

section NanChoices
variable {x y : Lane}

theorem compares_nan (h : (Num.ofBits x).isNan = true ∨ (Num.ofBits y).isNan = true) :
    feq x y = false ∧ flt x y = false ∧ fle x y = false := by
  have hlt : (Num.ofBits x).lt (Num.ofBits y) = false := by
    cases hx : Num.ofBits x <;> cases hy : Num.ofBits y <;> simp_all [Num.isNan, Num.lt]
  rcases h with h | h <;> simp [feq, flt, fle, Num.eq, Num.le, h, hlt]

theorem choices_nan_nan (hx : (Num.ofBits x).isNan = true) (hy : (Num.ofBits y).isNan = true) :
    fmin x y = qnan ∧ fmax x y = qnan := by
  simp [fmin, fmax, hx, hy]

theorem choices_nan_left (hx : (Num.ofBits x).isNan = true) (hy : ¬(Num.ofBits y).isNan = true) :
    fmin x y = y ∧ fmax x y = y := by
  simp [fmin, fmax, hx, hy]

theorem choices_nan_right (hx : ¬(Num.ofBits x).isNan = true) (hy : (Num.ofBits y).isNan = true) :
    fmin x y = x ∧ fmax x y = x := by
  simp [fmin, fmax, hx, hy]

end NanChoices

theorem flag_eq_ite {b : Bool} {c : Prop} [Decidable c] (h : b = true ↔ c) : flag b = if c then 1 else 0 := by
  rw [flag]
  exact if_congr h rfl rfl

/-! ### The obligation's parts -/

/-- An instruction that rounds an exact result puts that result's word, under another name of the result. -/
theorem puts_rounded {i : Instr} {s : State} {d : Reg} {n m : Num} {w : Word}
    (hi : exec i s = setsG i d (zext (n.toBits s.rm)) s) (h : n = m) (hw : zext (m.toBits s.rm) = w) : Puts i s d w :=
  puts_of_setsG hi (h ▸ hw)

section Parts
variable (s : State) (d a b c : Reg)

theorem scalarFused :
    let p := Num.mul (Num.ofBits (s.fIn a)) (Num.ofBits (s.fIn b))
    let z := Num.ofBits (s.fIn c)
    Puts (.fmadd d a b c) s d (zext ((Num.add s.rm p z).toBits s.rm)) ∧
    Puts (.fmsub d a b c) s d (zext ((Num.add s.rm p z.negate).toBits s.rm)) ∧
    Puts (.fnmadd d a b c) s d (zext ((Num.add s.rm p.negate z.negate).toBits s.rm)) ∧
    Puts (.fnmsub d a b c) s d (zext ((Num.add s.rm p.negate z).toBits s.rm)) :=
  ⟨puts_of rfl, puts_of rfl, puts_of rfl, puts_of rfl⟩

theorem scalarCompares :
    (∀ p q, (Num.ofBits (s.fIn a)).value = some p → (Num.ofBits (s.fIn b)).value = some q →
      Puts (.feq d a b) s d (if p = q then 1 else 0) ∧
      Puts (.flt d a b) s d (if p < q then 1 else 0) ∧
      Puts (.fle d a b) s d (if p ≤ q then 1 else 0)) ∧
    ((Num.ofBits (s.fIn a)).isNan ∨ (Num.ofBits (s.fIn b)).isNan →
      Puts (.feq d a b) s d 0 ∧ Puts (.flt d a b) s d 0 ∧ Puts (.fle d a b) s d 0) := by
  refine ⟨fun p q hp hq => ?_, fun h => ?_⟩
  · exact ⟨puts_of_setsG rfl (flag_eq_ite (feq_iff_of_value hp hq)), puts_of_setsG rfl (flag_eq_ite (flt_iff_of_value hp hq)),
      puts_of_setsG rfl (flag_eq_ite (fle_iff_of_value hp hq))⟩
  · obtain ⟨heq, hlt, hle⟩ := compares_nan h
    exact ⟨puts_of_setsG rfl (congrArg flag heq), puts_of_setsG rfl (congrArg flag hlt), puts_of_setsG rfl (congrArg flag hle)⟩

/-- FMIN and FMAX put what the pairwise choice gives. -/
theorem puts_choices {l u : Lane} {v w : Word} (hl : fmin (s.fIn a) (s.fIn b) = l) (hu : fmax (s.fIn a) (s.fIn b) = u)
    (hv : zext l = v) (hw : zext u = w) : Puts (.fmin d a b) s d v ∧ Puts (.fmax d a b) s d w :=
  ⟨puts_of_setsG rfl ((congrArg zext hl).trans hv), puts_of_setsG rfl ((congrArg zext hu).trans hw)⟩

theorem choices_of_zeros {x y : Lane} (h : x = 0x80000000#32 ∧ y = 0#32 ∨ x = 0#32 ∧ y = 0x80000000#32) :
    fmin x y = 0x80000000#32 ∧ fmax x y = 0#32 := by
  rcases h with ⟨rfl, rfl⟩ | ⟨rfl, rfl⟩ <;> exact ⟨rfl, rfl⟩

end Parts

/-- Settles O5: each operation is one rounding of the exact result, and each corner that of the operands' kinds. -/
theorem scalarFloat : Obligations.ScalarFloat := by
  unfold Obligations.ScalarFloat
  refine ⟨fun s d a b => ?arith, scalarFused, fun s d a b => ?compare, fun s d a b => ?choose, fun s d a b => ?corner⟩
  case arith => exact ⟨puts_of rfl, puts_of rfl, puts_of rfl, puts_of rfl, puts_of rfl⟩
  case compare => exact ⟨puts_of rfl, puts_of rfl, scalarCompares s d a b⟩
  case choose =>
    refine ⟨fun ⟨hx, hy⟩ => ?_, fun ⟨hx, hy⟩ => ?_, fun ⟨hx, hy⟩ => ?_, fun p q hp hq h => ?_, fun p q hp hq h => ?_, fun h => ?_⟩
    · exact puts_choices s d a b (choices_nan_nan hx hy).1 (choices_nan_nan hx hy).2 rfl rfl
    · exact puts_choices s d a b (choices_nan_left hx hy).1 (choices_nan_left hx hy).2 rfl rfl
    · exact puts_choices s d a b (choices_nan_right hx hy).1 (choices_nan_right hx hy).2 rfl rfl
    · exact puts_choices s d a b (fmin_of_value_lt hp hq h).1 (fmax_of_value_lt hp hq h).1 rfl rfl
    · exact puts_choices s d a b (fmin_of_value_lt hq hp h).2 (fmax_of_value_lt hq hp h).2 rfl rfl
    · exact puts_choices s d a b (choices_of_zeros h).1 (choices_of_zeros h).2 rfl rfl
  case corner =>
    refine ⟨fun h => ?nan, fun p hp h0 hq => ?overZero, fun hp hq => ?zeros, fun q hp hq h0 => ?zeroOver, fun hx hy => ?infs,
      fun hx hy => ?infOver, fun hx hy => ?overInf, fun hx hq => ?infZero, fun hx hy hd => ?infSum, fun p hp hneg => ?rootNeg,
      fun hp => ?rootZero, fun hx => ?rootInf, fun hx => ?rootNan⟩
    case nan =>
      exact ⟨puts_rounded rfl (Num.add_nan h) rfl, puts_rounded rfl (Num.add_nan (by rwa [Num.isNan_negate])) rfl,
        puts_rounded rfl (Num.mul_nan h) rfl, puts_rounded rfl (Num.div_nan h) rfl⟩
    case overZero =>
      obtain ⟨m, e, hm, hx⟩ := Num.ofBits_of_value_ne_zero hp h0
      obtain ⟨f, hy⟩ := Num.ofBits_of_value_zero hq
      exact puts_rounded rfl (by rw [hx, hy, Num.div_zero hm]) (zext_toBits_inf _ _)
    case zeros =>
      obtain ⟨e, hx⟩ := Num.ofBits_of_value_zero hp
      obtain ⟨f, hy⟩ := Num.ofBits_of_value_zero hq
      exact puts_rounded rfl (by rw [hx, hy, Num.zero_div_zero]) rfl
    case zeroOver =>
      obtain ⟨e, hx⟩ := Num.ofBits_of_value_zero hp
      obtain ⟨n, f, hn, hy⟩ := Num.ofBits_of_value_ne_zero hq h0
      exact puts_rounded rfl (by rw [hx, hy, Num.zero_div hn]) (zext_toBits_zero _ _ _)
    case infs => exact puts_rounded rfl (by rw [Num.ofBits_of_infinite hx, Num.ofBits_of_infinite hy, Num.div]) rfl
    case infOver =>
      obtain ⟨n, f, hy⟩ := Num.exists_fin_of_isSome hy
      exact puts_rounded rfl (by rw [Num.ofBits_of_infinite hx, hy, Num.div]) (zext_toBits_inf _ _)
    case overInf =>
      obtain ⟨m, e, hx⟩ := Num.exists_fin_of_isSome hx
      exact puts_rounded rfl (by rw [hx, Num.ofBits_of_infinite hy, Num.div]) (zext_toBits_zero _ _ _)
    case infZero =>
      obtain ⟨f, hy⟩ := Num.ofBits_of_value_zero hq
      exact puts_rounded rfl (by rw [Num.ofBits_of_infinite hx, hy, Num.mul, if_pos rfl]) rfl
    case infSum =>
      have hne : (s.fIn a).msb ≠ (s.fIn b).msb := bne_iff_ne.1 hd
      exact puts_rounded rfl (by rw [Num.ofBits_of_infinite hx, Num.ofBits_of_infinite hy, Num.add, if_neg hne]) rfl
    case rootNeg =>
      obtain ⟨m, e, hm, hx⟩ := Num.ofBits_of_value_neg hp hneg
      exact puts_rounded rfl (by rw [hx, Num.sqrt_below_zero hm]) rfl
    case rootZero =>
      obtain ⟨e, hx⟩ := Num.ofBits_of_value_zero hp
      exact puts_rounded rfl (by rw [hx, Num.sqrt, if_pos rfl]) (congrArg zext (toBits_zero_of_value_zero s.rm hp))
    case rootInf => exact puts_rounded (m := .inf false) rfl (by rw [hx]; rfl) rfl
    case rootNan =>
      refine puts_rounded (m := .qnan) rfl ?_ rfl
      rcases hx with hx | hx
      · rw [hx]; rfl
      · rw [Num.ofBits_of_isNan hx]; rfl

end Sys2Proof.Machine
end

section
/-! Lane-wise vector arithmetic (R161, R162) and lane moves (R165): a strip lane by lane. -/
namespace Sys2Proof.Machine

-- One proof after another: the threads of many proofs at once do not fit the memory of the check.
set_option Elab.async false

/-- An instruction whose whole effect is one vector field's new strip, that strip under another name. -/
theorem putsV_of_setsV {i : Instr} {s : State} {d : Reg} {x y : VReg} (h : exec i s = setsV i d x s) (hx : x = y) :
    PutsV i s d y := hx ▸ putsV_of h

/-! ### Strips lane by lane -/

section Lanes
variable (x y z : VReg)

theorem lanes1_eq_ofFn (f : Lane → Lane) : lanes1 f x = Vector.ofFn fun i => f x[i] := by
  ext i hi
  simp [lanes1]

theorem lanes1_fabsBits : lanes1 fabsBits x = Vector.ofFn fun i => x[i] &&& 0x7FFFFFFF#32 := lanes1_eq_ofFn x fabsBits

theorem lanes1_fnegBits : lanes1 fnegBits x = Vector.ofFn fun i => x[i] ^^^ 0x80000000#32 := lanes1_eq_ofFn x fnegBits

theorem lanes2_eq_ofFn (f : Lane → Lane → Lane) : lanes2 f x y = Vector.ofFn fun i => f x[i] y[i] := by
  ext i hi
  simp [lanes2]

theorem lanes2_maskLane (c : Lane → Lane → Bool) :
    lanes2 (fun u v => maskLane (c u v)) x y = Vector.ofFn fun i => if c x[i] y[i] then 0xFFFFFFFF#32 else 0#32 :=
  lanes2_eq_ofFn x y _

end Lanes

/-! ### Lanes as numbers modulo 2^32 -/

section LaneWords
variable (u v : Lane)

theorem lane_add : u + v = BitVec.ofNat 32 (u.toNat + v.toNat) :=
  BitVec.eq_of_toNat_eq (by rw [BitVec.toNat_add, BitVec.toNat_ofNat])

theorem lane_mul : u * v = BitVec.ofNat 32 (u.toNat * v.toNat) :=
  BitVec.eq_of_toNat_eq (by rw [BitVec.toNat_mul, BitVec.toNat_ofNat])

theorem lane_sub : u - v = BitVec.ofInt 32 (u.toNat - v.toNat : Int) := by
  rw [Int.sub_eq_add_neg, BitVec.ofInt_add, BitVec.ofInt_neg, BitVec.ofInt_natCast, BitVec.ofInt_natCast,
    BitVec.ofNat_toNat, BitVec.ofNat_toNat, BitVec.setWidth_eq, BitVec.setWidth_eq, BitVec.sub_eq_add_neg]

variable (x y z : VReg)

theorem lanes2_add : lanes2 (· + ·) x y = Vector.ofFn fun i => BitVec.ofNat 32 (x[i].toNat + y[i].toNat) := by
  rw [lanes2_eq_ofFn]
  exact congrArg Vector.ofFn (funext fun _ => lane_add _ _)

theorem lanes2_sub : lanes2 (· - ·) x y = Vector.ofFn fun i => BitVec.ofInt 32 (x[i].toNat - y[i].toNat : Int) := by
  rw [lanes2_eq_ofFn]
  exact congrArg Vector.ofFn (funext fun _ => lane_sub _ _)

theorem lanes2_mul : lanes2 (· * ·) x y = Vector.ofFn fun i => BitVec.ofNat 32 (x[i].toNat * y[i].toNat) := by
  rw [lanes2_eq_ofFn]
  exact congrArg Vector.ofFn (funext fun _ => lane_mul _ _)

theorem lanes3_select : lanes3 (fun u v w => if w = 0 then v else u) x y z =
    Vector.ofFn fun i => if z[i] ≠ 0#32 then x[i] else y[i] :=
  congrArg Vector.ofFn (funext fun _ => (ite_not _ _ _).symm)

end LaneWords

theorem laneAt_eq (x : VReg) (n : Nat) : laneAt x n = x[n % 16]'(Nat.mod_lt n (by decide)) := rfl

/-- Settles O8: each instruction is its lane operation, lane by lane. -/
theorem vectorArithmetic : Obligations.VectorArithmetic := by
  unfold Obligations.VectorArithmetic
  refine ⟨fun s d a b fwd => ?plain, fun s d a b c fwd => ?masked⟩
  case plain =>
    exact ⟨putsV_of_setsV rfl (lanes2_eq_ofFn _ _ _), putsV_of_setsV rfl (lanes2_eq_ofFn _ _ _),
      putsV_of_setsV rfl (lanes2_eq_ofFn _ _ _), putsV_of_setsV rfl (lanes2_eq_ofFn _ _ _),
      putsV_of_setsV rfl (lanes2_eq_ofFn _ _ _), putsV_of_setsV rfl (lanes1_fabsBits (s.vIn a)),
      putsV_of_setsV rfl (lanes1_fnegBits (s.vIn a)), putsV_of_setsV rfl (lanes2_eq_ofFn _ _ _),
      putsV_of_setsV rfl (lanes2_eq_ofFn _ _ _), putsV_of_setsV rfl (lanes2_eq_ofFn _ _ _),
      putsV_of_setsV rfl (lanes2_add _ _), putsV_of_setsV rfl (lanes2_sub _ _),
      putsV_of_setsV rfl (lanes2_mul _ _)⟩
  case masked =>
    exact ⟨putsV_of_setsV rfl (lanes2_maskLane _ _ _), putsV_of_setsV rfl (lanes2_maskLane _ _ _),
      putsV_of_setsV rfl (lanes2_maskLane _ _ _), putsV_of_setsV rfl (lanes3_select _ _ _), putsV_of rfl, putsV_of rfl,
      putsV_of rfl, putsV_of rfl⟩

/-! ### Moves (R165) -/

/-- VPERM, VROT, VBCAST, VINS and VEXT, each lane by the lane that it comes from. -/
theorem vectorMoves (s : State) (d a b : Reg) (n : BitVec 5) (fwd : BitVec 1) :
    (∃ r : VReg, PutsV (.vperm d a b fwd) s d r ∧
      ∀ i : Fin 16, r[i] = (s.vIn a)[(s.vIn b)[i].toNat % 16]'(Nat.mod_lt _ (by decide))) ∧
    (∃ r : VReg, PutsV (.vrot d a n fwd) s d r ∧
      ∀ i : Fin 16, r[i] = (s.vIn a)[(i.val + n.toNat) % 16]'(Nat.mod_lt _ (by decide))) ∧
    (∃ r : VReg, PutsV (.vbcast d a) s d r ∧ ∀ i : Fin 16, r[i] = (s.gIn a).truncate 32) ∧
    (∃ r : VReg, PutsV (.vins d a n) s d r ∧
      ∀ i : Fin 16, r[i] = if i.val = n.toNat then (s.gIn a).truncate 32 else (s.vIn d)[i]) ∧
    Puts (.vext d a n fwd) s d (zext ((s.vIn a)[n.toNat % 16]'(Nat.mod_lt _ (by decide)))) := by
  refine ⟨⟨_, putsV_of rfl, fun i => ?_⟩, ⟨_, putsV_of rfl, fun i => ?_⟩, ⟨_, putsV_of rfl, fun i => ?_⟩,
    ⟨_, putsV_of rfl, fun i => ?_⟩, puts_of rfl⟩
  · simp [lanes1, laneAt_eq]
  · simp [laneAt_eq]
  · simp [State.fIn]
  · simp [State.fIn]

end Sys2Proof.Machine
end

section
/-! Sums of one group under steps 3 to 6 of R72 (R166): the leading exponent of a value, the largest exponent among terms,
and terms in fixed point as truncated quotients. -/
namespace Sys2Proof.Machine

-- One proof after another: the threads of many proofs at once do not fit the memory of the check.
set_option Elab.async false

/-! ### The exponent of a value's leading bit -/

theorem sgn_natAbs (neg : Bool) (m : Nat) : |(sgn neg m : ℚ)| = m := by
  cases neg <;> simp [sgn]

theorem abs_value_fin (neg : Bool) (m : Nat) (e : Int) : |(sgn neg m : ℚ) * (2 : ℚ) ^ e| = m * (2 : ℚ) ^ e := by
  rw [abs_mul, sgn_natAbs, abs_of_pos (zpow_pos two_pos e)]

/-- The leading bit of a significand bounds its value between two powers of two. -/
theorem two_zpow_log2_le {m : Nat} (hm : m ≠ 0) (e : Int) :
    (2 : ℚ) ^ ((m.log2 : Int) + e) ≤ m * (2 : ℚ) ^ e ∧ m * (2 : ℚ) ^ e < (2 : ℚ) ^ ((m.log2 : Int) + e + 1) := by
  have hpos : (0 : ℚ) < 2 ^ e := zpow_pos two_pos e
  have hlow : ((2 ^ m.log2 : Nat) : ℚ) ≤ m := Nat.cast_le.2 (Nat.log2_self_le hm)
  have hhigh : (m : ℚ) < ((2 ^ (m.log2 + 1) : Nat) : ℚ) := Nat.cast_lt.2 Nat.lt_log2_self
  rw [Nat.cast_pow, Nat.cast_ofNat, ← zpow_natCast] at hlow hhigh
  constructor
  · rw [zpow_add₀ two_ne_zero]
    exact mul_le_mul_of_nonneg_right hlow hpos.le
  · rw [show (m.log2 : Int) + e + 1 = ((m.log2 + 1 : Nat) : Int) + e by push_cast; ring, zpow_add₀ two_ne_zero]
    exact mul_lt_mul_of_pos_right hhigh hpos

/-- The exponent of a nonzero value is the power of two that its magnitude has reached. -/
theorem Num.exponent_eq_some {t : Num} {p : ℚ} {k : Int} (h : t.value = some p) (hlow : (2 : ℚ) ^ k ≤ |p|)
    (hhigh : |p| < (2 : ℚ) ^ (k + 1)) : t.exponent = some k := by
  obtain ⟨neg, m, e, rfl, rfl⟩ := Num.exists_fin_of_value h
  rw [abs_value_fin] at hlow hhigh
  have hm : m ≠ 0 := by
    rintro rfl
    rw [Nat.cast_zero, zero_mul] at hlow
    exact absurd hlow (not_le.2 (zpow_pos two_pos k))
  obtain ⟨hl, hh⟩ := two_zpow_log2_le hm e
  have h1 := (zpow_lt_zpow_iff_right₀ (one_lt_two (α := ℚ))).1 (hlow.trans_lt hh)
  have h2 := (zpow_lt_zpow_iff_right₀ (one_lt_two (α := ℚ))).1 (hl.trans_lt hhigh)
  rw [Num.exponent, if_neg hm]
  exact congrArg some (by omega)

/-- A value below a power of two has a smaller exponent. -/
theorem Num.exponent_lt {t : Num} {p : ℚ} {j k : Int} (h : t.value = some p) (hhigh : |p| < (2 : ℚ) ^ k)
    (hj : t.exponent = some j) : j < k := by
  obtain ⟨neg, m, e, rfl, rfl⟩ := Num.exists_fin_of_value h
  rw [abs_value_fin] at hhigh
  by_cases hm : m = 0
  · rw [Num.exponent, if_pos hm] at hj
    cases hj
  · rw [Num.exponent, if_neg hm] at hj
    obtain rfl := Option.some.inj hj
    exact (zpow_lt_zpow_iff_right₀ (one_lt_two (α := ℚ))).1 ((two_zpow_log2_le hm e).1.trans_lt hhigh)

theorem Num.exponent_of_value_zero {t : Num} (h : t.value = some 0) : t.exponent = none := by
  obtain ⟨neg, m, e, rfl, hv⟩ := Num.exists_fin_of_value h
  exact if_pos (Num.value_fin_eq_zero.1 hv)

theorem Num.exists_value_of_exponent {t : Num} {j : Int} (h : t.exponent = some j) : ∃ p, t.value = some p := by
  cases t with
  | fin neg m e => exact ⟨_, rfl⟩
  | inf neg => cases h
  | nan b => cases h

/-! ### The largest exponent among terms (R72 step 3) -/

theorem maxExponent_eq_none {ts : List Num} (h : ∀ t ∈ ts, t.exponent = none) : maxExponent ts = none := by
  induction ts with
  | nil => rfl
  | cons t ts ih =>
    rw [List.forall_mem_cons] at h
    rw [maxExponent, h.1, ih h.2]

theorem le_of_maxExponent {ts : List Num} {em k : Int} (h : ∀ t ∈ ts, ∀ j, t.exponent = some j → j ≤ em)
    (hk : maxExponent ts = some k) : k ≤ em := by
  induction ts generalizing k with
  | nil => cases hk
  | cons t ts ih =>
    rw [List.forall_mem_cons] at h
    cases ht : t.exponent with
    | none =>
      rw [maxExponent, ht] at hk
      exact ih h.2 hk
    | some a =>
      have ha := h.1 a ht
      cases hr : maxExponent ts with
      | none =>
        rw [maxExponent, ht, hr] at hk
        exact (Option.some.inj hk) ▸ ha
      | some b =>
        rw [maxExponent, ht, hr] at hk
        exact (Option.some.inj hk) ▸ max_le ha (ih h.2 hr)

theorem exists_maxExponent_ge {ts : List Num} {t : Num} {j : Int} (ht : t ∈ ts) (hj : t.exponent = some j) :
    ∃ k, maxExponent ts = some k ∧ j ≤ k := by
  induction ts with
  | nil => cases ht
  | cons u ts ih =>
    rcases List.mem_cons.1 ht with rfl | ht
    · cases hr : maxExponent ts with
      | none => exact ⟨j, by rw [maxExponent, hj, hr], le_refl j⟩
      | some b => exact ⟨max j b, by rw [maxExponent, hj, hr], le_max_left j b⟩
    · obtain ⟨k, hk, hle⟩ := ih ht
      cases hu : u.exponent with
      | none => exact ⟨k, by rw [maxExponent, hu]; exact hk, hle⟩
      | some a => exact ⟨max a k, by rw [maxExponent, hu, hk], hle.trans (le_max_right a k)⟩

/-- The largest exponent is that of the largest magnitude. -/
theorem maxExponent_eq_some {ts : List Num} {em : Int}
    (hall : ∀ t ∈ ts, ∀ p, t.value = some p → |p| < (2 : ℚ) ^ (em + 1))
    (hex : ∃ t ∈ ts, ∃ p, t.value = some p ∧ (2 : ℚ) ^ em ≤ |p|) : maxExponent ts = some em := by
  obtain ⟨t, ht, p, hp, hlow⟩ := hex
  obtain ⟨k, hk, hge⟩ := exists_maxExponent_ge ht (Num.exponent_eq_some hp hlow (hall t ht p hp))
  have hle : k ≤ em := le_of_maxExponent (fun u hu j hj => by
    obtain ⟨q, hq⟩ := Num.exists_value_of_exponent hj
    have := Num.exponent_lt hq (hall u hu q hq) hj
    omega) hk
  rw [hk, le_antisymm hle hge]

/-! ### Terms in fixed point -/

/-- A rational number truncated toward zero. -/
def truncQ (q : ℚ) : ℤ := if 0 ≤ q then ⌊q⌋ else ⌈q⌉

@[simp] theorem truncQ_intCast (n : ℤ) : truncQ n = n := by
  rw [truncQ, Int.floor_intCast, Int.ceil_intCast, ite_self]

/-- A signed quotient truncated toward zero is the quotient of the magnitudes with the sign. -/
theorem truncQ_sgn_div (neg : Bool) (m d : Nat) : truncQ ((sgn neg m : ℚ) / d) = sgn neg (m / d) := by
  have hnonneg : (0 : ℚ) ≤ (m : ℚ) / d := by positivity
  cases neg with
  | false =>
    rw [truncQ, sgn, if_neg Bool.false_ne_true, Int.cast_natCast, if_pos hnonneg, Rat.floor_natCast_div_natCast]
    rfl
  | true =>
    rw [truncQ, sgn, if_pos rfl, Int.cast_neg, Int.cast_natCast, neg_div, Int.floor_neg, Int.ceil_neg,
      Rat.floor_natCast_div_natCast, sgn, if_pos rfl]
    split
    · next h =>
      have hzero : (m : ℚ) / d = 0 := le_antisymm (neg_nonneg.1 h) hnonneg
      have hfloor := Rat.floor_natCast_div_natCast m d
      rw [hzero, Int.floor_zero] at hfloor
      rw [hzero, Int.ceil_zero, Int.natCast_ediv, ← hfloor]
    · rfl

/-- A finite term in fixed point is its value over the least weight, truncated toward zero (R72 step 3). -/
theorem Num.fixed_eq_truncQ {t : Num} {p : ℚ} (w : Int) (h : t.value = some p) : t.fixed w = truncQ (p / (2 : ℚ) ^ w) := by
  obtain ⟨neg, m, e, rfl, rfl⟩ := Num.exists_fin_of_value h
  have hw : (2 : ℚ) ^ w ≠ 0 := zpow_ne_zero w two_ne_zero
  rw [Num.fixed]
  split
  · next hle => rw [← sgn_align neg m hle, mul_div_assoc, div_self hw, mul_one, truncQ_intCast]
  · next hgt =>
    have hpow : (2 : ℚ) ^ w = (2 : ℚ) ^ e * ((2 ^ (w - e).toNat : Nat) : ℚ) := by
      rw [Nat.cast_pow, Nat.cast_ofNat, ← zpow_natCast, Int.toNat_of_nonneg (by omega), ← zpow_add₀ two_ne_zero,
        add_sub_cancel]
    rw [hpow, mul_comm, mul_div_mul_left _ _ (zpow_ne_zero e two_ne_zero), truncQ_sgn_div, Nat.shiftRight_eq_div_pow]

/-! ### Steps 3 to 6 of R72 on one group -/

section Groups
variable {ts : List Num}

theorem groupSum_eq (ts : List Num) : groupSum ts =
    if ts.any Num.isNan then qnan
    else if ts.any (· = .inf false) && ts.any (· = .inf true) then qnan
    else if ts.any (· = .inf false) then 0x7F800000#32
    else if ts.any (· = .inf true) then 0xFF800000#32
    else match maxExponent ts with
      | none => if !ts.isEmpty && allNegZero ts then 0x80000000#32 else 0#32
      | some em => (Num.ofInt false (ts.foldl (fun acc t => acc + t.fixed (em - 30)) 0) (em - 30)).toBits .rne := rfl

theorem any_isNan_eq_false (h : ∀ t ∈ ts, t.isNan = false) : ts.any Num.isNan = false := by
  rw [List.any_eq_false]
  exact fun t ht => Bool.not_eq_true _ ▸ h t ht

theorem any_inf (neg : Bool) : ts.any (· = .inf neg) = decide (.inf neg ∈ ts) := by
  rw [Bool.eq_iff_iff, List.any_eq_true, decide_eq_true_iff]
  exact ⟨fun ⟨t, ht, h⟩ => of_decide_eq_true h ▸ ht, fun h => ⟨_, h, decide_eq_true rfl⟩⟩

theorem groupSum_nan (h : ∃ t ∈ ts, t.isNan = true) : groupSum ts = qnan := by
  rw [groupSum_eq, if_pos (List.any_eq_true.2 h)]

theorem groupSum_infs (hp : .inf false ∈ ts) (hn : .inf true ∈ ts) : groupSum ts = qnan := by
  simp [groupSum_eq, any_inf, hp, hn]

theorem groupSum_inf (hnan : ∀ t ∈ ts, t.isNan = false) (hp : .inf false ∈ ts) (hn : .inf true ∉ ts) :
    groupSum ts = 0x7F800000#32 := by
  simp [groupSum_eq, any_isNan_eq_false hnan, any_inf, hp, hn]

theorem groupSum_negInf (hnan : ∀ t ∈ ts, t.isNan = false) (hp : .inf false ∉ ts) (hn : .inf true ∈ ts) :
    groupSum ts = 0xFF800000#32 := by
  simp [groupSum_eq, any_isNan_eq_false hnan, any_inf, hp, hn]

/-- Finite terms: each truncated to a multiple of 2^(em - 30), and the exact sum rounded once. -/
theorem groupSum_finite {em : Int} (hall : ∀ t ∈ ts, ∃ p, t.value = some p ∧ |p| < (2 : ℚ) ^ (em + 1))
    (hex : ∃ t ∈ ts, ∃ p, t.value = some p ∧ (2 : ℚ) ^ em ≤ |p|) :
    groupSum ts = (Num.ofInt false
      ((ts.map fun t => truncQ ((t.value.getD 0) / (2 : ℚ) ^ (em - 30))).foldl (· + ·) 0) (em - 30)).toBits .rne := by
  have hnan : ∀ t ∈ ts, t.isNan = false := fun t ht => by
    obtain ⟨p, hp, _⟩ := hall t ht
    exact Num.isNan_eq_false_of_value hp
  have hinf (neg : Bool) : .inf neg ∉ ts := fun h => by
    obtain ⟨p, hp, _⟩ := hall _ h
    cases hp
  have hmax : maxExponent ts = some em := maxExponent_eq_some (fun t ht p hp => by
    obtain ⟨q, hq, hlt⟩ := hall t ht
    exact Option.some.inj (hp.symm.trans hq) ▸ hlt) hex
  have hfixed : ts.map (fun t => truncQ ((t.value.getD 0) / (2 : ℚ) ^ (em - 30))) = ts.map (·.fixed (em - 30)) :=
    List.map_congr_left fun t ht => by
      obtain ⟨p, hp, _⟩ := hall t ht
      rw [Num.fixed_eq_truncQ _ hp, hp, Option.getD_some]
  rw [hfixed, List.foldl_map, groupSum_eq, any_isNan_eq_false hnan]
  simp [any_inf, hinf, hmax]

end Groups

theorem foldLanes_eq (f : Lane → Lane → Lane) (x : VReg) : foldLanes f x = x.toList.tail.foldl f (x.toList.headD 0#32) := by
  have hhead : laneAt x 0 = x.toList.headD 0#32 := by
    obtain ⟨⟨l⟩, hl⟩ := x
    cases l with
    | nil => cases hl
    | cons a l => rfl
  rw [foldLanes, hhead]

/-- Settles O10: moves by their source lanes, and the sum of one group by the exponent of its largest term. -/
theorem vectorMovesReductions : Obligations.VectorMovesReductions := by
  unfold Obligations.VectorMovesReductions
  refine ⟨fun s d a b n fwd _ => vectorMoves s d a b n fwd, fun s d a fwd => ?_, fun ts => ?_⟩
  · exact ⟨puts_of rfl, puts_of_setsG rfl (congrArg zext (foldLanes_eq fmax _)),
      puts_of_setsG rfl (congrArg zext (foldLanes_eq fmin _))⟩
  · exact ⟨groupSum_nan, groupSum_infs, groupSum_inf, groupSum_negInf, fun em => groupSum_finite⟩

end Sys2Proof.Machine
end

section
/-! Packed strips (R163): what an element's code fits into, packed codes as one number, and strips of that number. -/
namespace Sys2Proof.Machine

-- One proof after another: the threads of many proofs at once do not fit the memory of the check.
set_option Elab.async false

/-! ### Codes fit their width (R58, R62) -/

theorem taperFloor_lt (n m : Nat) (e : Int) (k c : Nat) : taperFloor n m e k c < c + 2 ^ k := by
  induction k generalizing c with
  | zero => simp [taperFloor]
  | succ k ih =>
    rw [taperFloor, Nat.pow_succ]
    split
    · have := ih c
      omega
    · have := ih (c + 2 ^ k)
      omega

theorem ite_succ_lt {c : Prop} [Decidable c] {n b : Nat} (h : n + 1 < b) : (if c then n + 1 else n) < b := by
  split <;> omega

theorem taperCode_lt (rm : Rm) {n : Nat} (hn : 0 < n) (neg : Bool) (m : Nat) (e : Int) : taperCode rm n neg m e < 2 ^ n := by
  have hlo : taperFloor n m e n 0 < 2 ^ n := Nat.zero_add (2 ^ n) ▸ taperFloor_lt n m e n 0
  have hone : 1 < 2 ^ n := Nat.one_lt_two_pow hn.ne'
  simp only [taperCode]
  split
  · exact hone
  · split
    · omega
    · split
      · exact hlo
      · exact ite_succ_lt (by omega)

theorem overCode_le (rm : Rm) (neg : Bool) (c : Nat) : overCode rm neg c ≤ c + 1 := by
  cases rm <;> cases neg <;> simp [overCode]

theorem lowBits_lt (n : Nat) (v : Int) : lowBits n v < 2 ^ n := by
  have hpos : (0 : Int) < (2 ^ n : Nat) := by positivity
  have hlt := Int.emod_lt_of_pos v hpos
  have hnonneg := Int.emod_nonneg v hpos.ne'
  rw [lowBits]
  omega

/-- A sign bit above a magnitude that fits below it. -/
theorem signed_lt {neg : Bool} {b c : Nat} (h : c < b) : (if neg then b else 0) + c < 2 * b := by
  split <;> omega

/-- A rounded magnitude, or the code above the largest finite one, fits below the sign bit. -/
theorem capped_lt {rm : Rm} {neg : Bool} {c top b : Nat} (h : top + 1 < b) :
    (if c ≤ top then c else overCode rm neg top) < b := by
  have := overCode_le rm neg top
  split <;> omega

section Formats
variable (rm : Rm) (neg : Bool) (m : Nat) (e : Int)

theorem encodeElem_nan_lt (b : Lane) : encodeElem 1 rm (.nan b) < 2 ^ 16 ∧ encodeElem 2 rm (.nan b) < 2 ^ 16 := by
  have hb : b.toNat >>> 16 < 2 ^ 16 := by
    rw [Nat.shiftRight_eq_div_pow]
    have := b.isLt
    omega
  refine ⟨Nat.or_lt_two_pow hb (by decide), ?_⟩
  rw [encodeElem, Nat.add_assoc]
  exact signed_lt (b := 0x8000) (by omega)

/-- A saturated magnitude below a sign bit (R62). -/
theorem saturated_lt {b top c : Nat} (h : top < b) : (if neg then b else 0) + min top c < 2 * b :=
  signed_lt (by omega)

/-- A tapered code below a sign bit, zero apart (R62). -/
theorem tapered_lt {n : Nat} (hn : 0 < n) :
    (if m = 0 then 0 else (if neg then 2 ^ n else 0) + taperCode rm n neg m e) < 2 * 2 ^ n := by
  split
  · positivity
  · exact signed_lt (taperCode_lt rm hn neg m e)

/-- Every code of a format other than FP32 fits its width. -/
theorem encodeElem_lt {fmt : Nat} (h0 : fmt ≠ 0) (h : fmt < 12) (x : Num) : encodeElem fmt rm x < 2 ^ fmtWidth fmt := by
  have hfmt : fmt = 1 ∨ fmt = 2 ∨ fmt = 3 ∨ fmt = 4 ∨ fmt = 5 ∨ fmt = 6 ∨ fmt = 7 ∨ fmt = 8 ∨ fmt = 9 ∨ fmt = 10 ∨ fmt = 11 := by
    omega
  cases x with
  | nan b =>
    have hsign (c t : Nat) (h : t < c) : (if b.msb then c else 0) + t < 2 * c := signed_lt h
    rcases hfmt with rfl | rfl | rfl | rfl | rfl | rfl | rfl | rfl | rfl | rfl | rfl
    · exact (encodeElem_nan_lt rm b).1
    · exact (encodeElem_nan_lt rm b).2
    · exact hsign 0x80 0x7F (by decide)
    · exact hsign 0x80 0x7F (by decide)
    all_goals exact of_decide_eq_true rfl
  | inf neg =>
    rcases hfmt with rfl | rfl | rfl | rfl | rfl | rfl | rfl | rfl | rfl | rfl | rfl <;> cases neg <;> exact of_decide_eq_true rfl
  | fin neg m e =>
    rcases hfmt with rfl | rfl | rfl | rfl | rfl | rfl | rfl | rfl | rfl | rfl | rfl
    · exact signed_lt (b := 0x8000) (capped_lt (by decide))
    · exact signed_lt (b := 0x8000) (capped_lt (by decide))
    · exact saturated_lt neg (b := 0x80) (by decide)
    · exact saturated_lt neg (b := 0x80) (by decide)
    · exact tapered_lt rm neg m e (n := 7) (by decide)
    · exact lowBits_lt 8 _
    · exact saturated_lt neg (b := 0x20) (by decide)
    · exact saturated_lt neg (b := 0x20) (by decide)
    · exact tapered_lt rm neg m e (n := 5) (by decide)
    · exact saturated_lt neg (b := 8) (by decide)
    · exact lowBits_lt 4 _

end Formats

/-! ### Strips as numbers -/

/-- Sixteen lanes of a number, or fewer, put together again. -/
theorem foldr_limbs (k n : Nat) : ((List.ofFn fun i : Fin k => BitVec.ofNat 32 (n >>> (32 * i.val))).foldr
    (fun x a => x.toNat + 2 ^ 32 * a) 0) = n % 2 ^ (32 * k) := by
  induction k generalizing n with
  | zero => simp [Nat.mod_one]
  | succ k ih =>
    have htail (i : Fin k) : n >>> (32 * i.succ.val) = (n / 2 ^ 32) >>> (32 * i.val) := by
      rw [Fin.val_succ, Nat.shiftRight_eq_div_pow, Nat.shiftRight_eq_div_pow, Nat.div_div_eq_div_mul, ← Nat.pow_add,
        Nat.mul_succ, Nat.add_comm]
    rw [List.ofFn_succ, List.foldr_cons]
    simp only [htail]
    rw [ih, Nat.mul_succ, Nat.add_comm (32 * k), Nat.pow_add, Nat.mod_mul, BitVec.toNat_ofNat]
    rfl

theorem stripNat_laneList {n : Nat} (h : n < 2 ^ 512) : stripNat (laneList n) = n := by
  have hlist : (laneList n).toList = List.ofFn fun i : Fin 16 => BitVec.ofNat 32 (n >>> (32 * i.val)) :=
    Vector.toList_ofFn
  rw [stripNat, hlist, foldr_limbs, Nat.mod_eq_of_lt h]

theorem packElems_lt (w : Nat) (l : List Nat) : packElems w l < 2 ^ (w * l.length) := by
  induction l with
  | nil => simp [packElems]
  | cons x l ih =>
    have hx : x % 2 ^ w < 2 ^ w := Nat.mod_lt _ (Nat.two_pow_pos w)
    rw [packElems, List.length_cons, Nat.mul_succ, Nat.add_comm (w * l.length), Nat.pow_add]
    calc x % 2 ^ w + 2 ^ w * packElems w l < 2 ^ w * (packElems w l + 1) := by rw [Nat.mul_succ]; omega
      _ ≤ 2 ^ w * 2 ^ (w * l.length) := Nat.mul_le_mul_left _ ih

/-- Codes that fit their width are packed unchanged. -/
theorem packElems_map {w : Nat} {α : Type} {f : α → Nat} {l : List α} (h : ∀ x ∈ l, f x < 2 ^ w) :
    packElems w (l.map f) = l.foldr (fun x n => f x + 2 ^ w * n) 0 := by
  induction l with
  | nil => rfl
  | cons x l ih =>
    rw [List.forall_mem_cons] at h
    rw [List.map_cons, packElems, Nat.mod_eq_of_lt h.1, ih h.2, List.foldr_cons]

theorem at'_eq_getD {V : Type} (d : V) (l : List V) (i : Nat) : at' d l i = l.getD i d := by
  induction l generalizing i with
  | nil => rfl
  | cons x l ih =>
    cases i with
    | zero => rfl
    | succ i => exact ih i

/-- A list read by index from its front is the list. -/
theorem map_range_at' {V : Type} (d : V) (l : List V) : (List.range l.length).map (at' d l) = l := by
  apply List.ext_getElem
  · simp
  · intro i hi hi'
    simp [at'_eq_getD, hi']

/-- VPACK puts each code at its place, zeros above (R163). -/
theorem stripNat_packStrip {fmt : Nat} (h0 : fmt ≠ 0) (h : fmt < 12) (rm : Rm) (x : VReg) :
    stripNat (packStrip rm fmt x) = (List.range 16).foldr
      (fun i n => encodeElem fmt rm (Num.ofBits (at' 0#32 x.toList i)) + 2 ^ fmtWidth fmt * n) 0 := by
  have hlen : x.toList.length = 16 := Vector.length_toList
  have hwidth : fmtWidth fmt ≤ 16 := by
    have hall : ∀ f < 12, f ≠ 0 → fmtWidth f ≤ 16 := by decide
    exact hall fmt h h0
  have hlt := packElems_lt (fmtWidth fmt) (x.toList.map fun l => encodeElem fmt rm (Num.ofBits l))
  rw [List.length_map, hlen] at hlt
  have hle : fmtWidth fmt * 16 ≤ 512 := by omega
  rw [packStrip, if_neg h0, stripNat_laneList (hlt.trans_le (Nat.pow_le_pow_right two_pos hle)),
    packElems_map fun l _ => encodeElem_lt rm h0 h _]
  conv_lhs => rw [← map_range_at' 0#32 x.toList, hlen]
  rw [List.foldr_map]

theorem packedElem_eq (w x i : Nat) : packedElem w x i = x / 2 ^ (w * i) % 2 ^ w := by
  rw [packedElem, Nat.shiftRight_eq_div_pow]

theorem unpackStrip_eq (fmt : Nat) (x : VReg) : unpackStrip fmt x =
    Vector.ofFn fun i => (decodeElem fmt (stripNat x / 2 ^ (fmtWidth fmt * i.val) % 2 ^ fmtWidth fmt)).read32 := by
  simp only [unpackStrip, packedElem_eq]

end Sys2Proof.Machine
end

section
/-! Estimates (R167) and GCOMP's coding (R341): exact values rounded to FP32 bits without loss, 12 significant bits of a
quotient and of a root, and the conversions' obligation. -/
namespace Sys2Proof.Machine

-- One proof after another: the threads of many proofs at once do not fit the memory of the check.
set_option Elab.async false

/-! ### Magnitudes compared as rational numbers -/

theorem natShift_align (m : Nat) {e l : Int} (h : l ≤ e) :
    ((m <<< (e - l).toNat : Nat) : ℚ) * (2 : ℚ) ^ l = m * (2 : ℚ) ^ e := by
  have := sgn_align false m h
  rw [sgn, if_neg Bool.false_ne_true, Int.cast_natCast] at this
  exact this

theorem dyCmp_eq_lt_iff (m n : Nat) (e f : Int) : dyCmp m e n f = .lt ↔ (m : ℚ) * 2 ^ e < n * 2 ^ f := by
  have hpos : (0 : ℚ) < 2 ^ min e f := zpow_pos two_pos _
  rw [dyCmp, Nat.compare_eq_lt, ← natShift_align m (min_le_left e f), ← natShift_align n (min_le_right e f),
    mul_lt_mul_iff_left₀ hpos, Nat.cast_lt]

/-! ### Values rounded without loss -/

/-- A sign bit above a finite magnitude code reads back as that code's value. -/
theorem Num.ofBits_signBit_add (neg : Bool) {c : Nat} (h : c < 0x7F800000) :
    Num.ofBits (BitVec.ofNat 32 (signBit neg + c)) = .fin neg (codeMag (shapeOf 0) c).1 (codeMag (shapeOf 0) c).2 := by
  have hx : (BitVec.ofNat 32 (signBit neg + c)).toNat = signBit neg + c := by
    rw [BitVec.toNat_ofNat]
    cases neg <;> simp [signBit] <;> omega
  have hmsb : (BitVec.ofNat 32 (signBit neg + c)).msb = neg := by
    rw [BitVec.msb_eq_decide, hx]
    cases neg <;> simp [signBit]
    omega
  have hmag : (BitVec.ofNat 32 (signBit neg + c)).toNat % 2 ^ 31 = c := by
    rw [hx]
    cases neg <;> simp [signBit] <;> omega
  rcases Num.ofBits_cases (BitVec.ofNat 32 (signBit neg + c)) with ⟨hc, _⟩ | ⟨hc, _⟩ | ⟨_, hb⟩
  · omega
  · omega
  · rw [hb, hmsb, hmag]

/-- A significand of 24 bits in the normal range keeps its value: `k` has its leading bit at 23, the exponent is `q`. -/
theorem value_of_normal_code (neg : Bool) {k : Nat} {q : Int} (hlow : 2 ^ 23 ≤ k) (hhigh : k < 2 ^ 24) (hq : -149 ≤ q)
    (hq' : q ≤ 104) :
    (Num.ofBits (BitVec.ofNat 32 (signBit neg + ((q + 149).toNat * 2 ^ 23 + k)))).value = some ((sgn neg k : ℚ) * 2 ^ q) := by
  have hfield : ((q + 149).toNat * 2 ^ 23 + k) / 2 ^ 23 = (q + 149).toNat + 1 := by omega
  have hfrac : ((q + 149).toNat * 2 ^ 23 + k) % 2 ^ 23 = k - 2 ^ 23 := by omega
  rw [Num.ofBits_signBit_add neg (by omega), Num.value_fin, codeMag_fp32, hfield, if_neg (Nat.succ_ne_zero _)]
  dsimp only
  rw [hfrac, show 2 ^ 23 + (k - 2 ^ 23) = k by omega, show (((q + 149).toNat + 1 : Nat) : Int) - 150 = q by omega]

/-- The code of a normal value with the significand `k` of 24 bits, zeros below left out or filled in. -/
theorem magCode_normal (neg : Bool) {m k : Nat} {e q : Int} (hm : m ≠ 0) (hq : q = (m.log2 : Int) + e - 23) (hmin : -149 ≤ q)
    (hk : (m : ℚ) * 2 ^ e = k * 2 ^ q) : magCode .rtz (shapeOf 0) neg m e = (q + 149).toNat * 2 ^ 23 + k := by
  have hqe : q = max ((m.log2 : Int) + e - 23) (-149) := by omega
  by_cases hle : q ≤ e
  · rw [magCode_of_exact .rtz neg hm hqe hle]
    have hcast : ((m <<< (e - q).toNat : Nat) : ℚ) = k :=
      mul_right_cancel₀ (zpow_ne_zero q two_ne_zero) ((natShift_align m hle).trans hk)
    rw [← Nat.shiftLeft_eq m, Nat.cast_injective hcast]
  · have hcast : ((k <<< (q - e).toNat : Nat) : ℚ) = m :=
      mul_right_cancel₀ (zpow_ne_zero e two_ne_zero) ((natShift_align k (by omega)).trans hk.symm)
    have hmk : m = k * 2 ^ (q - e).toNat := Nat.shiftLeft_eq k _ ▸ (Nat.cast_injective hcast).symm
    have hqmin : (1 : Int) - (shapeOf 0).bias - (shapeOf 0).fb = -149 := rfl
    have hmax : max ((m.log2 : Int) + e - (shapeOf 0).fb) (-149) = q := hqe.symm
    rw [magCode, if_neg hm]
    simp only [hqmin, hmax, if_neg hle, roundMag_rtz]
    rw [Nat.shiftLeft_eq, hmk, Nat.mul_div_cancel _ (Nat.two_pow_pos _), show q - -149 = q + 149 by omega]
    rfl

/-! ### Twelve significant bits (R167) -/

section Estimates
variable (neg : Bool) {m : Nat} {e : Int}

/-- The bits kept: twelve of them, and the value lies between them and their successor. -/
theorem twelve_bits (h : 11 ≤ m.log2) : 2 ^ 11 ≤ m >>> (m.log2 - 11) ∧ m >>> (m.log2 - 11) < 2 ^ 12 ∧
    (m >>> (m.log2 - 11)) * 2 ^ (m.log2 - 11) ≤ m ∧ m < (m >>> (m.log2 - 11) + 1) * 2 ^ (m.log2 - 11) := by
  have hm : m ≠ 0 := by
    rintro rfl
    exact absurd h (by decide)
  have hpos : 0 < 2 ^ (m.log2 - 11) := Nat.two_pow_pos _
  have hlow := Nat.log2_self_le hm
  have hhigh : m < 2 ^ (m.log2 + 1) := Nat.lt_log2_self
  have hsplit : m.log2 = 11 + (m.log2 - 11) := by omega
  have hsplit' : m.log2 + 1 = 12 + (m.log2 - 11) := by omega
  rw [Nat.shiftRight_eq_div_pow]
  refine ⟨?_, ?_, Nat.div_mul_le_self m _, ?_⟩
  · rw [Nat.le_div_iff_mul_le hpos, ← Nat.pow_add, ← hsplit]
    exact hlow
  · rw [Nat.div_lt_iff_lt_mul hpos, ← Nat.pow_add, ← hsplit']
    exact hhigh
  · rw [Nat.add_one_mul]
    exact Nat.lt_div_mul_add hpos

/-- The magnitude kept has the same leading bit. -/
theorem log2_kept (h : 11 ≤ m.log2) : (m >>> (m.log2 - 11)) <<< (m.log2 - 11) ≠ 0 ∧
    ((m >>> (m.log2 - 11)) <<< (m.log2 - 11)).log2 = m.log2 := by
  obtain ⟨hlow, hhigh, hle, _⟩ := twelve_bits h
  have hpos : 0 < 2 ^ (m.log2 - 11) := Nat.two_pow_pos _
  have hsplit : m.log2 = 11 + (m.log2 - 11) := by omega
  have hne : (m >>> (m.log2 - 11)) <<< (m.log2 - 11) ≠ 0 := by
    rw [Nat.shiftLeft_eq]
    positivity
  refine ⟨hne, (Nat.log2_eq_iff hne).2 ⟨?_, ?_⟩⟩
  · calc 2 ^ m.log2 = 2 ^ 11 * 2 ^ (m.log2 - 11) := by rw [← Nat.pow_add, ← hsplit]
      _ ≤ (m >>> (m.log2 - 11)) <<< (m.log2 - 11) := by rw [Nat.shiftLeft_eq]; exact Nat.mul_le_mul_right _ hlow
  · calc (m >>> (m.log2 - 11)) <<< (m.log2 - 11) < 2 ^ 12 * 2 ^ (m.log2 - 11) := by
          rw [Nat.shiftLeft_eq]
          exact Nat.mul_lt_mul_of_pos_right hhigh hpos
      _ = 2 ^ (m.log2 + 1) := by rw [← Nat.pow_add]; congr 1; omega

/-- The bits kept compare with a power of two as the leading bit does. -/
theorem dyCmp_kept (h : 11 ≤ m.log2) (b : Int) :
    dyCmp ((m >>> (m.log2 - 11)) <<< (m.log2 - 11)) e 1 b = .lt ↔ (m.log2 : Int) + e < b := by
  obtain ⟨hne, hlog⟩ := log2_kept h
  obtain ⟨hlow, hhigh⟩ := two_zpow_log2_le hne e
  rw [hlog] at hlow hhigh
  rw [dyCmp_eq_lt_iff, Nat.cast_one, one_mul]
  constructor
  · exact fun hlt => (zpow_lt_zpow_iff_right₀ (one_lt_two (α := ℚ))).1 (hlow.trans_lt hlt)
  · exact fun hlt => hhigh.trans_le ((zpow_le_zpow_iff_right₀ (one_lt_two (α := ℚ))).2 (by omega))

/-- Below 2^-126 an estimate is a zero. -/
theorem estimate_small (h : 11 ≤ m.log2) (hlt : (m.log2 : Int) + e < -126) :
    estimate neg m e = BitVec.ofNat 32 (signBit neg) :=
  if_pos ((dyCmp_kept h _).2 hlt)

/-- From 2^128 on it is an infinity. -/
theorem estimate_large (h : 11 ≤ m.log2) (hge : 128 ≤ (m.log2 : Int) + e) :
    estimate neg m e = BitVec.ofNat 32 (signBit neg + 0x7F800000) := by
  have hsmall : ¬dyCmp ((m >>> (m.log2 - 11)) <<< (m.log2 - 11)) e 1 (-126) = .lt := by rw [dyCmp_kept h]; omega
  have hlarge : dyCmp ((m >>> (m.log2 - 11)) <<< (m.log2 - 11)) e 1 128 ≠ .lt := by rw [Ne, dyCmp_kept h]; omega
  exact (if_neg hsmall).trans (if_pos hlarge)

/-- Between them it is the twelve bits kept, exactly. -/
theorem value_estimate (h : 11 ≤ m.log2) (hlow : -126 ≤ (m.log2 : Int) + e) (hhigh : (m.log2 : Int) + e < 128) :
    (Num.ofBits (estimate neg m e)).value =
      some ((sgn neg (m >>> (m.log2 - 11)) : ℚ) * 2 ^ ((m.log2 - 11 : Nat) + e : Int)) := by
  obtain ⟨hk, hk', _⟩ := twelve_bits h
  obtain ⟨hne, hlog⟩ := log2_kept h
  have hsmall : ¬dyCmp ((m >>> (m.log2 - 11)) <<< (m.log2 - 11)) e 1 (-126) = .lt := by rw [dyCmp_kept h]; omega
  have hlarge : ¬dyCmp ((m >>> (m.log2 - 11)) <<< (m.log2 - 11)) e 1 128 ≠ .lt := by
    rw [Ne, not_not, dyCmp_kept h]
    exact hhigh
  have hest : estimate neg m e = (Num.fin neg ((m >>> (m.log2 - 11)) <<< (m.log2 - 11)) e).toBits .rtz :=
    (if_neg hsmall).trans (if_neg hlarge)
  have hgrid : (((m >>> (m.log2 - 11)) <<< (m.log2 - 11) : Nat) : ℚ) * 2 ^ e =
      ((m >>> (m.log2 - 11)) * 2 ^ 12 : Nat) * 2 ^ ((m.log2 : Int) + e - 23) := by
    rw [Nat.shiftLeft_eq, Nat.cast_mul, Nat.cast_mul, Nat.cast_pow, Nat.cast_pow, Nat.cast_ofNat, mul_assoc, mul_assoc,
      ← zpow_natCast, ← zpow_natCast, ← zpow_add₀ two_ne_zero, ← zpow_add₀ two_ne_zero]
    congr 2
    omega
  have hcode := magCode_normal neg hne (hlog.symm ▸ rfl) (by omega : -149 ≤ (m.log2 : Int) + e - 23) hgrid
  rw [hest]
  simp only [Num.toBits, hcode]
  rw [if_pos (by omega), value_of_normal_code neg (by omega) (by omega) (by omega) (by omega), ← Nat.shiftLeft_eq, sgn_mul_pow,
    Int.cast_mul, Int.cast_pow, Int.cast_ofNat, mul_assoc, ← zpow_natCast, ← zpow_add₀ two_ne_zero]
  congr 3
  omega

/-- An estimate of a value that lies between `m` and its successor times 2^e (R167). -/
theorem estimate_of_between {y : ℚ} (h : 11 ≤ m.log2) (hlow : (m : ℚ) * 2 ^ e ≤ y) (hhigh : y < ((m : ℚ) + 1) * 2 ^ e) :
    (y < (2 : ℚ) ^ (-126 : ℤ) → estimate neg m e = BitVec.ofNat 32 (signBit neg)) ∧
    ((2 : ℚ) ^ 128 ≤ y → estimate neg m e = BitVec.ofNat 32 (signBit neg + 0x7F800000)) ∧
    ((2 : ℚ) ^ (-126 : ℤ) ≤ y → y < (2 : ℚ) ^ 128 → ∃ (k : ℕ) (f : ℤ), 2 ^ 11 ≤ k ∧ k < 2 ^ 12 ∧ k * (2 : ℚ) ^ f ≤ y ∧
      y < (k + 1) * (2 : ℚ) ^ f ∧ (Num.ofBits (estimate neg m e)).value = some ((sgn neg k : ℚ) * 2 ^ f)) := by
  have hm : m ≠ 0 := by
    rintro rfl
    exact absurd h (by decide)
  have hpos : (0 : ℚ) < 2 ^ e := zpow_pos two_pos e
  have hfrom : (2 : ℚ) ^ ((m.log2 : Int) + e) ≤ y := (two_zpow_log2_le hm e).1.trans hlow
  have hto : y < (2 : ℚ) ^ ((m.log2 : Int) + e + 1) := by
    have hsucc : ((m + 1 : Nat) : ℚ) ≤ ((2 ^ (m.log2 + 1) : Nat) : ℚ) := Nat.cast_le.2 Nat.lt_log2_self
    have hexp : (m.log2 : Int) + e + 1 = ((m.log2 + 1 : Nat) : Int) + e := by omega
    rw [Nat.cast_add, Nat.cast_one, Nat.cast_pow, Nat.cast_ofNat, ← zpow_natCast] at hsucc
    rw [hexp, zpow_add₀ two_ne_zero]
    exact hhigh.trans_le (mul_le_mul_of_nonneg_right hsucc hpos.le)
  have hreached {b : ℤ} (hb : (2 : ℚ) ^ b ≤ y) : b ≤ (m.log2 : Int) + e := by
    have := (zpow_lt_zpow_iff_right₀ (one_lt_two (α := ℚ))).1 (hb.trans_lt hto)
    omega
  have hbelow {b : ℤ} (hb : y < (2 : ℚ) ^ b) : (m.log2 : Int) + e < b :=
    (zpow_lt_zpow_iff_right₀ (one_lt_two (α := ℚ))).1 (hfrom.trans_lt hb)
  have h128 : (2 : ℚ) ^ 128 = (2 : ℚ) ^ (128 : ℤ) := (zpow_natCast 2 128).symm
  rw [h128]
  refine ⟨fun hy => estimate_small neg h (hbelow hy), fun hy => estimate_large neg h (hreached hy), fun hy hy' => ?_⟩
  obtain ⟨hk, hk', hle, hlt⟩ := twelve_bits h
  have hpow : (2 : ℚ) ^ ((m.log2 - 11 : Nat) + e : Int) = ((2 ^ (m.log2 - 11) : Nat) : ℚ) * 2 ^ e := by
    rw [zpow_add₀ two_ne_zero, zpow_natCast, Nat.cast_pow, Nat.cast_ofNat]
  refine ⟨_, _, hk, hk', ?_, ?_, value_estimate neg h (hreached hy) (hbelow hy')⟩
  · rw [hpow, ← mul_assoc, ← Nat.cast_mul]
    exact (mul_le_mul_of_nonneg_right (Nat.cast_le.2 hle) hpos.le).trans hlow
  · have hsucc : ((m + 1 : Nat) : ℚ) ≤ (((m >>> (m.log2 - 11) + 1) * 2 ^ (m.log2 - 11) : Nat) : ℚ) := Nat.cast_le.2 hlt
    rw [hpow, ← mul_assoc, ← Nat.cast_succ, ← Nat.cast_mul]
    rw [Nat.cast_add, Nat.cast_one] at hsucc
    exact hhigh.trans_le (mul_le_mul_of_nonneg_right hsucc hpos.le)

end Estimates

/-! ### The integer square root -/

/-- Bit by bit, the root of `n` between `r` and `r + 2^k`. -/
theorem isqrt_spec (k n r : Nat) (hlow : r * r ≤ n) (hhigh : n < (r + 2 ^ k) * (r + 2 ^ k)) :
    isqrt k n r * isqrt k n r ≤ n ∧ n < (isqrt k n r + 1) * (isqrt k n r + 1) := by
  induction k generalizing r with
  | zero => exact ⟨hlow, hhigh⟩
  | succ k ih =>
    rw [isqrt]
    split
    · next hle =>
      refine ih _ hle ?_
      rwa [Nat.add_assoc, ← Nat.two_mul, ← Nat.pow_succ']
    · next hgt => exact ih _ hlow (Nat.lt_of_not_le hgt)

theorem isqrt_of_lt {n : Nat} (h : n < 2 ^ 128) : isqrt 64 n 0 * isqrt 64 n 0 ≤ n ∧ n < (isqrt 64 n 0 + 1) * (isqrt 64 n 0 + 1) :=
  isqrt_spec 64 n 0 (Nat.zero_le n) (by rw [Nat.zero_add]; exact h)

/-! ### Reciprocals and reciprocal roots (R167) -/

section Reciprocals
variable {x : Lane} {neg : Bool} {m : Nat} {e : Int}

/-- The significand and the exponent of FP32 bits lie in their ranges (R60). -/
theorem Num.ofBits_ranges (h : Num.ofBits x = .fin neg m e) : neg = x.msb ∧ m < 2 ^ 24 ∧ -149 ≤ e ∧ e ≤ 104 := by
  rcases Num.ofBits_cases x with ⟨_, hx⟩ | ⟨_, hx⟩ | ⟨hc, hx⟩
  · cases hx.symm.trans h
  · cases hx.symm.trans h
  · obtain ⟨rfl, rfl, rfl⟩ := Num.fin.inj (h.symm.trans hx)
    rw [codeMag_fp32]
    split
    · exact ⟨rfl, by dsimp only; omega, by dsimp only; omega, by dsimp only; omega⟩
    · exact ⟨rfl, by dsimp only; omega, by dsimp only; omega, by dsimp only; omega⟩

theorem rcpe_of_fin (h : Num.ofBits x = .fin neg m e) (hm : m ≠ 0) : rcpe x = estimate neg (2 ^ 64 / m) (-e - 64) := by
  rw [rcpe, h]
  exact if_neg hm

/-- The quotient of R167 has 12 bits at least, and the reciprocal lies between it and its successor. -/
theorem reciprocal_between (hm : m ≠ 0) (hlt : m < 2 ^ 24) (e : Int) : 11 ≤ (2 ^ 64 / m).log2 ∧
    ((2 ^ 64 / m : Nat) : ℚ) * 2 ^ (-e - 64) ≤ ((m : ℚ) * 2 ^ e)⁻¹ ∧
    ((m : ℚ) * 2 ^ e)⁻¹ < (((2 ^ 64 / m : Nat) : ℚ) + 1) * 2 ^ (-e - 64) := by
  have hmpos : 0 < m := Nat.pos_of_ne_zero hm
  have hmq : (0 : ℚ) < m := Nat.cast_pos.2 hmpos
  have hpos : (0 : ℚ) < 2 ^ (-e - 64) := zpow_pos two_pos _
  have hinv : ((m : ℚ) * 2 ^ e)⁻¹ = (2 ^ 64 / m : ℚ) * 2 ^ (-e - 64) := by
    rw [mul_inv, ← zpow_neg, show -e = 64 + (-e - 64) by omega, zpow_add₀ two_ne_zero]
    field_simp
    norm_num
  have hlow : 2 ^ 64 / m * m ≤ 2 ^ 64 := Nat.div_mul_le_self _ _
  have hhigh : 2 ^ 64 < (2 ^ 64 / m + 1) * m := by
    rw [Nat.add_one_mul]
    exact Nat.lt_div_mul_add hmpos
  refine ⟨?_, ?_, ?_⟩
  · have hbig : 2 ^ 11 ≤ 2 ^ 64 / m := (Nat.le_div_iff_mul_le hmpos).2 (by omega)
    exact (Nat.le_log2 (by omega)).2 hbig
  · rw [hinv]
    refine mul_le_mul_of_nonneg_right ((le_div_iff₀ hmq).2 ?_) hpos.le
    exact_mod_cast hlow
  · rw [hinv]
    refine mul_lt_mul_of_pos_right ((div_lt_iff₀ hmq).2 ?_) hpos
    exact_mod_cast hhigh

theorem rsqe_of_fin (h : Num.ofBits x = .fin false m e) (hm : m ≠ 0) : rsqe x =
    estimate false (isqrt 64 (2 ^ 120 / m <<< (e % 2).toNat) 0) (-((e - (e % 2).toNat) / 2) - 60) := by
  rw [rsqe, h]
  exact (if_neg hm).trans (if_neg Bool.false_ne_true)

/-- The root of R167 with its leading bits, and the reciprocal root between it and its successor, squared. -/
theorem root_between {n : Nat} (h0 : n ≠ 0) (hn : n < 2 ^ 25) :
    47 ≤ (isqrt 64 (2 ^ 120 / n) 0).log2 ∧ (isqrt 64 (2 ^ 120 / n) 0).log2 ≤ 60 ∧
    isqrt 64 (2 ^ 120 / n) 0 ^ 2 * n ≤ 2 ^ 120 ∧ 2 ^ 120 < (isqrt 64 (2 ^ 120 / n) 0 + 1) ^ 2 * n := by
  have hpos : 0 < n := Nat.pos_of_ne_zero h0
  have hq : 2 ^ 120 / n ≤ 2 ^ 120 := Nat.div_le_self _ _
  have hq' : 2 ^ 95 ≤ 2 ^ 120 / n := (Nat.le_div_iff_mul_le hpos).2 (by omega)
  obtain ⟨hlow, hhigh⟩ := isqrt_of_lt (n := 2 ^ 120 / n) (by omega)
  generalize isqrt 64 (2 ^ 120 / n) 0 = r at *
  have hr : 2 ^ 47 ≤ r := by
    by_contra hlt
    have := Nat.mul_le_mul (show r + 1 ≤ 2 ^ 47 by omega) (show r + 1 ≤ 2 ^ 47 by omega)
    omega
  have hr' : r ≤ 2 ^ 60 := by
    by_contra hgt
    have := Nat.mul_le_mul (show 2 ^ 60 + 1 ≤ r by omega) (show 2 ^ 60 + 1 ≤ r by omega)
    omega
  refine ⟨(Nat.le_log2 (by omega)).2 hr, ?_, ?_, ?_⟩
  · exact Nat.le_of_lt_succ ((Nat.log2_lt (by omega)).2 (by omega))
  · rw [sq]
    exact (Nat.le_div_iff_mul_le hpos).1 hlow
  · rw [sq]
    exact (Nat.div_lt_iff_lt_mul hpos).1 hhigh

/-- A scaled root squared, times its operand. -/
theorem scaled_sq_mul (j n : Nat) (f : Int) :
    ((j : ℚ) * 2 ^ (-f - 60)) ^ 2 * (n * 2 ^ (2 * f)) = ((j ^ 2 * n : Nat) : ℚ) / 2 ^ 120 := by
  have hpow : ((2 : ℚ) ^ (-f - 60)) ^ 2 * 2 ^ (2 * f) = (2 ^ 120)⁻¹ := by
    rw [← zpow_natCast, ← zpow_mul, ← zpow_add₀ two_ne_zero, ← zpow_natCast, ← zpow_neg]
    congr 1
    push_cast
    ring
  rw [mul_pow, mul_mul_mul_comm, hpow, Nat.cast_mul, Nat.cast_pow, div_eq_mul_inv]

/-- A number above zero has its sign bit clear. -/
theorem Num.ofBits_of_value_pos {p : ℚ} (h : (Num.ofBits x).value = some p) (hpos : 0 < p) :
    ∃ m e, m ≠ 0 ∧ Num.ofBits x = .fin false m e ∧ (m : ℚ) * 2 ^ e = p := by
  obtain ⟨m, e, hx, hv⟩ := Num.ofBits_of_value h
  have hm : m ≠ 0 := fun hm => hpos.ne' (hv ▸ Num.value_fin_eq_zero.2 hm)
  have habs : (m : ℚ) * 2 ^ e = p := by rw [← abs_of_pos hpos, ← hv, abs_value_fin]
  cases hs : x.msb with
  | false => exact ⟨m, e, hm, hs ▸ hx, habs⟩
  | true =>
    have hneg : (sgn true m : ℚ) * 2 ^ e = -(m * 2 ^ e) := by simp [sgn]
    rw [hs, hneg, habs] at hv
    exact absurd (hv ▸ hpos) (by simpa using hpos.le)

/-- The estimate of a reciprocal root: twelve bits of it, truncated. -/
theorem value_rsqe (h : Num.ofBits x = .fin false m e) (hm : m ≠ 0) : ∃ (k : ℕ) (g : ℤ), 2 ^ 11 ≤ k ∧ k < 2 ^ 12 ∧
    (k * (2 : ℚ) ^ g) ^ 2 * (m * (2 : ℚ) ^ e) ≤ 1 ∧ 1 < ((k + 1) * (2 : ℚ) ^ g) ^ 2 * (m * (2 : ℚ) ^ e) ∧
    (Num.ofBits (rsqe x)).value = some (k * (2 : ℚ) ^ g) := by
  obtain ⟨_, hm24, he, he'⟩ := Num.ofBits_ranges h
  have hodd : (e % 2).toNat = 0 ∨ (e % 2).toNat = 1 := by omega
  have hexp : e = ((e % 2).toNat : Int) + 2 * ((e - (e % 2).toNat) / 2) := by omega
  have hne : m <<< (e % 2).toNat ≠ 0 := by
    rw [Nat.shiftLeft_eq]
    positivity
  have hn : m <<< (e % 2).toNat < 2 ^ 25 := by
    rcases hodd with h0 | h1
    · rw [h0, Nat.shiftLeft_zero]; omega
    · rw [h1, Nat.shiftLeft_eq]; omega
  have hp : (m : ℚ) * 2 ^ e = (m <<< (e % 2).toNat : Nat) * 2 ^ (2 * ((e - (e % 2).toNat) / 2)) := by
    rw [Nat.shiftLeft_eq, Nat.cast_mul, Nat.cast_pow, Nat.cast_ofNat, mul_assoc, ← zpow_natCast, ← zpow_add₀ two_ne_zero,
      ← hexp]
  obtain ⟨hlog, hlog', hlow, hhigh⟩ := root_between hne hn
  rw [rsqe_of_fin h hm, hp]
  generalize isqrt 64 (2 ^ 120 / m <<< (e % 2).toNat) 0 = r at *
  generalize m <<< (e % 2).toNat = n at *
  generalize hf : (e - (e % 2).toNat) / 2 = f at *
  obtain ⟨hk, hk', hle, hlt⟩ := twelve_bits (m := r) (by omega)
  have hscale (j : Nat) : (j : ℚ) * 2 ^ ((r.log2 - 11 : Nat) + (-f - 60) : Int) = (j * 2 ^ (r.log2 - 11) : Nat) * 2 ^ (-f - 60) := by
    rw [zpow_add₀ two_ne_zero, zpow_natCast, Nat.cast_mul, Nat.cast_pow, Nat.cast_ofNat, mul_assoc]
  refine ⟨_, _, hk, hk', ?_, ?_, value_estimate false (by omega) (by omega) (by omega)⟩
  · rw [hscale, scaled_sq_mul, div_le_one (by positivity)]
    exact_mod_cast (Nat.mul_le_mul_right n (Nat.pow_le_pow_left hle 2)).trans hlow
  · rw [← Nat.cast_succ, hscale, scaled_sq_mul, one_lt_div (by positivity)]
    exact_mod_cast hhigh.trans_le (Nat.mul_le_mul_right n (Nat.pow_le_pow_left hlt 2))

end Reciprocals

/-! ### GCOMP's coding (R341) -/

theorem finiteLane_eq (x : Lane) : finiteLane x = (Num.ofBits x).value.isSome := by
  rw [finiteLane]
  cases Num.ofBits x <;> rfl

theorem any_not_finite {l : List Lane} : (l.any fun x => !finiteLane x) = true ↔ ∃ x ∈ l, (Num.ofBits x).value = none := by
  simp [finiteLane_eq]

/-- The power of two that GCOMP divides by: `floor(log2 amax) - 8`, at least -127. -/
def gcompScale (l : List Lane) : Int :=
  match maxExponent (l.map Num.ofBits) with
  | none => -127
  | some k => max (k - 8) (-127)

theorem gcompScale_zero {l : List Lane} (h : ∀ x ∈ l, (Num.ofBits x).value = some 0) : gcompScale l = -127 := by
  have hnone : maxExponent (l.map Num.ofBits) = none := maxExponent_eq_none fun t ht => by
    obtain ⟨x, hx, rfl⟩ := List.mem_map.1 ht
    exact Num.exponent_of_value_zero (h x hx)
  rw [gcompScale, hnone]

theorem gcompScale_of_largest {l : List Lane} {k : ℤ} (hex : ∃ x ∈ l, ∃ p, (Num.ofBits x).value = some p ∧ (2 : ℚ) ^ k ≤ |p|)
    (hall : ∀ x ∈ l, ∀ p, (Num.ofBits x).value = some p → |p| < (2 : ℚ) ^ (k + 1)) : gcompScale l = max (k - 8) (-127) := by
  obtain ⟨x, hx, p, hp, hle⟩ := hex
  have hsome : maxExponent (l.map Num.ofBits) = some k := maxExponent_eq_some (fun t ht q hq => by
    obtain ⟨y, hy, rfl⟩ := List.mem_map.1 ht
    exact hall y hy q hq) ⟨_, List.mem_map_of_mem hx, p, hp, hle⟩
  rw [gcompScale, hsome]

section Gcomp
variable {g e : List Lane}

theorem gcompOf_infinite (h : ∃ x ∈ List.zipWith (fadd .rne) g e, (Num.ofBits x).value = none) :
    (gcompOf g e).1 = rep 32 0#8 ++ [0xFF#8] ++ rep 31 0#8 ∧
    (gcompOf g e).2 = (List.zipWith (fadd .rne) g e).map fun x => if (Num.ofBits x).value.isSome then x else 0#32 := by
  rw [gcompOf, if_pos (any_not_finite.2 h)]
  simp only [finiteLane_eq, and_self]

theorem gcompOf_finite (h : ∀ x ∈ List.zipWith (fadd .rne) g e, (Num.ofBits x).value.isSome) :
    let s := List.zipWith (fadd .rne) g e
    let q := s.map fun x => encodeElem 3 .rne ((Num.ofBits x).shift (-gcompScale s))
    (gcompOf g e).1 = q.map (BitVec.ofNat 8 ·) ++ [BitVec.ofInt 8 (gcompScale s + 127)] ++ rep 31 0#8 ∧
    (gcompOf g e).2 = List.zipWith (fun x c =>
      (Num.add .rne (Num.ofBits x) ((decodeElem 3 c).shift (gcompScale s)).negate).toBits .rne) s q := by
  have hnot : ¬((List.zipWith (fadd .rne) g e).any fun x => !finiteLane x) = true := by
    rw [any_not_finite]
    rintro ⟨x, hx, hn⟩
    have := h x hx
    rw [hn] at this
    cases this
  rw [gcompOf, if_neg hnot]
  exact ⟨rfl, rfl⟩

end Gcomp

theorem Num.value_shift {x : Num} {p : ℚ} (k : ℤ) (h : x.value = some p) : (x.shift k).value = some (p * (2 : ℚ) ^ k) := by
  obtain ⟨neg, m, e, rfl, rfl⟩ := Num.exists_fin_of_value h
  rw [Num.shift, Num.value_fin, zpow_add₀ two_ne_zero, mul_assoc]

/-! ### The obligation -/

theorem ofNat_signBit (neg : Bool) : BitVec.ofNat 32 (signBit neg) = if neg then 0x80000000#32 else 0#32 := by
  cases neg <;> rfl

theorem ofNat_signBit_inf (neg : Bool) :
    BitVec.ofNat 32 (signBit neg + 0x7F800000) = 0x7F800000#32 ||| if neg then 0x80000000#32 else 0#32 := by
  cases neg <;> rfl

theorem sgn_eq_ite_mul (neg : Bool) (k : Nat) : (sgn neg k : ℚ) = (if neg then -1 else 1) * k := by
  cases neg <;> simp [sgn]

/-- Both estimates of a NaN, a zero, an infinity, and the root of a number below zero. -/
theorem estimateCorners (x : Lane) :
    let sign : Lane := if x.msb then 0x80000000#32 else 0#32
    ((Num.ofBits x).isNan → rcpe x = 0x7FC00000#32 ∧ rsqe x = 0x7FC00000#32) ∧
    ((Num.ofBits x).value = some 0 → rcpe x = 0x7F800000#32 ||| sign ∧ rsqe x = 0x7F800000#32 ||| sign) ∧
    (∀ p, (Num.ofBits x).value = some p → p < 0 → rsqe x = 0x7FC00000#32) := by
  refine ⟨fun h => ?_, fun h => ?_, fun p h hneg => ?_⟩
  · rw [rcpe, rsqe, Num.ofBits_of_isNan h]
    exact ⟨rfl, rfl⟩
  · obtain ⟨e, hx⟩ := Num.ofBits_of_value_zero h
    rw [rcpe, rsqe, hx]
    exact ⟨ofNat_signBit_inf _, ofNat_signBit_inf _⟩
  · obtain ⟨m, e, hm, hx⟩ := Num.ofBits_of_value_neg h hneg
    rw [rsqe, hx]
    exact (if_neg hm).trans (if_pos rfl)

/-- Settles O9: packed codes as one number, estimates by the quotient and the root that they truncate, and GCOMP by the
largest exponent of its sums. -/
theorem vectorConversions : Obligations.VectorConversions := by
  unfold Obligations.VectorConversions
  refine ⟨fun s d a fmt fwd hfmt => ?lanes, fun s d a b => does_of_effect rfl rfl, fun x => ?estimates, fun g e _ _ => ?gcomp,
    fun x p k => Num.value_shift k⟩
  case lanes =>
    refine ⟨⟨_, putsV_of rfl, fun h => ?_, fun h => ?_⟩, putsV_of_setsV rfl (unpackStrip_eq _ _),
      putsV_of_setsV rfl (lanes1_eq_ofFn _ _), putsV_of_setsV rfl (lanes1_eq_ofFn _ _), putsV_of_setsV rfl (lanes1_eq_ofFn _ _),
      putsV_of_setsV rfl (lanes1_eq_ofFn _ _)⟩
    · rw [h]; rfl
    · exact stripNat_packStrip (fun h0 => h (BitVec.eq_of_toNat_eq h0)) hfmt _ _
  case estimates =>
    obtain ⟨hnan, hzero, hneg⟩ := estimateCorners x
    refine ⟨hnan, hzero, fun h => h ▸ ⟨rfl, rfl⟩, fun h => h ▸ ⟨rfl, rfl⟩, hneg, fun p hp h0 => ?_, fun p hp h0 => ?_⟩
    · obtain ⟨m, e, hx, hv⟩ := Num.ofBits_of_value hp
      have hm : m ≠ 0 := fun hm => h0 (hv ▸ Num.value_fin_eq_zero.2 hm)
      obtain ⟨hlog, hlow, hhigh⟩ := reciprocal_between hm (Num.ofBits_ranges hx).2.1 e
      rw [← hv, abs_value_fin, rcpe_of_fin hx hm, ← ofNat_signBit_inf, ← ofNat_signBit]
      obtain ⟨hsmall, hlarge, hmid⟩ := estimate_of_between x.msb hlog hlow hhigh
      refine ⟨hsmall, hlarge, fun h1 h2 => ?_⟩
      obtain ⟨k, f, hk, hk', hle, hlt, hval⟩ := hmid h1 h2
      exact ⟨k, f, hk, hk', hle, hlt, sgn_eq_ite_mul _ k ▸ hval⟩
    · obtain ⟨m, e, hm, hx, rfl⟩ := Num.ofBits_of_value_pos hp h0
      exact value_rsqe hx hm
  case gcomp =>
    refine ⟨gcompOf_infinite, fun h => ⟨gcompScale _, gcompScale_zero, fun k => gcompScale_of_largest, gcompOf_finite h⟩⟩

end Sys2Proof.Machine
end

section
/-! Operands and frames (R57, R123, R130-R133): what pops leave of parked bits, how a stream or a link makes an instruction
wait or trap, and what an instruction with one destination leaves unchanged. -/
namespace Sys2Proof.Machine

-- One proof after another: the threads of many proofs at once do not fit the memory of the check.
set_option Elab.async false

/-! ### A removed entry -/

theorem FMap.find?_eq_get {V : Type} (m : FMap V) (k : Nat) : FMap.find? m k = FMap.get none (m.map (Prod.map id some)) k := by
  induction m with
  | nil => rfl
  | cons p m ih => simp [FMap.find?, FMap.get, ih]

theorem FMap.del_map {V W : Type} (f : V → W) (m : FMap V) (k : Nat) :
    FMap.del (m.map (Prod.map id f)) k = (FMap.del m k).map (Prod.map id f) := by
  induction m with
  | nil => rfl
  | cons p m ih =>
    obtain ⟨j, v⟩ := p
    simp only [List.map_cons, Prod.map, id, FMap.del]
    split
    · rw [List.dropWhile_map]
      rfl
    · split
      · rfl
      · rw [List.map_cons, ← ih]
        rfl

@[simp] theorem FMap.find?_del_self {V : Type} (m : FMap V) (k : Nat) : FMap.find? (FMap.del m k) k = none := by
  rw [FMap.find?_eq_get, ← FMap.del_map, FMap.get_del_self]

@[simp] theorem FMap.find?_del_other {V : Type} (m : FMap V) {k j : Nat} (h : j ≠ k) :
    FMap.find? (FMap.del m k) j = FMap.find? m j := by
  rw [FMap.find?_eq_get, ← FMap.del_map, FMap.get_del_other _ _ _ _ h, ← FMap.find?_eq_get]

/-! ### Parked bits (R133) -/

section Parked
variable (t : CoreT) (l : List Reg)

theorem CoreT.unpark_foldl_sup (h : t.fir1 ≠ none) : l.foldl (fun t r => t.unpark r) t = t := by
  have hsup : t.fir1.isSome = true := Option.isSome_iff_ne_none.2 h
  induction l with
  | nil => rfl
  | cons r l ih => rw [List.foldl_cons, CoreT.unpark, if_pos hsup, ih]

/-- Reads of a list of registers clear their parked bits. -/
theorem CoreT.unpark_foldl (h : t.fir1 = none) : l.foldl (fun t r => t.unpark r) t =
    { t with park := l.foldl (fun p r => FMap.del p r.toNat) t.park } := by
  induction l generalizing t with
  | nil => rfl
  | cons r l ih => 
    have hunpark : t.unpark r = { t with park := FMap.del t.park r.toNat } := by rw [CoreT.unpark, h]; rfl
    rw [List.foldl_cons, List.foldl_cons, hunpark]
    exact ih { t with park := FMap.del t.park r.toNat } h

theorem FMap.find?_foldl_del {V : Type} (m : FMap V) (q : Nat) : FMap.find? (l.foldl (fun p r => FMap.del p r.toNat) m) q =
    if q ∈ l.map (fun (r : Reg) => r.toNat) then none else FMap.find? m q := by
  induction l generalizing m with
  | nil => simp
  | cons r l ih =>
    rw [List.foldl_cons, ih]
    by_cases hq : q = r.toNat
    · subst hq
      simp
    · simp [hq]

end Parked

/-! ### Operands that name no stream and no link (R32, R123) -/

theorem allOk_eq_ok {f : Nat → Res Unit} {l : List Nat} (h : ∀ k ∈ l, f k = .ok ()) : allOk f l = .ok () := by
  induction l with
  | nil => rfl
  | cons k l ih =>
    rw [List.forall_mem_cons] at h
    rw [allOk, h.1]
    exact ih h.2

section Unbound
variable {t : CoreT} {k : Nat}

theorem CoreT.writable_of_unbound (h : t.bound k = none) : t.writable k = .ok () := by
  rw [CoreT.writable, h]; rfl

theorem CoreT.readable_of_unbound (h : t.bound k = none) : t.readable k = .ok () := by
  rw [CoreT.readable, h]

theorem CoreT.popKey_of_unbound (h : t.bound k = none) : t.popKey k = t := by
  rw [CoreT.popKey, h]

theorem CoreT.popKey_foldl_of_unbound {l : List Nat} (h : ∀ k ∈ l, t.bound k = none) :
    l.foldl (fun t k => t.popKey k) t = t := by
  induction l with
  | nil => rfl
  | cons k l ih =>
    rw [List.forall_mem_cons] at h
    rw [List.foldl_cons, CoreT.popKey_of_unbound h.1, ih h.2]

theorem CoreT.popLines_of_unbound {u : Use} (h : ∀ k ∈ keysOf u.rg u.rv, t.bound k = none) : t.popLines u = [] := by
  rw [CoreT.popLines, List.flatMap_eq_nil_iff]
  intro k hk
  rw [h k (List.mem_dedup.1 hk)]

theorem State.notePops_of_unbound {s : State} {u : Use} (h : ∀ k ∈ keysOf u.rg u.rv, s.t.bound k = none) :
    s.notePops u = s := by
  rw [State.notePops, CoreT.popLines_of_unbound h]; rfl

end Unbound

theorem State.linkRoom_zero (s : State) (west : Bool) : s.linkRoom west 0 = true := rfl

/-- An instruction that names no bound register and no link is ready. -/
theorem State.ready_of_unbound {s : State} {u : Use} (h : ∀ k ∈ keysOf u.wg u.wv ++ keysOf u.rg u.rv, s.t.bound k = none)
    (hw : u.west = false) (he : u.east = false) (hw' : 16#5 ∉ u.wv) (he' : 17#5 ∉ u.wv) : s.ready u = .ok () := by
  have hwrite : allOk s.t.writable (keysOf u.wg u.wv) = .ok () :=
    allOk_eq_ok fun k hk => CoreT.writable_of_unbound (h k (List.mem_append_left _ hk))
  have hread : allOk s.t.readable (keysOf u.rg u.rv) = .ok () :=
    allOk_eq_ok fun k hk => CoreT.readable_of_unbound (h k (List.mem_append_right _ hk))
  have hpush : u.pushes true = 0 ∧ u.pushes false = 0 := by
    simp [Use.pushes, hw, he, List.count_eq_zero_of_not_mem hw', List.count_eq_zero_of_not_mem he', b2n]
  simp [State.ready, hwrite, hread, hw, he, hpush, State.linkRoom_zero, bind, Except.bind]

/-- Its operands taken, only the parked bits of the general registers that it reads have changed. -/
theorem State.take_of_unbound {s : State} {u : Use} (h : ∀ k ∈ keysOf u.rg u.rv, s.t.bound k = none)
    (hw : u.west = false) (he : u.east = false) : ∃ p, (s.take u = s.updT fun t => { t with park := p }) ∧
      ∀ q, FMap.find? p q = if s.t.fir1 = none ∧ q ∈ keysOf u.rg [] then none else FMap.find? s.t.park q := by
  have hkeys : keysOf u.rg [] = u.rg.map fun (r : Reg) => r.toNat := List.append_nil _
  have hunpark : ∃ p, u.rg.foldl (fun t r => t.unpark r) s.t = { s.t with park := p } ∧
      ∀ q, FMap.find? p q = if s.t.fir1 = none ∧ q ∈ keysOf u.rg [] then none else FMap.find? s.t.park q := by
    rw [hkeys]
    by_cases hf : s.t.fir1 = none
    · exact ⟨_, CoreT.unpark_foldl _ _ hf, fun q => by simp [FMap.find?_foldl_del, hf]⟩
    · exact ⟨s.t.park, CoreT.unpark_foldl_sup _ _ hf, fun q => by simp [hf]⟩
  obtain ⟨p, hp, hfind⟩ := hunpark
  have hbound : ∀ k ∈ (keysOf u.rg u.rv).dedup, ({ s.t with park := p } : CoreT).bound k = none :=
    fun k hk => h k (List.mem_dedup.1 hk)
  have hpopped : s.t.popped u = { s.t with park := p } := by
    rw [CoreT.popped, popT, hp, CoreT.popKey_foldl_of_unbound hbound, hw, he]
    rfl
  refine ⟨p, ?_, hfind⟩
  rw [State.take_eq, State.notePops_of_unbound h, hw, he, Bool.and_false]
  exact congrArg (fun t => s.putMe { s.me with t := t }) hpopped

/-! ### Streams that end, run dry or hold an element (R130) -/

/-- A wait outside a masked window leaves the instruction where it is. -/
theorem finish_wait {s : State} {m : Bool} (h : s.t.maskOpen = false) : finish s (.error (.wait m)) = .next s.stall := by
  rw [finish, h, Bool.and_false]; rfl

/-- An instruction whose operands are not ready ends as their check does. -/
theorem exec_not_ready {i : Instr} {s : State} {f : State → Res State} {e : Stop} (hi : exec i s = finish s (s.doing (useOf i) f))
    (h : s.ready (useOf i) = .error e) : exec i s = finish s (.error e) := by
  rw [hi, State.doing_error f h]

section Adds
variable {s : State} {d a b : Reg} {x : Stream}

theorem ready_add_dest (hd : s.t.bound d.toNat = some x) : s.ready (useOf (.add d a b)) = fault .streamUnbound d.toNat := by
  simp [State.ready, useOf.eq_def, keysOf, allOk, CoreT.writable, hd, fault, bind, Except.bind]

/-- With its destination unbound, the readiness of the first operand stands where it fails. -/
theorem ready_add_source {e : Stop} (hd : s.t.bound d.toNat = none) (ha : s.t.readable a.toNat = .error e) :
    s.ready (useOf (.add d a b)) = .error e := by
  simp [State.ready, useOf.eq_def, keysOf, allOk, CoreT.writable, hd, ha, bind, Except.bind]

theorem readable_ended (ha : s.t.bound a.toNat = some x) (hs : x.staged = []) (hx : x.total ≤ x.popped) :
    s.t.readable a.toNat = fault .streamUnbound a.toNat := by
  simp [CoreT.readable, ha, hs, hx]

theorem readable_dry (ha : s.t.bound a.toNat = some x) (hs : x.staged = []) (hx : x.popped < x.total) :
    s.t.readable a.toNat = .error (.wait true) := by
  simp [CoreT.readable, ha, hs, hx]

/-- An add of the next element of a stream to a register. -/
theorem add_of_stream {e : Elem} {r : List Elem} (hd : s.t.bound d.toNat = none) (ha : s.t.bound a.toNat = some x)
    (hb : s.t.bound b.toNat = none) (hs : x.staged = e :: r) (he : e.bad = none) :
    Puts (.add d a b) s d (word e.val + s.gIn b) ∧ s.ready (useOf (.add d a b)) = .ok () := by
  have hread : s.t.readable a.toNat = .ok () := by simp [CoreT.readable, ha, hs, he]
  have hval : s.gIn a = word e.val := by simp [State.gIn, CoreT.gIn, ha, hs]
  refine ⟨puts_of_setsG rfl (by rw [hval]), ?_⟩
  simp [State.ready, useOf.eq_def, keysOf, allOk, CoreT.writable_of_unbound hd, hread, CoreT.readable_of_unbound hb, Use.west,
    Use.east, Use.pushes, b2n, State.linkRoom_zero, bind, Except.bind]

end Adds

/-! ### Links (R132) -/

section Links
variable {s : State} {d : Reg} {west : Bool} {fwd : BitVec 1}

/-- The field of a link: lw or le. -/
def linkReg (west : Bool) : Reg := if west then 16#5 else 17#5

/-- The queue of a link. -/
def CoreT.link (t : CoreT) (west : Bool) : List VReg := if west then t.linkW else t.linkE

theorem vIn_link (hb : s.t.bound (32 + (linkReg west).toNat) = none) : s.vIn (linkReg west) = (s.t.link west).headD VReg.zero := by
  rw [State.vIn, CoreT.vIn, hb]
  cases west <;> rfl

/-- An empty link makes its reader wait. -/
theorem ready_link_empty (hd : s.t.bound (32 + d.toNat) = none) (hb : s.t.bound (32 + (linkReg west).toNat) = none)
    (hq : s.t.link west = []) : s.ready (useOf (.vneg d (linkReg west) fwd)) = .error (.wait true) := by
  cases west
  · have hq' : s.t.linkE = [] := hq
    have hread : s.t.readable 49 = .ok () := CoreT.readable_of_unbound hb
    simp [State.ready, useOf.eq_def, keysOf, allOk, CoreT.writable_of_unbound hd, hread, Use.west, Use.east,
      linkReg, hq', bind, Except.bind]
  · have hq' : s.t.linkW = [] := hq
    have hread : s.t.readable 48 = .ok () := CoreT.readable_of_unbound hb
    simp [State.ready, useOf.eq_def, keysOf, allOk, CoreT.writable_of_unbound hd, hread, Use.west,
      linkReg, hq', bind, Except.bind]

@[simp] theorem CoreT.setV_linkW (t : CoreT) (n : Nat) (x : VReg) : (t.setV n x).linkW = t.linkW := by
  unfold CoreT.setV; split <;> rfl

@[simp] theorem CoreT.setV_linkE (t : CoreT) (n : Nat) (x : VReg) : (t.setV n x).linkE = t.linkE := by
  unfold CoreT.setV; split <;> rfl

/-- A reader of a link alone takes the link's oldest strip. -/
theorem popped_link (t : CoreT) (d : Reg) (west : Bool) (fwd : BitVec 1) :
    (t.popped (useOf (.vneg d (linkReg west) fwd))).link west = (t.link west).drop 1 := by
  have hpop := (popT_popped (useOf (.vneg d (linkReg west) fwd)) t).1
  cases west
  · have he : (useOf (.vneg d (linkReg false) fwd)).east = true := rfl
    rw [CoreT.link, CoreT.popped, he]
    rw [hpop]; rfl
  · have hw : (useOf (.vneg d (linkReg true) fwd)).west = true := rfl
    rw [CoreT.link, CoreT.popped, hw]
    rw [hpop]; rfl

theorem putV_register_t (s : State) {d : Reg} (x : VReg) (hd : d ∉ [16#5, 17#5]) : (s.putV d x).t = s.t.setV d.toNat x := by
  have h16 : d ≠ 16#5 := fun h => hd (by simp [h])
  have h17 : d ≠ 17#5 := fun h => hd (by simp [h])
  rw [State.putV, if_neg h16, if_neg h17, State.updT_t]

/-- VNEG of a link's oldest strip. -/
theorem vneg_of_link {x : VReg} {l : List VReg} (hd : d ∉ [16#5, 17#5]) (hb : s.t.bound (32 + (linkReg west).toNat) = none)
    (hq : s.t.link west = x :: l) (hr : s.ready (useOf (.vneg d (linkReg west) fwd)) = .ok ()) :
    PutsV (.vneg d (linkReg west) fwd) s d (Vector.ofFn fun k => x[k] ^^^ 0x80000000#32) ∧
    ∃ t, exec (.vneg d (linkReg west) fwd) s = .next t ∧ t.t.link west = l := by
  have hx : s.vIn (linkReg west) = x := by rw [vIn_link hb, hq]; rfl
  have hputs : PutsV (.vneg d (linkReg west) fwd) s d (lanes1 fnegBits (s.vIn (linkReg west))) := putsV_of rfl
  refine ⟨?_, _, hputs hr, ?_⟩
  · rw [← lanes1_fnegBits, ← hx]
    exact hputs
  · have hlink (t : CoreT) (n : Nat) (x : VReg) : (t.setV n x).link west = t.link west := by
      cases west <;> simp [CoreT.link]
    rw [putV_register_t _ _ hd, State.take_t, hlink, popped_link, hq]
    rfl

end Links

/-- Settles O11: readiness by what a register is bound to and what a link holds, and pops by what they leave of parked bits. -/
theorem streamOperands : Obligations.StreamOperands := by
  unfold Obligations.StreamOperands
  refine ⟨fun s u h hw he hw' he' => ?unbound, fun s d a b x => ⟨fun hd => ?dest, fun hd ha hs hx => ?ended,
    fun hd ha hs hx hm => ?dry, fun hd ha hb e r hs he => add_of_stream hd ha hb hs he⟩, fun s d west fwd hd hbd hba => ?links⟩
  case unbound =>
    exact ⟨State.ready_of_unbound h hw he hw' he', State.take_of_unbound (fun k hk => h k (List.mem_append_right _ hk)) hw he⟩
  case dest => exact exec_not_ready rfl (ready_add_dest hd)
  case ended => exact exec_not_ready rfl (ready_add_source hd (readable_ended ha hs hx))
  case dry => exact (exec_not_ready rfl (ready_add_source hd (readable_dry ha hs hx))).trans (finish_wait hm)
  case links =>
    refine ⟨fun x l hq hr => ?_, fun hq hm => ?_⟩
    · obtain ⟨hputs, t, ht, hl⟩ := vneg_of_link (west := west) hd hba hq hr
      exact ⟨hputs, t, ht, hl⟩
    · exact (exec_not_ready rfl (ready_link_empty (west := west) hbd hba hq)).trans (finish_wait hm)

end Sys2Proof.Machine
end

section
/-! Frames (R57, R132): an instruction with one destination is that register's write after its pops, whatever the word, and
a vector field's write leaves what a general register's does. -/
namespace Sys2Proof.Machine

-- One proof after another: the threads of many proofs at once do not fit the memory of the check.
set_option Elab.async false

/-- An instruction of the first list puts some word into its register. -/
theorem exists_puts_of_regDest {i : Instr} {d : Reg} (h : regDest i = some d) (s : State) : ∃ w, Puts i s d w := by
  cases i <;> simp only [regDest.eq_def, Option.some.injEq, reduceCtorEq] at h
  all_goals
    subst h
    exact ⟨_, puts_of rfl⟩

/-- An instruction of the second list puts some strip into its vector field. -/
theorem exists_putsV_of_vecDest {i : Instr} {d : Reg} (h : vecDest i = some d) (s : State) : ∃ x, PutsV i s d x := by
  cases i <;> simp only [vecDest.eq_def, Option.some.injEq, reduceCtorEq] at h
  all_goals
    subst h
    exact ⟨_, putsV_of rfl⟩

/-! ### What a vector field's write leaves (R132) -/

/-- The tentative part after a vector field's write: an edge takes the strip elsewhere. -/
def CoreT.putV (t : CoreT) (d : Reg) (x : VReg) : CoreT := if d = 16#5 ∨ d = 17#5 then t else t.setV d.toNat x

theorem CoreT.putV_eq (t : CoreT) (d : Reg) (x : VReg) : t.putV d x = { t with v := (t.putV d x).v } := by
  unfold CoreT.putV CoreT.setV
  split
  · rfl
  · split <;> rfl

theorem CoreT.putV_v_other (t : CoreT) (d : Reg) (x : VReg) {n : Nat} (hn : n < 16) (hd : n ≠ d.toNat) :
    (t.putV d x).v[n] = t.v[n] := by
  unfold CoreT.putV CoreT.setV
  split
  · rfl
  · split
    · next hd16 => exact Vector.getElem_set_ne hd16 hn (Ne.symm hd)
    · rfl

/-- A vector field's write after pops: the tentative part, and the open chunk with the strips pushed. -/
theorem State.putV_me {s : State} {k : Core} {ls : List Nat} {t : CoreT} {o : Option Chunk} (d : Reg) (x : VReg)
    (hme : s.me = { k with t := t, chunk := o }) (ht : t.tr = k.t.tr) (h : ChunkRel k ls o) :
    ∃ o', (s.putV d x).me = { k with t := t.putV d x, chunk := o' } ∧ ChunkRel k ls o' ∧ (d.toNat < 16 → o' = o) := by
  unfold State.putV CoreT.putV
  by_cases h16 : d = 16#5
  · rw [if_pos h16, if_pos (.inl h16)]
    exact ⟨_, State.pushStrip_me hme _ _, h.push ht _, fun hd => absurd hd (h16 ▸ by decide)⟩
  · by_cases h17 : d = 17#5
    · rw [if_neg h16, if_pos h17, if_pos (.inr h17)]
      exact ⟨_, State.pushStrip_me hme _ _, h.push ht _, fun hd => absurd hd (h17 ▸ by decide)⟩
    · rw [if_neg h16, if_neg h17, if_neg (not_or.2 ⟨h16, h17⟩)]
      refine ⟨o, ?_, h, fun _ => rfl⟩
      rw [State.updT_me, State.t, hme]

theorem State.vframe (s : State) (u : Use) (d : Reg) (x : VReg) : VFrame u d s ((s.take u).putV d x) := by
  obtain ⟨hpop, hg, hv, _⟩ := popT_popped u s.t
  obtain ⟨o, hme, hrel, hsame⟩ := State.take_me s u
  obtain ⟨o', hme', hrel', hsame'⟩ := State.putV_me d x hme (CoreT.popped_tr s.t u) hrel
  have helse : ElsewhereSame s ((s.take u).putV d x) := ElsewhereSame.trans (State.take_else s u) (State.putV_else _ d x)
  have ht : ((s.take u).putV d x).t = (s.t.popped u).putV d x := by rw [State.t, hme']
  have hput := CoreT.putV_eq (s.t.popped u) d x
  refine ⟨helse, fun a => ?mem, ?me, ?chunk, fun hf hd hp => ?same, ?part, fun q hb => ?general, fun n hn hd hb => ?vector,
    fun hw => ?west, fun he => ?east⟩
  case mem => unfold State.byte; rw [helse.1]
  case me => rw [ht, hme']
  case chunk =>
    unfold ChunkSame
    rw [hme']
    exact hrel'
  case same =>
    rw [hme']
    exact (hsame' hd).trans (hsame hf hp)
  case part =>
    rw [ht, hput]
    unfold CoreT.popped
    rw [hpop]
  case general =>
    rw [ht, hput]
    exact hg q hb
  case vector =>
    simp only [ht]
    rw [CoreT.putV_v_other _ _ _ hn hd]
    exact hv n hn hb
  case west =>
    rw [ht, hput]
    unfold CoreT.popped
    rw [hpop, hw]
    rfl
  case east =>
    rw [ht, hput]
    unfold CoreT.popped
    rw [hpop, he]
    rfl

/-- Settles O12: the frame of a register's write after pops, for every instruction of the two lists. -/
theorem plainFrames : Obligations.PlainFrames := by
  unfold Obligations.PlainFrames
  refine ⟨fun i d s hi hr => ?_, fun i d s hi hr => ?_⟩
  · obtain ⟨w, hw⟩ := exists_puts_of_regDest hi s
    exact ⟨_, hw hr, State.gframe s (useOf i) d w⟩
  · obtain ⟨x, hx⟩ := exists_putsV_of_vecDest hi s
    exact ⟨_, hx hr, State.vframe s (useOf i) d x⟩

end Sys2Proof.Machine
end

section
/-! Core accesses, loads and vector memory (R180, R184-R186): an access fails at its first failing check, a faulting access
traps its instruction, and a load or a slot move is what its accesses find. -/
namespace Sys2Proof.Machine

-- One proof after another: the threads of many proofs at once do not fit the memory of the check.
set_option Elab.async false

/-! ### Effects behind an access -/

/-- Behind a step that succeeds, the effect is what follows with its result. -/
theorem bind_passes {α : Type} {r : Res α} {f : α → Res State} {x : α} (h : r = .ok x) : (do let y ← r; f y) = f x := by
  rw [h]; rfl

/-- Behind a step that fails, nothing of the effect is left (R57). -/
theorem bind_stops {α : Type} {r : Res α} {f : α → Res State} {e : Stop} (h : r = .error e) :
    (do let y ← r; f y) = .error e := by
  rw [h]; rfl

/-! ### The checks of R180 in their order -/

theorem ite_fault_eq_ok {α : Type} {b : Prop} [Decidable b] {c : Cause} {v : Nat} {r : Res α} {x : α} :
    (if b then fault c v else r) = .ok x ↔ ¬b ∧ r = .ok x := by
  split <;> simp_all [fault]

/-- The checks behind the translation's permissions: what the address names, alignment, the mailbox, the reserve, errors that
cannot be corrected, the watchpoint. -/
def State.accessAt (s : State) (p : Leaf) (ea size : Nat) (kind : Kind) : Res Acc :=
  let dev := p.base + ea % 2 ^ p.size
  let l := s.locate dev
  let d := descOf s.winsIn l
  if l = .hbm && !isMemCore s.cur then fault .noDramPath ea else
  match windowCheck d l size with
  | some c => fault c ea
  | none =>
    if dev % size ≠ 0 then fault .misaligned ea
    else if kind ≠ .read && inMailbox d l size then fault .protWrite ea
    else if s.inReserve d l size then fault (if kind = .read then .protRead else .protWrite) ea
    else if kind ≠ .write && s.poisoned d l dev size then fault .spadUncorrectable ea
    else
      match s.t.watchHit ea size kind with
      | some i => fault .watchData (ea + i)
      | none => .ok ⟨ea, dev, size, p, l⟩

section Translated
variable {s : State} {ea size : Nat} {kind : Kind} {p : Leaf}

/-- What an access does behind its translation. -/
theorem State.access_translated (h48 : ea < 2 ^ 48) (ht : s.translate s.cur s.myPart ea = some p) :
    s.access ea size kind =
      if !s.t.sup && !p.u then fault (if kind = .write then .protWrite else .protRead) ea
      else if kind ≠ .write && !p.r then fault .protRead ea
      else if kind ≠ .read && !p.w then fault .protWrite ea
      else s.accessAt p ea size kind := by
  rw [State.access, State.accessBy, if_neg (Nat.not_le.2 h48), ht]
  rfl

/-- With a translation that permits it, an access is decided by what it names. -/
theorem State.access_permitted (h48 : ea < 2 ^ 48) (ht : s.translate s.cur s.myPart ea = some p)
    (hu : (s.t.sup || p.u) = true) (hr : kind = .write ∨ p.r = true) (hw : kind = .read ∨ p.w = true) :
    s.access ea size kind = s.accessAt p ea size kind := by
  have hu' : (!s.t.sup && !p.u) = false := by rw [← Bool.not_or, hu]; rfl
  have hr' : (decide (kind ≠ .write) && !p.r) = false := by rcases hr with h | h <;> simp [h]
  have hw' : (decide (kind ≠ .read) && !p.w) = false := by rcases hw with h | h <;> simp [h]
  rw [State.access_translated h48 ht, hu', hr', hw']
  rfl

/-- An access that completes has its own address and size, and has passed its window's check. -/
theorem State.access_ok {x : Acc} (h : s.access ea size kind = .ok x) :
    x.ea = ea ∧ x.size = size ∧ windowCheck (descOf s.winsIn x.loc) x.loc size = none ∧ x.dev % size = 0 := by
  rw [State.access, State.accessBy, ite_fault_eq_ok] at h
  obtain ⟨_, h⟩ := h
  cases ht : s.translate s.cur s.myPart ea with
  | none =>
    rw [ht] at h
    cases h
  | some p =>
    rw [ht] at h
    simp only [ite_fault_eq_ok, Bool.false_and, Bool.false_eq_true, if_false] at h
    obtain ⟨_, _, _, _, h⟩ := h
    cases hw : windowCheck (descOf s.winsIn (s.locate (p.base + ea % 2 ^ p.size))) (s.locate (p.base + ea % 2 ^ p.size)) size with
    | some c =>
      rw [hw] at h
      cases h
    | none =>
      rw [hw] at h
      simp only [ite_fault_eq_ok] at h
      obtain ⟨hdev, _, _, _, h⟩ := h
      split at h
      · cases h
      · obtain rfl := Except.ok.inj h
        exact ⟨rfl, rfl, hw, not_not.1 hdev⟩

/-! ### What the checks answer, each behind those before it -/

section Placed
variable {c : Cause}

theorem State.accessAt_dram (hl : s.locate (p.base + ea % 2 ^ p.size) = .hbm) (hm : isMemCore s.cur = false) :
    s.accessAt p ea size kind = fault .noDramPath ea := by
  simp [State.accessAt, hl, hm]

/-- The window's check fails. -/
theorem State.accessAt_window (hl : s.locate (p.base + ea % 2 ^ p.size) ≠ .hbm)
    (hc : windowCheck (descOf s.winsIn (s.locate (p.base + ea % 2 ^ p.size))) (s.locate (p.base + ea % 2 ^ p.size)) size = some c) :
    s.accessAt p ea size kind = fault c ea := by
  simp [State.accessAt, hl, hc]

variable (hl : s.locate (p.base + ea % 2 ^ p.size) = .hbm → isMemCore s.cur = true)
  (hc : windowCheck (descOf s.winsIn (s.locate (p.base + ea % 2 ^ p.size))) (s.locate (p.base + ea % 2 ^ p.size)) size = none)
include hl hc

/-- What follows the window's check. -/
theorem State.accessAt_checked : s.accessAt p ea size kind =
    let dev := p.base + ea % 2 ^ p.size
    let l := s.locate dev
    let d := descOf s.winsIn l
    if dev % size ≠ 0 then fault .misaligned ea
    else if kind ≠ .read && inMailbox d l size then fault .protWrite ea
    else if s.inReserve d l size then fault (if kind = .read then .protRead else .protWrite) ea
    else if kind ≠ .write && s.poisoned d l dev size then fault .spadUncorrectable ea
    else
      match s.t.watchHit ea size kind with
      | some i => fault .watchData (ea + i)
      | none => .ok ⟨ea, dev, size, p, l⟩ := by
  have hl' : (decide (s.locate (p.base + ea % 2 ^ p.size) = .hbm) && !isMemCore s.cur) = false := by
    rw [Bool.and_eq_false_imp, decide_eq_true_iff]
    exact fun h => by rw [hl h]; rfl
  rw [State.accessAt]
  simp only [hl', hc]
  rfl

theorem State.accessAt_misaligned (h : (p.base + ea % 2 ^ p.size) % size ≠ 0) : s.accessAt p ea size kind = fault .misaligned ea := by
  rw [State.accessAt_checked hl hc]
  exact if_pos h

variable (ha : (p.base + ea % 2 ^ p.size) % size = 0)
include ha

theorem State.accessAt_mailbox (hk : kind ≠ .read)
    (hm : inMailbox (descOf s.winsIn (s.locate (p.base + ea % 2 ^ p.size))) (s.locate (p.base + ea % 2 ^ p.size)) size = true) :
    s.accessAt p ea size kind = fault .protWrite ea := by
  rw [State.accessAt_checked hl hc]
  simp [ha, hk, hm]

variable (hm : kind = .read ∨ inMailbox (descOf s.winsIn (s.locate (p.base + ea % 2 ^ p.size))) (s.locate (p.base + ea % 2 ^ p.size)) size = false)
include hm

theorem State.accessAt_reserve
    (hr : s.inReserve (descOf s.winsIn (s.locate (p.base + ea % 2 ^ p.size))) (s.locate (p.base + ea % 2 ^ p.size)) size = true) :
    s.accessAt p ea size kind = fault (if kind = .read then .protRead else .protWrite) ea := by
  have hm' : (decide (kind ≠ .read) && inMailbox (descOf s.winsIn (s.locate (p.base + ea % 2 ^ p.size)))
      (s.locate (p.base + ea % 2 ^ p.size)) size) = false := by
    rcases hm with h | h <;> simp [h]
  rw [State.accessAt_checked hl hc]
  simp only [ha, hm', hr]
  rfl

theorem State.accessAt_poisoned (hk : kind ≠ .write)
    (hr : s.inReserve (descOf s.winsIn (s.locate (p.base + ea % 2 ^ p.size))) (s.locate (p.base + ea % 2 ^ p.size)) size = false)
    (hp : s.poisoned (descOf s.winsIn (s.locate (p.base + ea % 2 ^ p.size))) (s.locate (p.base + ea % 2 ^ p.size))
      (p.base + ea % 2 ^ p.size) size = true) : s.accessAt p ea size kind = fault .spadUncorrectable ea := by
  have hm' : (decide (kind ≠ .read) && inMailbox (descOf s.winsIn (s.locate (p.base + ea % 2 ^ p.size)))
      (s.locate (p.base + ea % 2 ^ p.size)) size) = false := by
    rcases hm with h | h <;> simp [h]
  rw [State.accessAt_checked hl hc]
  simp only [ha, hm', hr, hp, decide_eq_true hk]
  rfl

end Placed
end Translated

/-- A byte of an access that cannot be corrected. -/
theorem State.poisoned_of_span {s : State} {d : Word} {b z w o dev size : Nat}
    (h : ∃ a ∈ s.poison, b + (rawSpan d w o size).1 ≤ a ∧ a < b + (rawSpan d w o size).1 + (rawSpan d w o size).2) :
    s.poisoned d (.pad b z w o) dev size = true := by
  obtain ⟨a, ha, hlow, hhigh⟩ := h
  have hne : s.poison.isEmpty = false := List.isEmpty_eq_false_iff_exists_mem.2 ⟨a, ha⟩
  simp only [State.poisoned, hne, Bool.not_false, Bool.true_and, List.any_eq_true]
  exact ⟨a, ha, by simp [hlow, hhigh]⟩

theorem State.poisoned_hbm {s : State} {d : Word} {dev size : Nat} (h : ∃ a ∈ s.poison, dev ≤ a ∧ a < dev + size) :
    s.poisoned d .hbm dev size = true := by
  obtain ⟨a, ha, hlow, hhigh⟩ := h
  have hne : s.poison.isEmpty = false := List.isEmpty_eq_false_iff_exists_mem.2 ⟨a, ha⟩
  simp only [State.poisoned, hne, Bool.not_false, Bool.true_and, List.any_eq_true]
  exact ⟨a, ha, by simp [hlow, hhigh]⟩

end Sys2Proof.Machine
end

section
/-! Loads, vector memory and the order of an access's checks (R69, R180, R184-R186). -/
namespace Sys2Proof.Machine

-- One proof after another: the threads of many proofs at once do not fit the memory of the check.
set_option Elab.async false

/-! ### The checks of an element window (R69) -/

section Windows
variable {d : Word} {b z w o size : Nat} (hw : w ≠ 0)
include hw

theorem windowCheck_invalid (hv : wValid d = false) : windowCheck d (.pad b z w o) size = some .windowUndefined := by
  simp [windowCheck, hw, hv]

theorem windowCheck_beyond (hv : wValid d = true) (hlast : 8 * z / fmtWidth (wFmt d) ≤ o / 4) :
    windowCheck d (.pad b z w o) size = some .windowUndefined := by
  simp [windowCheck, hw, hv, hlast]

theorem windowCheck_size (hv : wValid d = true) (hlast : o / 4 < 8 * z / fmtWidth (wFmt d)) (hs : size ≠ 4) :
    windowCheck d (.pad b z w o) size = some .misaligned := by
  simp [windowCheck, hw, hv, Nat.not_le.2 hlast, hs]

theorem windowCheck_element (hv : wValid d = true) (hlast : o / 4 < 8 * z / fmtWidth (wFmt d)) :
    windowCheck d (.pad b z w o) 4 = none := by
  simp [windowCheck, hw, hv, Nat.not_le.2 hlast]

theorem descOf_window (wins : FMap Word) : descOf wins (.pad b z w o) = FMap.get 0 wins (windowKey b z w) := if_neg hw

end Windows

theorem inMailbox_eq_false {d : Word} {b z w o size : Nat}
    (h : z = 0x20000 → (rawSpan d w o size).1 + (rawSpan d w o size).2 ≤ 0x1C000) : inMailbox d (.pad b z w o) size = false := by
  by_cases hz : z = 0x20000
  · simpa [inMailbox, hz] using h hz
  · simp [inMailbox, hz]

theorem inMailbox_eq_true {d : Word} {b z w o size : Nat} (hz : z = 0x20000)
    (h : 0x1C000 < (rawSpan d w o size).1 + (rawSpan d w o size).2) : inMailbox d (.pad b z w o) size = true := by
  simpa [inMailbox, hz] using h

/-- A read, or no byte of the mailbox. -/
theorem read_or_outside_mailbox {d : Word} {b z w o size : Nat} {kind : Kind}
    (h : z = 0x20000 → (kind = .read ∨ (rawSpan d w o size).1 + (rawSpan d w o size).2 ≤ 0x1C000)) :
    kind = .read ∨ inMailbox d (.pad b z w o) size = false := by
  by_cases hk : kind = .read
  · exact .inl hk
  · exact .inr (inMailbox_eq_false fun hz => (h hz).resolve_left hk)

/-! ### Accesses by what they name -/

section Named
variable {s : State} {ea size : Nat} {kind : Kind} {p : Leaf} {b z w o : Nat}

/-- An access to an element window, check by check (R69). -/
theorem accessAt_element (hloc : s.locate (p.base + ea % 2 ^ p.size) = .pad b z w o) (hw : w ≠ 0) :
    let d := FMap.get 0 s.winsIn (windowKey b z w)
    let last := 8 * z / fmtWidth (wFmt d)
    let dev := p.base + ea % 2 ^ p.size
    (wValid d = false → s.accessAt p ea size kind = fault .windowUndefined ea) ∧
    (wValid d = true → last ≤ o / 4 → s.accessAt p ea size kind = fault .windowUndefined ea) ∧
    (wValid d = true → o / 4 < last → (size ≠ 4 ∨ dev % 4 ≠ 0) → s.accessAt p ea size kind = fault .misaligned ea) ∧
    (wValid d = true → o / 4 < last → size = 4 → dev % 4 = 0 → kind ≠ .read → z = 0x20000 →
      0x1C000 < (rawSpan d w o 4).1 + (rawSpan d w o 4).2 → s.accessAt p ea size kind = fault .protWrite ea) ∧
    (wValid d = true → o / 4 < last → size = 4 → dev % 4 = 0 → kind ≠ .write →
      (z = 0x20000 → (kind = .read ∨ (rawSpan d w o 4).1 + (rawSpan d w o 4).2 ≤ 0x1C000)) → s.inReserve d (.pad b z w o) 4 = false →
      (∃ a ∈ s.poison, b + (rawSpan d w o 4).1 ≤ a ∧ a < b + (rawSpan d w o 4).1 + (rawSpan d w o 4).2) →
      s.accessAt p ea size kind = fault .spadUncorrectable ea) := by
  have hhbm : s.locate (p.base + ea % 2 ^ p.size) ≠ .hbm := by simp [hloc]
  have hmem : s.locate (p.base + ea % 2 ^ p.size) = .hbm → isMemCore s.cur = true := fun h => absurd h hhbm
  have hd : descOf s.winsIn (s.locate (p.base + ea % 2 ^ p.size)) = FMap.get 0 s.winsIn (windowKey b z w) := by
    rw [hloc, descOf_window hw]
  refine ⟨fun hv => ?invalid, fun hv hlast => ?beyond, fun hv hlast hs => ?misaligned, fun hv hlast hs ha hk hz hm => ?mailbox,
    fun hv hlast hs ha hk hm hr hp => ?poison⟩
  case invalid => exact State.accessAt_window hhbm (by rw [hd, hloc, windowCheck_invalid hw hv])
  case beyond => exact State.accessAt_window hhbm (by rw [hd, hloc, windowCheck_beyond hw hv hlast])
  case misaligned =>
    by_cases h4 : size = 4
    · subst h4
      exact State.accessAt_misaligned hmem (by rw [hd, hloc, windowCheck_element hw hv hlast]) (hs.resolve_left fun h => h rfl)
    · exact State.accessAt_window hhbm (by rw [hd, hloc, windowCheck_size hw hv hlast h4])
  case mailbox =>
    subst hs
    exact State.accessAt_mailbox hmem (by rw [hd, hloc, windowCheck_element hw hv hlast]) ha hk
      (by rw [hd, hloc, inMailbox_eq_true hz hm])
  case poison =>
    subst hs
    exact State.accessAt_poisoned hmem (by rw [hd, hloc, windowCheck_element hw hv hlast]) ha
      (by rw [hd, hloc]; exact read_or_outside_mailbox hm) hk (by rw [hd, hloc, hr])
      (by rw [hd, hloc]; exact State.poisoned_of_span hp)

/-- An access to the raw bytes of a scratchpad. -/
theorem accessAt_raw (hloc : s.locate (p.base + ea % 2 ^ p.size) = .pad b z 0 o) (ha : (p.base + ea % 2 ^ p.size) % size = 0) :
    (kind ≠ .read → z = 0x20000 → 0x1C000 < o + size → s.accessAt p ea size kind = fault .protWrite ea) ∧
    (z = 0x200000 → s.inReserve 0 (.pad b z 0 o) size = true →
      s.accessAt p ea size kind = fault (if kind = .read then .protRead else .protWrite) ea) ∧
    (kind ≠ .write → (z = 0x20000 → kind = .read ∨ o + size ≤ 0x1C000) → s.inReserve 0 (.pad b z 0 o) size = false →
      (∃ a ∈ s.poison, b + o ≤ a ∧ a < b + o + size) → s.accessAt p ea size kind = fault .spadUncorrectable ea) := by
  have hmem : s.locate (p.base + ea % 2 ^ p.size) = .hbm → isMemCore s.cur = true := by simp [hloc]
  have hd : descOf s.winsIn (s.locate (p.base + ea % 2 ^ p.size)) = 0 := by rw [hloc]; rfl
  have hc : windowCheck (descOf s.winsIn (s.locate (p.base + ea % 2 ^ p.size))) (s.locate (p.base + ea % 2 ^ p.size)) size = none := by
    rw [hloc]; rfl
  refine ⟨fun hk hz hm => ?_, fun hz hr => ?_, fun hk hm hr hp => ?_⟩
  · exact State.accessAt_mailbox hmem hc ha hk (by rw [hd, hloc]; exact inMailbox_eq_true hz hm)
  · refine State.accessAt_reserve hmem hc ha (.inr ?_) (by rw [hd, hloc, hr])
    rw [hd, hloc]
    exact inMailbox_eq_false fun hz' => absurd (hz.symm.trans hz') (by decide)
  · exact State.accessAt_poisoned hmem hc ha (by rw [hd, hloc]; exact read_or_outside_mailbox hm) hk (by rw [hd, hloc, hr])
      (by rw [hd, hloc]; exact State.poisoned_of_span hp)

theorem accessAt_hbm_poison (hloc : s.locate (p.base + ea % 2 ^ p.size) = .hbm) (hm : isMemCore s.cur = true)
    (ha : (p.base + ea % 2 ^ p.size) % size = 0) (hk : kind ≠ .write)
    (hp : ∃ a ∈ s.poison, p.base + ea % 2 ^ p.size ≤ a ∧ a < p.base + ea % 2 ^ p.size + size) :
    s.accessAt p ea size kind = fault .spadUncorrectable ea :=
  State.accessAt_poisoned (fun _ => hm) (by rw [hloc]; rfl) ha (.inr (by rw [hloc]; rfl)) hk (by rw [hloc]; rfl)
    (by rw [hloc]; exact State.poisoned_hbm hp)

end Named

/-! ### Loads and stores that fault (R57, R357) -/

section Faults
variable {i : Instr} {s : State} {ea : Word} {size : Nat} {c : Cause} {v : Word}

theorem loadG_traps {d : Reg} {sg : Bool} (hi : exec i s = loadG i d ea size sg s) (hr : s.ready (useOf i) = .ok ())
    (ha : (s.after i).access ea.toNat size .read = .error (.trap c v false)) : Traps i s c v :=
  traps_of_effect hi hr (bind_stops ha)

theorem storeG_traps {w : Word} (hi : exec i s = storeG i ea size w s) (hr : s.ready (useOf i) = .ok ())
    (ha : (s.after i).access ea.toNat size .write = .error (.trap c v false)) : Traps i s c v :=
  traps_of_effect hi hr (bind_stops ha)

end Faults

/-- Settles O16: the checks by what the address names, and a faulting access behind the pops of its instruction. -/
theorem accesses : Obligations.Accesses := by
  unfold Obligations.Accesses
  refine ⟨fun s ea size kind => ⟨fun h => if_pos h, fun h48 ht => ⟨fun n hn h8 => ?walkPoison, fun n hn h8 => ?walk⟩,
    fun p h48 ht => ⟨fun hs hu => ?user, fun hu => ⟨fun hk hr => ?read, fun hr hk hw => ?write, fun hr hw => ?placed⟩⟩⟩,
    fun s d a b imm c v => ?traps⟩
  case walkPoison =>
    rw [State.access, State.accessBy, if_neg (Nat.not_le.2 h48), ht]
    simp [State.noXlate, hn, h8]
  case walk =>
    rw [State.access, State.accessBy, if_neg (Nat.not_le.2 h48), ht]
    simp [State.noXlate, hn, Nat.not_le.2 h8]
  case user =>
    rw [State.access_translated h48 ht, hs, hu]
    rfl
  case read =>
    have hu' : (!s.t.sup && !p.u) = false := by rw [← Bool.not_or, hu]; rfl
    rw [State.access_translated h48 ht, hu', hr, decide_eq_true hk]
    rfl
  case write =>
    have hu' : (!s.t.sup && !p.u) = false := by rw [← Bool.not_or, hu]; rfl
    have hr' : (decide (kind ≠ .write) && !p.r) = false := by rcases hr with h | h <;> simp [h]
    rw [State.access_translated h48 ht, hu', hr', hw, decide_eq_true hk]
    rfl
  case placed =>
    rw [State.access_permitted h48 ht hu hr hw]
    refine ⟨fun hl hm => State.accessAt_dram hl hm, fun hl => ?nothing, fun hl ha => ?misaligned, fun b z w o hl hw => accessAt_element hl hw,
      fun b z o hl ha => accessAt_raw hl ha, fun hl hm ha hk hp => accessAt_hbm_poison hl hm ha hk hp⟩
    case nothing => exact State.accessAt_window (by simp [hl]) (by rw [hl]; rfl)
    case misaligned =>
      rcases hl with ⟨hl, hm⟩ | ⟨b, z, o, hl⟩
      · exact State.accessAt_misaligned (fun _ => hm) (by rw [hl]; rfl) ha
      · exact State.accessAt_misaligned (by simp [hl]) (by rw [hl]; rfl) ha
  case traps =>
    exact ⟨loadG_traps rfl, loadG_traps rfl, loadG_traps rfl, loadG_traps rfl, loadG_traps rfl, loadG_traps rfl, loadG_traps rfl,
      loadG_traps rfl, loadG_traps rfl, loadG_traps rfl, loadG_traps rfl, loadG_traps rfl, loadG_traps rfl, loadG_traps rfl,
      storeG_traps rfl, storeG_traps rfl, storeG_traps rfl, storeG_traps rfl, storeG_traps rfl, storeG_traps rfl, storeG_traps rfl,
      storeG_traps rfl⟩

end Sys2Proof.Machine
end

section
/-! Loads (R184) and vector memory (R185, R186): what a load extends, and slot moves behind their checks. -/
namespace Sys2Proof.Machine

-- One proof after another: the threads of many proofs at once do not fit the memory of the check.
set_option Elab.async false

/-! ### Bytes as numbers -/

@[simp] theorem length_leBytes (n x : Nat) : (leBytes n x).length = n := by
  induction n generalizing x with
  | zero => rfl
  | succ n ih => rw [leBytes, List.length_cons, ih]

theorem leVal_lt (bs : List Byte) : leVal bs < 2 ^ (8 * bs.length) := by
  induction bs with
  | nil => exact one_pos
  | cons b bs ih =>
    have hb : b.toNat < 2 ^ 8 := b.isLt
    rw [leVal, List.length_cons, Nat.mul_succ, Nat.add_comm (8 * bs.length), Nat.pow_add]
    calc b.toNat + 256 * leVal bs < 2 ^ 8 * (leVal bs + 1) := by omega
      _ ≤ 2 ^ 8 * 2 ^ (8 * bs.length) := Nat.mul_le_mul_left _ ih

theorem length_rawRead (s : State) (x : Acc) : (s.rawRead x).length = x.size := by
  rw [State.rawRead]
  cases x.loc <;> simp [State.seenBytes]

/-! ### What a load extends (R184) -/

theorem signed_eq_toInt {n : Nat} (hn : 0 < n) (x : Nat) : signed n x = (BitVec.ofNat n x).toInt := by
  have hpow : 2 ^ n = 2 * 2 ^ (n - 1) := by rw [← Nat.pow_succ', Nat.succ_eq_add_one, Nat.sub_add_cancel hn]
  rw [signed, BitVec.toInt_eq_toNat_cond, BitVec.toNat_ofNat]
  exact if_congr (by omega) rfl rfl

theorem ofInt_signed {n : Nat} (hn : 0 < n) (x : Nat) : BitVec.ofInt 64 (signed n x) = sx n x :=
  congrArg (BitVec.ofInt 64) (signed_eq_toInt hn x)

theorem word_eq_zx {n x : Nat} (hx : x < 2 ^ n) : word x = zx n x := by
  apply BitVec.eq_of_toNat_eq
  rw [zx, word, BitVec.toNat_ofNat, BitVec.zeroExtend, BitVec.toNat_setWidth, BitVec.toNat_ofNat, Nat.mod_eq_of_lt hx]

section Found
variable {s : State} {ea size : Nat}

/-- An element window takes accesses of 4 bytes alone (R69). -/
theorem access_element_size {kind : Kind} {x : Acc} (h : s.access ea size kind = .ok x) {b z w o : Nat} (hl : x.loc = .pad b z w o)
    (hw : w ≠ 0) : size = 4 := by
  obtain ⟨_, _, hc, _⟩ := State.access_ok h
  by_contra h4
  rw [hl] at hc
  cases hv : wValid (descOf s.winsIn (.pad b z w o)) with
  | false =>
    rw [windowCheck_invalid hw hv] at hc
    cases hc
  | true =>
    by_cases hlast : o / 4 < 8 * z / fmtWidth (wFmt (descOf s.winsIn (.pad b z w o)))
    · rw [windowCheck_size hw hv hlast h4] at hc
      cases hc
    · rw [windowCheck_beyond hw hv (Nat.not_lt.1 hlast)] at hc
      cases hc

variable {x : Acc} (h : s.access ea size .read = .ok x)
include h

/-- A load extends what it finds from its own size. -/
theorem loaded_eq (sg : Bool) :
    s.loaded x sg = if sg then BitVec.ofInt 64 (signed (8 * size) (s.found x)) else word (s.found x) := by
  obtain ⟨_, hsize, _, _⟩ := State.access_ok h
  rw [State.loaded, State.found, hsize]
  cases hl : x.loc with
  | pad b z w o =>
    by_cases hw : w = 0
    · simp only [hw, if_true]
    · obtain rfl := access_element_size h hl hw
      simp only [hw, if_false]
  | hbm | counter _ _ | io _ | nothing => rfl

theorem found_lt : s.found x < 2 ^ (8 * size) := by
  obtain ⟨_, hsize, _, _⟩ := State.access_ok h
  have hraw : leVal (s.rawRead x) < 2 ^ (8 * size) := by
    have := leVal_lt (s.rawRead x)
    rwa [length_rawRead, hsize] at this
  rw [State.found]
  cases hl : x.loc with
  | pad b z w o =>
    by_cases hw : w = 0
    · simpa only [hw, if_true] using hraw
    · obtain rfl := access_element_size h hl hw
      simp only [hw, if_false]
      exact BitVec.isLt _
  | hbm | counter _ _ | io _ | nothing => exact hraw

end Found

section LoadForms
variable {i : Instr} {s : State} {d : Reg} {ea : Word} {size : Nat}

theorem loadG_does {sg : Bool} {x : Acc} (hi : exec i s = loadG i d ea size sg s)
    (ha : (s.after i).access ea.toNat size .read = .ok x) (hg : (s.after i).ioGate x = .ok ()) :
    Does i s ((((s.after i).noteRead x).setG d ((s.after i).loaded x sg)).ioSeal x) :=
  does_of_effect hi ((bind_passes ha).trans (check_passes hg))

/-- The codes without U sign-extend. -/
theorem loadsTo_signed (h0 : 0 < 8 * size) (hi : exec i s = loadG i d ea size true s) : LoadsTo i s ea size d (sx (8 * size)) := by
  intro x ha hg
  have := loadG_does hi ha hg
  rwa [loaded_eq ha, if_pos rfl, ofInt_signed h0] at this

theorem loadsTo_unsigned (hi : exec i s = loadG i d ea size false s) :
    LoadsTo i s ea size d (zx (8 * size)) := by
  intro x ha hg
  have := loadG_does hi ha hg
  rwa [loaded_eq ha, if_neg Bool.false_ne_true, word_eq_zx (found_lt ha)] at this

end LoadForms

/-- Settles O13: every load is its access's finding, extended from the load's size. -/
theorem loads : Obligations.Loads := by
  unfold Obligations.Loads
  intro s d a b imm ea ex
  exact ⟨loadsTo_signed (by decide) rfl, loadsTo_unsigned rfl, loadsTo_signed (by decide) rfl,
    loadsTo_unsigned rfl, loadsTo_signed (by decide) rfl, loadsTo_unsigned rfl,
    loadsTo_unsigned rfl, loadsTo_signed (by decide) rfl, loadsTo_unsigned rfl,
    loadsTo_signed (by decide) rfl, loadsTo_unsigned rfl, loadsTo_signed (by decide) rfl,
    loadsTo_unsigned rfl, loadsTo_unsigned rfl⟩

/-! ### Slots (R185, R186) -/

theorem bits_eq (x hi lo : Nat) : bits x hi lo = x / 2 ^ lo % 2 ^ (hi + 1 - lo) := by
  rw [bits, Nat.shiftRight_eq_div_pow]

section Slots
variable {s : State} {d a b : Reg} {imm : BitVec 12}

theorem loadV_does {i : Instr} {ea align step : Nat} {xs : List Acc} (hi : exec i s = loadV i d ea align step s)
    (ha : ea % align = 0) (hs : (s.after i).slotAccs .read (slotAddrs ea step) = .ok xs) :
    Does i s (((s.after i).noteSlots xs).putV d (stripLanes (xs.map (s.after i).laneIn))) :=
  does_of_effect hi ((check_passes (faultIf_neg (by simp [ha]))).trans (bind_passes hs))

theorem vst_does {xs : List Acc} {t : State} (ha : s.vecBase a imm % 64 = 0)
    (hs : (s.after (.vst d a imm)).slotAccs .write (slotAddrs (s.vecBase a imm) 4) = .ok xs)
    (ht : (s.after (.vst d a imm)).putSlots (xs.zip ((s.vIn d).toList.map Moved.fp32)) = .ok t) : Does (.vst d a imm) s t :=
  does_of_effect rfl ((check_passes (faultIf_neg (by simp [ha]))).trans ((bind_passes hs).trans ht))

/-- TMOV behind its checks of alignment and shape. -/
theorem tmov_does {xs ys : List Acc} {t : State} (hsrc : (s.gIn a).toNat % 64 = 0) (hdst : (s.gIn d).toNat % 64 = 0)
    (hrows : 1 ≤ (s.gIn b).toNat % 64) (hrows' : (s.gIn b).toNat % 64 ≤ 16) (hres : (s.gIn b).toNat / 64 % 1024 = 0)
    (hres' : (s.gIn b).toNat / 2 ^ 48 = 0)
    (hxs : (s.after (.tmov d a b)).slotAccs .read
      (tileAddrs (s.gIn a).toNat (64 * ((s.gIn b).toNat / 2 ^ 16 % 2 ^ 16)) ((s.gIn b).toNat % 64)) = .ok xs)
    (hys : ((s.after (.tmov d a b)).noteSlots xs).slotAccs .write
      (tileAddrs (s.gIn d).toNat (64 * ((s.gIn b).toNat / 2 ^ 32 % 2 ^ 16)) ((s.gIn b).toNat % 64)) = .ok ys)
    (ht : ((s.after (.tmov d a b)).noteSlots xs).putSlots (ys.zip (xs.map (s.after (.tmov d a b)).slotIn)) = .ok t) :
    Does (.tmov d a b) s t := by
  have hshape : ¬(decide (bits (s.gIn b).toNat 5 0 = 0) || decide (bits (s.gIn b).toNat 5 0 > 16)
      || decide (bits (s.gIn b).toNat 15 6 ≠ 0) || decide (bits (s.gIn b).toNat 63 48 ≠ 0)) = true := by
    simp only [bits_eq, Bool.or_eq_true, decide_eq_true_iff]
    omega
  have hr : bits (s.gIn b).toNat 5 0 = (s.gIn b).toNat % 64 := by rw [bits_eq]; omega
  have hx : bits (s.gIn b).toNat 31 16 = (s.gIn b).toNat / 2 ^ 16 % 2 ^ 16 := bits_eq _ _ _
  have hy : bits (s.gIn b).toNat 47 32 = (s.gIn b).toNat / 2 ^ 32 % 2 ^ 16 := bits_eq _ _ _
  rw [← hr, ← hx] at hxs
  rw [← hr, ← hy] at hys
  exact does_of_effect rfl ((check_passes (faultIf_neg (by simp [hsrc]))).trans ((check_passes (faultIf_neg (by simp [hdst]))).trans
    ((check_passes (faultIf_neg hshape)).trans ((bind_passes hxs).trans ((bind_passes hys).trans ht)))))

end Slots

/-- Settles O15: each move is its slots' accesses behind the checks of its addresses and its shape. -/
theorem vectorMemory : Obligations.VectorMemory := by
  unfold Obligations.VectorMemory
  exact fun s d a b imm => ⟨fun xs ha hs => loadV_does rfl ha hs, fun xs ha hs => loadV_does rfl ha hs, fun xs t ha hs ht => vst_does ha hs ht,
    fun xs ys t hsrc hdst hrows hrows' hres hres' hxs hys ht => tmov_does hsrc hdst hrows hrows' hres hres' hxs hys ht⟩

end Sys2Proof.Machine
end

section
/-! What the steps of an instruction before its last ones leave as it was: pops, filled TLBs, noted lines, a piece of dry
overflow. Effects, buffered bytes, the firing and its system registers stay. -/
namespace Sys2Proof.Machine

-- One proof after another: the threads of many proofs at once do not fit the memory of the check.
set_option Elab.async false

/-- Two states that differ in registers, in the core's TLB, in a cluster, and in what the open chunk says beside its
effects and its buffered bytes. -/
structure State.Alike (s t : State) : Prop where
  rest : t = { s with cores := t.cores, clusters := t.clusters }
  others : ∀ c, c ≠ s.cur → t.core c = s.core c
  me : t.me = { s.me with t := t.t, chunk := t.me.chunk, tlb := t.me.tlb }
  fir : t.t.fir = s.t.fir
  tr : t.t.tr = s.t.tr
  fir1 : t.t.fir1 = s.t.fir1
  maskOpen : t.t.maskOpen = s.t.maskOpen
  effs : t.effs = s.effs
  buffered : t.buffered = s.buffered
  busy : t.chunkBusy = s.chunkBusy

namespace State.Alike

variable {s t u : State}

theorem refl (s : State) : s.Alike s := ⟨rfl, fun _ _ => rfl, rfl, rfl, rfl, rfl, rfl, rfl, rfl, rfl⟩

theorem cur (h : s.Alike t) : t.cur = s.cur := by rw [h.rest]

theorem mem (h : s.Alike t) : t.mem = s.mem := by rw [h.rest]

theorem byte (h : s.Alike t) (a : Nat) : t.byte a = s.byte a := by rw [State.byte, State.byte, h.mem]

theorem trans (h : s.Alike t) (g : t.Alike u) : s.Alike u where
  rest := by rw [g.rest, h.rest]
  others c hc := (g.others c (h.cur ▸ hc)).trans (h.others c hc)
  me := by rw [g.me, h.me]
  fir := g.fir.trans h.fir
  tr := g.tr.trans h.tr
  effs := g.effs.trans h.effs
  fir1 := g.fir1.trans h.fir1
  maskOpen := g.maskOpen.trans h.maskOpen
  buffered := g.buffered.trans h.buffered
  busy := g.busy.trans h.busy

theorem held (h : s.Alike t) : t.me.held = s.me.held := by rw [h.me]

theorem inTrap (h : s.Alike t) : t.t.inTrap = s.t.inTrap := by rw [CoreT.inTrap, CoreT.inTrap, h.tr]

theorem heldNow (h : s.Alike t) : t.t.heldNow = s.t.heldNow := by rw [CoreT.heldNow, CoreT.heldNow, h.fir, h.inTrap]

theorem myPart (h : s.Alike t) : t.myPart = s.myPart := by rw [State.myPart, State.myPart, h.fir, h.me]

theorem level (h : s.Alike t) : t.t.level = s.t.level := by rw [CoreT.level, CoreT.level, h.fir1]

theorem serial (h : s.Alike t) : t.t.serial = s.t.serial := by rw [CoreT.serial, CoreT.serial, h.fir]

theorem pc (h : s.Alike t) : t.t.pc = s.t.pc := by rw [CoreT.pc, CoreT.pc, h.fir]

theorem winsIn (h : s.Alike t) : t.winsIn = s.winsIn := by rw [State.winsIn, State.winsIn, h.heldNow, h.held, h.rest]

end State.Alike

/-! ### Single updates -/

section Updates
variable (s : State)

theorem State.me_withChunk_effs (f : Chunk → Chunk) : (s.withChunk f).effs = (f s.me.open').eff := by
  rw [State.effs, State.withChunk_me]

theorem State.me_withChunk_buffered (f : Chunk → Chunk) : (s.withChunk f).buffered = (f s.me.open').buf := by
  rw [State.buffered, State.withChunk_me]

theorem State.open_eff : s.me.open'.eff = s.effs := by
  rw [State.effs, Core.open']
  cases s.me.chunk <;> rfl

theorem State.open_buf : s.me.open'.buf = s.buffered := by
  rw [State.buffered, Core.open']
  cases s.me.chunk <;> rfl

theorem State.open_busy (s : State) : s.chunkBusy =
    (decide (s.me.open'.cnt > 0) || match s.me.solo with | some so => decide (so.cnt > 0) | none => false) := by
  rw [State.chunkBusy, Core.open']
  cases s.me.chunk <;> rfl

theorem State.withChunk_busy {f : Chunk → Chunk} (h : (f s.me.open').cnt = s.me.open'.cnt) :
    (s.withChunk f).chunkBusy = s.chunkBusy := by
  rw [State.open_busy s, State.chunkBusy, State.withChunk_me]
  dsimp only
  rw [h] <;> rfl

/-- A change of the open chunk beside its effects, its buffer and its count. -/
theorem State.alike_withChunk {f : Chunk → Chunk} (he : (f s.me.open').eff = s.me.open'.eff)
    (hb : (f s.me.open').buf = s.me.open'.buf) (hc : (f s.me.open').cnt = s.me.open'.cnt) : s.Alike (s.withChunk f) where
  rest := rfl
  others c hc := State.withChunk_core_other s f c hc
  me := by rw [State.withChunk_me, State.withChunk_t]; rfl
  fir := by rw [State.withChunk_t]
  tr := by rw [State.withChunk_t]
  fir1 := by rw [State.withChunk_t]
  maskOpen := by rw [State.withChunk_t]
  busy := State.withChunk_busy s hc
  effs := by rw [State.me_withChunk_effs, he, State.open_eff]
  buffered := by rw [State.me_withChunk_buffered, hb, State.open_buf]

/-- A change of the tentative part that keeps its firings and its system registers. -/
theorem State.alike_updT {f : CoreT → CoreT} (hf : (f s.t).fir = s.t.fir) (ht : (f s.t).tr = s.t.tr)
    (hf1 : (f s.t).fir1 = s.t.fir1) (hm : (f s.t).maskOpen = s.t.maskOpen) : s.Alike (s.updT f) where
  rest := rfl
  others c hc := State.updT_core_other s f c hc
  me := by rw [State.updT_me, State.updT_t]
  fir := by rw [State.updT_t, hf]
  tr := by rw [State.updT_t, ht]
  fir1 := by rw [State.updT_t, hf1]
  maskOpen := by rw [State.updT_t, hm]
  busy := by rw [State.chunkBusy, State.chunkBusy, State.updT_me]
  effs := by rw [State.effs, State.effs, State.updT_me]
  buffered := by rw [State.buffered, State.buffered, State.updT_me]

theorem State.alike_noteLines (ls : List Nat) : s.Alike (s.noteLines ls) := State.alike_withChunk s rfl rfl rfl

theorem State.alike_endAfter : s.Alike s.endAfter := State.alike_withChunk s rfl rfl rfl

theorem State.alike_updCluster (n : Nat) (f : Cluster → Cluster) : s.Alike (s.updCluster n f) :=
  ⟨rfl, fun _ _ => rfl, rfl, rfl, rfl, rfl, rfl, rfl, rfl, rfl⟩

theorem State.alike_tlb (f : List Tlb → List Tlb) : s.Alike (s.updMe fun k => { k with tlb := f k.tlb }) where
  rest := rfl
  others c hc := State.updMe_core_other s _ c hc
  me := by rw [State.updMe_me, State.t, State.updMe_me]
  fir := by rw [State.t, State.updMe_me]; rfl
  tr := by rw [State.t, State.updMe_me]; rfl
  fir1 := by rw [State.t, State.updMe_me]; rfl
  maskOpen := by rw [State.t, State.updMe_me]; rfl
  busy := by rw [State.chunkBusy, State.updMe_me]; rfl
  effs := by rw [State.effs, State.updMe_me]; rfl
  buffered := by rw [State.buffered, State.updMe_me]; rfl

/-- A translation kept in both TLBs (R177). -/
theorem State.alike_fillTlb (part va : Nat) (l : Leaf) : s.Alike (s.fillTlb s.cur part va l) := by
  unfold State.fillTlb
  exact (State.alike_tlb s fun b => tlbPut 64 b ⟨part, va / 2 ^ l.size * 2 ^ l.size, l⟩).trans (State.alike_updCluster _ _ _)

@[simp] theorem State.fillTlb_t (part va : Nat) (l : Leaf) : (s.fillTlb s.cur part va l).t = s.t := by
  have h : (s.updMe fun k => { k with tlb := tlbPut 64 k.tlb ⟨part, va / 2 ^ l.size * 2 ^ l.size, l⟩ }).t = s.t := by
    rw [State.t, State.updMe_me]; rfl
  exact h

theorem State.alike_noteRead (x : Acc) : s.Alike (s.noteRead x) :=
  (State.alike_fillTlb s _ _ _).trans (State.alike_noteLines _ _)

@[simp] theorem State.noteLines_t (ls : List Nat) : (s.noteLines ls).t = s.t := State.withChunk_t _ _

@[simp] theorem State.noteRead_t (x : Acc) : (s.noteRead x).t = s.t := by
  rw [State.noteRead, State.noteLines_t, State.fillTlb_t]

theorem State.alike_ioSeal (x : Acc) : s.Alike (s.ioSeal x) := by
  rw [State.ioSeal]
  split
  · exact State.alike_withChunk s rfl rfl rfl
  · exact State.Alike.refl s

@[simp] theorem State.ioSeal_t (x : Acc) : (s.ioSeal x).t = s.t := by
  rw [State.ioSeal]
  split
  · exact State.withChunk_t _ _
  · rfl

theorem CoreT.setG_fir (t : CoreT) (d : Reg) (w : Word) : (t.setG d w).fir = t.fir := by
  rw [CoreT.fir, CoreT.fir, CoreT.setG_fir0, CoreT.setG_fir1]

theorem CoreT.setG_tr (t : CoreT) (d : Reg) (w : Word) : (t.setG d w).tr = t.tr := by
  rw [CoreT.tr, CoreT.tr, CoreT.setG_tr0, CoreT.setG_tr1, CoreT.setG_fir1]

theorem State.alike_setG (d : Reg) (w : Word) : s.Alike (s.setG d w) :=
  State.alike_updT s (CoreT.setG_fir _ d w) (CoreT.setG_tr _ d w) (CoreT.setG_fir1 _ d w) (CoreT.setG_maskOpen _ d w)

/-- Pops: registers, streams, parked bits, links, and the open chunk's signature and strips. -/
theorem State.alike_take (u : Use) : s.Alike (s.take u) := by
  obtain ⟨o, hme, hrel, _⟩ := State.take_me s u
  obtain ⟨hrest, hothers⟩ := State.take_else s u
  have hpop := (popT_popped u s.t).1
  have hchunk : ∀ {α : Type} (f : Chunk → α) (d : α), (∀ ch p q r, f { ch with ckpt := p, rd := q, push := r } = f ch) →
      f s.me.newChunk = d → (match o with | some ch => f ch | none => d) = (match s.me.chunk with | some ch => f ch | none => d) := by
    intro α f d hf hd
    rcases hrel with ⟨_, rfl⟩ | ⟨ch, rfl, hch, _, _⟩
    · rfl
    · dsimp only
      rw [hch, hf, Core.open']
      cases s.me.chunk with
      | none => exact hd
      | some ch => rfl
  refine ⟨?_, hothers, ?_, ?_, ?_, ?_, ?_, ?_, ?_, ?_⟩
  · rw [hrest]
  · rw [State.take_t, hme]
  · rw [State.take_t, CoreT.popped, CoreT.fir, hpop]; rfl
  · rw [State.take_t, CoreT.popped_tr]
  · rw [State.take_t, CoreT.popped, hpop]
  · rw [State.take_t, CoreT.popped, hpop]
  · rw [State.effs, hme]
    exact hchunk (·.eff) [] (fun _ _ _ _ => rfl) rfl
  · rw [State.buffered, hme]
    exact hchunk (·.buf) [] (fun _ _ _ _ => rfl) rfl
  · rw [State.chunkBusy, State.chunkBusy, hme]
    exact congrArg (· || _) (hchunk (fun ch => decide (ch.cnt > 0)) false (fun _ _ _ _ => rfl) rfl)

theorem State.alike_after (i : Instr) : s.Alike (s.after i) := State.alike_take s _

/-- Room for a store is found where it is, or by a piece of dry overflow (R181, R311). -/
theorem State.roomFor_ok {s r : State} {w : List (Nat × Byte × Byte)} (h : s.roomFor w = .ok r) : s.Alike r ∧ r.t = s.t := by
  have hself : s.Alike s ∧ s.t = s.t := ⟨State.Alike.refl s, rfl⟩
  unfold State.roomFor at h
  extract_lets k cl mine so more held need at h
  split at h
  · split at h
    · cases h
    · exact Except.ok.inj h ▸ hself
  · split at h
    · exact Except.ok.inj h ▸ hself
    · split at h
      · cases h
      · split at h
        · exact Except.ok.inj h ▸ hself
        · split at h
          · exact Except.ok.inj h ▸ ⟨State.alike_updCluster _ _ _, rfl⟩
          · cases h

end Updates

end Sys2Proof.Machine
end

section
/-! Stores (R181, R182, R184, R209): bytes laid into the open chunk's buffer, as the running firing then sees them. -/
namespace Sys2Proof.Machine

-- One proof after another: the threads of many proofs at once do not fit the memory of the check.
set_option Elab.async false

/-! ### Bytes laid into a buffer -/

theorem overlay_full (b v m : Byte) : overlay b (m ||| 0xFF#8, v) = v := by
  have hm : m ||| 0xFF#8 = BitVec.allOnes 8 := BitVec.or_allOnes
  rw [overlay, hm, BitVec.not_allOnes, BitVec.and_zero, BitVec.and_allOnes, BitVec.zero_or]

theorem span_succ_eq_map (a n : Nat) : span (a + 1) n = (span a n).map (· + 1) := by
  induction n generalizing a with
  | zero => rfl
  | succ n ih => rw [span, ih, span, List.map_cons]

theorem maskedBytes_cons (a : Nat) (b : Byte) (bs : List Byte) :
    maskedBytes a (b :: bs) = (a, 0xFF#8, b) :: maskedBytes (a + 1) bs := by
  rw [maskedBytes, List.length_cons, span, List.zip_cons_cons, List.map_cons, maskedBytes, span_succ_eq_map, List.zip_map_right,
    List.map_map]
  congr 1
  apply List.map_congr_left
  intro p _
  simp only [Function.comp_apply, Prod.map, id, Nat.add_assoc, Nat.add_comm 1]

theorem bufPut_cons (buf : FMap (Byte × Byte)) (p : Nat × Byte × Byte) (w : List (Nat × Byte × Byte)) : bufPut buf (p :: w) =
    bufPut (FMap.put buf p.1 ((FMap.get (0#8, 0#8) buf p.1).1 ||| p.2.1, overlay (FMap.get (0#8, 0#8) buf p.1).2 p.2)) w := rfl

/-- Entries at other addresses stay. -/
theorem find?_bufPut_other {a : Nat} (w : List (Nat × Byte × Byte)) (buf : FMap (Byte × Byte)) (h : ∀ p ∈ w, p.1 ≠ a) :
    FMap.find? (bufPut buf w) a = FMap.find? buf a := by
  induction w generalizing buf with
  | nil => rfl
  | cons p w ih =>
    rw [List.forall_mem_cons] at h
    rw [bufPut_cons, ih _ h.2, FMap.find_put_other _ _ _ _ (Ne.symm h.1)]

/-- A stored byte stands in the buffer with every bit of it masked in. -/
theorem find?_bufPut_maskedBytes (bs : List Byte) (a : Nat) (buf : FMap (Byte × Byte)) {k : Nat} (hk : k < bs.length) :
    ∃ m v, FMap.find? (bufPut buf (maskedBytes a bs)) (a + k) = some (m ||| 0xFF#8, v) ∧ v = bs[k] := by
  induction bs generalizing a buf k with
  | nil => cases hk
  | cons b bs ih =>
    rw [maskedBytes_cons, bufPut_cons]
    cases k with
    | zero =>
      have hother : ∀ p ∈ maskedBytes (a + 1) bs, p.1 ≠ a := fun p hp => by
        have := maskedBytes_addr hp
        omega
      refine ⟨(FMap.get (0#8, 0#8) buf a).1, b, ?_, rfl⟩
      change FMap.find? _ a = _
      rw [find?_bufPut_other _ _ hother, FMap.find_put_self]
      congr 2
      exact overlay_full _ b 0#8
    | succ k =>
      obtain ⟨m, v, hv, hb⟩ := ih (a + 1) _ (Nat.lt_of_succ_lt_succ hk)
      exact ⟨m, v, by rw [show a + (k + 1) = a + 1 + k by omega]; exact hv, hb⟩

theorem leBytes_getElem (n x k : Nat) (hk : k < (leBytes n x).length) : (leBytes n x)[k] = BitVec.ofNat 8 (x / 256 ^ k) := by
  induction n generalizing x k with
  | zero => cases hk
  | succ n ih =>
    cases k with
    | zero => simp [leBytes]
    | succ k =>
      have h := ih (x / 256) k (Nat.lt_of_succ_lt_succ hk)
      rw [Nat.div_div_eq_div_mul, ← Nat.pow_succ'] at h
      exact h

/-! ### What the running firing sees -/

/-- A byte under the open chunk: committed memory, then the held chunks of a held firing that runs. -/
def State.under (s : State) (a : Nat) : Byte :=
  if s.t.heldNow then
    match s.me.held with
    | some h => h.chunks.foldl (fun b ch => ch.over a b) (s.byte a)
    | none => s.byte a
  else s.byte a

theorem State.seen_eq (s : State) (a : Nat) : s.seen a =
    match FMap.find? s.buffered a with
    | some p => overlay (s.under a) p
    | none => s.under a := by
  rw [State.seen, State.buffered]
  cases s.me.chunk <;> rfl

theorem State.Alike.under {s t : State} (h : s.Alike t) (a : Nat) : t.under a = s.under a := by
  simp only [State.under, h.heldNow, h.held, h.byte]

theorem State.Alike.seen {s t : State} (h : s.Alike t) (a : Nat) : t.seen a = s.seen a := by
  rw [State.seen_eq, State.seen_eq, h.buffered, h.under]

/-! ### Buffering a store (R181) -/

section Buffering
variable (s : State) (w : List (Nat × Byte × Byte)) (scope : Nat)

@[simp] theorem State.bufStore_t : (s.bufStore w scope).t = s.t := State.withChunk_t _ _

theorem State.bufStore_buffered : (s.bufStore w scope).buffered = bufPut s.buffered w := by
  rw [State.bufStore, State.me_withChunk_buffered, State.open_buf]

theorem State.bufStore_under (a : Nat) : (s.bufStore w scope).under a = s.under a := by
  simp only [State.under, State.bufStore_t]
  rw [State.bufStore, State.withChunk_me]
  rfl

theorem State.bufStore_core_other {c : Nat} (hc : c ≠ s.cur) : (s.bufStore w scope).core c = s.core c :=
  State.withChunk_core_other s _ c hc

/-- A buffered byte is seen, every other byte as before. -/
theorem State.seen_bufStore (bs : List Byte) (a : Nat) :
    (∀ k (hk : k < bs.length), (s.bufStore (maskedBytes a bs) scope).seen (a + k) = bs[k]) ∧
    (∀ b, b < a ∨ a + bs.length ≤ b → (s.bufStore (maskedBytes a bs) scope).seen b = s.seen b) := by
  constructor
  · intro k hk
    obtain ⟨m, v, hv, hb⟩ := find?_bufPut_maskedBytes bs a s.buffered hk
    rw [State.seen_eq, State.bufStore_buffered, hv, ← hb]
    exact overlay_full _ v m
  · intro b hb
    have hother : ∀ p ∈ maskedBytes a bs, p.1 ≠ b := fun p hp => by
      have := maskedBytes_addr hp
      omega
    rw [State.seen_eq, State.seen_eq, State.bufStore_buffered, State.bufStore_under, find?_bufPut_other _ _ hother]

end Buffering

/-! ### A checked store -/

/-- The state in which a store's bytes are buffered. -/
def State.storing (s : State) (x : Acc) : State :=
  (s.fillTlb s.cur s.myPart x.ea x.leaf).noteLines (x.descLines ++ x.scaleLines s.winsIn)

theorem State.alike_storing (s : State) (x : Acc) : s.Alike (s.storing x) :=
  (State.alike_fillTlb s _ _ _).trans (State.alike_noteLines _ _)

@[simp] theorem State.storing_t (s : State) (x : Acc) : (s.storing x).t = s.t := by
  rw [State.storing, State.noteLines_t, State.fillTlb_t]

section Stored
variable {s r : State} {x : Acc} {w : List (Nat × Byte × Byte)}

theorem State.store_ok (h : s.roomFor w = .ok r) : s.store x w = .ok ((r.storing x).bufStore w x.leaf.scope) := by
  rw [State.store, h]
  rfl

/-- What a store leaves: the registers, committed memory and the other cores; its bytes are buffered. -/
structure State.Stored (s t : State) (w : List (Nat × Byte × Byte)) : Prop where
  others : ∀ c, c ≠ s.cur → t.core c = s.core c
  byte : ∀ a, t.byte a = s.byte a
  part : t.t = s.t
  buffered : t.buffered = bufPut s.buffered w
  seen : ∀ a bs, w = maskedBytes a bs → (∀ k (hk : k < bs.length), t.seen (a + k) = bs[k]) ∧
    ∀ b, b < a ∨ a + bs.length ≤ b → t.seen b = s.seen b

theorem State.stored_of_room (h : s.roomFor w = .ok r) : s.Stored ((r.storing x).bufStore w x.leaf.scope) w := by
  obtain ⟨hr, hrt⟩ := State.roomFor_ok h
  have hq : s.Alike (r.storing x) := hr.trans (State.alike_storing r x)
  refine ⟨fun c hc => ?_, hq.byte, ?_, ?_, fun a bs hw => ?_⟩
  · rw [State.bufStore_core_other _ _ _ (hq.cur ▸ hc), hq.others c hc]
  · rw [State.bufStore_t, State.storing_t, hrt]
  · rw [State.bufStore_buffered, hq.buffered]
  · subst hw
    obtain ⟨hin, hout⟩ := State.seen_bufStore (r.storing x) x.leaf.scope bs a
    exact ⟨hin, fun b hb => (hout b hb).trans (hq.seen b)⟩

/-- A store after steps that leave everything it says alone, and before others. -/
theorem State.Stored.between {p q t u : State} (h : q.Stored t w) (hp : p.Alike q) (hu : t.Alike u) (hcur : t.cur = q.cur) :
    (∀ c, c ≠ p.cur → u.core c = p.core c) ∧ (∀ a, u.byte a = p.byte a) ∧ u.buffered = bufPut p.buffered w ∧
    ∀ a bs, w = maskedBytes a bs → (∀ k (hk : k < bs.length), u.seen (a + k) = bs[k]) ∧
      ∀ b, b < a ∨ a + bs.length ≤ b → u.seen b = p.seen b := by
  refine ⟨fun c hc => ?_, fun a => ?_, ?_, fun a bs hw => ?_⟩
  · have hc' : c ≠ q.cur := hp.cur ▸ hc
    rw [hu.others c (hcur ▸ hc'), h.others c hc', hp.others c hc]
  · rw [hu.byte, h.byte, hp.byte]
  · rw [hu.buffered, h.buffered, hp.buffered]
  · obtain ⟨hin, hout⟩ := h.seen a bs hw
    exact ⟨fun k hk => (hu.seen _).trans (hin k hk), fun b hb => (hu.seen b).trans ((hout b hb).trans (hp.seen b))⟩

theorem State.storing_cur (h : s.roomFor w = .ok r) : ((r.storing x).bufStore w x.leaf.scope).cur = s.cur :=
  (State.roomFor_ok h).1.cur

end Stored

/-! ### ST and STX (R184) -/

section StoreForms
variable {i : Instr} {s : State} {ea : Word} {size : Nat} {w : Word} {x : Acc}

theorem storeG_next {t : State} (hi : exec i s = storeG i ea size w s) (hr : s.ready (useOf i) = .ok ())
    (ha : (s.after i).access ea.toNat size .write = .ok x) (hg : (s.after i).ioGate x = .ok ())
    (hs : (s.after i).storeWord x w = .ok t) : exec i s = .next (t.ioSeal x) :=
  does_of_effect hi ((bind_passes ha).trans ((check_passes hg).trans (bind_passes hs))) hr

theorem storeWord_plain (hx : x.plain) (s : State) (w : Word) :
    s.storeWord x w = s.store x (maskedBytes x.dev (leBytes x.size w.toNat)) := by
  rcases hx with hl | ⟨b, z, o, hl⟩ <;> rw [State.storeWord, hl]
  exact if_pos rfl

/-- An effect of a store to a counter or an I/O register. -/
theorem effs_effect_ioSeal (s : State) (e : Effect) (x : Acc) : ((s.effect e).ioSeal x).effs = s.effs ++ [e] := by
  rw [(State.alike_ioSeal _ x).effs, State.effect, State.me_withChunk_effs, State.open_eff]

theorem storesTo_of (hi : exec i s = storeG i ea size w s) : StoresTo i s ea size w := by
  intro x hr ha hg
  have hafter := State.alike_after s i
  obtain ⟨_, hsize, _, _⟩ := State.access_ok ha
  refine ⟨fun hx r hroom => ?plain, fun c n hl => ?counter, fun o hl => ?io, fun b z win off hl hw r hroom => ?element⟩
  case plain =>
    have hst := State.stored_of_room (x := x) hroom
    obtain ⟨hothers, hbyte, _, hseen⟩ := hst.between hafter (State.alike_ioSeal _ x) (State.storing_cur hroom)
    have hlen := length_leBytes size w.toNat
    obtain ⟨hin, hout⟩ := hseen x.dev (leBytes size w.toNat) rfl
    have hs : (s.after i).storeWord x w = .ok _ := (storeWord_plain hx _ w).trans (State.store_ok (hsize.symm ▸ hroom))
    refine ⟨_, storeG_next hi hr ha hg (hsize ▸ hs), fun k hk => ?_, fun a hab => hout a (hlen.symm ▸ hab), hbyte,
      (State.ioSeal_t _ x).trans hst.part, hothers⟩
    rw [hin k (hlen.symm ▸ hk), leBytes_getElem]
  case counter =>
    have hs : (s.after i).storeWord x w =
        .ok ((s.after i).effect (.post ⟨agentOf (s.after i).cur 0, c, n, w.toNat % 2 ^ 32, none⟩)) := by
      rw [State.storeWord, hl]
    refine ⟨_, storeG_next hi hr ha hg hs, ?_, ?_⟩
    · rw [effs_effect_ioSeal, hafter.effs, hafter.cur]
    · rw [State.ioSeal_t, State.effect_t]
  case io =>
    have hs : (s.after i).storeWord x w =
        .ok ((s.after i).effect (.io ⟨(s.after i).cur, (s.after i).myPart, x.dev, leBytes x.size w.toNat⟩)) := by
      rw [State.storeWord, hl]
    refine ⟨_, storeG_next hi hr ha hg hs, ?_, ?_⟩
    · rw [effs_effect_ioSeal, hafter.effs, hafter.cur, hafter.myPart, hsize]
    · rw [State.ioSeal_t, State.effect_t]
  case element =>
    rw [← hafter.winsIn] at hroom ⊢
    have hst := State.stored_of_room (x := x) hroom
    obtain ⟨_, _, hbuf, _⟩ := hst.between hafter (State.alike_ioSeal _ x) (State.storing_cur hroom)
    have hs : (s.after i).storeWord x w =
        (s.after i).store x (movedPut (s.after i).seen (s.after i).winsIn x (Moved.fp32 (w.truncate 32))) := by
      rw [State.storeWord, hl]
      exact if_neg hw
    exact ⟨_, storeG_next hi hr ha hg (hs.trans (State.store_ok hroom)), hbuf, (State.ioSeal_t _ x).trans hst.part⟩

end StoreForms

/-- Settles O14: every store is its access, then its bytes in the open chunk's buffer or its effect at the commit. -/
theorem stores : Obligations.Stores := by
  unfold Obligations.Stores
  exact fun s d a b imm => ⟨storesTo_of rfl, storesTo_of rfl, storesTo_of rfl, storesTo_of rfl, storesTo_of rfl, storesTo_of rfl,
    storesTo_of rfl, storesTo_of rfl⟩

end Sys2Proof.Machine
end

section
/-! Atomics and barriers (R298-R305): a near one is a read and a buffered store of one old value, a far one and a barrier
leave as requests. -/
namespace Sys2Proof.Machine

-- One proof after another: the threads of many proofs at once do not fit the memory of the check.
set_option Elab.async false

theorem State.accessBy_ok {s : State} {q : Rules} {ea size : Nat} {kind : Kind} {x : Acc} (h : s.accessBy q ea size kind = .ok x) :
    x.ea = ea ∧ x.size = size := by
  rw [State.accessBy, ite_fault_eq_ok] at h
  obtain ⟨_, h⟩ := h
  cases ht : s.translate s.cur s.myPart ea with
  | none =>
    rw [ht] at h
    cases h
  | some p =>
    rw [ht] at h
    simp only [ite_fault_eq_ok] at h
    obtain ⟨_, _, _, _, h⟩ := h
    split at h
    · cases h
    · rw [ite_fault_eq_ok, ite_fault_eq_ok, ite_fault_eq_ok, ite_fault_eq_ok] at h
      obtain ⟨_, _, _, _, h⟩ := h
      split at h
      · cases h
      · exact Except.ok.inj h ▸ ⟨rfl, rfl⟩

/-! ### Near atomics (R298, R300) -/

section Near
variable {i : Instr} {op : Nat} {s : State} {d a b c : Reg} {w64 : Bool} {size : Nat} {new : Nat → Nat} {ret : Nat → Word}

theorem seenBytes_lt (s : State) (a n : Nat) : leVal (s.seenBytes a n) < 2 ^ (8 * n) := by
  have := leVal_lt (s.seenBytes a n)
  rwa [State.seenBytes, List.length_map, span_length] at this

/-- A near atomic by its new value and by what its register receives. -/
theorem nearAtomic_of (hi : exec i s = amo i op d a b c false w64 s) (hs : (if w64 then 8 else 4) = size)
    (hnew : ∀ old, amoNew op (8 * size) old ((s.gIn b).toNat % 2 ^ (8 * size)) ((s.gIn c).toNat % 2 ^ (8 * size)) = new old)
    (hret : ∀ old, old < 2 ^ (8 * size) → amoOld op (8 * size) old = ret old) : NearAtomic i s d (s.gIn a) size new ret := by
  intro x r hr ha old hroom
  subst hs
  obtain ⟨_, hsize⟩ := State.accessBy_ok ha
  have hpre : s.Alike ((s.after i).noteRead x) := (State.alike_after s i).trans (State.alike_noteRead _ x)
  have hst := State.stored_of_room (x := x) hroom
  obtain ⟨_, hbyte, _, hseen⟩ := hst.between hpre (State.alike_setG _ d (ret old)) (State.storing_cur hroom)
  obtain ⟨hin, hout⟩ := hseen x.dev (leBytes _ (new old)) rfl
  have hlen := length_leBytes (if w64 then 8 else 4) (new old)
  have hdo : amoNear (s.after i) x op ((s.gIn b).toNat % 2 ^ (8 * if w64 then 8 else 4))
      ((s.gIn c).toNat % 2 ^ (8 * if w64 then 8 else 4)) d =
      .ok (((r.storing x).bufStore (maskedBytes x.dev (leBytes (if w64 then 8 else 4) (new old))) x.leaf.scope).setG d (ret old)) := by
    rw [amoNear, hsize, hnew, hret _ (seenBytes_lt _ _ _)]
    exact bind_passes (State.store_ok hroom)
  refine ⟨_, does_of_effect hi ((bind_passes ha).trans hdo) hr, ?_, fun k hk => ?_, fun e he => hout e (hlen.symm ▸ he), hbyte⟩
  · rw [State.setG_t, hst.part, State.noteRead_t]
  · rw [hin k (hlen.symm ▸ hk), leBytes_getElem]

theorem amoOld_eq_sx {n : Nat} (hn : 0 < n) (hop : op ≠ 1) (old : Nat) : amoOld op n old = sx n old := by
  rw [amoOld, if_neg hop, ofInt_signed hn]

end Near

theorem ofNat_mod_two_pow (n x : Nat) : BitVec.ofNat n (x % 2 ^ n) = BitVec.ofNat n x :=
  BitVec.eq_of_toNat_eq (by rw [BitVec.toNat_ofNat, BitVec.toNat_ofNat, Nat.mod_mod])

theorem size_eq (w : BitVec 1) : (if decide (w = 1#1) then 8 else 4) = if w = 1#1 then 8 else 4 := by
  by_cases h : w = 1#1 <;> simp [h]

/-- Settles O18: each near atomic by its new value of one old value. -/
theorem atomicsNear : Obligations.AtomicsNear := by
  unfold Obligations.AtomicsNear
  intro s d a b c w size n ea vb vc
  have hn : 0 < 8 * size := by
    change 0 < 8 * if w = 1#1 then 8 else 4
    split <;> decide
  refine ⟨nearAtomic_of rfl (size_eq w) (fun old => rfl) fun old _ => amoOld_eq_sx hn (by decide) old,
    nearAtomic_of rfl (size_eq w) (fun old => rfl) fun old _ => amoOld_eq_sx hn (by decide) old,
    nearAtomic_of rfl (size_eq w) (fun old => rfl) fun old _ => amoOld_eq_sx hn (by decide) old,
    nearAtomic_of rfl (size_eq w) (fun old => ?min) fun old _ => amoOld_eq_sx hn (by decide) old,
    nearAtomic_of rfl (size_eq w) (fun old => ?max) fun old _ => amoOld_eq_sx hn (by decide) old,
    nearAtomic_of (w64 := false) rfl rfl (fun old => ?fadd) fun old h => ?old⟩
  case min => rw [amoNew, signed_eq_toInt hn, signed_eq_toInt hn]
  case max => rw [amoNew, signed_eq_toInt hn, signed_eq_toInt hn] <;> decide
  case fadd =>
    rw [amoNew, ofNat_mod_two_pow]
    rfl
  case old => exact word_eq_zx h

/-! ### Requests (R301, R305) -/

theorem Core.setWaiting_waiting (k : Core) (level : Nat) (w : Waiting) : (k.setWaiting level w).waiting level = w := by
  unfold Core.setWaiting Core.waiting
  split <;> rfl

@[simp] theorem Core.setWaiting_chunk (k : Core) (level : Nat) (w : Waiting) : (k.setWaiting level w).chunk = k.chunk := by
  unfold Core.setWaiting
  split <;> rfl

theorem State.effs_endAfter_effect (s : State) (e : Effect) : (s.effect e).endAfter.effs = s.effs ++ [e] := by
  rw [(State.alike_endAfter _).effs, State.effect, State.me_withChunk_effs, State.open_eff]

@[simp] theorem State.chunkEnds_endAfter (s : State) : s.endAfter.chunkEnds = true := by
  rw [State.chunkEnds, State.endAfter, State.withChunk_me]

theorem State.ownChunk_ok {s : State} (h : s.chunkBusy = false) : s.ownChunk = .ok () := by
  rw [State.ownChunk, h]; rfl

/-- A request in a chunk of its own: it leaves at the commit, and its core waits for the reply. -/
theorem State.request_ok {s q : State} {i : Instr} {d : Reg} {e : Effect} (hq : (s.after i).Alike q) (hqt : q.t = (s.after i).t)
    (hm : s.t.maskOpen = false) (hh : s.t.heldNow = false) (hb : s.chunkBusy = false) :
    ∃ t, q.request s.t d e = .ok t ∧ t.effs = s.effs ++ [e] ∧ t.chunkEnds = true ∧ t.t = (s.after i).t.withhold s.t ∧
      t.me.waiting s.t.level = ⟨.reply d s.t.pc ⟨s.t, (s.after i).t, []⟩, none, none⟩ := by
  have ha : s.Alike q := (State.alike_after s i).trans hq
  refine ⟨((q.effect e).endAfter).updMe fun k =>
      ({ k with t := k.t.withhold s.t } : Core).setWaiting q.t.level { Waiting.idle with await := .reply d q.t.pc ⟨s.t, q.t, []⟩ },
    ?_, ?_, ?_, ?_, ?_⟩
  · rw [State.request, ha.maskOpen, ha.heldNow, hm, hh, State.ownChunk_ok (ha.busy.trans hb)]
    rfl
  · rw [← ha.effs, ← State.effs_endAfter_effect, State.effs, State.effs, State.updMe_me, Core.setWaiting_chunk]
  · rw [← State.chunkEnds_endAfter (q.effect e), State.chunkEnds, State.chunkEnds, State.updMe_me, Core.setWaiting_chunk]
  · rw [State.t, State.updMe_me, Core.setWaiting_t, ← hqt]
    rw [← State.effect_t q e, ← State.endAfter_t (q.effect e)]
    rfl
  · rw [State.updMe_me, ha.level, Core.setWaiting_waiting, ha.pc, hqt]
    rfl

section Requests
variable {i : Instr} {s : State}

/-- An instruction that ends in a request asks. -/
theorem asks_of_request {q : State} {d : Reg} {e : Effect} {f : State → Res State} (hi : exec i s = finish s (s.doing (useOf i) f))
    (hr : s.ready (useOf i) = .ok ()) (hf : f (s.after i) = q.request s.t d e) (hq : (s.after i).Alike q) (hqt : q.t = (s.after i).t)
    (hm : s.t.maskOpen = false) (hh : s.t.heldNow = false) (hb : s.chunkBusy = false) : Asks i s d e := by
  obtain ⟨t, ht, heffs, hends, hpart, hwait⟩ := State.request_ok (d := d) (e := e) hq hqt hm hh hb
  exact ⟨t, does_of_effect hi (hf.trans ht) hr, heffs, hends, hpart, hwait⟩

theorem farAtomic_of {op : Nat} {d a b c : Reg} {w64 : Bool} {size : Nat} (hi : exec i s = amo i op d a b c true w64 s)
    (hs : (if w64 then 8 else 4) = size) : FarAtomic i s op d (s.gIn a) size ((s.gIn b).toNat % 2 ^ (8 * size))
      ((s.gIn c).toNat % 2 ^ (8 * size)) := by
  intro x hr ha hh f
  subst hs
  obtain ⟨_, hsize⟩ := State.accessBy_ok ha
  have hafter := State.alike_after s i
  have hfill := State.alike_fillTlb (s.after i) (s.after i).myPart x.ea x.leaf
  have hheld : ((s.after i).fillTlb (s.after i).cur (s.after i).myPart x.ea x.leaf).t.heldNow = false :=
    hfill.heldNow.trans (hafter.heldNow.trans hh)
  have hf : (⟨(s.after i).cur, op, x.size = 8, x.dev, (s.gIn b).toNat % 2 ^ (8 * if w64 then 8 else 4),
      (s.gIn c).toNat % 2 ^ (8 * if w64 then 8 else 4), x.leaf.scope, x.ea, d ≠ 0#5, (s.after i).t.level,
      (s.after i).t.serial, 0⟩ : Far) = f := by
    rw [hafter.cur, hafter.level, hafter.serial, hsize]
  refine ⟨fun hd => ?_, fun hd hm hb => ?_⟩
  · have hdo : amoFar (s.after i) s.t x op ((s.gIn b).toNat % 2 ^ (8 * if w64 then 8 else 4))
        ((s.gIn c).toNat % 2 ^ (8 * if w64 then 8 else 4)) d =
        .ok ((((s.after i).fillTlb (s.after i).cur (s.after i).myPart x.ea x.leaf).effect (.far f)).endAfter) := by
      simp only [amoFar, hf, if_pos hd, hheld]
      rfl
    refine ⟨_, does_of_effect hi ((bind_passes ha).trans hdo) hr, ?_, State.chunkEnds_endAfter _, ?_⟩
    · rw [State.effs_endAfter_effect, hfill.effs, hafter.effs]
    · rw [State.endAfter_t, State.effect_t, State.fillTlb_t]
  · refine asks_of_request hi hr ((bind_passes ha).trans ?_) hfill (State.fillTlb_t _ _ _ _) hm hh hb
    simp only [amoFar, hf, if_neg hd]
    rfl

theorem asksBarrier_of {op : Nat} {d a b : Reg} (hi : exec i s = barrier i op d a b s) :
    AsksBarrier i s op d (s.gIn a).toNat (s.gIn b).toNat := by
  intro x hr ha hh hm hb
  have hafter := State.alike_after s i
  have hfill := State.alike_fillTlb (s.after i) s.myPart x.ea x.leaf
  rw [hafter.cur] at hfill
  exact asks_of_request hi hr (bind_passes ha) hfill (by rw [← hafter.cur, State.fillTlb_t]) hm hh hb

end Requests

/-- Settles O19: a far atomic by whether it waits, and a barrier as a request. -/
theorem farRequests : Obligations.FarRequests := by
  unfold Obligations.FarRequests
  refine ⟨fun s d a b c w => ?_, fun s d a b => ?_⟩
  · exact ⟨farAtomic_of rfl (size_eq w), farAtomic_of rfl (size_eq w), farAtomic_of rfl (size_eq w), farAtomic_of rfl (size_eq w),
      farAtomic_of rfl (size_eq w), farAtomic_of (w64 := false) rfl rfl⟩
  · exact ⟨asksBarrier_of rfl, asksBarrier_of rfl, asksBarrier_of rfl, asksBarrier_of rfl⟩

end Sys2Proof.Machine
end

section
/-! Words of the manual and the reset state. -/
namespace Sys2Proof.Machine

-- One proof after another: the threads of many proofs at once do not fit the memory of the check.
set_option Elab.async false

/-- Settles O55: each word decodes as its encoding says. -/
theorem decodeWords : Obligations.DecodeWords := by
  unfold Obligations.DecodeWords
  refine ⟨?_, ?_, ?_, ?_, ?_, ?_, ?_, ?_, ?_, ?_, ?_, ?_, ?_⟩ <;> rfl

/-- Settles O58: reset's tables list nothing, so that each value is its table's default. -/
theorem resetValues : Obligations.ResetValues := by
  unfold Obligations.ResetValues
  intro c n k p s
  have hwin : wValid (FMap.get 0 s.wins k) = wValid 0 := rfl
  refine ⟨fun r hr => ?_, rfl, rfl, rfl, rfl, rfl, rfl, rfl, rfl, hwin.trans (by decide), rfl⟩
  simp only [List.mem_cons, List.not_mem_nil, or_false] at hr
  rcases hr with rfl | rfl | rfl | rfl | rfl | rfl | rfl | rfl | rfl | rfl | rfl | rfl | rfl | rfl <;> rfl

/-- Settles O59: memory lists nothing. -/
theorem memoryWfReset : Obligations.MemoryWfReset := rfl

end Sys2Proof.Machine
end

section
/-! Fields of a packed word, and the effects that an instruction leaves for its chunk's commit. -/
namespace Sys2Proof.Machine

-- One proof after another: the threads of many proofs at once do not fit the memory of the check.
set_option Elab.async false

/-! ### Packed words -/

/-- Fields that stand one below another, from the high bits down. -/
def laidOut : List (Nat × Nat × Nat) → Bool
  | [] => true
  | [f] => f.2.1 ≤ f.1
  | f :: g :: r => f.2.1 ≤ f.1 && g.1 < f.2.1 && laidOut (g :: r)

/-- The word in which each field stands at its place. -/
def packed : List (Nat × Nat × Nat) → Nat
  | [] => 0
  | f :: r => f.2.2 * 2 ^ f.2.1 + packed r

theorem laidOut_cons {f : Nat × Nat × Nat} {r : List (Nat × Nat × Nat)} (h : laidOut (f :: r) = true) :
    f.2.1 ≤ f.1 ∧ laidOut r = true ∧ ∀ g ∈ r, g.1 < f.2.1 := by
  induction r generalizing f with
  | nil => exact ⟨of_decide_eq_true h, rfl, fun g hg => absurd hg List.not_mem_nil⟩
  | cons g r ih =>
    simp only [laidOut, Bool.and_eq_true, decide_eq_true_eq] at h
    obtain ⟨⟨hf, hg⟩, hr⟩ := h
    obtain ⟨hgg, hrr, hlow⟩ := ih hr
    refine ⟨hf, hr, fun x hx => ?_⟩
    rcases List.mem_cons.1 hx with rfl | hx
    · exact hg
    · have := hlow x hx
      omega

theorem le_of_mem_laidOut {l : List (Nat × Nat × Nat)} (h : laidOut l = true) : ∀ f ∈ l, f.2.1 ≤ f.1 := by
  induction l with
  | nil => exact fun f hf => absurd hf List.not_mem_nil
  | cons f r ih =>
    obtain ⟨hf, hr, _⟩ := laidOut_cons h
    exact List.forall_mem_cons.2 ⟨hf, ih hr⟩

/-- Fields with room for their values stay below the field above them. -/
theorem packed_lt {l : List (Nat × Nat × Nat)} {n : Nat} (h : laidOut l = true) (hv : ∀ f ∈ l, f.2.2 < 2 ^ (f.1 + 1 - f.2.1))
    (hn : ∀ f ∈ l, f.1 < n) : packed l < 2 ^ n := by
  induction l generalizing n with
  | nil => exact Nat.two_pow_pos n
  | cons f r ih =>
    obtain ⟨hf, hr, hlow⟩ := laidOut_cons h
    have hrest : packed r < 2 ^ f.2.1 := ih hr (fun g hg => hv g (List.mem_cons_of_mem _ hg)) hlow
    have hone : f.2.2 + 1 ≤ 2 ^ (f.1 + 1 - f.2.1) := hv f List.mem_cons_self
    have hpow : 2 ^ (f.1 + 1 - f.2.1) * 2 ^ f.2.1 = 2 ^ (f.1 + 1) := by rw [← Nat.pow_add, Nat.sub_add_cancel (by omega)]
    have htop : 2 ^ (f.1 + 1) ≤ 2 ^ n := Nat.pow_le_pow_right two_pos (hn f List.mem_cons_self)
    have hmul := Nat.mul_le_mul_right (2 ^ f.2.1) hone
    rw [hpow, Nat.succ_mul] at hmul
    rw [packed]
    omega

/-- Each field of a packed word reads as its value. -/
theorem shows_packed {l : List (Nat × Nat × Nat)} (h : laidOut l = true) : Shows (packed l) l := by
  intro hv
  induction l with
  | nil => exact fun f hf => absurd hf List.not_mem_nil
  | cons f r ih =>
    obtain ⟨hf, hr, hlow⟩ := laidOut_cons h
    rw [List.forall_mem_cons] at hv ⊢
    obtain ⟨hv0, hv⟩ := hv
    have hrest := packed_lt hr hv hlow
    refine ⟨?_, fun g hg => ?_⟩
    · rw [bits_eq, packed, Nat.add_comm, Nat.add_mul_div_right _ _ (Nat.two_pow_pos _), Nat.div_eq_of_lt hrest, Nat.zero_add,
        Nat.mod_eq_of_lt hv0]
    · have hg' := hlow g hg
      have hgg := le_of_mem_laidOut hr g hg
      have hwhole : f.2.2 * 2 ^ f.2.1 = f.2.2 * 2 ^ (f.2.1 - (g.1 + 1)) * 2 ^ (g.1 + 1 - g.2.1) * 2 ^ g.2.1 := by
        rw [Nat.mul_assoc, Nat.mul_assoc, ← Nat.pow_add, ← Nat.pow_add]
        congr 2
        omega
      rw [bits_eq, packed, hwhole, Nat.add_comm, Nat.add_mul_div_right _ _ (Nat.two_pow_pos _), Nat.add_mul_mod_self_right, ← bits_eq]
      exact ih hr hv g hg

theorem shows_of_eq {w : Nat} {l : List (Nat × Nat × Nat)} (h : laidOut l = true) (hw : w = packed l) : Shows w l :=
  hw ▸ shows_packed h

/-! ### Ends of an instruction -/

/-- A sequence succeeds where both of its steps do. -/
theorem bind_eq_ok {α β : Type} {r : Res α} {f : α → Res β} {y : β} : (r >>= f) = .ok y ↔ ∃ x, r = .ok x ∧ f x = .ok y := by
  cases r with
  | error e => simp [bind, Except.bind]
  | ok x => simp [bind, Except.bind]

section Ends
variable {i : Instr} {s q : State} {f : State → Res State} {e : Effect}

/-- A ready instruction ends as its effect after its pops does. -/
theorem exec_of_effect {r : Res State} (hi : exec i s = finish s (s.doing (useOf i) f)) (hr : s.ready (useOf i) = .ok ())
    (hf : f (s.after i) = r) : exec i s = finish s r := by
  rw [hi, State.doing_ready f hr, ← hf]
  rfl

/-- Inside a masked window a wait for an event is a trap (R112). -/
theorem finish_masked (h : s.t.maskOpen = true) :
    finish s (.error (.wait true)) = .next (s.takeTrap .maskWindow (Config.freeXval s.fresh) s.t.pc false s.secw) := by
  rw [finish, h]
  rfl

/-- An instruction without operands pops nothing. -/
theorem State.take_none_t (s : State) : (s.take {}).t = s.t := by
  rw [State.take_t]
  rfl

theorem State.effect_ends_t (q : State) (e : Effect) : ((q.effect e).endAfter).t = q.t := by
  rw [State.endAfter_t, State.effect_t]

/-- An instruction that ends its chunk with one effect, and writes no register. -/
theorem leaves_of (hi : exec i s = finish s (s.doing (useOf i) f)) (hf : f (s.after i) = .ok (q.effect e).endAfter)
    (hq : (s.after i).Alike q) (ht : q.t = (s.after i).t) : Leaves i s e true none := by
  intro hr
  refine ⟨_, does_of_effect hi hf hr, ?_, fun _ => State.chunkEnds_endAfter _, (State.effect_ends_t q e).trans ht⟩
  rw [State.effs_endAfter_effect, hq.effs, (State.alike_after s i).effs]

/-- The same with a register. -/
theorem leaves_set {d : Reg} {w : Word} (hi : exec i s = finish s (s.doing (useOf i) f))
    (hf : f (s.after i) = .ok ((q.setG d w).effect e).endAfter) (hq : (s.after i).Alike q) (ht : q.t = (s.after i).t) :
    Leaves i s e true (some (d, w)) := by
  intro hr
  refine ⟨_, does_of_effect hi hf hr, ?_, fun _ => State.chunkEnds_endAfter _, ?_⟩
  · rw [State.effs_endAfter_effect, (State.alike_setG q d w).effs, hq.effs, (State.alike_after s i).effs]
  · rw [State.effect_ends_t, State.setG_t, ht]

end Ends

theorem reached32_iff (x : Nat) (y : Word) :
    reached32 x (y.toNat % 2 ^ 32) = decide (0 ≤ (BitVec.ofNat 32 x - y.truncate 32).toInt) := by
  have hy : (y.truncate 32).toNat = y.toNat % 2 ^ 32 := BitVec.toNat_setWidth _ _
  have hsub : (BitVec.ofNat 32 x - y.truncate 32).toNat = (x + 2 ^ 32 - y.toNat % 2 ^ 32) % 2 ^ 32 := by
    rw [BitVec.toNat_sub, hy, BitVec.toNat_ofNat]
    omega
  rw [reached32, BitVec.toInt_eq_toNat_cond, hsub, Nat.mod_mod, decide_eq_decide]
  split <;> omega

theorem reached32_of_le {x : Nat} {y : Word} (h : 0 ≤ (BitVec.ofNat 32 x - y.truncate 32).toInt) :
    reached32 x (y.toNat % 2 ^ 32) = true := (reached32_iff x y).trans (decide_eq_true h)

theorem reached32_of_not_le {x : Nat} {y : Word} (h : ¬0 ≤ (BitVec.ofNat 32 x - y.truncate 32).toInt) :
    reached32 x (y.toNat % 2 ^ 32) = false := (reached32_iff x y).trans (decide_eq_false h)

end Sys2Proof.Machine
end

section
/-! The mailbox counters and the copy instructions (R208-R218). -/
namespace Sys2Proof.Machine

-- One proof after another: the threads of many proofs at once do not fit the memory of the check.
set_option Elab.async false

/-! ### Counters (R216-R218) -/

section Counters
variable {s : State} {a b d : Reg}

theorem State.incr_after (s : State) (i : Instr) (c k v : Nat) : (s.after i).incr c k v =
    ((s.after i).effect (.post ⟨agentOf s.cur 0, c, k, v % 2 ^ 32, none⟩)).endAfter := by
  rw [State.incr, (State.alike_after s i).cur]

theorem mbincGlobal_stops {x : Acc} (h : s.access ea 4 .write = .ok x) (hx : ∀ c k, x.loc ≠ .counter c k) (v : Nat) :
    s.globalInc ea v = .error (.trap .protWrite (word ea) false) := by
  rw [State.globalInc, bind_passes h]
  split
  · next hl => exact absurd hl (hx _ _)
  · rfl

theorem globalInc_ok {x : Acc} {c k : Nat} (h : s.access ea 4 .write = .ok x) (hx : x.loc = .counter c k) (v : Nat) :
    s.globalInc ea v = .ok (((s.fillTlb s.cur s.myPart x.ea x.leaf).effect
      (.post ⟨agentOf s.cur 0, c, k, v % 2 ^ 32, none⟩)).endAfter) := by
  rw [State.globalInc, bind_passes h, hx]
  rfl

/-- MBINC's global form. -/
theorem leaves_globalInc {i : Instr} {ea v : Nat} {x : Acc} {c k : Nat}
    (hi : exec i s = finish s (s.doing (useOf i) fun s' => s'.globalInc ea v)) (h : (s.after i).access ea 4 .write = .ok x)
    (hx : x.loc = .counter c k) : Leaves i s (.post ⟨agentOf s.cur 0, c, k, v % 2 ^ 32, none⟩) true none := by
  have hok := globalInc_ok h hx v
  rw [show agentOf (s.after i).cur 0 = agentOf s.cur 0 by rw [(State.alike_after s i).cur]] at hok
  exact leaves_of hi hok (State.alike_fillTlb _ _ _ _) (State.fillTlb_t _ _ _ _)

/-- MBWAIT behind a counter that has come. -/
theorem mbwait_goes {n : BitVec 6} (h : 0 ≤ (BitVec.ofNat 32 (s.mbVal n.toNat) - (s.gIn a).truncate 32).toInt)
    (hl : (s.mbLatch n.toNat).ep = false ∨ s.t.cetrap = false) : Does (.mbwait d a n) s
      ((s.after (.mbwait d a n)).setG d (if (s.mbLatch n.toNat).ep then word (s.mbLatch n.toNat).word else 0)).endAfter := by
  refine does_of_effect rfl ((if_neg (by rw [reached32_of_le h]; decide)).trans ?_)
  cases hep : (s.mbLatch n.toNat).ep with
  | false => exact if_pos (by rw [hep]; rfl)
  | true =>
    have hce : s.t.cetrap = false := hl.resolve_left (by simp [hep])
    exact (if_neg (by simp [hep])).trans ((if_neg (by simp [hce])).trans rfl)

theorem mbwait_counterError {n : BitVec 6} (h : 0 ≤ (BitVec.ofNat 32 (s.mbVal n.toNat) - (s.gIn a).truncate 32).toInt)
    (hep : (s.mbLatch n.toNat).ep = true) (hce : s.t.cetrap = true) (hr : s.ready (useOf (.mbwait d a n)) = .ok ()) :
    exec (.mbwait d a n) s = finish s (.error (.trap .counterError (word (s.mbLatch n.toNat).word) true)) :=
  exec_of_effect rfl hr ((if_neg (by rw [reached32_of_le h]; decide)).trans ((if_neg (by simp [hep])).trans (if_pos hce)))

theorem mbwait_waits {n : BitVec 6} (h : ¬0 ≤ (BitVec.ofNat 32 (s.mbVal n.toNat) - (s.gIn a).truncate 32).toInt)
    (hr : s.ready (useOf (.mbwait d a n)) = .ok ()) : exec (.mbwait d a n) s = finish s (.error (.wait true)) :=
  exec_of_effect rfl hr (if_pos (by rw [reached32_of_not_le h]; rfl))

theorem leaves_mberrC (n : BitVec 6) : Leaves (.mberrC d n) s
    (.mberrClear n.toNat (if s.t.heldNow then none else some (s.t.level, d))) true (some (d, word (s.mbLatch n.toNat).word)) := by
  refine leaves_set rfl rfl ?_ ?_
  all_goals split
  · exact State.alike_noteLines _ _
  · exact State.Alike.refl _
  · exact State.noteLines_t _ _
  · rfl

end Counters

/-! ### The latch that MBERR.C clears at its commit -/

section Clear
variable {s : State} {c n : Nat}

/-- Where no chunk has read a latch, its change disturbs nobody. -/
theorem State.latchChanged_of_unread (hh : ∀ h, (s.core c).held = some h → ∀ ch ∈ h.chunks, latchLine c n ∉ ch.rd)
    (hc : ∀ ch, (s.core c).chunk = some ch → latchLine c n ∉ ch.rd) : s.latchChanged c n = s := by
  have hheld : (match (s.core c).held with
      | some h => if h.chunks.any (fun ch => ch.rd.contains (latchLine c n)) then State.knockDown 8 s c true else s
      | none => s) = s := by
    cases hk : (s.core c).held with
    | none => rfl
    | some h => exact if_neg (by simpa using hh h hk)
  unfold State.latchChanged
  extract_lets read s'
  have hs : s' = s := hheld
  rw [hs]
  cases hk : (s.core c).chunk with
  | none => rfl
  | some ch => exact if_neg (by simpa [read] using hc ch hk)

/-- The register that the clearing latch is read into, if the firing is still there. -/
def Core.takeLatch (k : Core) (f : Firing) (n : Nat) : Option (Nat × Reg) → Core
  | some (level, d) =>
    if (if level = 1 then k.t.fir1 else k.t.fir0).any (·.serial = f.serial) then
      k.both fun t => t.setGAt level d (word (FMap.get Latch.clear k.mbLatch n).word)
    else k
  | none => k

/-- A core and what it becomes by a change of its tentative part alone. -/
theorem Core.takeLatch_cases (k : Core) (f : Firing) (n : Nat) (dest : Option (Nat × Reg)) :
    k.takeLatch f n dest = k ∨ ∃ g, k.takeLatch f n dest = k.both g := by
  rcases dest with _ | ⟨level, d⟩
  · exact .inl rfl
  · exact (ite_eq_or_eq _ _ _).symm.imp id fun h => ⟨_, h⟩

theorem State.applyEffect_mberrClear (f : Firing) (dest : Option (Nat × Reg))
    (hh : ∀ h, (s.core c).held = some h → ∀ ch ∈ h.chunks, latchLine c n ∉ ch.rd)
    (hc : ∀ ch, (s.core c).chunk = some ch → latchLine c n ∉ ch.rd) :
    s.applyEffect c (some f) (.mberrClear n dest) =
      s.updCore c fun k => { k.takeLatch f n dest with mbLatch := FMap.del k.mbLatch n } := by
  have happly : s.applyEffect c (some f) (.mberrClear n dest) =
      (s.updCore c fun k => { k.takeLatch f n dest with mbLatch := FMap.del k.mbLatch n }).latchChanged c n := by
    rcases dest with _ | ⟨level, d⟩ <;> rfl
  rw [happly]
  apply State.latchChanged_of_unread
  all_goals
    rw [State.updCore_core_self]
    rcases Core.takeLatch_cases (s.core c) f n dest with h | ⟨g, h⟩
  · rw [h]; exact hh
  · rw [h]
    intro x hx
    obtain ⟨y, hy, rfl⟩ := Option.map_eq_some_iff.1 hx
    exact hh y hy
  · rw [h]; exact hc
  · rw [h]
    intro x hx
    obtain ⟨y, hy, rfl⟩ := Option.map_eq_some_iff.1 hx
    exact hc y hy

end Clear

/-- Settles O21: posts at the commit, waits by the value and the latch, and the latch that MBERR.C clears. -/
theorem counters : Obligations.Counters := by
  unfold Obligations.Counters
  refine ⟨fun s a b imm n => ?posts, fun s d a n => ?waits, fun s d a n => ?reads, ?clear⟩
  case posts =>
    refine ⟨leaves_of rfl (congrArg _ (State.incr_after s _ _ _ _)) (State.Alike.refl _) rfl, fun _ => ?imm, fun x c k h hx => leaves_globalInc rfl h hx,
      fun x c k h hx => ?glob, fun x hr h hx => traps_of_effect rfl hr ?away⟩
    case away => rw [mbincGlobal_stops h hx, word_toNat]
    case imm =>
      refine ⟨_, rfl, ?_, fun _ => State.chunkEnds_endAfter _, ?_⟩
      · rw [State.incr, State.effs_endAfter_effect, Nat.mod_eq_of_lt (by omega)]
      · exact (State.effect_ends_t s _).trans (State.take_none_t s).symm
    case glob =>
      have := leaves_globalInc (i := .mbincGlobalImm a imm) (v := imm.toNat) rfl h hx
      rwa [Nat.mod_eq_of_lt (by omega)] at this
  case waits =>
    exact ⟨fun h hl => mbwait_goes h hl, fun h hep hce hr => mbwait_counterError h hep hce hr,
      fun h hr hm => (mbwait_waits h hr).trans (finish_wait hm), fun h hr hm => (mbwait_waits h hr).trans (finish_masked hm)⟩
  case reads =>
    exact ⟨puts_of rfl, puts_of rfl, leaves_of rfl rfl (State.Alike.refl _) rfl, leaves_mberrC n⟩
  case clear =>
    intro s c n level d f t readBy hh hc
    have happly := fun dest => State.applyEffect_mberrClear (s := s) f dest hh hc
    refine ⟨fun hf => ?_, ?_, fun dest k => ?_⟩
    · change ((s.applyEffect c (some f) (.mberrClear n (some (level, d)))).core c).t = _
      rw [happly, State.updCore_core_self, Core.takeLatch, if_pos hf, Core.both_t]
    · change ((s.applyEffect c (some f) (.mberrClear n none)).core c).t = _
      rw [happly, State.updCore_core_self]
      rfl
    · change FMap.get _ ((s.applyEffect c (some f) (.mberrClear n dest)).core c).mbLatch k = _
      rw [happly, State.updCore_core_self]
      split
      · next h => exact h ▸ FMap.get_del_self _ _ _
      · next h => exact FMap.get_del_other _ _ _ _ h

/-! ### Copies (R211-R214) -/

section Copies
variable {s : State} {a d : Reg}

/-- The wait for an engine's completion arms itself (R362). -/
theorem State.pengWait_keeps (q : State) : q.pengWait.t = q.t ∧ q.pengWait.me.chunk = q.me.chunk := by
  rw [State.pengWait]
  split
  · rw [State.updMe_t, State.updMe_me, Core.setWaiting_t, Core.setWaiting_chunk]
    exact ⟨rfl, rfl⟩
  · exact ⟨rfl, rfl⟩

theorem State.pengWait_effs (q : State) : q.pengWait.effs = q.effs := by
  rw [State.effs, State.effs, (State.pengWait_keeps q).2]

theorem State.pengWait_chunkEnds (q : State) : q.pengWait.chunkEnds = q.chunkEnds := by
  rw [State.chunkEnds, State.chunkEnds, (State.pengWait_keeps q).2]

theorem State.readBlock_ok {q : State} {ea n : Nat} {r : State × List Byte} (h : q.readBlock ea n = .ok r) :
    q.Alike r.1 ∧ r.1.t = q.t := by
  obtain ⟨_, _, h⟩ := bind_eq_ok.1 h
  obtain ⟨x, _, h⟩ := bind_eq_ok.1 h
  obtain ⟨_, _, h⟩ := bind_eq_ok.1 h
  obtain rfl := Except.ok.inj h
  exact ⟨(State.alike_noteRead q x).trans (State.alike_ioSeal _ x), (State.ioSeal_t _ x).trans (State.noteRead_t _ x)⟩

/-- The copy that CPY leaves. -/
def State.newCopy (s : State) (three : Bool) (ch : Nat) (desc : List Byte) : Copy :=
  { inst := s.t.inst, part := s.myPart, user := !s.t.sup, peng := s.t.peng, ch := ch, id := FMap.get 1 s.t.nextId ch,
    three := three, desc := desc, active := false, wins := [], regions := (none, none), perms := [],
    cnt := none, pos := 0, bytes := 0, place := none, bad := none, tlb := [], born := 0 }

theorem copyIssue_does {i : Instr} {three : Bool} {ch : Nat} {r : State × List Byte} (hi : exec i s = copyIssue i three d a ch s)
    (hh : s.t.heldNow = false) (hb : (s.after i).readBlock (s.gIn a).toNat 128 = .ok r)
    (hst : ∀ off, off = 0x10 ∨ off = 0x14 → s.staleSeen (fieldAt r.2 off 4) = false) (hq : s.copyQueueFull = false) :
    Does i s (((((r.1.setG d (word (FMap.get 1 s.t.nextId ch))).updT fun t =>
      { t with nextId := FMap.put t.nextId ch ((FMap.get 1 s.t.nextId ch + 1) % 2 ^ 32) }).effect
        (.copy (s.newCopy three ch r.2))).endAfter).pengWait) := by
  refine does_of_effect hi ((check_passes ?_).trans ((bind_passes hb).trans ((check_passes (faultIf_neg ?_)).trans
    ((check_passes (faultIf_neg ?_)).trans ((if_neg ?_).trans rfl)))))
  · rw [State.notHeld, hh]; rfl
  · rw [hst 0x10 (.inl rfl)]; decide
  · rw [hst 0x14 (.inr rfl)]; decide
  · rw [hq]; decide

theorem State.after_nextId (s : State) (i : Instr) : (s.after i).t.nextId = s.t.nextId := by
  rw [State.after, State.take_t, CoreT.popped, (popT_popped _ s.t).1]

theorem copyIssue_leaves {i : Instr} {three : Bool} {ch : Nat} {r : State × List Byte} (hi : exec i s = copyIssue i three d a ch s)
    (hh : s.t.heldNow = false) (hb : (s.after i).readBlock (s.gIn a).toNat 128 = .ok r)
    (hst : ∀ off, off = 0x10 ∨ off = 0x14 → s.staleSeen (fieldAt r.2 off 4) = false) (hq : s.copyQueueFull = false)
    (hr : s.ready (useOf i) = .ok ()) : ∃ t, exec i s = .next t ∧ t.effs = s.effs ++ [.copy (s.newCopy three ch r.2)] ∧
      t.chunkEnds = true ∧ t.t = { (s.after i).t.setG d (word (FMap.get 1 s.t.nextId ch)) with
        nextId := FMap.put s.t.nextId ch ((FMap.get 1 s.t.nextId ch + 1) % 2 ^ 32) } := by
  obtain ⟨hread, hrt⟩ := State.readBlock_ok hb
  have halike := ((State.alike_after s i).trans hread).trans (State.alike_setG r.1 d (word (FMap.get 1 s.t.nextId ch)))
  refine ⟨_, copyIssue_does hi hh hb hst hq hr, ?_, ?_, ?_⟩
  · rw [State.pengWait_effs, State.effs_endAfter_effect]
    refine congrArg (· ++ _) (Eq.trans ?_ halike.effs)
    exact (State.alike_updT _ (by rfl) (by rfl) (by rfl) (by rfl)).effs
  · rw [State.pengWait_chunkEnds, State.chunkEnds_endAfter]
  · rw [(State.pengWait_keeps _).1, State.effect_ends_t, State.updT_t, State.setG_t, hrt]
    dsimp only
    rw [CoreT.setG_nextId, State.after_nextId]

theorem cstatWord_eq (s : State) (ch : Nat) : s.cstatWord ch = word (2 ^ 63 * b2n (s.chLatch ch).ep + 2 ^ 62 * b2n (s.chLatch ch).multi
    + 2 ^ 48 * (s.chLatch ch).code + 2 ^ 40 * (s.me.eng.copies.filter fun c => c.ch = ch).length
    + FMap.get 0 s.me.eng.doneId ch) := by
  simp only [State.cstatWord, Nat.shiftLeft_eq, Nat.mul_comm]

/-- CWAIT behind a channel that has come. -/
theorem cwait_goes {ch : BitVec 2} (h : 0 ≤ (BitVec.ofNat 32 (FMap.get 0 s.me.eng.doneId ch.toNat) - (s.gIn a).truncate 32).toInt)
    (hl : (s.chLatch ch.toNat).ep = false ∨ s.t.cetrap = false) : Does (.cwait d a ch) s
      ((s.after (.cwait d a ch)).setG d (if (s.chLatch ch.toNat).ep then s.cstatWord ch.toNat else 0)) := by
  refine does_of_effect rfl ((if_neg (by rw [reached32_of_le h]; decide)).trans ?_)
  cases hep : (s.chLatch ch.toNat).ep with
  | false => rfl
  | true =>
    have hce : s.t.cetrap = false := hl.resolve_left (by simp [hep])
    exact (if_neg (by decide)).trans (if_neg (by simp [hce]))

end Copies

/-- Settles O22: copies leave with their descriptor, and waits by DONEID and the latch. -/
theorem copies : Obligations.Copies := by
  unfold Obligations.Copies
  refine ⟨fun s d a ch three r => ?copy, fun s d a ch => ?status, fun s d a => ?perm⟩
  case copy =>
    intro i id hh hb hst hq hr
    have hi : exec i s = copyIssue i three d a ch.toNat s := by cases three <;> rfl
    obtain ⟨t, hexec, heffs, hends, hpart⟩ := copyIssue_leaves hi hh hb hst hq hr
    exact ⟨t, _, hexec, heffs, hends, rfl, rfl, rfl, rfl, rfl, rfl, rfl, rfl, rfl, hpart⟩
  case status =>
    intro i l done st reached
    have hst : st = s.cstatWord ch.toNat := (cstatWord_eq s ch.toNat).symm
    rw [hst]
    refine ⟨puts_of rfl, does_of_effect rfl rfl, fun h hl => cwait_goes h hl, fun h hep hce hr => ?_, fun h hr hm => ?_⟩
    · exact exec_of_effect rfl hr ((if_neg (by rw [reached32_of_le h]; decide)).trans ((if_neg (by simpa using hep)).trans (if_pos hce)))
    · exact (exec_of_effect rfl hr (if_pos (by rw [reached32_of_not_le h]; rfl))).trans (finish_wait hm)
  case perm =>
    have hbits : wbits (s.gIn a) 60 16 = (s.gIn a).toNat / 2 ^ 16 % 2 ^ 45 := bits_eq _ 60 16
    refine ⟨fun h => leaves_set rfl (if_neg (by rw [hbits, h]; decide)) (State.Alike.refl _) rfl,
      fun h hr => ?_⟩
    refine traps_of_effect rfl hr ((if_pos (by rwa [hbits])).trans ?_)
    rfl

end Sys2Proof.Machine
end

section
/-! Fences, masked windows and the kiln's snapshots (R112, R117, R118, R296, R297). -/
namespace Sys2Proof.Machine

-- One proof after another: the threads of many proofs at once do not fit the memory of the check.
set_option Elab.async false

theorem mem_span {a n k : Nat} : k ∈ span a n ↔ a ≤ k ∧ k < a + n := by
  refine ⟨span_mem, fun h => ?_⟩
  induction n generalizing a with
  | zero => omega
  | succ n ih =>
    rw [span, List.mem_cons]
    rcases Nat.eq_or_lt_of_le h.1 with rfl | hlt
    · exact .inl rfl
    · exact .inr (ih ⟨hlt, by omega⟩)

section Fences
variable {s : State} {cls : BitVec 7}

theorem State.fenced_of (h : ∀ k, k < 7 → cls.getLsbD k = true → s.classDone s.cur s.fenceBounds k = true) : s.fenced cls = true := by
  rw [State.fenced, List.all_eq_true]
  intro k hk
  cases hc : cls.getLsbD k with
  | false => rfl
  | true => exact h k ((Nat.zero_add 7).le.trans_lt' (span_mem hk).2) hc

theorem State.not_fenced_of {k : Nat} (hk : k < 7) (hc : cls.getLsbD k = true)
    (h : s.classDone s.cur s.fenceBounds k = false) : s.fenced cls = false := by
  rw [State.fenced, List.all_eq_false]
  exact ⟨k, mem_span.2 ⟨Nat.zero_le k, by omega⟩, by simp [hc, h]⟩

/-- A FENCE with nothing before it in its chunk, or with an empty mask, looks at its classes. -/
theorem fence_alone (h : cls = 0#7 ∨ s.chunkBusy = false) : exec (.fence cls) s = finish s
    (if s.fenced cls then .ok (s.updMe fun k => k.unarm s.t.level).endAfter
     else if s.t.maskOpen then .error (.wait true)
     else .ok ((s.updMe fun k => { k.setWaiting s.t.level
        { Waiting.idle with await := .fence s.fenceBounds.1 s.fenceBounds.2.1 s.fenceBounds.2.2 } with chunk := none }).stay)) := by
  by_cases hc : cls = 0#7
  · subst hc
    rfl
  · have hown := State.ownChunk_ok (h.resolve_left hc)
    exact congrArg (finish s) ((if_pos hc).trans (bind_passes hown))

theorem fence_waits (hc : cls ≠ 0#7) (hb : s.chunkBusy = true) : exec (.fence cls) s = .next s.stall := by
  have hown : s.ownChunk = .error (.wait false) := by rw [State.ownChunk, hb]; rfl
  exact congrArg (finish s) ((if_pos hc).trans (bind_stops hown))

end Fences

/-! ### The kiln's snapshots (R118) -/

theorem sat_eq_min (n x : Nat) : sat n x = min (2 ^ n - 1) x := by
  have := Nat.two_pow_pos n
  rw [sat]
  split <;> omega

/-- Settles O20: FENCE by its mask and what stands before it, the masked window, and the fields of KILNRD's snapshots. -/
theorem fencesMasks : Obligations.FencesMasks := by
  unfold Obligations.FencesMasks
  refine ⟨fun s cls => ⟨fun h => ?bounds, fun h hd => ?done, fence_waits, fun k hk hc hd hb => ⟨fun hm => ?arm, fun hm => ?masked⟩, rfl⟩,
    fun s d sel => ⟨fun hs hm => ?closed, fun hs hm => ?opened, fun hs => ?special, puts_of rfl, ?view0, ?view1, fun f hf => ?view2, ?view3⟩⟩
  case bounds =>
    rw [State.fenceBounds]
    split
    · next n lo hi hw => exact absurd hw (h n lo hi)
    · rfl
  case done => rw [fence_alone h, if_pos (State.fenced_of hd)]; rfl
  case arm =>
    refine ⟨_, (fence_alone (.inr hb)).trans (congrArg (finish s) ((if_neg (by simp [State.not_fenced_of hk hc hd])).trans
      (if_neg (by simp [hm])))), ?_, ?_, ?_, ?_, rfl⟩
    · rw [State.stay_t, State.updMe_t, State.t]
      exact Core.setWaiting_t _ _ _
    · rw [State.stay, State.updMe_me]
    · rw [State.stay, State.updMe_me, State.updMe_me]
    · rw [State.stay, State.updMe_me, State.updMe_me]
      exact Core.setWaiting_waiting _ _ _
  case masked =>
    rw [fence_alone (.inr hb), if_neg (by simp [State.not_fenced_of hk hc hd]), if_pos hm]
    exact finish_masked hm
  case closed =>
    constructor
    · change execMaskon s = _
      rw [execMaskon, if_neg (by simp [hs, hm])]; rfl
    · change execMaskoff s = _
      rw [execMaskoff, if_pos (by simp [hm])]; rfl
  case opened =>
    constructor
    · change execMaskoff s = _
      rw [execMaskoff, if_neg (by simp [hs, hm])]; rfl
    · change execMaskon s = _
      rw [execMaskon, if_pos (by simp [hm])]; rfl
  case special =>
    constructor
    · change execMaskon s = _
      rw [execMaskon, if_pos (by simp [hs])]; rfl
    · change execMaskoff s = _
      rw [execMaskoff, if_pos (by simp [hs])]; rfl
  case view0 =>
    intro k
    exact shows_of_eq rfl (by simp [packed, State.kilnView, Nat.shiftLeft_eq, Nat.add_assoc, k])
  case view1 =>
    intro q
    exact shows_of_eq rfl (by simp [packed, State.kilnView, Nat.shiftLeft_eq, Nat.add_assoc, sat_eq_min, q])
  case view2 =>
    exact shows_of_eq rfl (by simp [packed, State.kilnView, hf, Nat.shiftLeft_eq, Nat.add_assoc, sat_eq_min, b2n])
  case view3 => exact shows_of_eq rfl (by simp [packed, State.kilnView, Nat.shiftLeft_eq])

end Sys2Proof.Machine
end

section
/-! Rack registers: bindings, waits, views and moves (R143-R147). -/
namespace Sys2Proof.Machine

-- One proof after another: the threads of many proofs at once do not fit the memory of the check.
set_option Elab.async false

theorem bit_eq_decide (x i : Nat) : bit x i = decide (x / 2 ^ i % 2 = 1) := Nat.testBit_eq_decide_div_mod_eq

/-- An instruction without operands is ready. -/
theorem State.ready_none (s : State) : s.ready {} = .ok () :=
  State.ready_of_unbound (by simp [keysOf]) rfl rfl List.not_mem_nil List.not_mem_nil

/-! ### RKSET (R144) -/

section Rkset
variable {s : State} {k a : Reg}

/-- The bits that RKSET's word leaves reserved are zero. -/
abbrev rackFits (w : Nat) : Prop := w / 2 ^ 21 % 2 ^ 10 = 0 ∧ w / 2 ^ 32 = 0

/-- Its rack has at least two slots, a slot size there is, and lies below the mailbox. -/
abbrev rackShape (w : Nat) : Prop := 1 ≤ w / 2 ^ 15 % 64 ∧ w / 2 ^ 11 % 16 ≤ 8 ∧
  w % 2 ^ 11 * 64 + (w / 2 ^ 15 % 64 + 1) * (64 * 2 ^ (w / 2 ^ 11 % 16)) ≤ 0x1C000

/-- RKSET's effect by what its word is. -/
def State.rackSet (s : State) (k : Reg) (w : Nat) (s' : State) : Res State :=
  if ¬rackFits w then s.freeFault .rackUnbound
  else if w / 2 ^ 31 % 2 = 0 then .ok (s'.updT fun t => { t with binds := FMap.del t.binds k.toNat })
  else if ¬rackShape w then s.freeFault .rackUnbound
  else
    match s.me.rack? (w % 2 ^ 11) with
    | some q =>
      if q.sz = w / 2 ^ 11 % 16 ∧ q.cntm1 = w / 2 ^ 15 % 64 then
        .ok (s'.updT fun t => { t with binds := FMap.put t.binds k.toNat (w % 2 ^ 11) })
      else s.freeFault .rackUnbound
    | none =>
      if (s.me.racks ++ s.t.locals).any (fun p => rackOverlap (w % 2 ^ 11) (rackOfWord w s.t.level) p.1 p.2) then
        s.freeFault .rackUnbound
      else if 16 ≤ s.t.locals.length then s.freeFault .rackUnbound
      else .ok ((s'.updT fun t => { t with locals := FMap.put t.locals (w % 2 ^ 11) (rackOfWord w s.t.level) }).updT fun t =>
        { t with binds := FMap.put t.binds k.toNat (w % 2 ^ 11) })

theorem rkset_eq : exec (.rkset k a) s = finish s (s.doing (useOf (.rkset k a)) (s.rackSet k (s.gIn a).toNat)) := by
  have hlt : (s.gIn a).toNat < 2 ^ 64 := (s.gIn a).isLt
  generalize hw : (s.gIn a).toNat = w at hlt
  have hfits : (bits w 30 21 ≠ 0 || bits w 63 32 ≠ 0) = true ↔ ¬rackFits w := by
    rw [bits_eq, bits_eq, rackFits, Nat.mod_eq_of_lt (b := 2 ^ (63 + 1 - 32)) (by omega)]
    simp [imp_iff_not_or]
  have hbit : (!bit w 31) = true ↔ w / 2 ^ 31 % 2 = 0 := by
    rw [bit_eq_decide, Bool.not_eq_true', decide_eq_false_iff_not]
    omega
  have hshape : ((rackOfWord w s.t.level).cntm1 = 0 || (rackOfWord w s.t.level).sz > 8 ||
      bits w 10 0 * 64 + (rackOfWord w s.t.level).n * (rackOfWord w s.t.level).slotSize > 0x1C000) = true ↔ ¬rackShape w := by
    simp only [rackOfWord, Rack.n, Rack.slotSize, rackShape, bits_eq]
    norm_num
    omega
  have hbase : bits w 10 0 = w % 2 ^ 11 := by rw [bits_eq, Nat.pow_zero, Nat.div_one]
  have hsz : (rackOfWord w s.t.level).sz = w / 2 ^ 11 % 16 := bits_eq _ _ _
  have hcnt : (rackOfWord w s.t.level).cntm1 = w / 2 ^ 15 % 64 := bits_eq _ _ _
  change execRkset k a s = _
  refine congrArg (fun f => finish s (s.doing (useOf (.rkset k a)) f)) (funext fun s' => ?_)
  simp only [hw, if_congr hfits rfl rfl, if_congr hbit rfl rfl, if_congr hshape rfl rfl, State.rackSet]
  rw [hbase]
  simp only [hsz, hcnt, Bool.and_eq_true, decide_eq_true_eq, ge_iff_le] <;>
    cases s.me.rack? (w % 2 ^ 11) <;> rfl

section Word
variable {w : Nat} {s' : State} (hf : rackFits w)
include hf

theorem State.rackSet_unbinds (h : w / 2 ^ 31 % 2 = 0) :
    s.rackSet k w s' = .ok (s'.updT fun t => { t with binds := FMap.del t.binds k.toNat }) := by
  rw [State.rackSet, if_neg (not_not.2 hf), if_pos h]

variable (h1 : w / 2 ^ 31 % 2 = 1)
include h1

theorem State.rackSet_no_shape (h : ¬rackShape w) : s.rackSet k w s' = s.freeFault .rackUnbound := by
  rw [State.rackSet, if_neg (not_not.2 hf), if_neg (by omega), if_pos h]

variable (hs : rackShape w)
include hs

theorem State.rackSet_known {q : Rack} (hq : s.me.rack? (w % 2 ^ 11) = some q) : s.rackSet k w s' =
    if q.sz = w / 2 ^ 11 % 16 ∧ q.cntm1 = w / 2 ^ 15 % 64 then
      .ok (s'.updT fun t => { t with binds := FMap.put t.binds k.toNat (w % 2 ^ 11) })
    else s.freeFault .rackUnbound := by
  rw [State.rackSet, if_neg (not_not.2 hf), if_neg (by omega), if_neg (not_not.2 hs), hq]

theorem State.rackSet_new (hq : s.me.rack? (w % 2 ^ 11) = none) : s.rackSet k w s' =
    if (s.me.racks ++ s.t.locals).any (fun p => rackOverlap (w % 2 ^ 11) (rackOfWord w s.t.level) p.1 p.2) then
      s.freeFault .rackUnbound
    else if 16 ≤ s.t.locals.length then s.freeFault .rackUnbound
    else .ok ((s'.updT fun t => { t with locals := FMap.put t.locals (w % 2 ^ 11) (rackOfWord w s.t.level) }).updT fun t =>
      { t with binds := FMap.put t.binds k.toNat (w % 2 ^ 11) }) := by
  rw [State.rackSet, if_neg (not_not.2 hf), if_neg (by omega), if_neg (not_not.2 hs), hq]

end Word

/-- RKSET refused by its word: its XVAL is free. -/
theorem rkset_traps (hr : s.ready (useOf (.rkset k a)) = .ok ())
    (h : s.rackSet k (s.gIn a).toNat (s.after (.rkset k a)) = s.freeFault .rackUnbound) :
    Traps (.rkset k a) s .rackUnbound (Config.freeXval s.fresh) :=
  traps_of_effect rkset_eq hr h

end Rkset

/-! ### Bound racks -/

section Bound
variable {s : State} {d k : Reg} {n : BitVec 7} {b : Nat} {r : Rack}

theorem State.boundRack_none (h : FMap.find? s.t.binds k.toNat = none) :
    s.boundRack k = .error (.trap .rackUnbound (word k.toNat) false) := by
  rw [State.boundRack, h]; rfl

/-- RKWF and RKWS behind a count there is. -/
theorem rackWait_eq {i : Instr} {m : Nat} {have' : Rack → Nat} (hi : exec i s = rackWait i k m have' s) (hu : s.ready (useOf i) = .ok ())
    (hb : s.boundRack k = .ok b) (hs : s.recSeen b = .ok r) :
    exec i s = finish s (if r.n < m then fault .rackOverrun m else if m ≤ have' r then .ok (s.after i) else .error (.wait true)) := by
  refine exec_of_effect (hi.trans rfl) hu ((bind_passes hb).trans ((bind_passes hs).trans ?_))
  by_cases h : r.n < m
  · rw [if_pos h]
    exact check_stops (if_pos (decide_eq_true h))
  · rw [if_neg h]
    exact check_passes (if_neg (by simpa using h))

theorem rackWait_traps {i : Instr} {m : Nat} {have' : Rack → Nat} (hi : exec i s = rackWait i k m have' s)
    (hu : s.ready (useOf i) = .ok ()) (h : FMap.find? s.t.binds k.toNat = none) : Traps i s .rackUnbound (word k.toNat) :=
  traps_of_effect (hi.trans rfl) hu (bind_stops (State.boundRack_none h))

/-- The lines that enter the read signature with the others of a chunk. -/
theorem mem_noteLines (l : Nat) (rd ls : List Nat) : l ∈ rd ++ ls.filter (fun l => !rd.contains l) ↔ l ∈ rd ∨ l ∈ ls := by
  by_cases h : l ∈ rd <;> simp [h]

/-- RKADV's fills: a move of the open chunk, counted as its port's sends. -/
theorem rkadv_fills {s1 : State} (hb : s.boundRack k = .ok b) (hs : s.recSeen b = .ok r) (hn : n.toNat ≤ r.room)
    (h1 : (match s.myOut b with
        | some p => (s.after (.rkadv k n 1#1)).countSent p n.toNat
        | none => .ok (s.after (.rkadv k n 1#1))) = .ok s1) :
    Does (.rkadv k n 1#1) s (s1.withChunk fun ch =>
        { ch with moves := FMap.upd (0, 0) ch.moves b fun p => (p.1 + n.toNat, p.2) }) :=
  does_of_effect rfl ((bind_passes hb).trans ((bind_passes hs).trans ((if_pos rfl).trans
    ((check_passes (faultIf_neg (by simpa using hn))).trans (bind_passes h1)))))

/-- The claims that frees of a rack give up (R228). -/
def State.unclaimed (s : State) (b m : Nat) : State :=
  s.updT fun t => if t.claimed b = 0 then t else t.setClaimed b (t.claimed b - m)

theorem State.unclaimed_of_zero {q : State} (m : Nat) (h : q.t.claimed b = 0) : (q.unclaimed b m).me = q.me := by
  rw [State.unclaimed, State.updT_me, if_pos h]
  rfl

theorem rkadv_frees {s1 : State} (hb : s.boundRack k = .ok b) (hs : s.recSeen b = .ok r) (hn : n.toNat ≤ r.nfill)
    (h1 : (s.after (.rkadv k n 0#1)).countFree b n.toNat = .ok s1) :
    Does (.rkadv k n 0#1) s (((s1.unclaimed b n.toNat).noteLines (s.popLines b r n.toNat)).withChunk fun ch =>
        { ch with moves := FMap.upd (0, 0) ch.moves b fun p => (p.1, p.2 + n.toNat) }) :=
  does_of_effect rfl ((bind_passes hb).trans ((bind_passes hs).trans ((if_neg (by decide)).trans
    ((check_passes (faultIf_neg (by simpa using hn))).trans (bind_passes h1)))))

/-- The chunk that noted lines leave. -/
theorem State.noteLines_chunk (q : State) (ls : List Nat) : (q.noteLines ls).me.open' =
    { q.me.open' with rd := q.me.open'.rd ++ ls.filter fun l => !q.me.open'.rd.contains l } := by
  rw [State.noteLines, State.withChunk_me]
  rfl

/-- The lines of the slots that a firing which is not held pops. -/
theorem mem_popLines_plain {m l : Nat} (hh : s.t.heldNow = false) : l ∈ s.popLines b r m ↔
    ∃ i ∈ span r.free m, l ∈ linesOf (padOfCore s.cur + r.slotOff b i) r.slotSize := by
  have hd : s.dryHead b = none := by
    rw [State.dryHead, State.dryBase, hh]
    rfl
  rw [State.popLines, hd, List.mem_flatMap]

theorem rkadv_overruns {w : BitVec 1} (hb : s.boundRack k = .ok b) (hs : s.recSeen b = .ok r)
    (hn : (if w = 1#1 then r.room else r.nfill) < n.toNat) (hr : s.ready (useOf (.rkadv k n w)) = .ok ()) :
    Traps (.rkadv k n w) s .rackOverrun (word n.toNat) := by
  refine traps_of_effect rfl hr ((bind_passes hb).trans ((bind_passes hs).trans ?_))
  split at hn
  · next h => exact (if_pos h).trans (check_stops (faultIf_pos (by simpa using hn)))
  · next h => exact (if_neg h).trans (check_stops (faultIf_pos (by simpa using hn)))

end Bound

/-- Settles O23: RKSET by its word, the waits and views of a bound record, and its moves. -/
theorem racks : Obligations.Racks := by
  unfold Obligations.Racks
  refine ⟨fun s k a => ?rkset, fun s d k n sel => ⟨fun b r hb hs => ?bound, fun hb => ?unbound⟩, fun s k n b r hb hs => ?moves⟩
  case rkset =>
    intro i w base r fits shape
    refine ⟨fun hf h => ?unbind, fun hf h hs q hq hsz hcnt => ?known, fun hf h hs hq ho hl => ?new, fun hf hr => ?unfit,
      fun hr hf h => ⟨fun hs => ?noShape, fun hs q hq hne => ?other, fun hs hq ho => ?overlap, fun hs hq ho hl => ?full⟩⟩
    case unbind => exact does_of_effect rkset_eq (State.rackSet_unbinds hf h)
    case known => exact does_of_effect rkset_eq ((State.rackSet_known hf h hs hq).trans (if_pos ⟨hsz, hcnt⟩))
    case new =>
      refine ⟨_, does_of_effect rkset_eq ((State.rackSet_new hf h hs hq).trans ((if_neg (by rw [ho]; decide)).trans
        (if_neg (Nat.not_le.2 hl)))), ?_, ?_⟩
      · rw [State.updT_t]
        exact FMap.find_put_self _ _ _
      · rw [State.updT_t, State.updT_t]
        exact FMap.find_put_self _ _ _
    case unfit => exact rkset_traps hr (if_pos hf)
    case noShape => exact rkset_traps hr (State.rackSet_no_shape hf h hs)
    case other => exact rkset_traps hr ((State.rackSet_known hf h hs hq).trans (if_neg (by rw [not_and_or]; exact hne)))
    case overlap => exact rkset_traps hr ((State.rackSet_new hf h hs hq).trans (if_pos ho))
    case full =>
      exact rkset_traps hr ((State.rackSet_new hf h hs hq).trans ((if_neg (by rw [ho]; decide)).trans (if_pos hl)))
  case bound =>
    have hwf := rackWait_eq (i := .rkwf k n) (have' := (·.nfill)) rfl (State.ready_none s) hb hs
    have hws := rackWait_eq (i := .rkws k n) (have' := (·.room)) rfl (State.ready_none s) hb hs
    refine ⟨fun hn h _ => ?_, fun hn h _ => ?_, fun hn _ => ?_, fun hn h _ hm => ?_, ?_, ?_, fun hd => ?_, (Nat.add_assoc _ _ _).symm, ?_⟩
    · rw [hwf, if_neg (Nat.not_lt.2 hn), if_pos h, finish_ok]
    · rw [hws, if_neg (Nat.not_lt.2 hn), if_pos h, finish_ok]
    · rw [Traps, hwf, if_pos hn]; rfl
    · rw [hwf, if_neg (Nat.not_lt.2 hn), if_neg (Nat.not_le.2 h), finish_wait hm]
    · exact does_of_effect rfl ((bind_passes hb).trans (bind_passes hs))
    · exact shows_of_eq rfl (by simp [packed, State.rackView, Rack.word, Nat.shiftLeft_eq, Nat.add_assoc])
    · rw [State.rackView, hd]
      exact (Nat.add_assoc _ _ _).symm
    · intro m
      have hview : s.rackView b r 3 = (m.1 % 256) <<< 24 + (m.2 % 256) <<< 16 + r.room <<< 8 + r.nfill := rfl
      clear_value m
      exact shows_of_eq rfl (by simp only [hview, packed, Nat.shiftLeft_eq, Nat.add_assoc]; simp)
  case unbound =>
    exact ⟨fun hr => traps_of_effect rfl hr (bind_stops (State.boundRack_none hb)), rackWait_traps (have' := (·.nfill)) rfl (State.ready_none s) hb,
      rackWait_traps (have' := (·.room)) rfl (State.ready_none s) hb,
      fun w => traps_of_effect rfl (State.ready_none s) (bind_stops (State.boundRack_none hb))⟩
  case moves =>
    refine ⟨fun hn s1 h1 => rkadv_fills hb hs hn h1, fun hn s1 h1 hc => ?frees, fun h hr => rkadv_overruns hb hs h hr,
      fun h hr => rkadv_overruns hb hs h hr⟩
    case frees =>
      have hme := State.unclaimed_of_zero (q := s1) n.toNat hc
      have hopen : (s1.unclaimed b n.toNat).me.open' = s1.me.open' := by rw [hme]
      have hlines := mem_noteLines (rd := s1.me.open'.rd) (ls := s.popLines b r n.toNat)
      refine ⟨_, { s1.me.open' with
          rd := s1.me.open'.rd ++ (s.popLines b r n.toNat).filter fun l => !s1.me.open'.rd.contains l,
          moves := FMap.upd (0, 0) s1.me.open'.moves b fun p => (p.1, p.2 + n.toNat) },
        rkadv_frees hb hs hn h1, ?_, ?_, rfl, hlines, fun hh l => (hlines l).trans (or_congr_right (mem_popLines_plain hh))⟩
      · rw [State.withChunk_t, State.noteLines_t, State.t, hme]; rfl
      · rw [State.withChunk_me, State.noteLines_chunk, hopen]

end Sys2Proof.Machine
end

section
/-! Streams, parked registers, and the matrix commands (R130, R133, R148, R149, R222, R228). -/
namespace Sys2Proof.Machine

-- One proof after another: the threads of many proofs at once do not fit the memory of the check.
set_option Elab.async false

/-! ### Parking (R133, R149) -/

/-- A fold that lists a key as parked where it qualifies and is not listed yet. -/
theorem find?_foldl_park (c : Nat → Bool) (l : List Nat) (p : FMap Nat) (q : Nat) :
    FMap.find? (l.foldl (fun p r => if c r && (FMap.find? p r).isNone then FMap.put p r 0 else p) p) q =
      if q ∈ l ∧ c q = true ∧ FMap.find? p q = none then some 0 else FMap.find? p q := by
  induction l generalizing p with
  | nil => simp
  | cons r l ih =>
    rw [List.foldl_cons, ih]
    by_cases hr : c r = true ∧ FMap.find? p r = none
    · obtain ⟨hc, hn⟩ := hr
      have hstep : (if c r && (FMap.find? p r).isNone then FMap.put p r 0 else p) = FMap.put p r 0 := if_pos (by simp [hc, hn])
      rw [hstep]
      by_cases hq : q = r
      · subst hq
        simp [hc, hn]
      · rw [FMap.find_put_other _ _ _ _ hq]
        simp [hq]
    · have hstep : (if c r && (FMap.find? p r).isNone then FMap.put p r 0 else p) = p := if_neg (by simpa using hr)
      rw [hstep]
      by_cases hq : q = r
      · subst hq
        rw [if_neg (by tauto), if_neg (by tauto)]
      · simp [hq]

section Parking
variable {s : State} {a : Reg}

theorem park_special (h : s.t.special = true) : Does (.park a) s (s.after (.park a)) ∧ Does (.unpark a) s (s.after (.unpark a)) :=
  ⟨does_of_effect rfl (if_pos h), does_of_effect rfl (if_pos h)⟩

/-- The parked bits after PARK. -/
def CoreT.parked (t : CoreT) (m : Nat) : FMap Nat :=
  (span 1 31).foldl (fun p r => if bit m r && (t.bound r).isNone && (FMap.find? p r).isNone then FMap.put p r 0 else p) t.park

theorem CoreT.find?_parked (t : CoreT) (m q : Nat) : FMap.find? (t.parked m) q =
    if 1 ≤ q ∧ q < 32 ∧ m.testBit q = true ∧ t.bound q = none ∧ FMap.find? t.park q = none then some 0 else FMap.find? t.park q := by
  have h := find?_foldl_park (fun r => bit m r && (t.bound r).isNone) (span 1 31) t.park q
  rw [CoreT.parked, h]
  refine if_congr ?_ rfl rfl
  rw [mem_span, Bool.and_eq_true, Option.isNone_iff_eq_none, bit, and_assoc, and_assoc]

theorem park_does (h : s.t.special = false) : Does (.park a) s
    ((s.after (.park a)).updT fun t => { t with park := t.parked (s.gIn a).toNat }) :=
  does_of_effect rfl (if_neg (by simp [h]))

theorem unpark_does (h : s.t.special = false) : Does (.unpark a) s
    ((s.after (.unpark a)).updT fun t => { t with park := t.park.filter fun (p : Nat × Nat) => !bit (s.gIn a).toNat p.1 }) :=
  does_of_effect rfl (if_neg (by simp [h]))

/-- STBIND with a descriptor that passes. -/
theorem stbind_does {t : Reg} {vec : BitVec 1} {r : State × List Byte} (hb : (s.after (.stbind t a vec)).readBlock (s.gIn a).toNat 64 = .ok r)
    (hx : s.streamBad r.2 (streamOf r.2 (vec = 1#1) (!s.t.sup) s.t.level s.t.serial) (vec = 1#1) = none) :
    Does (.stbind t a vec) s (((r.1.updT fun c =>
        { c with streams :=
            FMap.put c.streams (streamKey s.t.level t vec) (streamOf r.2 (vec = 1#1) (!s.t.sup) s.t.level s.t.serial) }).effect
        (.streamGo (streamKey s.t.level t vec) s.t.serial)).endAfter) := by
  refine does_of_effect rfl ((bind_passes hb).trans ?_)
  simp only [hx]

end Parking

/-- Settles O24: bindings by STBIND and STUNB, and the parked bits. -/
theorem streamsParking : Obligations.StreamsParking := by
  unfold Obligations.StreamsParking
  refine ⟨fun s t a vec => ?streams, fun s a => ⟨park_special, fun h hr => ?park, fun h hr => ?unpark⟩⟩
  case streams =>
    intro i key
    refine ⟨?_, ?_⟩
    · intro r hb x hx hr
      obtain ⟨hread, hrt⟩ := State.readBlock_ok hb
      refine ⟨_, stbind_does hb hx hr, ?_, State.chunkEnds_endAfter _, ?_⟩
      · rw [State.effs_endAfter_effect, ← ((State.alike_after s i).trans hread).effs]
        exact congrArg (· ++ _) (State.alike_updT _ (by rfl) (by rfl) (by rfl) (by rfl)).effs
      · rw [State.effect_ends_t, State.updT_t, hrt]
        rfl
    · refine ⟨_, rfl, ?_, State.chunkEnds_endAfter _, ?_⟩
      · rw [(State.alike_endAfter _).effs]
        exact (State.alike_updT _ (by rfl) (by rfl) (by rfl) (by rfl)).effs
      · rw [State.endAfter_t, State.updT_t]
        rfl
  case park =>
    refine ⟨_, park_does h hr, ?_, fun q => ?_⟩
    · rw [State.updT_t]
    · rw [State.updT_t]
      exact CoreT.find?_parked _ _ _
  case unpark =>
    refine ⟨_, unpark_does h hr, ?_, fun p => ?_⟩
    · rw [State.updT_t]
    · rw [State.updT_t, List.mem_filter, Bool.not_eq_true']
      rfl

/-! ### Matrix commands (R222, R228, R229, R240) -/

section Matrix
variable {s s1 : State} {i : Instr} {m : Nat} {d : Reg}

/-- A queued command leaves for its chunk's commit. -/
theorem State.matPut_ok {q : State} (op : MatOp) (m : Nat) (ends : Bool) (h : q.matQueueFull = false) : ∃ t, q.matPut op m ends = .ok t ∧
    t.effs = q.effs ++ [.mat (q.matCmd op m)] ∧ (ends = true → t.chunkEnds = true) ∧ t.t = q.t := by
  have heffs : ((q.effect (.mat (q.matCmd op m))).pengWait).effs = q.effs ++ [.mat (q.matCmd op m)] := by
    rw [State.pengWait_effs, State.effect, State.me_withChunk_effs, State.open_eff]
  have ht : ((q.effect (.mat (q.matCmd op m))).pengWait).t = q.t := by
    rw [(State.pengWait_keeps _).1, State.effect_t]
  refine ⟨_, if_neg (by simp [h]), ?_, fun he => ?_, ?_⟩
  · split
    · rw [(State.alike_endAfter _).effs, heffs]
    · exact heffs
  · rw [if_pos (by simp [he])]
    exact State.chunkEnds_endAfter _
  · split
    · rw [State.endAfter_t, ht]
    · exact ht

/-- A command that is checked, takes its slot and is queued. -/
theorem queues_of {op : MatOp} {ends : Bool}
    (hi : exec i s = finish s (s.doing (useOf i) fun s' => do
      s.checkSlot d.toNat
      let r ← s'.slotFor d.toNat
      r.1.matPut op r.2 ends))
    (hc : s.checkSlot d.toNat = .ok ()) (hs : (s.after i).slotFor d.toNat = .ok (s1, m)) (hq : s1.matQueueFull = false)
    (hr : s.ready (useOf i) = .ok ()) : ∃ t, exec i s = .next t ∧ t.effs = s1.effs ++ [.mat (s1.matCmd op m)] ∧
      (ends = true → t.chunkEnds = true) ∧ t.t = s1.t := by
  obtain ⟨t, ht, h⟩ := State.matPut_ok op m ends hq
  exact ⟨t, does_of_effect hi ((check_passes hc).trans ((bind_passes hs).trans ht)) hr, h⟩

/-- In a firing that is not held a slot's work goes to itself. -/
theorem State.slotFor_plain {q : State} (h : q.t.heldNow = false) (n : Nat) : q.slotFor n = .ok (q, n) := if_pos (by simp [h])

/-- A command that waits for glue-up in a held firing (R311) and is queued in another one. -/
theorem queues_of_plain {op : MatOp} (hh : s.t.heldNow = false)
    (hi : exec i s = finish s (s.doing (useOf i) fun s' => do
      s.notHeld
      s.checkSlot d.toNat
      s'.matPut op d.toNat true))
    (hc : s.checkSlot d.toNat = .ok ()) (hs : (s.after i).slotFor d.toNat = .ok (s1, m)) (hq : s1.matQueueFull = false)
    (hr : s.ready (useOf i) = .ok ()) : ∃ t, exec i s = .next t ∧ t.effs = s1.effs ++ [.mat (s1.matCmd op m)] ∧
      (true = true → t.chunkEnds = true) ∧ t.t = s1.t := by
  rw [State.slotFor_plain ((State.alike_after s i).heldNow.trans hh)] at hs
  obtain ⟨rfl, rfl⟩ := Prod.mk.inj (Except.ok.inj hs)
  obtain ⟨t, ht, h⟩ := State.matPut_ok op d.toNat true hq
  exact ⟨t, does_of_effect hi ((check_passes (if_neg (by simp [hh]))).trans ((check_passes hc).trans ht)) hr, h⟩

end Matrix

/-- Settles O25: every queued command by its slot and its sources. -/
theorem matrixCommands : Obligations.MatrixCommands := by
  unfold Obligations.MatrixCommands
  refine ⟨fun s d a b c s1 m => ?_, fun s d a b s1 s2 s3 m p q => ⟨fun hc hs hb hq hr => ?_, fun hc hs hpa hpb ha hb hq hr => ?_⟩⟩
  · refine ⟨queues_of rfl, queues_of rfl, queues_of rfl, fun hc hs hq => ?_,
      fun hh => ⟨queues_of_plain hh rfl, queues_of_plain hh rfl, queues_of_plain hh rfl⟩⟩
    obtain ⟨t, ht, heffs, _, hpart⟩ := State.matPut_ok .mzero m false hq
    have hdo : (do
        s.checkSlot d.toNat
        let r ← s.slotFor d.toNat
        r.1.matPut .mzero r.2 false) = .ok t := (check_passes hc).trans ((bind_passes hs).trans ht)
    exact ⟨t, congrArg (finish s) hdo, heffs, hpart⟩
  · obtain ⟨t, ht, heffs, hends, hpart⟩ := State.matPut_ok (.mma (.addr (s.gIn a).toNat) q) m true hq
    exact ⟨t, does_of_effect rfl ((check_passes hc).trans ((bind_passes hs).trans ((bind_passes hb).trans ht))) hr, heffs,
      hends rfl, hpart⟩
  · obtain ⟨t, ht, heffs, hends, hpart⟩ := State.matPut_ok (.mma p q) m true hq
    exact ⟨t, does_of_effect rfl ((check_passes hc).trans ((bind_passes hs).trans ((check_passes hpa).trans ((check_passes hpb).trans
      ((bind_passes ha).trans ((bind_passes hb).trans ht)))))) hr, heffs, hends rfl, hpart⟩

end Sys2Proof.Machine
end

section
/-! Accumulator slots and the Kerf commands (R219-R221, R238-R251, R265-R268). -/
namespace Sys2Proof.Machine

-- One proof after another: the threads of many proofs at once do not fit the memory of the check.
set_option Elab.async false

/-- Each field of a 64-bit word reads as its value. -/
theorem shows_word {w : Word} {l : List (Nat × Nat × Nat)} (h : laidOut l = true) (h64 : (l.all fun f => f.1 < 64) = true)
    (hw : w = word (packed l)) : Shows w.toNat l := by
  intro hv
  have hlt := packed_lt h hv fun f hf => of_decide_eq_true (List.all_eq_true.1 h64 f hf)
  rw [hw, word, BitVec.toNat_ofNat, Nat.mod_eq_of_lt hlt]
  exact shows_packed h hv

/-! ### Effects that leave the chunk open -/

section Leaves
variable {i : Instr} {s q : State} {f : State → Res State} {e : Effect}

theorem State.effs_effect (q : State) (e : Effect) : (q.effect e).effs = q.effs ++ [e] := by
  rw [State.effect, State.me_withChunk_effs, State.open_eff]

theorem leaves_open (hi : exec i s = finish s (s.doing (useOf i) f)) (hf : f (s.after i) = .ok (q.effect e))
    (hq : (s.after i).Alike q) (ht : q.t = (s.after i).t) : Leaves i s e false none := by
  intro hr
  refine ⟨_, does_of_effect hi hf hr, ?_, fun h => Bool.noConfusion h, (State.effect_t q e).trans ht⟩
  rw [State.effs_effect, hq.effs, (State.alike_after s i).effs]

theorem leaves_open_set {d : Reg} {w : Word} (hi : exec i s = finish s (s.doing (useOf i) f))
    (hf : f (s.after i) = .ok ((q.setG d w).effect e)) (hq : (s.after i).Alike q) (ht : q.t = (s.after i).t) :
    Leaves i s e false (some (d, w)) := by
  intro hr
  refine ⟨_, does_of_effect hi hf hr, ?_, fun h => Bool.noConfusion h, ?_⟩
  · rw [State.effs_effect, (State.alike_setG q d w).effs, hq.effs, (State.alike_after s i).effs]
  · rw [State.effect_t, State.setG_t, ht]

end Leaves

/-! ### A command's check of its slot (R221) -/

section Check
variable {s : State} {k : Nat} {i : Instr}

theorem State.checkSlot_held (h : (s.slot k).held = true) : s.checkSlot k = .error (.trap .accHeld (word k) false) := if_pos h

theorem State.checkSlot_unowned (h : (s.slot k).held = false) (ho : s.ownsSlot k = false) :
    s.checkSlot k = .error (.trap .accUnowned (word k) false) := (if_neg (by simp [h])).trans (if_pos (by simp [ho]))

/-- An instruction that ends where its slot's check fails. -/
theorem refused_of (h : ∀ c, s.checkSlot k = .error (.trap c (word k) false) → Traps i s c (word k)) :
    ((s.slot k).held = true → Traps i s .accHeld (word k)) ∧
      ((s.slot k).held = false → s.ownsSlot k = false → Traps i s .accUnowned (word k)) :=
  ⟨fun hh => h _ (State.checkSlot_held hh), fun hh ho => h _ (State.checkSlot_unowned hh ho)⟩

/-- The lowest slot of a list that fails stops a check of the list. -/
theorem allOk_stops {f : Nat → Res Unit} {w r : List Nat} {e : Stop} (hw : allOk f w = .ok ()) (hk : f k = .error e) :
    allOk f (w ++ k :: r) = .error e := by
  induction w with
  | nil => rw [List.nil_append, allOk, hk]
  | cons x w ih =>
    rw [allOk] at hw
    rw [List.cons_append, allOk]
    cases hx : f x with
    | ok _ =>
      rw [hx] at hw
      exact ih hw
    | error e =>
      rw [hx] at hw
      cases hw

end Check

theorem State.notHeld_ok {s : State} (h : s.t.heldNow = false) : s.notHeld = .ok () := if_neg (by simp [h])

/-! ### Slots as a table -/

theorem FMap.get_foldl_put {V : Type} (d v : V) (l : List Nat) (m : FMap V) (k : Nat) :
    FMap.get d (l.foldl (fun m n => FMap.put m n v) m) k = if k ∈ l then v else FMap.get d m k := by
  induction l generalizing m with
  | nil => rfl
  | cons n l ih =>
    rw [List.foldl_cons, ih]
    by_cases hk : k = n
    · subst hk
      simp
    · rw [FMap.get_put_other _ _ _ _ _ hk]
      simp [hk]

theorem FMap.get_upd_self {V : Type} (d : V) (m : FMap V) (k : Nat) (f : V → V) : FMap.get d (FMap.upd d m k f) k = f (FMap.get d m k) :=
  FMap.get_put_self _ _ _ _

theorem FMap.get_upd_other {V : Type} (d : V) (m : FMap V) {k j : Nat} (f : V → V) (h : j ≠ k) :
    FMap.get d (FMap.upd d m k f) j = FMap.get d m j := FMap.get_put_other _ _ _ _ _ h

section Slots
variable {s : State} {d a : Reg}

theorem State.slot_eq {q : State} (h : q.t.slots = s.t.slots) (k : Nat) : q.slot k = s.slot k := by rw [State.slot, State.slot, h]

theorem State.after_slots (s : State) (i : Instr) : (s.after i).t.slots = s.t.slots := by
  rw [State.after, State.take_t, CoreT.popped, (popT_popped _ s.t).1]

/-- The slots that the register of MOWN, MFREE or MWAIT names. -/
def namedSlots (w : Word) : List Nat := (span 0 32).filter fun k => w.toNat.testBit k

theorem mown_refused (h : (namedSlots (s.gIn a)).filter (fun k => !s.slotFree k && !s.ownsSlot k) ≠ []) : Does (.mown d a) s
    ((s.after (.mown d a)).setG d
      (word (((namedSlots (s.gIn a)).filter fun k => !s.slotFree k && !s.ownsSlot k).foldl (fun m k => m + 2 ^ k) 0))) :=
  does_of_effect rfl (if_pos (by simpa [namedSlots, bit] using h))

theorem mown_taken (h : (namedSlots (s.gIn a)).filter (fun k => !s.slotFree k && !s.ownsSlot k) = []) : Does (.mown d a) s
    (((s.after (.mown d a)).updT fun t => { t.fillBack ((namedSlots (s.gIn a)).filter s.slotFree) with
      slots := ((namedSlots (s.gIn a)).filter s.slotFree).foldl
        (fun m n => FMap.put m n { Slot.free with owner := some t.inst }) t.slots }).setG d 0) :=
  does_of_effect rfl (if_neg (by simpa [namedSlots, bit] using h))

theorem mfree_leaves {k : Nat} {w : List Nat} (hw : namedSlots (s.gIn a) = k :: w)
    (hc : allOk s.checkSlot (namedSlots (s.gIn a)) = .ok ()) : Leaves (.mfree a) s (.mfree (namedSlots (s.gIn a))) false none :=
  leaves_open (q := s.after (.mfree a)) rfl ((check_passes hc).trans (congrArg Except.ok (if_neg (by
    change ¬(namedSlots (s.gIn a)).isEmpty = true
    simp [hw])))) (State.Alike.refl _) rfl

theorem mfree_none (hw : namedSlots (s.gIn a) = []) : Does (.mfree a) s (s.after (.mfree a)) := by
  have hc : allOk s.checkSlot (namedSlots (s.gIn a)) = .ok () := by rw [hw]; rfl
  refine does_of_effect rfl ((check_passes hc).trans (congrArg Except.ok (if_pos ?_)))
  change (namedSlots (s.gIn a)).isEmpty = true
  rw [hw]
  rfl

theorem slotRead_does {i : Instr} {sl : Reg} {f : Slot → Word} {s1 : State} {m : Nat} (hi : exec i s = slotRead i d sl f s)
    (hc : s.checkSlot sl.toNat = .ok ()) (hs : (s.after i).slotFor sl.toNat = .ok (s1, m)) (hb : s1.slotBusy m = false) :
    Does i s (s1.setG d (f (s1.slot m))) :=
  does_of_effect (hi.trans rfl) ((check_passes hc).trans ((bind_passes hs).trans (if_neg (by simp [hb]))))

theorem slotRead_traps {i : Instr} {sl : Reg} {f : Slot → Word} {c : Cause} (hi : exec i s = slotRead i d sl f s)
    (hr : s.ready (useOf i) = .ok ()) (hc : s.checkSlot sl.toNat = .error (.trap c (word sl.toNat) false)) :
    Traps i s c (word sl.toNat) := traps_of_effect (hi.trans rfl) hr (check_stops hc)

end Slots

/-- What MOWN's own test is: a named slot is taken exactly where it is free. -/
theorem mown_slots {s : State} {d a : Reg} (h : (namedSlots (s.gIn a)).filter (fun k => !s.slotFree k && !s.ownsSlot k) = [])
    (hr : s.ready (useOf (.mown d a)) = .ok ()) : ∃ t, exec (.mown d a) s = .next t ∧ (d ≠ 0#5 → t.t.g d = 0) ∧
      (∀ k, k ∈ namedSlots (s.gIn a) → s.slotFree k = true → t.slot k = { Slot.free with owner := some s.t.inst }) ∧
      (∀ k, (k ∉ namedSlots (s.gIn a) ∨ s.slotFree k = false) → t.slot k = s.slot k) := by
  have hinst : (s.after (.mown d a)).t.inst = s.t.inst := by rw [CoreT.inst, CoreT.inst, (State.alike_after s _).fir]
  refine ⟨_, mown_taken h hr, fun hd => ?_, fun k hk hf => ?_, fun k hk => ?_⟩
  · rw [State.setG_t]
    exact CoreT.setG_g_self _ _ _ hd
  · rw [State.slot, State.setG_t, CoreT.setG_slots, State.updT_t]
    refine (FMap.get_foldl_put _ _ _ _ k).trans ((if_pos (List.mem_filter.2 ⟨hk, hf⟩)).trans ?_)
    rw [hinst]
  · rw [State.slot, State.setG_t, CoreT.setG_slots, State.updT_t]
    refine (FMap.get_foldl_put _ _ _ _ k).trans ((if_neg fun hm => ?_).trans (State.slot_eq (State.after_slots s _) k))
    obtain ⟨hm, hf⟩ := List.mem_filter.1 hm
    rcases hk with hk | hk
    · exact hk hm
    · rw [hf] at hk
      cases hk

/-- Settles O26: slots by what is owned and held, and the reads of their status. -/
theorem accumulatorSlots : Obligations.AccumulatorSlots := by
  unfold Obligations.AccumulatorSlots
  refine ⟨fun s d a => ?owning, fun s d a b c v n m => ?refusals, fun s d a v n s1 m r => ⟨fun hc hs hb hr => ?mpar, fun hc hs hb hf hm => ?row⟩,
    fun s d n a => ⟨fun hh => ?status, ?mwait, fun hc s1 m => ⟨fun hs hb => ?kvar, fun hs hb => ?kstat⟩⟩⟩
  case owning =>
    refine ⟨mown_refused, mown_slots, fun k w hw hc => mfree_leaves hw hc, mfree_none, fun w k r hw hok => ⟨fun hr => ?_, fun hr => ?_⟩⟩
    · exact refused_of fun c hc => traps_of_effect rfl hr (check_stops (Eq.trans (congrArg _ hw) (allOk_stops hok hc)))
    · exact refused_of fun c hc => traps_of_effect rfl hr (check_stops (Eq.trans (congrArg _ hw) (allOk_stops hok hc)))
  case refusals =>
    refine ⟨fun _ => refused_of fun c hc => congrArg (finish s) (check_stops hc), fun hr => ?_, fun hr => ?_, fun hr => ?_, fun hr => ?_,
      fun hr => ?_, fun hr => ?_, fun hr => ?_, fun hr => refused_of fun c hc => slotRead_traps (f := fun x => zext x.side) rfl hr hc,
      fun hr => refused_of fun c hc => slotRead_traps (f := (·.kstat)) rfl hr hc,
      fun hh => ⟨fun hr => ?_, fun hr => ?_, fun hr => ?_, fun hr => ?_⟩, fun hh hr => ⟨?_, ?_⟩⟩
    · exact refused_of fun c hc => traps_of_effect rfl hr (check_stops hc)
    · exact refused_of fun c hc => traps_of_effect rfl hr (check_stops hc)
    · exact refused_of fun c hc => traps_of_effect rfl hr (check_stops hc)
    · exact refused_of fun c hc => traps_of_effect rfl hr (check_stops hc)
    · exact refused_of fun c hc => traps_of_effect rfl hr (check_stops hc)
    · exact refused_of fun c hc => traps_of_effect rfl hr (check_stops hc)
    · exact refused_of fun c hc => traps_of_effect rfl hr (check_stops hc)
    · exact refused_of fun c hc => traps_of_effect rfl hr ((check_passes (State.notHeld_ok hh)).trans (check_stops hc))
    · exact refused_of fun c hc => traps_of_effect rfl hr ((check_passes (State.notHeld_ok hh)).trans (check_stops hc))
    · exact refused_of fun c hc => traps_of_effect rfl hr ((check_passes (State.notHeld_ok hh)).trans (check_stops hc))
    · exact refused_of fun c hc => traps_of_effect rfl hr ((check_passes (State.notHeld_ok hh)).trans (check_stops hc))
    · exact traps_of_effect rfl hr (check_stops (faultIf_pos hh))
    · exact traps_of_effect rfl hr (check_stops (faultIf_pos hh))
  case mpar =>
    have hrt := (State.readBlock_ok hb).2
    refine ⟨_, does_of_effect rfl ((check_passes hc).trans ((bind_passes hs).trans (bind_passes hb))) hr, ?_, fun k hk => ?_⟩
    · rw [State.slot, State.withChunk_t, State.updT_t, hrt]
      dsimp only
      exact FMap.get_upd_self _ _ _ _
    · rw [State.slot, State.withChunk_t, State.updT_t, hrt]
      dsimp only
      exact FMap.get_upd_other _ _ _ hk
  case row =>
    exact does_of_effect rfl ((check_passes hc).trans ((bind_passes hs).trans ((if_neg (by simp [hb])).trans
      (check_passes (faultIf_neg (by simp [hf, hm]))))))
  case status =>
    have hok : faultIf (s.slot n.toNat).held .accHeld n.toNat = .ok () := faultIf_neg (by simp [hh])
    refine ⟨does_of_effect rfl (check_passes hok), fun ho => ?_, fun ho => ⟨?_, if_pos (by simp [ho])⟩, fun ho => ?_⟩
    · exact leaves_open_set (q := s.after (.mstatC d n)) rfl ((check_passes hok).trans (congrArg Except.ok (if_pos ho)))
        (State.Alike.refl _) rfl
    · have hz : s.mstatWord n.toNat = 0 := if_pos (by simp [ho])
      refine does_of_effect rfl ((check_passes hok).trans (congrArg Except.ok ((if_neg (by simp [ho])).trans ?_)))
      rw [hz]
      rfl
    · exact shows_word rfl rfl (by
        rw [State.mstatWord, if_neg (by simp [ho])]
        simp only [packed, b2n, Nat.shiftLeft_eq, Nat.zero_mul, Nat.zero_add, Nat.add_assoc, Nat.one_mul, Nat.add_zero])
  case mwait =>
    intro want i hc s1 hs hb
    refine ⟨fun h => ?_, fun hw hce hr => ?_⟩
    · refine does_of_effect rfl ((check_passes hc).trans ((bind_passes hs).trans ((if_neg (Bool.eq_false_iff.1 hb)).trans (if_neg ?_))))
      change ¬(decide (s1.mwaitWord want ≠ 0) && s.t.cetrap) = true
      rcases h with h | h <;> simp [h]
    · refine exec_of_effect rfl hr ((check_passes hc).trans ((bind_passes hs).trans ((if_neg (Bool.eq_false_iff.1 hb)).trans (if_pos ?_))))
      change (decide (s1.mwaitWord want ≠ 0) && s.t.cetrap) = true
      simp [hw, hce]
  case kvar => exact slotRead_does (f := fun x => zext x.side) rfl hc hs hb
  case kstat => exact slotRead_does (f := (·.kstat)) rfl hc hs hb

/-! ### The Kerf commands (R249, R251, R265, R266, R268) -/

section Kerf
variable {s : State} {a d : Reg} {r : State × List Byte}

theorem State.kerfBlock_ok {q : State} {ea : Nat} (h : q.kerfBlock ea = .ok r) : q.Alike r.1 ∧ r.1.t = q.t := by
  obtain ⟨r', hr, h⟩ := bind_eq_ok.1 h
  obtain ⟨_, _, h⟩ := bind_eq_ok.1 h
  obtain ⟨_, _, h⟩ := bind_eq_ok.1 h
  obtain rfl := Except.ok.inj h
  exact State.readBlock_ok hr

theorem gauge_leaves {n : BitVec 6} {sel : BitVec 2} (hh : s.t.heldNow = false)
    (hb : (s.after (.gauge a n sel)).kerfBlock (s.gIn a).toNat = .ok r) (hq : r.1.matQueueFull = false)
    (hr : s.ready (useOf (.gauge a n sel)) = .ok ()) : ∃ t, exec (.gauge a n sel) s = .next t ∧
        t.effs = s.effs ++ [.mat (r.1.matCmd (.gauge r.2 n.toNat sel.toNat) 32)] ∧ t.chunkEnds = true ∧ t.t = r.1.t := by
  obtain ⟨t, ht, heffs, hends, hpart⟩ := State.matPut_ok (.gauge r.2 n.toNat sel.toNat) 32 true hq
  refine ⟨t, does_of_effect rfl ((check_passes (State.notHeld_ok hh)).trans ((bind_passes hb).trans ht)) hr, ?_, hends rfl, hpart⟩
  rw [heffs, ((State.alike_after s _).trans (State.kerfBlock_ok hb).1).effs]

/-- A parameter copy written anew. -/
theorem State.alike_slots (q : State) (f : FMap Slot → FMap Slot) : q.Alike (q.updT fun t => { t with slots := f t.slots }) :=
  State.alike_updT q (by rfl) (by rfl) (by rfl) (by rfl)

theorem kmma_leaves {m : BitVec 8} (hh : s.t.heldNow = false) (hc : s.checkSlot d.toNat = .ok ())
    (hb : (s.after (.kmma d a m)).kerfBlock (s.gIn a).toNat = .ok r) (hq : r.1.matQueueFull = false)
    (hr : s.ready (useOf (.kmma d a m)) = .ok ()) : ∃ t c, exec (.kmma d a m) s = .next t ∧
        t.effs = s.effs ++ [.mat c] ∧ t.chunkEnds = true ∧ c.slot = d.toNat ∧
        c.op = .kmma r.2 m.toNat (s.t.seed (fieldAt r.2 0x2F 1 % 8)) ∧
        (t.slot d.toNat).par = kerfPar (r.1.slot d.toNat).par r.2 := by
  have halike := State.alike_slots r.1 fun x => FMap.upd Slot.free x d.toNat fun x => { x with par := kerfPar x.par r.2 }
  have hfull : (r.1.updT fun t => { t with slots := FMap.upd Slot.free t.slots d.toNat fun x =>
      { x with par := kerfPar x.par r.2 } }).matQueueFull = false := by
    rw [← hq, State.matQueueFull, State.matQueueFull, State.matPending, State.matPending, State.updT_me]
  obtain ⟨t, ht, heffs, hends, hpart⟩ :=
    State.matPut_ok (.kmma r.2 m.toNat (s.t.seed (fieldAt r.2 0x2F 1 % 8))) d.toNat true hfull
  refine ⟨t, _, does_of_effect rfl ((check_passes (State.notHeld_ok hh)).trans ((check_passes hc).trans ((bind_passes hb).trans ht))) hr,
    heffs.trans (congrArg (· ++ _) (((State.alike_after s _).trans (State.kerfBlock_ok hb).1).trans halike).effs), hends rfl, rfl, rfl, ?_⟩
  rw [State.slot, hpart, State.updT_t]
  dsimp only
  rw [FMap.get_upd_self]
  rfl

theorem CoreT.seed_setSeed (t : CoreT) {n : Nat} (x : Lane) (h : n < 8) :
    (t.setSeed n x).seed n = x ∧ ∀ k, k ≠ n → (t.setSeed n x).seed k = t.seed k := by
  refine ⟨?_, fun k hk => ?_⟩
  · simp [CoreT.seed, CoreT.setSeed, h]
  · have hn : n ≠ k := hk.symm
    simp [CoreT.seed, CoreT.setSeed, h, hn]

theorem State.after_sd (s : State) (i : Instr) : (s.after i).t.sd = s.t.sd := by
  rw [State.after, State.take_t, CoreT.popped, (popT_popped _ s.t).1]

end Kerf

/-- Settles O27: the Kerf commands with their block, and the seeds. -/
theorem kerfCommands : Obligations.KerfCommands := by
  unfold Obligations.KerfCommands
  intro s d a mb sel m r
  refine ⟨gauge_leaves, kmma_leaves, fun hd hr => ⟨_, does_of_effect rfl rfl hr, ?_, fun k hk => ?_⟩, puts_of rfl⟩
  · rw [State.updT_t]
    exact (CoreT.seed_setSeed _ _ hd).1
  · rw [State.updT_t]
    refine ((CoreT.seed_setSeed _ _ hd).2 k hk).trans ?_
    rw [CoreT.seed, CoreT.seed, State.after_sd]

end Sys2Proof.Machine
end

section
/-! Marquetry instructions (R282-R285). -/
namespace Sys2Proof.Machine

-- One proof after another: the threads of many proofs at once do not fit the memory of the check.
set_option Elab.async false

section Marquetry
variable {s : State} {a b c d : Reg} {desc : MqReg}

/-- An instruction whose operands follow from a descriptor. -/
theorem exec_of_use {i : Instr} {u : Use} {f : State → Res State} {r : Res State} (hi : exec i s = finish s (s.doing u f))
    (hr : s.ready u = .ok ()) (hf : f (s.take u) = r) : exec i s = finish s r := by
  rw [hi, State.doing_ready f hr, hf]

theorem bits_low4 (w : Nat) : bits w 3 0 = w % 16 := by rw [bits_eq, Nat.pow_zero, Nat.div_one]; rfl

theorem mqdef_does {r : State × List Byte} (hb : (s.after (.mqdef d a)).readBlock (s.gIn a).toNat 128 = .ok r)
    (hd : mqBad r.2 = false) (ht : (s.regionSeen s.myPart (mqThnd r.2)).isSome = true) (hg : s.staleSeen (mqGhnd r.2) = false)
    (hn : (s.mqAt (s.gIn a).toNat).isSome = true ∨ s.t.mqSet.length < 8) :
    Does (.mqdef d a) s ((r.1.updT fun t => t.mqPut (s.gIn a).toNat r.2).setG d (word (mqTot r.2))) := by
  refine does_of_effect rfl ((bind_passes hb).trans ((check_passes (faultIf_neg ?_)).trans ((check_passes (faultIf_neg ?_)).trans
    ((check_passes (faultIf_neg ?_)).trans (check_passes (faultIf_neg ?_))))))
  · rw [hd]; decide
  · rw [Option.isNone_eq_false_iff.2 ht]; decide
  · rw [hg]; decide
  · rcases hn with h | h
    · rw [Option.isNone_eq_false_iff.2 h]
      exact Bool.false_ne_true
    · rw [decide_eq_false (Nat.not_le.2 h), Bool.and_false]
      exact Bool.false_ne_true

/-- What MQLD writes: each register the sums of its lanes. -/
def State.mqLoaded (s0 : State) (desc : MqReg) (regs : List Reg) (sums : List (List (Nat × Lane))) (accs : List Acc) : State :=
  let vals := List.zip (sums.flatMap fun l => l.map (·.2)) (accs.map fun x => BitVec.ofNat 32 (s0.slotIn x).bits32)
  let feats := (span 0 sums.length).map fun i => mqSum ((vals.drop (2 ^ mqD desc * i)).take (2 ^ mqD desc))
  (List.zip regs (span 0 regs.length)).foldl (fun s p => s.putV p.1 (stripLanes (feats.drop (16 * p.2)))) (s0.noteSlots accs)

theorem mqld_does {r : Region} {accs : List Acc} {sums : List (List (Nat × Lane))} {slots : List Nat}
    (hu : s.ready { useOf (.mqld d a c b) with wv := s.mqRange d a b } = .ok ())
    (hc : s.mqCheck (s.gIn a).toNat (s.gIn b).toNat d.toNat false true = .ok desc)
    (hg : s.regionSeen s.myPart (mqThnd desc) = some r) (hr : r.r = true)
    (hsums : sums = mqReads desc ((s.gIn b).toNat % 16) ((s.gIn b).toNat / 16 % 16) (s.vIn c).toList)
    (hslots : slots = sums.flatMap fun l => l.map fun p => (r.base + 4 * p.1) % 2 ^ 64) (hb : s.mqBadSlot desc r slots = none)
    (ha : (s.take { useOf (.mqld d a c b) with wv := s.mqRange d a b }).slotAccs .read slots = .ok accs) :
    exec (.mqld d a c b) s = .next ((s.take { useOf (.mqld d a c b) with wv := s.mqRange d a b }).mqLoaded desc (s.mqRange d a b)
      sums accs) := by
  subst hsums hslots
  rw [← bits_low4, show (s.gIn b).toNat / 16 % 16 = bits (s.gIn b).toNat 7 4 from (bits_eq _ 7 4).symm] at *
  refine exec_of_use (r := .ok _) rfl hu ((bind_passes hc).trans ?_)
  simp only [hg]
  refine (check_passes (faultIf_neg (by simp [hr]))).trans ((check_passes ?_).trans (bind_passes ha))
  rw [hb]

/-- A queued Marquetry command. -/
theorem State.mqQueue_ok {q : State} {m : MqCmd} (h : q.me.eng.mq.length - 1 + q.mqPending < 2) : ∃ t, q.mqQueue m = .ok t ∧
    t.effs = q.effs ++ [.mq m] ∧ t.chunkEnds = true := by
  refine ⟨_, if_neg (Nat.not_le.2 h), ?_, ?_⟩
  · rw [State.pengWait_effs, State.effs_endAfter_effect]
  · rw [State.pengWait_chunkEnds, State.chunkEnds_endAfter]

/-- The command that MQSC or MQZ captures. -/
def State.mqCmdOf (s : State) (zero : Bool) (desc : MqReg) (w : Nat) (pt grad : List Lane) : MqCmd :=
  { zero := zero, desc := desc, lo := bits w 3 0, hi := bits w 7 4, mb := bits w 13 8, pt := pt, grad := grad,
    inst := s.t.inst, part := s.myPart, user := !s.t.sup, peng := s.t.peng, forked := false, need := 4 * mqTot desc,
    base := 0, pos := 0, bad := none, tlb := [], born := 0 }

theorem mqCommand_ok {zero : Bool} {dn g w : Nat} {pt grad : List Lane} {s' : State} (hh : s.t.heldNow = false)
    (hg : (s.regionSeen s.myPart (mqGhnd desc)).isSome = true) (hc : s.mqCheck g w dn true (!zero) = .ok desc)
    (hq : s'.me.eng.mq.length - 1 + s'.mqPending < 2) : ∃ t, mqCommand zero dn g w pt grad s s' = .ok t ∧
      t.effs = s'.effs ++ [.mq (s.mqCmdOf zero desc w pt grad)] ∧ t.chunkEnds = true := by
  obtain ⟨t, ht, h⟩ := State.mqQueue_ok (m := s.mqCmdOf zero desc w pt grad) hq
  refine ⟨t, (check_passes (State.notHeld_ok hh)).trans ((bind_passes hc).trans ((check_passes (faultIf_neg ?_)).trans ht)), h⟩
  rw [Option.isNone_eq_false_iff.2 hg]
  decide

theorem mqStatWord_shifted (desc : MqReg) (l : Nat) : mqStatWord desc l = 2 ^ 63 + (if l < mqL desc then
      2 ^ 62 + (if mqDense desc l then 1 else 0) * 2 ^ 61 + mqLog desc l * 2 ^ 56 + mqN desc l * 2 ^ 40 + mqBase desc l else 0)
      + (mqD desc - 1) * 2 ^ 37 + (mqL desc - 1) * 2 ^ 33 + bits (mqCfg desc) 8 7 * 2 ^ 31 := by
  have hD : mqD desc - 1 = bits (mqCfg desc) 2 0 := by rw [mqD, Nat.add_sub_cancel]
  have hL : mqL desc - 1 = bits (mqCfg desc) 6 3 := by rw [mqL, Nat.add_sub_cancel]
  rw [hD, hL, ← Nat.shiftLeft_eq, ← Nat.shiftLeft_eq, ← Nat.shiftLeft_eq, ← Nat.shiftLeft_eq, ← Nat.shiftLeft_eq, ← Nat.shiftLeft_eq]
  unfold mqStatWord b2n
  with_reducible rfl

/-- A word whose middle fields are zero unless `p` holds. -/
theorem packed_levels (p : Prop) [Decidable p] (w u v t x y z : Nat) :
    2 ^ 63 + (if p then 2 ^ 62 + w * 2 ^ 61 + u * 2 ^ 56 + v * 2 ^ 40 + t else 0) + x * 2 ^ 37 + y * 2 ^ 33 + z * 2 ^ 31 =
    packed [(63, 63, 1), (62, 62, if p then 1 else 0), (61, 61, if p then w else 0), (60, 56, if p then u else 0),
        (55, 40, if p then v else 0), (39, 37, x), (36, 33, y), (32, 31, z), (30, 0, if p then t else 0)] := by
  simp only [packed]
  split
  · ring
  · ring

/-- What MQSTAT writes. -/
def mqStatValue (s : State) (a b : Reg) : Word :=
  match s.mqAt (s.gIn a).toNat with
  | some desc => word (mqStatWord desc (bits (s.gIn b).toNat 3 0))
  | none => 0

end Marquetry

/-- Settles O28: descriptors, lookups, commands and the status word. -/
theorem marquetryInstructions : Obligations.MarquetryInstructions := by
  unfold Obligations.MarquetryInstructions
  intro s d a c b g w regs
  refine ⟨fun r => mqdef_does, ?load, fun desc hh hg => ⟨?sc, fun hr hc hq => ?zero⟩, fun desc hd => ?stat,
    fun desc l => shows_of_eq rfl ((mqStatWord_shifted desc l).trans (packed_levels _ _ _ _ _ _ _ _)), fun hd => ?none⟩
  case load =>
    intro desc r accs u s0 sums addr hu hc hg hr hb ha
    exact mqld_does hu hc hg hr rfl rfl hb ha
  case sc =>
    intro u hr hc hq
    obtain ⟨t, ht, heffs, hends⟩ := mqCommand_ok (pt := (s.vIn c).toList) (grad := regs.flatMap fun r => (s.vIn r).toList)
      (zero := false) hh hg hc hq
    have hexec : exec (.mqsc d a c b) s = .next t := exec_of_use rfl hr ht
    exact ⟨t, _, hexec, heffs, hends, rfl, rfl, bits_low4 w, bits_eq w 7 4, bits_eq w 13 8, rfl, rfl⟩
  case zero =>
    obtain ⟨t, ht, heffs, hends⟩ := mqCommand_ok (pt := []) (grad := []) (zero := true) hh hg hc hq
    rw [(State.alike_after s _).effs] at heffs
    exact ⟨t, _, does_of_effect rfl ht hr, heffs, hends, rfl, rfl, bits_eq w 13 8⟩
  case stat =>
    have hv : mqStatValue s a b = word (mqStatWord desc (w % 16)) := by
      rw [mqStatValue, hd, ← bits_low4]
    exact puts_of (congrArg (fun v => setsG (.mqstat d a b) d v s) hv)
  case none =>
    have hv : mqStatValue s a b = 0 := by rw [mqStatValue, hd]
    exact puts_of (congrArg (fun v => setsG (.mqstat d a b) d v s) hv)

end Sys2Proof.Machine
end

section
/-! Messages, the ends of a firing, launches, and the dry-fit and ordering instructions (R94-R97, R114-R116, R317-R324). -/
namespace Sys2Proof.Machine

-- One proof after another: the threads of many proofs at once do not fit the memory of the check.
set_option Elab.async false

/-! ### Messages (R114) -/

section Messages
variable {s : State} {a b c : Reg} {oport : BitVec 4}

theorem State.sendOut_ok {q : State} {p : Pkt} (h : q.outboxRoom q.t.special = true) :
    q.sendOut p = .ok (q.effect (.send p q.t.special)).endAfter := if_pos h

theorem State.sendOut_waits {q : State} {p : Pkt} (h : q.outboxRoom q.t.special = false) : q.sendOut p = .error (.wait true) :=
  if_neg (by simp [h])

theorem sendCheck_ok {h : Nat} (hb : h / 2 ^ 51 % 8 = 0) (hm : hdrMalformed h = false) : sendCheck h = .ok () := by
  have hbits : bits h 53 51 = 0 := (bits_eq h 53 51).trans hb
  rw [sendCheck, faultIf_neg (by simp [hbits]), faultIf_neg (by simp [hm])]
  rfl

theorem send_does {eret : BitVec 1} {eport : BitVec 3} {r : State × List Byte} {q : State × Pkt}
    (hr : (s.after (.send a oport eret eport)).readPacket (s.gIn a).toNat = .ok r)
    (hq : r.1.aim r.2 oport.toNat (if eret = 1#1 then (s.myHandle + 1, eport.toNat) else (0, 0)) = .ok q)
    (ho : q.1.outboxRoom q.1.t.special = true) :
    Does (.send a oport eret eport) s (q.1.effect (.send q.2 q.1.t.special)).endAfter :=
  does_of_effect rfl ((bind_passes hr).trans ((bind_passes hq).trans (State.sendOut_ok ho)))

theorem ordsend_does {r : State × List Byte} {q : State × Pkt} (hr : (s.after (.ordsend a b oport)).readPacket (s.gIn a).toNat = .ok r)
    (hq : r.1.aim r.2 oport.toNat (0, 0) = .ok q) (ho : q.1.outboxRoom q.1.t.special = true) : Does (.ordsend a b oport) s
      (q.1.effect (.send { q.2 with ts := (s.gIn b).toNat % 2 ^ 32 + 1 } q.1.t.special)).endAfter :=
  does_of_effect rfl ((bind_passes hr).trans ((bind_passes hq).trans (State.sendOut_ok ho)))

/-- SENDP is SENDP's packet aimed and sent. -/
theorem sendp_eq {q : State × Pkt} (hb : (s.gIn a).toNat / 2 ^ 51 % 8 = 0) (hm : hdrMalformed (s.gIn a).toNat = false)
    (hl : hdrLen (s.gIn a).toNat = 32)
    (hq : (s.after (.sendp a b c oport)).aim (leBytes 8 (s.gIn a).toNat ++ leBytes 8 (s.gIn b).toNat ++ leBytes 8 (s.gIn c).toNat ++
      rep 8 0#8) oport.toNat (0, 0) = .ok q) (hr : s.ready (useOf (.sendp a b c oport)) = .ok ()) :
    exec (.sendp a b c oport) s = finish s (q.1.sendOut q.2) :=
  exec_of_effect rfl hr ((check_passes (sendCheck_ok hb hm)).trans ((check_passes (faultIf_neg (by simp [hl]))).trans (bind_passes hq)))

/-! ### Ends (R20, R95, R115, R116) -/

theorem State.endHere_ok {q : State} (h : q.t.inTrap = false) (kind : Nat) :
    q.endHere kind = .ok (q.effect (.ends kind)).endAfter := if_neg (by simp [h])

theorem State.endHere_traps (h : s.t.inTrap = true) (kind : Nat) : s.endHere kind = s.freeFault .doubleTrap := if_pos h

/-- An end without operands. -/
theorem ends_of {i : Instr} {kind : Nat} (hi : exec i s = finish s (s.endHere kind)) (h : s.t.inTrap = false) :
    ∃ t, exec i s = .next t ∧ t.effs = s.effs ++ [.ends kind] ∧ t.chunkEnds = true ∧ t.t = s.t := by
  refine ⟨_, hi.trans (congrArg (finish s) (State.endHere_ok h kind)), ?_, State.chunkEnds_endAfter _, State.effect_ends_t _ _⟩
  rw [State.effs_endAfter_effect]

theorem end_traps {i : Instr} {kind : Nat} (hi : exec i s = finish s (s.endHere kind)) (h : s.t.inTrap = true) :
    Traps i s .doubleTrap (Config.freeXval s.fresh) := hi.trans (congrArg (finish s) (State.endHere_traps h kind))

/-- The packet that HOP sends. -/
def State.hopPkt (s : State) (a b : Reg) (pri cls : Nat) : List Byte :=
  hopPacket (s.gIn b).toNat pri cls ((hopRegs (s.gIn a).toNat).map s.gIn)

theorem hop_does {f : Firing} {u : Use} (hf : s.t.fir = some f) (ht : s.t.inTrap = false)
    (hu : u = { useOf (.hop a b) with rg := a :: b :: hopRegs (s.gIn a).toNat }) (hr : s.ready u = .ok ())
    (hd : (s.gIn b).toNat / 2 ^ 51 = 0) (ho : (s.take u).outboxRoom (s.take u).t.special = true) : ∃ t, exec (.hop a b) s = .next t ∧
      t.effs = s.effs ++ [.send ((s.take u).pktOf (s.hopPkt a b f.pri f.cls) (0, 0)) (s.take u).t.special, .ends 1] ∧
      t.chunkEnds = true := by
  subst hu
  have halike := State.alike_take s { useOf (.hop a b) with rg := a :: b :: hopRegs (s.gIn a).toNat }
  have htrap := halike.inTrap.trans ht
  generalize hq : s.take { useOf (.hop a b) with rg := a :: b :: hopRegs (s.gIn a).toNat } = q at *
  have hq2 : ((q.effect (.send (q.pktOf (s.hopPkt a b f.pri f.cls) (0, 0)) q.t.special)).endAfter).t.inTrap = false := by
    rw [State.effect_ends_t, htrap]
  have hbits : bits (s.gIn b).toNat 63 51 = 0 := by rw [bits_eq, hd]; rfl
  have hdo : (do
      faultIf (bits (s.gIn b).toNat 63 51 ≠ 0) .reservedBits (s.gIn b).toNat
      let s ← q.sendOut (q.pktOf (s.hopPkt a b f.pri f.cls) (0, 0))
      s.endHere 1) = .ok _ :=
    (check_passes (faultIf_neg (by simp [hbits]))).trans ((bind_passes (State.sendOut_ok ho)).trans (State.endHere_ok hq2 1))
  refine ⟨_, ?_, ?_, State.chunkEnds_endAfter ((q.effect (.send (q.pktOf (s.hopPkt a b f.pri f.cls) (0, 0)) q.t.special)).endAfter.effect
    (.ends 1))⟩
  · have hexec : exec (.hop a b) s = finish s (s.doing { useOf (.hop a b) with rg := a :: b :: hopRegs (s.gIn a).toNat } fun s' => do
        faultIf (bits (s.gIn b).toNat 63 51 ≠ 0) .reservedBits (s.gIn b).toNat
        let t ← s'.sendOut (s'.pktOf (s.hopPkt a b ((s.t.fir.map (·.pri)).getD 0) ((s.t.fir.map (·.cls)).getD 0)) (0, 0))
        t.endHere 1) := congrArg (finish s) (if_neg (by simp [ht]))
    rw [hf] at hexec
    refine exec_of_use (r := .ok _) hexec hr ?_
    rw [hq]
    exact hdo
  · rw [State.effs_endAfter_effect, State.effs_endAfter_effect, halike.effs, List.append_assoc]
    rfl

end Messages

/-- Settles O29: packets by what is read and aimed, and the ends of a firing. -/
theorem messagesEnds : Obligations.MessagesEnds := by
  unfold Obligations.MessagesEnds
  refine ⟨fun s a b c oport eret eport r p q => ⟨fun hr hq ho => send_does hr hq ho, fun hb hm hl hq => ⟨fun ho hr => ?_, fun ho hm' hr => ?_⟩,
    fun hr hq ho => ordsend_does hr hq ho⟩,
    fun s a b => ⟨fun ht => ⟨ends_of rfl ht, ends_of rfl ht, fun f hf => ?_⟩, fun ht => ⟨end_traps rfl ht, end_traps rfl ht, ?_⟩⟩⟩
  · rw [sendp_eq hb hm hl hq hr, State.sendOut_ok ho]; rfl
  · rw [sendp_eq hb hm hl hq hr, State.sendOut_waits ho, finish_wait hm']
  · exact fun hr hd ho => hop_does hf ht rfl hr hd ho
  · exact congrArg (finish s) (if_pos ht)

/-! ### Launches (R94-R97) -/

section Launches
variable {s : State} {a b c d : Reg}

theorem launch_leaves (hh : s.t.heldNow = false) (ha : (s.gIn a).toNat % 64 = 0) (hb : (s.gIn b).toNat % 16 = 0)
    (ho : (s.after (.launch a b)).outboxRoom (s.after (.launch a b)).t.special = true) : Leaves (.launch a b) s
      (.send ((s.after (.launch a b)).pktOf (launchPacket 0 (s.gIn a).toNat (s.gIn b).toNat 0 0 0) (0, 0))
        (s.after (.launch a b)).t.special) true none :=
  leaves_of rfl ((check_passes (faultIf_neg (by simp [ha]))).trans ((check_passes (faultIf_neg (by simp [hb]))).trans
    ((check_passes (State.notHeld_ok hh)).trans (State.sendOut_ok ho)))) (State.Alike.refl _) rfl

theorem launchi_does {w : State × List Byte} {x : Acc} (hh : s.t.heldNow = false) (ha : (s.gIn a).toNat % 64 = 0)
    (hb : (s.gIn b).toNat % 16 = 0) (hc : (s.gIn c).toNat % 32 = 0)
    (hw : (s.after (.launchi a b c)).readWords (s.gIn c).toNat 2 = .ok w)
    (hx : w.1.access ((s.gIn c).toNat + 16) 4 .read = .ok x) (h4 : fieldAt w.2 0 8 % 4 = 0)
    (ho : ((w.1.noteRead x).ioSeal x).outboxRoom ((w.1.noteRead x).ioSeal x).t.special = true) : Does (.launchi a b c) s
      ((((w.1.noteRead x).ioSeal x).effect (.send (((w.1.noteRead x).ioSeal x).pktOf
        (launchPacket 1 (s.gIn a).toNat (s.gIn b).toNat (fieldAt w.2 0 8) (fieldAt w.2 8 8) (leVal (w.1.rawRead x))) (0, 0))
        ((w.1.noteRead x).ioSeal x).t.special)).endAfter) :=
  does_of_effect rfl ((check_passes (faultIf_neg (by simp [ha]))).trans ((check_passes (faultIf_neg (by simp [hb]))).trans
    ((check_passes (faultIf_neg (by simp [hc]))).trans ((check_passes (State.notHeld_ok hh)).trans ((bind_passes hw).trans
      ((bind_passes hx).trans ((check_passes (faultIf_neg (by simp [h4]))).trans (State.sendOut_ok ho))))))))

theorem actnew_leaves {i : Inst} {l : Launch} {v n : Nat} (hv : (s.gIn a).toNat = v) (hi : FMap.find? s.insts s.t.inst = some i)
    (hl : s.launchOf i = some l) (hlen : v < l.actors.length) (hn : n = (at' ⟨[], 0⟩ l.actors v).count + s.newPending i.lslot v)
    (h16 : n < 65536) (h20 : l.actors.foldl (fun t x => t + x.count) 0
       + (span 0 l.actors.length).foldl (fun t x => t + s.newPending i.lslot x) 0 < 1048576)
    (hh : s.t.heldNow = false) : Leaves (.actnew d a) s (.actnew i.lslot v) false
       (some (d, word (i.lslot * 2 ^ 36 + v * 2 ^ 28 + n * 2 ^ 12 + s.genOf i.part i.lslot))) := by
  subst hv hn
  intro hr
  have hpos : ¬(decide ((at' ⟨[], 0⟩ l.actors (s.gIn a).toNat).count + s.newPending i.lslot (s.gIn a).toNat ≥ 65536) ||
      decide (l.actors.foldl (fun t x => t + x.count) 0
        + (span 0 l.actors.length).foldl (fun t x => t + s.newPending i.lslot x) 0 ≥ 1048576)) = true := by
    rw [decide_eq_false (by omega), decide_eq_false (by omega)]
    decide
  have hdoes : Does (.actnew d a) s ((((s.after (.actnew d a)).setG d (word (i.lslot <<< 36 + (s.gIn a).toNat <<< 28
      + ((at' ⟨[], 0⟩ l.actors (s.gIn a).toNat).count + s.newPending i.lslot (s.gIn a).toNat) <<< 12 + s.genOf i.part i.lslot))).effect
        (.actnew i.lslot (s.gIn a).toNat)).noteLines [actLine i.part i.lslot]) := by
    refine does_of_effect rfl ?_
    simp only [hi, hl]
    exact (check_passes (faultIf_neg (by simpa using hlen))).trans ((check_passes (State.notHeld_ok hh)).trans
      (check_passes (faultIf_neg hpos)))
  refine ⟨_, hdoes hr, ?_, fun h => Bool.noConfusion h, ?_⟩
  · rw [(State.alike_noteLines _ _).effs, State.effs_effect, (State.alike_setG _ _ _).effs, (State.alike_after s _).effs]
  · rw [State.noteLines_t, State.effect_t, State.setG_t]
    simp only [Nat.shiftLeft_eq]

end Launches

/-- Settles O30: launch requests, new instances and the status word. -/
theorem launchInstructions : Obligations.LaunchInstructions := by
  unfold Obligations.LaunchInstructions
  intro s d a b c
  refine ⟨fun hh ha hb ho => launch_leaves hh ha hb ho, fun w x hh ha hb hc hw hx h4 ho => launchi_does hh ha hb hc hw hx h4 ho, ?new,
    ⟨_, rfl, ?actend⟩, puts_of rfl, fun p v => ⟨fun hg => ?other, fun hg hx => ?free, fun hg x hx => ?word⟩⟩
  case new =>
    intro v i l hi hl hlen n h16 h20 hh
    exact actnew_leaves rfl hi hl hlen rfl h16 h20 hh
  case actend => rw [State.updT_t, CoreT.updFir_fir]
  case other =>
    rw [State.lchWord, if_pos hg, Nat.shiftLeft_eq]
  case free =>
    rw [State.lchWord, if_neg (not_not.2 hg), hx]
  case word =>
    refine shows_of_eq rfl ?_
    rw [State.lchWord, if_neg (not_not.2 hg), hx]
    simp only [packed, Nat.shiftLeft_eq, Nat.zero_mul, Nat.zero_add, Nat.add_assoc, Nat.pow_zero, Nat.mul_one, Nat.add_zero]

end Sys2Proof.Machine
end

section
/-! Dry-fit and ordering (R317-R323), collectives and transport (R337-R349). -/
namespace Sys2Proof.Machine

-- One proof after another: the threads of many proofs at once do not fit the memory of the check.
set_option Elab.async false

/-! ### Dry-fit (R320-R322) -/

section DryFit
variable {s : State} {d k a : Reg} {b : Nat} {r : Rack}

section Bound
variable (hb : s.boundRack k = .ok b) (hs : s.recSeen b = .ok r)
include hb

theorem dftol_does (hlo : (Num.ofBits ((s.gIn a).truncate 32)).isNan = false) (hlo0 : flt ((s.gIn a).truncate 32) 0#32 = false)
    (hhi : (Num.ofBits (((s.gIn a) >>> 32).truncate 32)).isNan = false) (hhi0 : flt (((s.gIn a) >>> 32).truncate 32) 0#32 = false) :
    Does (.dftol k a) s ((s.after (.dftol k a)).setMark b fun m =>
      { m with tolAbs := (s.gIn a).truncate 32, tolRel := ((s.gIn a) >>> 32).truncate 32 }) := by
  refine does_of_effect rfl ((bind_passes hb).trans (check_passes (faultIf_neg ?_)))
  simp only [BitVec.truncate_eq_setWidth] at hlo hlo0 hhi hhi0
  simp only [hlo, hlo0, hhi, hhi0]
  decide

include hs

theorem rkpred_traps (hx : s.t.special = true) (hr : s.ready (useOf (.rkpred k a)) = .ok ()) :
    Traps (.rkpred k a) s .dryfitSetup (s.gIn a) := by
  refine traps_of_effect rfl hr ((bind_passes hb).trans ((bind_passes hs).trans ((check_stops (faultIf_pos hx)).trans ?_)))
  rw [word_toNat]

variable (hx : s.t.special = false)
include hx

theorem rkpred_unmarks (hv : (s.gIn a).toNat = 0) : Does (.rkpred k a) s ((s.after (.rkpred k a)).setMark b fun m =>
      { m with pred := false, armed := none, vers := [], anew := false }) :=
  does_of_effect rfl ((bind_passes hb).trans ((bind_passes hs).trans ((check_passes (faultIf_neg (by simp [hx]))).trans (if_pos hv))))

theorem rkpred_marks {v : Nat} (hv : (s.gIn a).toNat = v) (h1 : 1 ≤ v) (h16 : v < 16)
    (hd : wValid (FMap.get 0 s.winsIn (windowKey (padOfCore s.cur) 0x20000 v)) = true)
    (h0 : wbits (FMap.get 0 s.winsIn (windowKey (padOfCore s.cur) 0x20000 v)) 9 8 = 0) (hz : r.sz ≤ 6)
    (hm : (s.markOf b).pred = true ∨
      (s.marksIn (clusterOf s.cur) s.cur < 16 ∧ s.reserveRoom (clusterOf s.cur) s.cur 8192 = true)) :
    Does (.rkpred k a) s (((s.after (.rkpred k a)).noteLines [descLine (windowKey (padOfCore s.cur) 0x20000 v)]).setMark b fun m =>
      { m with pred := true, fmt := wFmt (FMap.get 0 s.winsIn (windowKey (padOfCore s.cur) 0x20000 v)),
               anew := m.anew || !m.pred }) := by
  subst hv
  refine does_of_effect rfl ((bind_passes hb).trans ((bind_passes hs).trans ((check_passes (faultIf_neg (by simp [hx]))).trans
    ((if_neg (by omega)).trans ((check_passes (faultIf_neg (by simpa using h16))).trans ((check_passes (faultIf_neg ?_)).trans
      (check_passes (faultIf_neg ?_))))))))
  · rw [hd, h0, decide_eq_false (Nat.not_lt.2 hz)]
    decide
  · rcases hm with hm | ⟨hn, hroom⟩
    · rw [hm]; exact Bool.false_ne_true
    · rw [hroom, decide_eq_false (Nat.not_le.2 hn)]
      cases (s.markOf b).pred <;> decide

variable (hp : (s.markOf b).pred = true) (hport : s.rateOnePort b = true)
include hp hport

theorem dfit_disarms (hv : (s.gIn a).toNat = 0) :
    Does (.dfit k a) s ((s.after (.dfit k a)).setMark b fun m => { m with armed := none }) :=
  does_of_effect rfl ((bind_passes hb).trans ((bind_passes hs).trans
    ((check_passes (faultIf_neg (by simp [hx, hp, hport]))).trans (if_pos hv))))

theorem dfit_arms (hv : (s.gIn a).toNat ≠ 0) (h64 : (s.gIn a).toNat % 64 = 0) (ho : s.stagingOk (s.gIn a).toNat r.slotSize = true) :
    Does (.dfit k a) s ((s.after (.dfit k a)).setMark b fun m =>
      { m with armed := some (s.gIn a).toNat, tolAbs := 0#32, tolRel := 0#32 }) :=
  does_of_effect rfl ((bind_passes hb).trans ((bind_passes hs).trans ((check_passes (faultIf_neg (by simp [hx, hp, hport]))).trans
    ((if_neg hv).trans (check_passes (faultIf_neg (by simp [h64, ho])))))))

end Bound

/-! ### Ordered firings (R317, R323) -/

/-- A firing that is held from its start for its turn. -/
def Firing.orderedAt (f : Firing) (t : Nat) : Firing := { f with ord := some t, held := true, depth := max f.depth 1 }

section Ordered
variable {f : Firing} (hf : s.t.fir = some f)
include hf

/-- ORDT by what its firing is. -/
theorem ordt_eq (hr : s.ready (useOf (.ordt a)) = .ok ()) : exec (.ordt a) s = finish s
    (if f.ran ≠ 0 || f.ord.isSome || s.t.special || s.orderBad s.cur f.part f.inst ((s.gIn a).toNat % 2 ^ 32) then
      s.freeFault .orderTimestamp
    else if f.held then
      .ok (((s.after (.ordt a)).updT fun x => x.updFir fun g => { g with ord := some ((s.gIn a).toNat % 2 ^ 32) }).updMe fun k =>
        { k with held := k.held.map fun h => { h with fir := { h.fir with ord := some ((s.gIn a).toNat % 2 ^ 32) } } })
    else if s.nextOf s.cur f.part = (s.gIn a).toNat % 2 ^ 32 then
      .ok ((s.after (.ordt a)).updT fun x => x.updFir fun g => { g with ord := some ((s.gIn a).toNat % 2 ^ 32) })
    else if s.me.held.isSome then .error (.wait true)
    else .ok (((s.after (.ordt a)).updT fun x => x.setFir (f.orderedAt ((s.gIn a).toNat % 2 ^ 32))).updMe fun k =>
          { k with held := some (heldOf (f.orderedAt ((s.gIn a).toNat % 2 ^ 32))
            k.open'.ckpt) })) := by
  refine exec_of_effect rfl hr ?_
  simp only [hf, Firing.orderedAt]

theorem ordt_traps (h : f.ran ≠ 0 ∨ f.ord.isSome = true ∨ s.t.special = true) (hr : s.ready (useOf (.ordt a)) = .ok ()) :
    Traps (.ordt a) s .orderTimestamp (Config.freeXval s.fresh) := by
  rw [Traps, ordt_eq hf hr, if_pos]
  · rfl
  · rcases h with h | h | h <;> simp [h]

variable (h0 : f.ran = 0) (ho : f.ord = none) (hx : s.t.special = false)
  (hb : s.orderBad s.cur f.part f.inst ((s.gIn a).toNat % 2 ^ 32) = false) (hh : f.held = false)
include h0 ho hx hb hh

theorem ordt_in_turn (hn : s.nextOf s.cur f.part = (s.gIn a).toNat % 2 ^ 32) (hr : s.ready (useOf (.ordt a)) = .ok ()) :
    ∃ u, exec (.ordt a) s = .next u ∧ u.t.fir = some { f with ord := some ((s.gIn a).toNat % 2 ^ 32) } ∧ u.me.held = s.me.held := by
  refine ⟨_, (ordt_eq hf hr).trans (congrArg (finish s) ((if_neg (by rw [h0, ho, hx, hb]; decide)).trans ((if_neg (by simp [hh])).trans
    (if_pos hn)))), ?_, ?_⟩
  · rw [State.updT_t, CoreT.updFir_fir, (State.alike_after s _).fir, hf]
    rfl
  · rw [State.updT_me]
    exact (State.alike_after s _).held

theorem ordt_early (hn : s.nextOf s.cur f.part ≠ (s.gIn a).toNat % 2 ^ 32) (hn' : s.me.held = none)
    (hr : s.ready (useOf (.ordt a)) = .ok ()) : ∃ u h, exec (.ordt a) s = .next u ∧
      u.t.fir = some (f.orderedAt ((s.gIn a).toNat % 2 ^ 32)) ∧ u.me.held = some h ∧
      h.fir = (f.orderedAt ((s.gIn a).toNat % 2 ^ 32)) ∧ h.chunks = [] ∧
      h.shadow = [] ∧ h.accepted = false ∧ h.ended = false := by
  refine ⟨_, heldOf (f.orderedAt ((s.gIn a).toNat % 2 ^ 32))
      ((s.after (.ordt a)).updT fun x => x.setFir (f.orderedAt ((s.gIn a).toNat % 2 ^ 32))).me.open'.ckpt,
    (ordt_eq hf hr).trans (congrArg (finish s) ((if_neg (by rw [h0, ho, hx, hb]; decide)).trans ((if_neg (by simp [hh])).trans
      ((if_neg hn).trans (if_neg (by simp [hn'])))))), ?_, ?_, rfl, rfl, rfl, rfl, rfl⟩
  · rw [State.updMe_t, State.updT_me]
    exact CoreT.setFir_fir _ _
  · rw [State.updMe_me]

end Ordered
end DryFit

/-- Settles O31: marks, arming, tolerances and status of a rack, and ORDT by its operation. -/
theorem dryFitOrder : Obligations.DryFitOrder := by
  unfold Obligations.DryFitOrder
  refine ⟨?_, ?_⟩
  · intro s d k a b r v key dsc hb hs
    refine ⟨fun hx hv => rkpred_unmarks hb hs hx hv, fun hx h1 h16 hd h0 hz hm => rkpred_marks hb hs hx rfl h1 h16 hd h0 hz hm,
      fun hx hp hport => ⟨fun hv => dfit_disarms hb hs hx hp hport hv, fun hv h64 ho => dfit_arms hb hs hx hp hport hv h64 ho⟩,
      fun hlo hlo0 hhi hhi0 => dftol_does hb hlo hlo0 hhi hhi0, does_of_effect rfl (bind_passes hb), ?_,
      fun hx hr => rkpred_traps hb hs hx hr⟩
    intro m dry
    refine shows_of_eq rfl ?_
    simp only [State.dfWord, packed, b2n, Nat.shiftLeft_eq, Nat.zero_mul, Nat.zero_add, Nat.add_assoc, Nat.pow_zero, Nat.mul_one,
      Nat.add_zero]
    rfl
  · intro s d a f t i hf
    refine ⟨fun h0 ho hx hb hh => ⟨ordt_in_turn hf h0 ho hx hb hh, ordt_early hf h0 ho hx hb hh⟩, ordt_traps hf, puts_of rfl,
      fun hn => leaves_open (q := s.after (.ordtSetNext a)) rfl (if_neg (by simp [hn])) (State.Alike.refl _) rfl,
      fun n hn => ?_, fun hn => ?_⟩
    · have hv : (match s.t.fir with
          | some f => (match f.ord with | some t => 2 ^ 32 + t | none => 0)
          | none => 0) = 2 ^ 32 + n := by rw [hf]; dsimp only; rw [hn]
      exact puts_of (congrArg (fun v => setsG (.ordtReadT d) d (word v) s) hv)
    · have hv : (match s.t.fir with
          | some f => (match f.ord with | some t => 2 ^ 32 + t | none => 0)
          | none => 0) = 0 := by rw [hf]; dsimp only; rw [hn]
      exact puts_of (congrArg (fun v => setsG (.ordtReadT d) d (word v) s) hv)

/-! ### Collectives and transport (R337-R349) -/

section Noted
variable {i : Instr} {s q : State} {f : State → Res State} {e : Effect}

/-- An instruction that ends its chunk with one effect, one register and lines that it reads. -/
theorem leaves_noted {d : Reg} {w : Word} {ls : List Nat} (hi : exec i s = finish s (s.doing (useOf i) f))
    (hf : f (s.after i) = .ok (((q.setG d w).effect e).noteLines ls).endAfter) (hq : (s.after i).Alike q) (ht : q.t = (s.after i).t) :
    Leaves i s e true (some (d, w)) := by
  intro hr
  refine ⟨_, does_of_effect hi hf hr, ?_, fun _ => State.chunkEnds_endAfter _, ?_⟩
  · rw [(State.alike_endAfter _).effs, (State.alike_noteLines _ _).effs, State.effs_effect, (State.alike_setG q d w).effs, hq.effs,
      (State.alike_after s i).effs]
  · rw [State.endAfter_t, State.noteLines_t, State.effect_t, State.setG_t, ht]

/-- What an instruction leaves that queues for an engine: one effect, a register and a count of its own. -/
theorem queued_keeps {g : CoreT → CoreT} {x : CoreT} {d : Reg} {w : Word} (hq : (s.after i).Alike q) (ht : q.t = (s.after i).t)
    (hg : (g (q.setG d w).t).fir = (q.setG d w).t.fir ∧ (g (q.setG d w).t).tr = (q.setG d w).t.tr ∧
      (g (q.setG d w).t).fir1 = (q.setG d w).t.fir1 ∧ (g (q.setG d w).t).maskOpen = (q.setG d w).t.maskOpen)
    (hx : g ((s.after i).t.setG d w) = x) :
    ((((q.setG d w).updT g).effect e).endAfter.pengWait).effs = s.effs ++ [e] ∧
      ((((q.setG d w).updT g).effect e).endAfter.pengWait).chunkEnds = true ∧
      ((((q.setG d w).updT g).effect e).endAfter.pengWait).t = x := by
  obtain ⟨h1, h2, h3, h4⟩ := hg
  refine ⟨?_, ?_, ?_⟩
  · rw [State.pengWait_effs, State.effs_endAfter_effect, (State.alike_updT _ h1 h2 h3 h4).effs, (State.alike_setG q d w).effs, hq.effs,
      (State.alike_after s i).effs]
  · rw [State.pengWait_chunkEnds, State.chunkEnds_endAfter]
  · rw [(State.pengWait_keeps _).1, State.effect_ends_t, State.updT_t, State.setG_t, ht, hx]

end Noted

section Collectives
variable {s : State} {d a : Reg} {grp : BitVec 6} {r : State × List Byte}

theorem dvcfg_unloads (hh : s.t.heldNow = false) (hf : s.dvFlight s.myPart grp.toNat = 0) (ha : s.gIn a = 0) :
    Leaves (.dvcfg d a grp) s (.dvcfg grp.toNat []) true (some (d, 0)) := by
  have hv : (s.gIn a).toNat = 0 := by rw [ha]; rfl
  refine leaves_noted (q := s.after (.dvcfg d a grp)) (ls := [ctxLine s.myPart grp.toNat]) rfl ((check_passes (State.notHeld_ok hh)).trans
    ((bind_passes (if_pos hv)).trans ((if_neg (by simp [hf])).trans ((if_neg (by simp [hv])).trans ?_)))) (State.Alike.refl _) rfl
  rw [if_pos hv]
  rfl

theorem dvcfg_loads (hh : s.t.heldNow = false) (hf : s.dvFlight s.myPart grp.toNat = 0) (ha : s.gIn a ≠ 0)
    (hb : (s.after (.dvcfg d a grp)).readBlock (s.gIn a).toNat 64 = .ok r) (hg : gBad r.2 (s.cfg s.myPart 8 40) = false) :
    Leaves (.dvcfg d a grp) s (.dvcfg grp.toNat r.2) true (some (d, word (gCount r.2))) := by
  have hv : (s.gIn a).toNat ≠ 0 := fun h => ha (BitVec.eq_of_toNat_eq h)
  refine leaves_noted (q := r.1) (ls := [ctxLine s.myPart grp.toNat]) rfl ((check_passes (State.notHeld_ok hh)).trans
    ((bind_passes ((if_neg hv).trans hb)).trans ((if_neg (by simp [hf])).trans ((if_neg (by simp [hg])).trans ?_))))
    (State.readBlock_ok hb).1 (State.readBlock_ok hb).2
  rw [if_neg hv]

theorem dvcfg_traps (hh : s.t.heldNow = false) (hf : s.dvFlight s.myPart grp.toNat ≠ 0) (ha : s.gIn a = 0)
    (hr : s.ready (useOf (.dvcfg d a grp)) = .ok ()) : Traps (.dvcfg d a grp) s .dovetailGroup (Config.freeXval s.fresh) := by
  have hv : (s.gIn a).toNat = 0 := by rw [ha]; rfl
  exact traps_of_effect rfl hr ((check_passes (State.notHeld_ok hh)).trans ((bind_passes (if_pos hv)).trans (if_pos hf)))

theorem dvext_takes {e : List Byte} {l : List (List Byte)} (hh : s.t.heldNow = false) (hq : s.t.extq = e :: l) :
    Does (.dvext d) s (((s.after (.dvext d)).updT fun t => { t with extq := l }).putV d (stripOf e)) := by
  refine does_of_effect rfl ((check_passes (State.notHeld_ok hh)).trans ?_)
  simp only [hq]

theorem dvext_waits (hh : s.t.heldNow = false) (hq : s.t.extq = []) (hr : s.ready (useOf (.dvext d)) = .ok ())
    (hm : s.t.maskOpen = false) : exec (.dvext d) s = .next s.stall := by
  refine (exec_of_effect (r := .error (.wait true)) rfl hr ((check_passes (State.notHeld_ok hh)).trans ?_)).trans (finish_wait hm)
  simp only [hq]

theorem xpost_leaves {n : BitVec 6} {g : Region} {h : Nat} (hh : s.t.heldNow = false) (hv : (s.gIn a).toNat % 2 ^ 32 = h)
    (hg : s.regionSeen s.myPart h = some g) (hw : g.w = true) (hm : g.rem = true)
    (ho : (FMap.find? (s.part s.myPart).regs h).isSome = true ∨ (s.part s.myPart).regs.length < 4096) :
    Leaves (.xpost d a n) s (.xpost h n.toNat) true (some (d, if (FMap.find? (s.part s.myPart).regs h).isSome then 1 else 0)) := by
  subst hv
  have hword : word (b2n (FMap.find? (s.part s.myPart).regs ((s.gIn a).toNat % 2 ^ 32)).isSome) =
      if (FMap.find? (s.part s.myPart).regs ((s.gIn a).toNat % 2 ^ 32)).isSome then 1 else 0 := by
    cases (FMap.find? (s.part s.myPart).regs ((s.gIn a).toNat % 2 ^ 32)).isSome <;> rfl
  have hfull : ¬(!(FMap.find? (s.part s.myPart).regs ((s.gIn a).toNat % 2 ^ 32)).isSome &&
      decide ((s.part s.myPart).regs.length ≥ 4096)) = true := by
    rcases ho with h | h
    · rw [h]; exact Bool.false_ne_true
    · rw [decide_eq_false (Nat.not_le.2 h), Bool.and_false]; exact Bool.false_ne_true
  rw [← hword]
  refine leaves_noted (q := s.after (.xpost d a n)) (ls := [regsLine s.myPart]) rfl ((check_passes (State.notHeld_ok hh)).trans ?_)
    (State.Alike.refl _) rfl
  simp only [hg]
  exact (if_neg (by simp [hw, hm])).trans (if_neg hfull)

theorem xpost_traps {n : BitVec 6} {h : Nat} (hh : s.t.heldNow = false) (hv : (s.gIn a).toNat % 2 ^ 32 = h)
    (hg : s.regionSeen s.myPart h = none) (hr : s.ready (useOf (.xpost d a n)) = .ok ()) :
    Traps (.xpost d a n) s .staleHandle (word h) := by
  subst hv
  refine traps_of_effect rfl hr ((check_passes (State.notHeld_ok hh)).trans ?_)
  simp only [hg]
  rfl

/-- The injection that DVINJ leaves. -/
def State.injection (s : State) (entry : List Byte) : DvInj :=
  { core := s.cur, entry := entry, cnt := none, tlb := [], read := false, done := false, peng := s.t.peng,
    user := !s.t.sup, inst := s.t.inst, waits := false, born := 0 }

/-- The message that XSEND leaves. -/
def State.message (s : State) (desc : List Byte) : Xmsg :=
  { core := s.cur, part := s.myPart, inst := s.t.inst, desc := desc, base := 0, peng := s.t.peng, user := !s.t.sup,
    sent := [], acked := [], bad := none, cnt := none, tlb := [], num := 0 }

theorem State.after_dvCount (s : State) (i : Instr) : (s.after i).t.dvCount = s.t.dvCount := by
  rw [State.after, State.take_t, CoreT.popped, (popT_popped _ s.t).1]

theorem State.after_xsCount (s : State) (i : Instr) : (s.after i).t.xsCount = s.t.xsCount := by
  rw [State.after, State.take_t, CoreT.popped, (popT_popped _ s.t).1]

theorem sat_lt (n x : Nat) : sat n x < 2 ^ n := by
  have := Nat.two_pow_pos n
  rw [sat]
  split <;> omega

/-- The fields of a node's record, each up to the largest value of its field (R340). -/
theorem Node.word_fields (q : Node) : (Sys2Proof.Machine.word q.word).toNat % 2 ^ 16 = min q.queue (2 ^ 16 - 1) ∧
    (Sys2Proof.Machine.word q.word).toNat / 2 ^ 16 % 2 ^ 8 = min 255 (q.marks.countP id) ∧
    (Sys2Proof.Machine.word q.word).toNat / 2 ^ 24 % 2 ^ 16 = min q.rtt (2 ^ 16 - 1) ∧
    (Sys2Proof.Machine.word q.word).toNat / 2 ^ 40 = min q.wnd (2 ^ 24 - 1) := by
  have h1 := sat_lt 24 q.wnd
  have h2 := sat_lt 16 q.rtt
  have h3 := sat_lt 16 q.queue
  have e1 := sat_eq_min 24 q.wnd
  have e2 := sat_eq_min 16 q.rtt
  have e3 := sat_eq_min 16 q.queue
  have hc : (q.marks.filter id).length = q.marks.countP id := List.countP_eq_length_filter.symm
  have hword : (Sys2Proof.Machine.word q.word).toNat = sat 24 q.wnd * 2 ^ 40 + sat 16 q.rtt * 2 ^ 24
      + min 255 (q.marks.countP id) * 2 ^ 16 + sat 16 q.queue := by
    rw [Sys2Proof.Machine.word, BitVec.toNat_ofNat, Node.word, hc, Nat.shiftLeft_eq, Nat.shiftLeft_eq, Nat.shiftLeft_eq]
    exact Nat.mod_eq_of_lt (by omega)
  rw [hword]
  clear hword
  generalize hm : min 255 (q.marks.countP id) = m at *
  have h4 : m ≤ 255 := hm ▸ min_le_left _ _
  generalize sat 24 q.wnd = x at *
  generalize sat 16 q.rtt = y at *
  generalize sat 16 q.queue = z at *
  rw [min_comm, ← e3, min_comm, ← e2, min_comm, ← e1]
  refine ⟨?_, ?_, ?_, ?_⟩ <;> omega

end Collectives

/-- Settles O32: contexts, injections, extractions, registrations, sends and the node's record. -/
theorem collectivesTransport : Obligations.CollectivesTransport := by
  unfold Obligations.CollectivesTransport
  refine ⟨fun s d a grp r hh => ⟨dvcfg_unloads hh, fun hf ha hb hg => dvcfg_loads hh hf ha hb hg, dvcfg_traps hh, fun hb ho hr => ?inject,
    fun e l hq => dvext_takes hh hq, dvext_waits hh, does_of_effect rfl (check_passes (State.notHeld_ok hh)), ?stat,
    leaves_open_set (q := s.after (.dvstatC d grp)) rfl (check_passes (State.notHeld_ok hh)) (State.Alike.refl _) rfl⟩,
    fun s d a n r hh => ⟨?post, fun hb hg hr => ?send, ?node⟩⟩
  case inject =>
    obtain ⟨hread, hrt⟩ := State.readBlock_ok hb
    obtain ⟨heffs, hends, hpart⟩ := queued_keeps (e := .dvinj (s.injection r.2)) (d := d) (w := word s.t.dvCount)
      (g := fun t => { t with dvCount := (t.dvCount + 1) % 2 ^ 32 }) hread hrt ⟨rfl, rfl, rfl, rfl⟩ rfl
    refine ⟨_, s.injection r.2, does_of_effect rfl ((check_passes (State.notHeld_ok hh)).trans ((bind_passes hb).trans
      (if_neg (Nat.not_le.2 ho)))) hr, heffs, hends, rfl, rfl, rfl, hpart.trans ?_⟩
    rw [CoreT.setG_dvCount, State.after_dvCount]
  case stat =>
    intro x loaded member rank
    refine shows_of_eq rfl ?_
    simp only [State.dvWord, packed, b2n, Nat.shiftLeft_eq, Nat.zero_mul, Nat.zero_add, Nat.add_assoc, Nat.pow_zero, Nat.mul_one,
      Nat.add_zero, sat_eq_min]
    rfl
  case post =>
    intro h regs old
    exact ⟨fun g hg hw hm ho => xpost_leaves hh rfl hg hw hm ho, fun hg hr => xpost_traps hh rfl hg hr⟩
  case send =>
    obtain ⟨hread, hrt⟩ := State.readBlock_ok hb
    obtain ⟨heffs, hends, hpart⟩ := queued_keeps (e := .xsend (s.message r.2)) (d := d) (w := word s.t.xsCount)
      (g := fun t => { t with xsCount := (t.xsCount + 1) % 2 ^ 32 }) hread hrt ⟨rfl, rfl, rfl, rfl⟩ rfl
    refine ⟨_, s.message r.2, does_of_effect rfl ((check_passes (State.notHeld_ok hh)).trans ((bind_passes hb).trans
      (check_passes (faultIf_neg (by simp [hg]))))) hr, heffs, hends, rfl, rfl, rfl, hpart.trans ?_⟩
    rw [CoreT.setG_xsCount, State.after_xsCount]
  case node =>
    intro node
    refine ⟨does_of_effect rfl (check_passes (State.notHeld_ok hh)), fun hn => ?_, fun q hq => ?_⟩
    · rw [State.xccWord, hn]
    · intro w
      have hw : w = (Sys2Proof.Machine.word q.word).toNat := by
        change (s.xccWord node).toNat = _
        rw [State.xccWord, hq]
      rw [hw]
      exact q.word_fields

end Sys2Proof.Machine
end

section
/-! Proof of the statement on what a precise trap saves and changes: a trap behind no earlier instruction of its chunk is
taken at once, and the tentative part in its handler, read off field by field. -/
namespace Sys2Proof.Machine

-- One proof after another: the threads of many proofs at once do not fit the memory of the check.
set_option Elab.async false

section TrapEntry
variable {s : State} {f : Firing} {c : Cause} {xval xpc : Word} {imp secw : Bool}

/-- With no earlier instruction in the open chunk a trap is taken at once: an empty chunk is dropped. -/
theorem State.takeTrap_at_once (h : ∀ ch, s.me.chunk = some ch → ch.cnt = 0) :
    ∃ q : State, q.t = s.t ∧ q.mem = s.mem ∧ s.takeTrap c xval xpc imp secw = (q.enterTrap c xval xpc imp secw).stay := by
  cases hk : s.me.chunk with
  | none => exact ⟨s, rfl, rfl, State.takeTrap_of_no_chunk hk⟩
  | some ch =>
    refine ⟨s.updMe fun k => { k with chunk := none }, State.updMe_t _ _, rfl, ?_⟩
    rw [State.takeTrap, hk]
    exact if_pos (h ch hk)

/-- A trap's entry makes of the `Inst`'s slots held ones. -/
def CoreT.holdSlots (t : CoreT) (inst : Nat) : CoreT :=
  { t with slots := t.slots.map fun (p : Nat × Slot) =>
      if p.2.owner = some inst then (p.1, { p.2 with held := true }) else p }

@[simp] theorem Core.freeze_t (k : Core) (level inst : Nat) : (k.freeze level inst).t = k.t.holdSlots inst := rfl

/-- The tentative part that a trap's entry leaves. -/
theorem State.enterTrap_handler_t (hf : s.t.fir = some f) (hin : s.t.inTrap = false) (hvec : s.t.tr.xvec ≠ 0) :
    (s.enterTrap c xval xpc imp secw).t =
      ((s.t.saveTrap c (xcauseOf c imp secw) xval xpc).holdSlots f.inst).toHandler f.pri s.t.tr.xvec (s.t.handlerStat f c) := by
  rw [State.enterTrap_handler hf hin hvec]
  simp [State.t]

theorem State.enterTrap_mem (hf : s.t.fir = some f) (hin : s.t.inTrap = false) (hvec : s.t.tr.xvec ≠ 0) :
    (s.enterTrap c xval xpc imp secw).mem = s.mem := by
  rw [State.enterTrap_handler hf hin hvec]
  rfl

end TrapEntry

/-! ### What stays of a tentative part -/

/-- Two tentative parts with the registers, the masked window's count and the slots of one another. -/
structure CoreT.SameRegs (t u : CoreT) : Prop where
  gp : u.gp = t.gp
  gs : u.gs = t.gs
  v : u.v = t.v
  maskCnt : u.maskCnt = t.maskCnt
  slots : u.slots = t.slots

theorem CoreT.SameRegs.refl (t : CoreT) : t.SameRegs t := ⟨rfl, rfl, rfl, rfl, rfl⟩

theorem CoreT.SameRegs.trans {t u w : CoreT} (h : t.SameRegs u) (h' : u.SameRegs w) : t.SameRegs w :=
  ⟨h'.gp.trans h.gp, h'.gs.trans h.gs, h'.v.trans h.v, h'.maskCnt.trans h.maskCnt, h'.slots.trans h.slots⟩

theorem CoreT.sameRegs_updTr (t : CoreT) (g : TrapRegs → TrapRegs) : t.SameRegs (t.updTr g) := by
  unfold CoreT.updTr
  split <;> exact ⟨rfl, rfl, rfl, rfl, rfl⟩

theorem CoreT.sameRegs_updFir (t : CoreT) (g : Firing → Firing) : t.SameRegs (t.updFir g) := by
  unfold CoreT.updFir
  split
  · unfold CoreT.setFir
    split <;> exact ⟨rfl, rfl, rfl, rfl, rfl⟩
  · exact .refl t

theorem CoreT.sameRegs_saveTrap (t : CoreT) (c : Cause) (cause xval xpc : Word) :
    t.SameRegs (t.saveTrap c cause xval xpc) := by
  obtain ⟨h1, h2, h3, h4, h5⟩ := t.sameRegs_updTr fun r => { r with xcause := cause, xval := xval, xpc := xpc }
  exact ⟨h1, h2, h3, h4, h5⟩

theorem CoreT.sameRegs_toHandler (t : CoreT) (pri : Nat) (vec stat : Word) : t.SameRegs (t.toHandler pri vec stat) := by
  obtain ⟨h1, h2, h3, h4, h5⟩ := (t.sameRegs_updTr fun r => { r with xstat := stat }).trans
    (CoreT.sameRegs_updFir _ fun g => { g with pc := vec })
  exact ⟨h1, h2, h3, h4, h5⟩

/-- Every slot of the `Inst` that the table lists is held after a trap's entry. -/
theorem CoreT.get_holdSlots {m : FMap Slot} {inst n : Nat} (ho : (FMap.get Slot.free m n).owner = some inst)
    (hn : FMap.find? m n ≠ none) : (FMap.get Slot.free (m.map fun (p : Nat × Slot) =>
      if p.2.owner = some inst then (p.1, { p.2 with held := true }) else p) n).held = true := by
  induction m with
  | nil => exact absurd rfl hn
  | cons p r ih =>
    obtain ⟨k, x⟩ := p
    have hkey : (if x.owner = some inst then (k, { x with held := true }) else (k, x)) =
        (k, if x.owner = some inst then { x with held := true } else x) := by split <;> rfl
    simp only [List.map_cons, hkey, FMap.get, FMap.find?] at ho hn ⊢
    by_cases hnk : n = k
    · rw [if_pos hnk] at ho ⊢
      rw [if_pos ho]
    · rw [if_neg hnk] at ho hn ⊢
      by_cases hlt : n < k
      · exact absurd (if_pos hlt) hn
      · rw [if_neg hlt] at ho hn ⊢
        exact ih ho hn

/-! ### XCAUSE and XSTAT -/

/-- XSTAT in the handler shows its fields. -/
theorem handlerStat_bits (sup pri mask dry : Bool) :
    let x := word (1 + 2 * b2n sup + 4 * b2n pri + 8 * b2n mask + 16 + 32 * b2n dry)
    x.getLsbD 0 = true ∧ x.getLsbD 1 = sup ∧ x.getLsbD 2 = pri ∧ x.getLsbD 3 = mask ∧ x.getLsbD 4 = true ∧
      x.getLsbD 5 = dry := by
  revert sup pri mask dry
  decide

theorem b2n_getLsbD_zero (x : Word) : x.toNat % 2 = b2n (x.getLsbD 0) := by
  rw [BitVec.getLsbD, Nat.testBit_zero]
  obtain h | h : x.toNat % 2 = 0 ∨ x.toNat % 2 = 1 := by omega
  all_goals simp [h, b2n]

theorem CoreT.handlerStat_eq {t : CoreT} {f : Firing} (c : Cause) (hp : f.pri ≤ 1) : t.handlerStat f c =
    word (1 + 2 * b2n t.sup + 4 * b2n (decide (f.pri = 1)) + 8 * b2n (t.maskOpen && decide (c ≠ .maskWindow)) + 16 +
      32 * b2n f.held) := by
  have hpri : f.pri = b2n (decide (f.pri = 1)) := by
    obtain h | h : f.pri = 0 ∨ f.pri = 1 := by omega
    all_goals rw [h]; rfl
  rw [CoreT.handlerStat, b2n_getLsbD_zero, ← hpri]
  rfl

/-- Settles O33: the state that a trap's entry leaves, field by field. -/
theorem trapEntry : Obligations.TrapEntry := by
  unfold Obligations.TrapEntry
  intro s c xval xpc imp secw f hk hf hin hvec hp t r
  obtain ⟨q, hqt, hqm, htrap⟩ := State.takeTrap_at_once (c := c) (xval := xval) (xpc := xpc) (imp := imp) (secw := secw) hk
  rw [← hqt] at hf hin hvec
  have ht : t.t = ((q.t.saveTrap c (xcauseOf c imp secw) xval xpc).holdSlots f.inst).toHandler f.pri q.t.tr.xvec
      (q.t.handlerStat f c) := by
    change (s.takeTrap c xval xpc imp secw).t = _
    rw [htrap, State.stay_t, State.enterTrap_handler_t hf hin hvec]
  have htr : r = { q.t.tr with xcause := xcauseOf c imp secw, xval := xval, xpc := xpc, xstat := q.t.handlerStat f c } := by
    change (s.takeTrap c xval xpc imp secw).t.tr = _
    rw [htrap, State.stay_t, State.enterTrap_handler_tr hf hin hvec]
  have hmem : t.mem = s.mem := by
    rw [← hqm, ← State.enterTrap_mem hf hin hvec (c := c) (xval := xval) (xpc := xpc) (imp := imp) (secw := secw)]
    change (s.takeTrap c xval xpc imp secw).mem = _
    rw [htrap]
    rfl
  obtain ⟨hgp, hgs, hv, hcnt, -⟩ := q.t.sameRegs_saveTrap c (xcauseOf c imp secw) xval xpc
  obtain ⟨hgp', hgs', hv', hcnt', hsl'⟩ := ((q.t.saveTrap c (xcauseOf c imp secw) xval xpc).holdSlots f.inst).sameRegs_toHandler
    f.pri q.t.tr.xvec (q.t.handlerStat f c)
  obtain ⟨-, -, -, -, hslots⟩ := q.t.sameRegs_saveTrap c (xcauseOf c imp secw) xval xpc
  obtain ⟨b0, b1, b2, b3, b4, b5⟩ := handlerStat_bits q.t.sup (decide (f.pri = 1)) (q.t.maskOpen && decide (c ≠ .maskWindow)) f.held
  rw [← CoreT.handlerStat_eq c hp] at b0 b1 b2 b3 b4 b5
  rw [← hqt, htr]
  refine ⟨?cause, rfl, rfl, b0, b1, b2, b3, b4, b5, rfl, rfl, rfl, rfl, ?pc, ?mask, ?cnt, ?stayed, ?gp, ?gs, ?v, fun a => ?byte,
    fun n ho hn => ?slots⟩
  case cause =>
    change xcauseOf c imp secw = _
    exact congrArg word (by omega)
  case pc =>
    have hpc := State.enterTrap_handler_pc hf hin hvec (c := c) (xval := xval) (xpc := xpc) (imp := imp) (secw := secw)
    rwa [← State.stay_t, ← htrap] at hpc
  case mask => rw [ht]; rfl
  case cnt => rw [ht, hcnt']; exact hcnt
  case stayed =>
    change (s.takeTrap c xval xpc imp secw).me.stayed = true
    rw [htrap, State.stay, State.updMe_me]
  case gp => rw [ht, hgp']; exact hgp
  case gs => rw [ht, hgs']; exact hgs
  case v => rw [ht, hv']; exact hv
  case byte => rw [State.byte, hmem]; rfl
  case slots =>
    have hs : t.t.slots = q.t.slots.map fun (p : Nat × Slot) =>
        if p.2.owner = some f.inst then (p.1, { p.2 with held := true }) else p := by
      rw [ht, hsl', CoreT.holdSlots, hslots]
    change (FMap.get Slot.free s.t.slots n).owner = some f.inst at ho
    rw [← hqt] at ho
    change (FMap.get Slot.free t.t.slots n).held = true
    rw [hs]
    exact CoreT.get_holdSlots ho hn

end Sys2Proof.Machine
end

section
/-! Proof of the statement on XRET, XRET.K and the trap that stops a firing. -/
namespace Sys2Proof.Machine

-- One proof after another: the threads of many proofs at once do not fit the memory of the check.
set_option Elab.async false

section Return
variable {s : State} {f : Firing}

/-! ### The checks of XRET (R35, R371) -/

theorem State.privileged_ok (h : s.t.sup = true) : s.privileged = .ok () := by
  rw [State.privileged, h]
  rfl

theorem State.privileged_user (h : s.t.sup = false) :
    s.privileged = .error (.trap .privileged (word s.thisWord) false) := by
  rw [State.privileged, h]
  rfl

theorem xret_privileged (kill : Bool) (h : s.t.sup = false) :
    xret kill s = .next (s.takeTrap .privileged (word s.thisWord) s.t.pc false s.secw) := by
  rw [xret, check_stops (State.privileged_user h), finish_trap]

theorem xret_outside (kill : Bool) (h : s.t.sup = true) (hin : s.t.inTrap = false) :
    xret kill s = .next (s.takeTrap .illegalOp (word s.thisWord) s.t.pc false s.secw) := by
  rw [xret, check_passes (State.privileged_ok h), check_stops (faultIf_pos (by rw [hin]; rfl)), finish_trap]

/-- In a supervisor handler whose chunk has ended, XRET.K stops the firing. -/
theorem xret_stops (hf : s.t.fir = some f) (h : s.t.sup = true) (hin : s.t.inTrap = true) (hb : s.chunkBusy = false) :
    xret true s = .next (s.noChunk.stopFiring s.t.tr.xcause s.t.tr.xpc s.t.tr.xval none).stay := by
  rw [xret, check_passes (State.privileged_ok h), check_passes (faultIf_neg (by simp [hin])),
    check_passes (State.ownChunk_ok hb), hf]
  rfl

/-- XRET goes on at XPC, where that address is a legal target. -/
theorem xret_resumes (hf : s.t.fir = some f) (h : s.t.sup = true) (hin : s.t.inTrap = true) (hb : s.chunkBusy = false)
    (hd : f.down = false) (ha : s.t.tr.xpc.toNat % 4 = 0) (hc : s.noChunk.checkTarget s.t.tr.xpc.toNat = .ok ()) :
    xret false s = .next (s.noChunk.resume f).afterThis := by
  rw [xret, check_passes (State.privileged_ok h), check_passes (faultIf_neg (by simp [hin])),
    check_passes (State.ownChunk_ok hb), hf]
  dsimp only
  rw [if_neg Bool.false_ne_true, hd, if_neg Bool.false_ne_true, check_passes (faultIf_neg (by simp [ha])), check_passes hc,
    finish_ok]

/-! ### XSTAT after XRET -/

theorem xretStat_toNat (x : Word) : (xretStat x).toNat = x.toNat / 32 * 32 + x.toNat % 16 / 2 * 2 + x.toNat / 2 % 2 := by
  have hx := x.isLt
  rw [xretStat, word, BitVec.toNat_ofNat, bits_eq, Nat.mod_eq_of_lt]
  all_goals norm_num
  omega

/-- SUP takes PSUP, INTRAP clears, and every other bit stays (R371). -/
theorem xretStat_bit (x : Word) (k : Nat) : (xretStat x).getLsbD k =
    if k = 0 then x.getLsbD 1 else if k = 4 then false else x.getLsbD k := by
  have hhigh : (xretStat x).toNat / 2 ^ 5 = x.toNat / 2 ^ 5 := by
    rw [xretStat_toNat]
    omega
  have hlow : (xretStat x).toNat % 32 = x.toNat % 32 % 16 / 2 * 2 + x.toNat % 32 / 2 % 2 := by
    rw [xretStat_toNat, Nat.mod_mod_of_dvd _ (by decide : 16 ∣ 32), ← Nat.mod_mul_right_div_self _ 2 2,
      ← Nat.mod_mul_right_div_self _ 2 2, Nat.mod_mod_of_dvd _ (by decide : 2 * 2 ∣ 32)]
    omega
  obtain hk | ⟨j, rfl⟩ : k < 5 ∨ ∃ j, k = 5 + j := (Nat.lt_or_ge k 5).imp_right Nat.exists_eq_add_of_le
  · have hbit (y : Word) (i : Nat) (hi : i < 5) : y.getLsbD i = (y.toNat % 2 ^ 5).testBit i := by
      rw [Nat.testBit_mod_two_pow, decide_eq_true hi, Bool.true_and, BitVec.getLsbD]
    rw [hbit _ k hk, hbit x 1 (by decide), hbit x k hk]
    change Nat.testBit ((xretStat x).toNat % 32) k = _
    rw [hlow]
    generalize hm : x.toNat % 32 = m
    have hlt : m < 32 := hm ▸ Nat.mod_lt _ (by decide)
    clear hhigh hlow hbit hm
    interval_cases k <;> revert m <;> decide
  · have hbit (y : Word) : y.getLsbD (5 + j) = (y.toNat / 2 ^ 5).testBit j := by
      rw [Nat.testBit_div_two_pow, Nat.add_comm, BitVec.getLsbD]
    rw [hbit, hbit, hhigh, if_neg (by omega), if_neg (by omega)]

/-! ### The state that XRET leaves -/

/-- The tentative part of the trapped firing that goes on (R363, R371). -/
def CoreT.resumed (t : CoreT) (f : Firing) : CoreT :=
  let u := (t.updTr fun x => { x with xstat := xretStat x.xstat }).unhold f.inst
  { u with npc := t.tr.xpc, maskOpen := if t.tr.xstat.getLsbD 3 then true else u.maskOpen,
           mqh := if f.pri = 1 then u.mqh else [], mqh1 := if f.pri = 1 then [] else u.mqh1,
           streams := u.streams.map fun (p : Nat × Stream) => (p.1, p.2.retry) }

theorem State.resume_t (s : State) (f : Firing) : (s.resume f).t =
    (s.t.resumed f).setSkips (bits s.t.tr.xcause.toNat 7 0 = Cause.watchData.code) :=
  State.updMe_t _ _

theorem State.resume_afterThis_t (s : State) (f : Firing) : (s.noChunk.resume f).afterThis.t =
    (s.t.resumed f).setSkips (bits s.t.tr.xcause.toNat 7 0 = Cause.watchData.code) := by
  have hk : s.noChunk.t = s.t := State.updMe_t _ _
  rw [← hk, ← State.resume_t]
  exact State.updMe_t _ _

variable (t : CoreT) (b : Bool)

@[simp] theorem CoreT.setSkips_tr : (t.setSkips b).tr = t.tr := by
  unfold CoreT.setSkips
  split <;> rfl

@[simp] theorem CoreT.setSkips_npc : (t.setSkips b).npc = t.npc := by
  unfold CoreT.setSkips
  split <;> rfl

@[simp] theorem CoreT.setSkips_maskOpen : (t.setSkips b).maskOpen = t.maskOpen := by
  unfold CoreT.setSkips
  split <;> rfl

theorem CoreT.sameRegs_setSkips : t.SameRegs (t.setSkips b) := by
  unfold CoreT.setSkips
  split <;> exact ⟨rfl, rfl, rfl, rfl, rfl⟩

@[simp] theorem CoreT.resumed_tr : (t.resumed f).tr = { t.tr with xstat := xretStat t.tr.xstat } := t.updTr_tr _

theorem CoreT.updTr_maskOpen (g : TrapRegs → TrapRegs) : (t.updTr g).maskOpen = t.maskOpen := by
  unfold CoreT.updTr
  split <;> rfl

theorem CoreT.resumed_maskOpen : (t.resumed f).maskOpen = (t.tr.xstat.getLsbD 3 || t.maskOpen) := by
  change (if t.tr.xstat.getLsbD 3 then true else (t.updTr _).maskOpen) = _
  rw [CoreT.updTr_maskOpen]
  cases t.tr.xstat.getLsbD 3 <;> rfl

end Return

/-! ### What a discarded firing leaves (R20, R359) -/

/-- Every `Inst` of `s` is listed in `t`. -/
def State.KeepsInsts (s t : State) : Prop := ∀ key, FMap.find? s.insts key ≠ none → FMap.find? t.insts key ≠ none

section KeepsInsts
variable {s t u : State}

theorem State.KeepsInsts.of_insts (h : t.insts = s.insts) : s.KeepsInsts t := fun key hk => by rwa [h]

theorem State.KeepsInsts.refl (s : State) : s.KeepsInsts s := fun _ h => h

theorem State.KeepsInsts.trans (h : s.KeepsInsts t) (h' : t.KeepsInsts u) : s.KeepsInsts u := fun key hk => h' key (h key hk)

theorem State.keepsInsts_updInst (s : State) (i : Nat) (f : Inst → Inst) : s.KeepsInsts (s.updInst i f) := by
  intro key hk
  unfold State.updInst
  split
  · by_cases he : key = i
    · rw [he, FMap.find_put_self]
      exact Option.some_ne_none _
    · rwa [FMap.find_put_other _ _ _ _ he]
  · exact hk

theorem State.keepsInsts_foldl {α : Type} {f : State → α → State} (h : ∀ s a, State.KeepsInsts s (f s a)) (l : List α) (s : State) :
    s.KeepsInsts (l.foldl f s) := by
  induction l generalizing s with
  | nil => exact .refl s
  | cons a l ih => exact (h s a).trans (ih _)

theorem State.keepsInsts_wake (s : State) (key : Nat) : s.KeepsInsts (s.wake key) := by
  unfold State.wake
  split
  · exact .refl s
  · split
    · exact .refl s
    · split
      · exact .refl s
      · split
        · exact fun k hk => State.keepsInsts_updInst _ _ _ k hk
        · exact .refl s

theorem State.keepsInsts_wakeCore (s : State) (c : Nat) : s.KeepsInsts (s.wakeCore c) :=
  State.keepsInsts_foldl (f := fun s (p : Nat × Inst) => s.wake p.1) (fun s p => s.keepsInsts_wake p.1) _ s

theorem State.keepsInsts_addCredit (s : State) (inst p n : Nat) : s.KeepsInsts (s.addCredit inst p n) := by
  unfold State.addCredit
  split
  · exact .refl s
  · exact State.keepsInsts_updInst _ _ _

theorem State.keepsInsts_returnRoom (s : State) (f : Firing) : s.KeepsInsts (s.returnRoom f) := by
  unfold State.returnRoom
  split
  · exact .refl s
  · exact State.keepsInsts_foldl (fun s p => State.keepsInsts_addCredit s _ _ _) _ s

theorem State.keepsInsts_leaveSolo (s : State) (c : Nat) : s.KeepsInsts (s.leaveSolo c) := by
  unfold State.leaveSolo
  split
  · exact .refl s
  · exact .of_insts rfl

/-! ### A discarded firing -/

/-- The firing of a level. -/
def CoreT.firOf (t : CoreT) (level : Nat) : Option Firing := if level = 1 then t.fir1 else t.fir0

/-- A core whose firing of a level is discarded, at the state that its open chunk opened with when that level runs. -/
def Core.backTo (k : Core) (level : Nat) : Core := if k.t.level = level then { k with t := k.committed, chunk := none } else k

/-- The same core without the firing. -/
def Core.dropped (k : Core) (level : Nat) (f : Firing) : Core :=
  let k := ((k.setWaiting level Waiting.idle).setSquashes level 0).keepClaims f.serial
  ({ k.settleSlots.both fun t => (t.dropFiring level).unhold f.inst with
     pendImp := k.pendImp.filter (·.2.2 ≠ f.serial) } : Core).thaw level

/-- A discard puts the core without the firing, returns the firing's room, and makes its `Inst` idle. -/
theorem State.discard_eq {c level : Nat} {f : Firing} (h : ((s.core c).backTo level).t.firOf level = some f) :
    ∃ q : State, ((s.putCore c (((s.core c).backTo level).dropped level f)).returnRoom f).Calm q ∧
      (s.KeepsInsts q) ∧ s.discard c level =
        (q.updInst f.inst fun i => { i with busy := false, since := some f.entry, again := f.ord.isSome }).wakeCore c := by
  have hroom : s.KeepsInsts ((s.putCore c (((s.core c).backTo level).dropped level f)).returnRoom f) :=
    fun key hk => State.keepsInsts_returnRoom _ f key hk
  unfold Core.backTo CoreT.firOf at h
  by_cases hl : (s.core c).t.level = level
  · refine ⟨_, State.calm_leaveSolo _ c, hroom.trans (State.keepsInsts_leaveSolo _ c), ?_⟩
    unfold State.discard Core.backTo
    simp only [hl, if_true, decide_true] at h ⊢
    rw [h]
    rfl
  · refine ⟨_, State.Calm.refl _, hroom, ?_⟩
    unfold State.discard Core.backTo
    simp only [hl, if_false, decide_false, Bool.false_eq_true] at h ⊢
    rw [h]
    rfl

theorem State.keepsInsts_discard {c level : Nat} {f : Firing} (h : ((s.core c).backTo level).t.firOf level = some f) :
    s.KeepsInsts (s.discard c level) := by
  obtain ⟨q, -, hq, he⟩ := State.discard_eq h
  rw [he]
  exact (hq.trans (State.keepsInsts_updInst _ _ _)).trans (State.keepsInsts_wakeCore _ _)

end KeepsInsts

theorem CoreT.firOf_level (t : CoreT) : t.firOf t.level = t.fir := by
  unfold CoreT.firOf CoreT.level CoreT.fir
  split <;> rfl

theorem CoreT.dropFiring_firOf (t : CoreT) (level : Nat) : (t.dropFiring level).firOf level = none := by
  unfold CoreT.dropFiring CoreT.firOf
  dsimp only
  split <;> rfl

/-- A firing that is gone stays gone where the firings' numbers stay. -/
theorem CoreT.firOf_none_of_serials {t u : CoreT} {level : Nat} (h : u.serials = t.serials) (ht : t.firOf level = none) :
    u.firOf level = none := by
  unfold CoreT.serials at h
  obtain ⟨h0, h1⟩ := Prod.mk.inj h
  unfold CoreT.firOf at ht ⊢
  split at ht
  · rwa [if_pos ‹_›, ← Option.map_eq_none_iff (f := Firing.serial), h1, Option.map_eq_none_iff]
  · rwa [if_neg ‹_›, ← Option.map_eq_none_iff (f := Firing.serial), h0, Option.map_eq_none_iff]

/-! ### The core of a discarded firing -/

section Core
variable {k : Core} {f : Firing}

/-- No chunk is open and no firing is held. -/
def Core.Bare (k : Core) : Prop := k.chunk = none ∧ k.held = none

theorem Core.Calm.bare {l : Core} (h : k.Calm l) (hk : k.Bare) : l.Bare := by
  obtain ⟨hc, hh, -⟩ := h.rest hk.1 hk.2
  exact ⟨hc, hh⟩

theorem Core.bare_setWaiting (level : Nat) (w : Waiting) (h : k.Bare) : (k.setWaiting level w).Bare := by
  unfold Core.setWaiting
  split <;> exact h

theorem Core.bare_setSquashes (level n : Nat) (h : k.Bare) : (k.setSquashes level n).Bare := by
  unfold Core.setSquashes
  split <;> exact h

theorem Core.bare_both (g : CoreT → CoreT) (h : k.Bare) : (k.both g).Bare := by
  obtain ⟨hc, hh⟩ := h
  exact ⟨by rw [Core.both, hc]; rfl, by rw [Core.both, hh]; rfl⟩

theorem Core.bare_foldl {α : Type} {g : Core → α → Core} (hg : ∀ (k : Core) a, k.Bare → (g k a).Bare) (l : List α)
    (h : k.Bare) : (l.foldl g k).Bare := by
  induction l generalizing k with
  | nil => exact h
  | cons a l ih => exact ih (hg k a h)

theorem Core.bare_keepClaims (fir : Nat) (h : k.Bare) : (k.keepClaims fir).Bare :=
  Core.bare_foldl (fun k b hk => (Core.calm_updRack k b (fun r => ({ r with pend := r.pend - 1 } : Rack).flush) fun q =>
    Rack.Thins.trans (q := { q with pend := q.pend - 1 }) (Rack.thins_of ⟨rfl, rfl, rfl⟩) (Rack.thins_flush _)).bare hk) _ h

theorem Core.bare_dropped (level : Nat) (h : k.Bare) : (k.dropped level f).Bare :=
  Core.bare_both (fun t => (t.dropFiring level).unhold f.inst) (Core.bare_both _ (Core.bare_keepClaims _
    (Core.bare_setSquashes _ _ (Core.bare_setWaiting _ _ h))))

theorem Core.dropped_firOf (level : Nat) : (k.dropped level f).t.firOf level = none := CoreT.dropFiring_firOf _ level

/-- Without an open chunk a core's firing is discarded at the state that stands. -/
theorem Core.backTo_bare (level : Nat) (h : k.Bare) : (k.backTo level).t = k.t ∧ (k.backTo level).Bare := by
  obtain ⟨hc, hh⟩ := h
  unfold Core.backTo
  split
  · exact ⟨by rw [Core.committed, hc], rfl, hh⟩
  · exact ⟨rfl, hc, hh⟩

end Core

/-! ### The trap that stops a firing (R359) -/

section Stop
variable {s : State} {f : Firing}

/-- A discard from a core with no chunk and no held firing leaves its level without a firing. -/
theorem State.discard_firOf {c level : Nat} (hk : (s.core c).Bare) (hf : (s.core c).t.firOf level = some f) :
    ((s.discard c level).core c).t.firOf level = none := by
  obtain ⟨hback, hbare⟩ := Core.backTo_bare level hk
  rw [← hback] at hf
  obtain ⟨q, hcalm, -, he⟩ := State.discard_eq hf
  have hq : (s.putCore c (((s.core c).backTo level).dropped level f)).Calm (s.discard c level) := by
    rw [he]
    exact (((State.calm_returnRoom _ _).trans hcalm).trans (State.calm_updInst _ _ _)).trans (State.calm_wakeCore _ _)
  have hcore := hq.core c
  rw [State.putCore_core_self] at hcore
  obtain ⟨hc, hh⟩ := Core.bare_dropped (f := f) level hbare
  obtain ⟨-, -, -, -, hserials⟩ := hcore.rest hc hh
  exact CoreT.firOf_none_of_serials hserials (Core.dropped_firOf level)

theorem State.updInst_find {i : Nat} (g : Inst → Inst) (h : FMap.find? s.insts i ≠ none) :
    ∃ x, FMap.find? (s.updInst i g).insts i = some (g x) := by
  obtain ⟨x, hx⟩ := Option.ne_none_iff_exists'.1 h
  refine ⟨x, ?_⟩
  rw [State.updInst, hx]
  exact FMap.find_put_self _ _ _

@[simp] theorem State.tellSup_t (s : State) (src part : Nat) (ws : List Nat) : (s.tellSup src part ws).t = s.t := rfl

/-- A stopped firing is discarded, its `Inst` is stopped and leaves the run queue, and the supervisor is told. -/
theorem State.stopFiring_eq {xcause xpc xval : Word} {first : Option (Word × Word)} (hf : s.t.fir = some f) (hh : s.me.held = none) :
    ∃ src part ws, s.stopFiring xcause xpc xval first =
      (((s.discard s.cur f.pri).updInst f.inst fun i => { i with st := .stopped, since := none }).updMe fun k =>
        { k with runq := k.runq.filter (·.inst ≠ f.inst) }).tellSup src part ws := by
  unfold State.stopFiring
  simp only [hf, hh, Bool.false_eq_true, if_false]
  exact ⟨_, _, _, rfl⟩

/-- The stopped `Inst`, and the level without a firing. -/
theorem State.stopFiring_stops {xcause xpc xval : Word} {first : Option (Word × Word)} (hf : s.t.fir = some f)
    (hk : s.me.Bare) (hi : FMap.find? s.insts f.inst ≠ none) (hp : f.pri = s.t.level) :
    (∃ j, FMap.find? (s.stopFiring xcause xpc xval first).insts f.inst = some j ∧ j.st = .stopped) ∧
      (s.stopFiring xcause xpc xval first).t.firOf f.pri = none := by
  have hlevel : (s.core s.cur).t.firOf f.pri = some f := by
    rw [hp]
    exact (CoreT.firOf_level _).trans hf
  obtain ⟨src, part, ws, he⟩ := State.stopFiring_eq (xcause := xcause) (xpc := xpc) (xval := xval) (first := first) hf hk.2
  rw [he]
  have hcur : (s.discard s.cur f.pri).cur = s.cur := (State.calmBut_discard s s.cur f.pri).cur
  refine ⟨?_, ?_⟩
  · have hback : ((s.core s.cur).backTo f.pri).t.firOf f.pri = some f := by
      exact (congrArg (·.firOf f.pri) (Core.backTo_bare f.pri hk).1).trans hlevel
    obtain ⟨x, hx⟩ := State.updInst_find (s := s.discard s.cur f.pri) (fun i => { i with st := .stopped, since := none })
      (State.keepsInsts_discard hback _ hi)
    exact ⟨_, hx, rfl⟩
  · refine Eq.trans (congrArg (fun u : CoreT => u.firOf f.pri) ?_) (State.discard_firOf hk hlevel)
    rw [State.tellSup_t, State.updMe_t]
    exact (State.updInst_t _ _ _).trans (congrArg (fun c => ((s.discard s.cur f.pri).core c).t) hcur)

end Stop

/-- A trap of a handler, or without a vector, stops the firing. -/
theorem State.enterTrap_stops {c : Cause} {xval xpc : Word} {imp secw : Bool} {s : State} {f : Firing} (hf : s.t.fir = some f)
    (h : s.t.inTrap = true ∨ s.t.tr.xvec = 0) : ∃ (g : CoreT → CoreT) (cause : Word) (first : Option (Word × Word)),
      (∀ t : CoreT, (g t).fir = t.fir ∧ (g t).level = t.level) ∧
      s.enterTrap c xval xpc imp secw = (s.next.updMe fun k => k.both g).stopFiring cause xpc xval first := by
  have hg (cause : Word) (t : CoreT) : (t.saveTrap c cause xval xpc).fir = t.fir ∧ (t.saveTrap c cause xval xpc).level = t.level := by
    refine ⟨CoreT.saveTrap_fir, ?_⟩
    change (t.updTr _).level = _
    unfold CoreT.updTr CoreT.level
    split <;> rfl
  by_cases hin : s.t.inTrap = true
  · refine ⟨fun t => t.saveTrap c (xcauseOf .doubleTrap imp secw) xval xpc, xcauseOf .doubleTrap imp secw,
      some (s.t.tr.xcause, s.t.tr.xpc), hg _, ?_⟩
    unfold State.enterTrap
    simp only [State.next_t, hf, hin, if_true]
    rfl
  · have hvec : s.t.tr.xvec = 0 := h.resolve_left hin
    refine ⟨fun t => t.saveTrap c (xcauseOf c imp secw) xval xpc, xcauseOf c imp secw, none, hg _, ?_⟩
    unfold State.enterTrap
    simp only [State.next_t, hf, hin, hvec, if_true]
    rfl

/-- Settles O35: the checks of XRET in their order, the state it leaves, and the stop. -/
theorem trapReturn : Obligations.TrapReturn := by
  unfold Obligations.TrapReturn
  refine ⟨fun s f hf => ⟨fun hs hin hb hd ha hc => ?_, fun hs hin hb => xret_stops hf hs hin hb,
    fun hs hin => ⟨xret_outside false hs hin, xret_outside true hs hin⟩,
    fun hs => ⟨xret_privileged false hs, xret_privileged true hs⟩⟩, fun s c xval xpc imp secw f i hk hf hh hi hp h => ?_⟩
  · refine ⟨_, xret_resumes hf hs hin hb hd ha hc, ?_⟩
    rw [State.resume_afterThis_t, CoreT.setSkips_tr, CoreT.resumed_tr]
    obtain ⟨hgp, -, hv, hcnt, -⟩ := (s.t.resumed f).sameRegs_setSkips (bits s.t.tr.xcause.toNat 7 0 = Cause.watchData.code)
    obtain ⟨hgp', -, hv', hcnt', -⟩ := s.t.sameRegs_updTr fun x => { x with xstat := xretStat x.xstat }
    refine ⟨CoreT.setSkips_npc _ _, xretStat_bit _ 0, xretStat_bit _ 4, fun k h0 h4 => ?_, rfl, rfl, rfl, rfl, ?_, hcnt.trans hcnt',
      hgp.trans hgp', hv.trans hv', fun a => rfl⟩
    · rw [xretStat_bit, if_neg h0, if_neg h4]
    · rw [CoreT.setSkips_maskOpen, CoreT.resumed_maskOpen]
  · obtain ⟨g, cause, first, hg, he⟩ := State.enterTrap_stops (c := c) (xval := xval) (xpc := xpc) (imp := imp) (secw := secw) hf h
    have hbare : s.me.Bare := ⟨hk, hh⟩
    intro t
    have ht : t = (s.enterTrap c xval xpc imp secw).stay := State.takeTrap_of_no_chunk hk
    rw [he] at ht
    have hq : (s.next.updMe fun k => k.both g).t = g s.t := State.updMe_t _ _
    obtain ⟨hst, hgone⟩ := State.stopFiring_stops (s := s.next.updMe fun k => k.both g) (f := f) (xcause := cause) (xpc := xpc)
      (xval := xval) (first := first) (by rw [hq, (hg _).1, hf]) (by rw [State.updMe_me]; exact Core.bare_both g hbare)
      (by change FMap.find? s.insts f.inst ≠ none; rw [hi]; exact Option.some_ne_none i) (by rw [hq, (hg _).2, hp])
    rw [ht, State.stay_t]
    exact ⟨hst, hgone⟩

end Sys2Proof.Machine
end

section
/-! Proof of the statement on the system registers, WATCH and WFI: what a write of a system register stores, and the waits
of WFI. -/
namespace Sys2Proof.Machine

-- One proof after another: the threads of many proofs at once do not fit the memory of the check.
set_option Elab.async false

/-! ### Fields of a word, bit by bit -/

section Fields
variable (w : Word)

/-- A field of a word at its own place. -/
theorem getLsbD_field (hi lo i : Nat) (hl : lo ≤ hi) : (word (wbits w hi lo <<< lo)).getLsbD i =
    (decide (i < 64) && (decide (lo ≤ i) && (decide (i ≤ hi) && w.getLsbD i))) := by
  rw [word, BitVec.getLsbD_ofNat, Nat.testBit_shiftLeft, wbits, bits, Nat.testBit_mod_two_pow, Nat.testBit_shiftRight,
    BitVec.getLsbD]
  by_cases hlo : lo ≤ i
  · have hhi : i - lo < hi + 1 - lo ↔ i ≤ hi := by omega
    rw [Nat.add_sub_of_le hlo, decide_eq_decide.2 hhi]
  · simp [hlo]

theorem getLsbD_lowField (hi i : Nat) : (word (wbits w hi 0)).getLsbD i =
    (decide (i < 64) && (decide (i ≤ hi) && w.getLsbD i)) := by
  have h := getLsbD_field w hi 0 i (Nat.zero_le _)
  simpa using h

/-- A field above another number is both of them. -/
theorem word_shiftLeft_add (a b lo : Nat) (hb : b < 2 ^ lo) : word (a <<< lo + b) = word (a <<< lo) ||| word b := by
  rw [Nat.shiftLeft_add_eq_or_of_lt hb, word, word, word, BitVec.ofNat_or]

theorem wbits_lt (hi lo : Nat) : wbits w hi lo < 2 ^ (hi + 1 - lo) := Nat.mod_lt _ (Nat.two_pow_pos _)

theorem wbits_low (hi : Nat) (m : Word) (hm : ∀ i, i < 64 → m.getLsbD i = decide (i ≤ hi)) : word (wbits w hi 0) = w &&& m := by
  refine BitVec.eq_of_getLsbD_eq fun i hi => ?_
  rw [getLsbD_lowField, BitVec.getLsbD_and, hm i hi, decide_eq_true hi, Bool.true_and, Bool.and_comm]

theorem watchmOf_eq : watchmOf w = w &&& 0xF000FFFFFFFFFFFF#64 := by
  rw [watchmOf, word_shiftLeft_add _ _ _ ((wbits_lt w 47 0).trans (by decide))]
  refine BitVec.eq_of_getLsbD_eq fun i hi => ?_
  rw [BitVec.getLsbD_or, getLsbD_field _ _ _ _ (by decide), getLsbD_lowField, BitVec.getLsbD_and]
  generalize w.getLsbD i = b
  revert b
  revert i
  decide

theorem watchaOf_eq : watchaOf w = w &&& 0xFFFFFFFFFFFF#64 := wbits_low w 47 _ (by decide)

/-- MODE as a write stores it: user mode leaves PENG (R39, R373). -/
theorem modeOf_eq (old : Word) (sup : Bool) : word (wbits w 3 1 <<< 1 + (if sup then wbits w 0 0 else wbits old 0 0)) =
    if sup then w &&& 0xF#64 else (w &&& 0xE#64) ||| (old &&& 1#64) := by
  have hlow (x : Word) : word (wbits w 3 1 <<< 1 + wbits x 0 0) = (w &&& 0xE#64) ||| (x &&& 1#64) := by
    rw [word_shiftLeft_add _ _ _ (wbits_lt x 0 0), wbits_low x 0 1#64 (by decide)]
    refine congrArg (· ||| (x &&& 1#64)) (BitVec.eq_of_getLsbD_eq fun i hi => ?_)
    rw [getLsbD_field _ _ _ _ (by decide), BitVec.getLsbD_and]
    generalize w.getLsbD i = b
    revert b
    revert i
    decide
  cases sup with
  | false => exact hlow old
  | true =>
    refine (hlow w).trans ?_
    rw [← BitVec.and_or_distrib_left]
    rfl

end Fields

/-! ### Writes of system registers -/

section Csr
variable (s : State) (n : Nat) (w : Word)

@[simp] theorem State.csrPut_t : (s.csrPut n w).t = s.t.updTr fun r => r.csrWrite s.t.sup n w := State.updT_t _ _

theorem State.csrPut_tr : (s.csrPut n w).t.tr = s.t.tr.csrWrite s.t.sup n w := by
  rw [State.csrPut_t, CoreT.updTr_tr]

theorem CoreT.updTr_eq (t : CoreT) (f : TrapRegs → TrapRegs) : t.updTr f = { t with tr0 := (t.updTr f).tr0, tr1 := (t.updTr f).tr1 } := by
  unfold CoreT.updTr
  split <;> rfl

/-- A write that a register ignores leaves the tentative part. -/
theorem CoreT.updTr_id (t : CoreT) {f : TrapRegs → TrapRegs} (h : ∀ r, f r = r) : t.updTr f = t := by
  unfold CoreT.updTr
  split
  · rw [h]
  · rw [h]

/-- The registers that a write ignores (R36). -/
theorem TrapRegs.csrWrite_ignored (r : TrapRegs) (sup : Bool) {n : Nat} (h : n ∈ [0x010, 0x011, 0x012, 0x020, 0x040, 0x041, 0x050]) :
    r.csrWrite sup n w = r := by
  simp only [List.mem_cons, List.not_mem_nil, or_false] at h
  obtain rfl | rfl | rfl | rfl | rfl | rfl | rfl := h <;> rfl

/-- Where the core stays, every system register does. -/
theorem State.csr_congr {s q : State} (h : q.me = s.me) (hq : q = { s with cores := q.cores }) (k : Nat) : q.csr k = s.csr k := by
  obtain ⟨cores, hcores⟩ : ∃ m, q = { s with cores := m } := ⟨q.cores, hq⟩
  subst hcores
  have ht : State.t { s with cores := cores } = s.t := congrArg Core.t h
  have hstage : State.csrStage { s with cores := cores } = s.csrStage := by
    unfold State.csrStage
    rw [ht]
    rfl
  have hkiln : State.csrKiln { s with cores := cores } = s.csrKiln := by
    unfold State.csrKiln State.myPart
    rw [ht, h]
    rfl
  have hpart : State.myPart { s with cores := cores } = s.myPart := by
    unfold State.myPart
    rw [ht, h]
  unfold State.csr
  rw [ht, hstage, hkiln, hpart]
  rfl

/-- A write that every system register ignores changes nothing. -/
theorem State.csrPut_ignored {n : Nat} (h : n ∈ [0x010, 0x011, 0x012, 0x020, 0x040, 0x041, 0x050]) :
    (s.csrPut n w).me = s.me ∧ ElsewhereSame s (s.csrPut n w) ∧ ∀ k, (s.csrPut n w).csr k = s.csr k := by
  have hme : (s.csrPut n w).me = s.me := by
    rw [State.csrPut, State.updT, CoreT.updTr_id _ fun r => TrapRegs.csrWrite_ignored w r _ h]
    exact State.putMe_me s _
  exact ⟨hme, ⟨rfl, fun c hc => State.putCore_core_other _ _ _ _ hc⟩, State.csr_congr hme rfl⟩

/-! ### CSRRD, CSRWR and CSRSW -/

variable {s} {g : Reg} {n : BitVec 12}

theorem State.csrCheck_ok {n : Nat} (h : s.t.sup = true ∨ 6 ≤ n) : s.csrCheck n = .ok () := by
  unfold State.csrCheck csrSuper
  split
  · exact State.privileged_ok (h.resolve_right (by simpa using ‹decide (n < 6) = true›))
  · rfl

theorem State.csrCheck_user {n : Nat} (h : s.t.sup = false) (hn : n < 6) :
    s.csrCheck n = .error (.trap .privileged (word s.thisWord) false) := by
  rw [State.csrCheck, csrSuper, decide_eq_true hn, if_pos rfl, State.privileged_user h]

theorem csrwr_does (h : s.t.sup = true ∨ 6 ≤ n.toNat) :
    Does (.csrwr g n) s ((s.after (.csrwr g n)).csrPut n.toNat (s.gIn g)) := by
  intro hr
  change execCsrwr g n s = _
  rw [execCsrwr, check_passes (State.csrCheck_ok h), State.doing_ready _ hr]
  rfl

theorem csrsw_does (h : s.t.sup = true ∨ 6 ≤ n.toNat) :
    Does (.csrsw g n) s (((s.after (.csrsw g n)).setG g (s.csr n.toNat)).csrPut n.toNat (s.gIn g)) := by
  intro hr
  change execCsrsw g n s = _
  rw [execCsrsw, check_passes (State.csrCheck_ok h), State.doing_ready _ hr]
  rfl

theorem csrwr_traps (h : s.t.sup = false) (hn : n.toNat < 6) : Traps (.csrwr g n) s .privileged (word s.thisWord) := by
  change execCsrwr g n s = _
  rw [execCsrwr, check_stops (State.csrCheck_user h hn), finish_trap]

theorem csrsw_traps (h : s.t.sup = false) (hn : n.toNat < 6) : Traps (.csrsw g n) s .privileged (word s.thisWord) := by
  change execCsrsw g n s = _
  rw [execCsrsw, check_stops (State.csrCheck_user h hn), finish_trap]

end Csr

/-! ### WATCH (R376) -/

theorem CoreT.updTr_g (t : CoreT) (f : TrapRegs → TrapRegs) (r : Reg) : (t.updTr f).g r = t.g r := by
  by_cases h : t.fir1.isSome <;> simp [CoreT.updTr, CoreT.g, h]

section Watch
variable {s : State} {d a b : Reg}

/-- The tentative part with a watchpoint installed and its match record cleared to KIND 7. -/
def CoreT.watched (t : CoreT) (wa wb : Word) : CoreT :=
  { t.updTr (fun r => { r with watcha := watchaOf wa, watchm := watchmOf wb }) with watchRec := 0xE000000000000000#64 }

theorem CoreT.watched_tr (t : CoreT) (wa wb : Word) :
    (t.watched wa wb).tr = { t.tr with watcha := watchaOf wa, watchm := watchmOf wb } := t.updTr_tr _

theorem CoreT.watched_g (t : CoreT) (wa wb : Word) (r : Reg) : (t.watched wa wb).g r = t.g r := t.updTr_g _ r

/-- WATCH gives the last match record, clears it to KIND 7, and installs the watchpoint. -/
theorem watch_installs (hr : s.ready (useOf (.watch d a b)) = .ok ()) : ∃ t, exec (.watch d a b) s = .next t ∧
    t.t.watchRec = 0xE000000000000000#64 ∧ t.csr 0x030 = (s.gIn a) &&& 0xFFFFFFFFFFFF#64 ∧
    t.csr 0x031 = (s.gIn b) &&& 0xF000FFFFFFFFFFFF#64 ∧ (d ≠ 0#5 → t.t.g d = s.t.watchRec) := by
  let q : State := ((s.after (.watch d a b)).setG d s.t.watchRec).updT fun t => t.watched (s.gIn a) (s.gIn b)
  have ht : q.t = ((s.after (.watch d a b)).setG d s.t.watchRec).t.watched (s.gIn a) (s.gIn b) := State.updT_t _ _
  have htr := (congrArg CoreT.tr ht).trans (CoreT.watched_tr _ _ _)
  refine ⟨q, does_of_effect (f := fun s' => .ok ((s'.setG d s.t.watchRec).updT fun t => t.watched (s.gIn a) (s.gIn b))) rfl rfl hr,
    congrArg CoreT.watchRec ht, ?_, ?_, fun hd => ?_⟩
  · change q.t.tr.watcha = _
    rw [htr]
    exact watchaOf_eq _
  · change q.t.tr.watchm = _
    rw [htr]
    exact watchmOf_eq _
  · rw [ht, CoreT.watched_g, State.setG_t]
    exact CoreT.setG_g_self _ _ _ hd

end Watch

/-! ### WFI (R372) -/

section Wfi
variable {s : State} {d a : Reg}

/-- The first turn of WFI. -/
theorem execWfi_first (h : ∀ r x m, (s.me.waiting s.t.level).await ≠ .wfi r x m) : execWfi d a s = finish s (do
      s.ready (useOf (.wfi d a))
      s.ownChunk
      if s.timeUp (s.gIn a).toNat then .ok ((s.take (useOf (.wfi d a))).setG d 8).afterThis
      else if s.t.maskOpen then .error (.wait true)
      else .ok ((s.updMe fun k =>
        { k.setWaiting s.t.level { Waiting.idle with await := .wfi d (s.gIn a).toNat 0 } with chunk := none }).stay)) := by
  unfold execWfi
  dsimp only
  cases haw : (s.me.waiting s.t.level).await with
  | wfi r x m => exact absurd haw (h r x m)
  | _ => rfl

/-- A later turn finds the mask of what has happened since, and the deadline. -/
theorem execWfi_later {r : Reg} {x m : Nat} (h : (s.me.waiting s.t.level).await = .wfi r x m) (hx : s.timeUp x = false) :
    execWfi d a s = if m = 0 then .next s.stay else finish s (s.doing (useOf (.wfi d a)) fun s' =>
      .ok ((s'.setG d (word m)).updMe fun k => k.setWaiting s.t.level Waiting.idle).afterThis) := by
  unfold execWfi
  simp only [h, hx, Bool.false_eq_true, if_false, Nat.or_zero]

theorem wfi_arms (h : ∀ r x m, (s.me.waiting s.t.level).await ≠ .wfi r x m) (hr : s.ready (useOf (.wfi d a)) = .ok ())
    (hb : s.chunkBusy = false) (hx : s.timeUp (s.gIn a).toNat = false) (hm : s.t.maskOpen = false) :
    ∃ t, exec (.wfi d a) s = .next t ∧ t.t = s.t ∧ t.me.waiting s.t.level = ⟨.wfi d (s.gIn a).toNat 0, none, none⟩ := by
  have he : exec (.wfi d a) s = .next ((s.updMe fun k =>
      { k.setWaiting s.t.level { Waiting.idle with await := .wfi d (s.gIn a).toNat 0 } with chunk := none }).stay) := by
    change execWfi d a s = _
    rw [execWfi_first h, check_passes hr, check_passes (State.ownChunk_ok hb), hx, hm]
    rfl
  refine ⟨_, he, ?_, ?_⟩
  · rw [State.stay_t, State.updMe_t]
    exact Core.setWaiting_t _ _ _
  · rw [State.stay, State.updMe_me, State.updMe_me]
    exact Core.setWaiting_waiting _ _ _

theorem wfi_goes_on {r : Reg} {x m : Nat} (h : (s.me.waiting s.t.level).await = .wfi r x m) (hm : m ≠ 0)
    (hx : s.timeUp x = false) (hr : s.ready (useOf (.wfi d a)) = .ok ()) :
    ∃ t, exec (.wfi d a) s = .next t ∧ t.t = (s.after (.wfi d a)).t.setG d (word m) ∧
      t.me.waiting s.t.level = Waiting.idle := by
  have he : exec (.wfi d a) s = .next (((s.after (.wfi d a)).setG d (word m)).updMe fun k =>
      k.setWaiting s.t.level Waiting.idle).afterThis := by
    change execWfi d a s = _
    rw [execWfi_later h hx, if_neg hm, State.doing_ready _ hr]
    rfl
  refine ⟨_, he, ?_, ?_⟩
  · rw [State.afterThis, State.updMe_t, State.updMe_me]
    exact (Core.setWaiting_t _ _ _).trans (State.setG_t _ _ _)
  · rw [State.afterThis, State.updMe_me, State.updMe_me]
    exact Core.setWaiting_waiting _ _ _

end Wfi

/-- Settles O36: the moves of the system registers, what each stores, WATCH, and the turns of WFI. -/
theorem systemRegisters : Obligations.SystemRegisters := by
  unfold Obligations.SystemRegisters
  refine ⟨fun s g n => ⟨puts_of_setsG rfl rfl, fun h => ⟨csrwr_does h, csrsw_does h⟩, fun h hn => ⟨csrwr_traps h hn, csrsw_traps h hn⟩⟩,
    fun s w => ?stored, fun s d a b hr => watch_installs hr, fun s d a => ⟨fun h hr hb => ⟨fun hx => ?_, fun hx hm => wfi_arms h hr hb hx hm⟩,
      fun r x m h => ⟨fun hm hx => ?_, fun hm hx hr => wfi_goes_on h hm hx hr⟩⟩⟩
  case stored =>
    have htr (n : Nat) := s.csrPut_tr n w
    refine ⟨?_, congrArg TrapRegs.xval (htr _), congrArg TrapRegs.xpc (htr _), congrArg TrapRegs.xstat (htr _),
      congrArg TrapRegs.xvec (htr _), congrArg TrapRegs.xscratch (htr _), ?_, ?_, ?_, ?_, fun n hn => s.csrPut_ignored w hn, ?_⟩
    · exact (congrArg TrapRegs.xcause (htr _)).trans (wbits_low w 9 _ (by decide))
    · refine (congrArg TrapRegs.chmax (htr _)).trans ?_
      change chmaxOf w = _
      rw [chmaxOf, wbits, bits_eq, Nat.pow_zero, Nat.div_one]
    · exact (congrArg TrapRegs.mode (htr _)).trans (modeOf_eq w _ _)
    · exact (congrArg TrapRegs.watcha (htr _)).trans (watchaOf_eq w)
    · exact (congrArg TrapRegs.watchm (htr _)).trans (watchmOf_eq w)
    · rw [State.csrPut_t]
      exact CoreT.updTr_eq _ _
  · change execWfi d a s = _
    rw [execWfi_first h, check_passes hr, check_passes (State.ownChunk_ok hb), hx]
    rfl
  · change execWfi d a s = _
    rw [execWfi_later h hx, if_pos hm]

end Sys2Proof.Machine
end

section
/-! Refutation of the statement on window descriptors, translations and handles: of WINSET it says that the register
receives the committed descriptor, where a held firing receives the one that its own held chunks have set (R69, R311). -/
namespace Sys2Proof.Machine

-- One proof after another: the threads of many proofs at once do not fit the memory of the check.
set_option Elab.async false

/-- A held firing at WINSET of window 1 of its core, whose address g4 holds. An earlier chunk of the firing, held till
glue-up, has set that window's descriptor to 1; committed, it is 0. -/
def heldWindow : State :=
  let s := (State.reset.withFetchWord 32 0).updCore 0 fun k =>
    { k with tlb := [⟨0, 0x210000, ⟨0x100000100000, 16, 0, false, true, true, true, true⟩⟩] }
  let s := s.updT fun t => ({ t with fir0 := t.fir0.map fun f => { f with held := true } } : CoreT).setG 4#5 0x210000
  s.updMe fun k => { k with held := k.t.fir0.map fun f =>
    { heldOf f k.t with chunks := [{ k.newChunk with eff := [.winset 0x100000100000 1] }] } }

/-- The access to the window that its WINSET makes. -/
def heldWindowAcc : Acc :=
  ⟨0x210000, 0x100000100000, 4, ⟨0x100000100000, 16, 0, false, true, true, true, true⟩, .pad 0x100000000000 0x20000 1 0⟩

theorem heldWindow_at : heldWindow.windowAt (heldWindow.gIn 4#5).toNat = .ok (heldWindowAcc, 0x100000100000, 0x20000, 0) := by
  decide +kernel

theorem heldWindow_owned : heldWindow.windowOwned (heldWindow.gIn 4#5).toNat 0x100000100000 0 = true := by
  decide +kernel

/-- What g3 holds after an outcome. -/
def g3After (o : Host.Outcome State Fault Refusal) : Word :=
  match o with
  | .next t => t.t.g 3#5
  | _ => 0

/-- The register receives the descriptor that the held chunk has set. -/
theorem heldWindow_old : g3After (exec (.winset 3#5 4#5 0#5) heldWindow) = 1 := by
  decide +kernel

/-- Refutes O37: in `heldWindow` WINSET gives 1, the descriptor that the firing's held chunk has set, where the statement
has 0, the committed one. -/
theorem not_translationsHandles : ¬ Obligations.TranslationsHandles := by
  unfold Obligations.TranslationsHandles
  rintro ⟨hwin, -⟩
  obtain ⟨hset, -⟩ := hwin heldWindow 3#5 4#5 0#5 heldWindowAcc 0x100000100000 0x20000 0
  obtain ⟨hleaves, -⟩ := hset heldWindow_at
  obtain ⟨t, hexec, -, -, ht⟩ := hleaves heldWindow_owned (by decide +kernel) (by decide +kernel)
  have hg : g3After (exec (.winset 3#5 4#5 0#5) heldWindow) = FMap.get 0 heldWindow.wins 0x100000100000 := by
    rw [hexec, g3After, ht]
    exact CoreT.setG_g_self _ _ _ (by decide)
  rw [heldWindow_old] at hg
  exact absurd hg (by decide +kernel)

end Sys2Proof.Machine
end

section
/-! Proof of the statement on CTXSAVE, CTXREST and CTXREST.ANY: the checks of each in their order. -/
namespace Sys2Proof.Machine

-- One proof after another: the threads of many proofs at once do not fit the memory of the check.
set_option Elab.async false

section Context
variable {s : State} {d a b : Reg} {key : Nat} {i : Inst}

/-! ### User mode (R35) -/

theorem ctxsave_user (h : s.t.sup = false) : Traps (.ctxsave d a b) s .privileged (word s.thisWord) := by
  change execCtxsave d a b s = _
  rw [execCtxsave, check_stops (State.privileged_user h), finish_trap]

theorem ctxrest_user (ins : Instr) (any : Bool) (h : s.t.sup = false) :
    ctxrest ins any d a b s = .next (s.takeTrap .privileged (word s.thisWord) s.t.pc false s.secw) := by
  rw [ctxrest, check_stops (State.privileged_user h), finish_trap]

/-! ### CTXSAVE (R374) -/

/-- What CTXSAVE of a resting `Inst` whose commands have completed does, once its image has its places `xs`. -/
def State.saveImage (s : State) (d : Reg) (key c : Nat) (i : Inst) (xs : List Acc) (s' : State) : Res State :=
  if (s.imageSpans key c i).any (fun p => s.spoiled p.1 p.2) then s.freeFault .spadUncorrectable else
  if !s.mayCommit s.cur (s.imageChunk xs (s.contextImage key c i)) then .error (.wait false) else
  .ok (((((xs.foldl (fun s x => s.fillTlb s.cur s.myPart x.ea x.leaf) s').setG d (word (s.contextImage key c i).length)).noChunk).applyChunk
    s.cur none (s.imageChunk xs (s.contextImage key c i))).afterThis)

variable (hs : s.t.sup = true) (hb : s.chunkBusy = false) (hh : s.t.heldNow = false)
  (hkey : s.byHandle s.myPart ((s.gIn a).toNat % 2 ^ 48) = .ok (key, i)) (hva : (s.gIn b).toNat % 256 = 0)
include hs hb hh hkey hva

theorem ctxsave_saves {c : Nat} {xs : List Acc} (hc : i.core = some c) (hrest : i.resting = true) (hother : key ≠ s.t.inst)
    (hidle : s.engineIdle key = true) (hst : i.st ≠ .stream)
    (hxs : s.imageWrites (s.gIn b).toNat ((s.contextImage key c i).length / 64) = .ok xs)
    (hr : s.ready (useOf (.ctxsave d a b)) = .ok ()) :
    exec (.ctxsave d a b) s = finish s (s.saveImage d key c i xs (s.after (.ctxsave d a b))) := by
  change execCtxsave d a b s = _
  rw [execCtxsave, check_passes (State.privileged_ok hs), check_passes (State.ownChunk_ok hb), State.doing_ready _ hr]
  refine congrArg (finish s) ((check_passes (State.notHeld_ok hh)).trans ?_)
  rw [hkey]
  dsimp only
  rw [hc]
  dsimp only
  rw [if_neg (by simp [hrest, hother]), check_passes (faultIf_neg (by simp [hva])), bind_passes hxs,
    if_neg (by simp [hidle, hst])]
  rfl

/-! ### CTXREST (R375) -/

theorem ctxrest_restores {ins : Instr} {any : Bool} {r q : State × List Byte} {img : Image} {k : Nat} {t : State}
    (hblock : (s.after ins).readBlock (s.gIn b).toNat 64 = .ok r) (h64 : fieldAt r.2 4 4 % 64 = 0) (h0 : fieldAt r.2 4 4 ≠ 0)
    (hmax : fieldAt r.2 4 4 ≤ 2 ^ 19) (himage : (s.after ins).imageBytes (s.gIn b).toNat (fieldAt r.2 4 4 / 64) = .ok q)
    (himg : readImageFor i.aidx (s.descOfInst i) q.2 = some img) (hrest : i.resting = true ∨ i.st = .unplaced)
    (hidle : s.engineIdle key = true) (hst : i.st = .home ∨ i.st = .stopped ∨ i.st = .unplaced)
    (hcore : (s.liftInst key).restoreCore key i img any = some k)
    (hput : (q.1.noChunk.setG d (word k)).restore key k i.core img = some t) (hr : s.ready (useOf ins) = .ok ()) :
    ctxrest ins any d a b s = .next (t.wake key).afterThis := by
  rw [ctxrest, check_passes (State.privileged_ok hs), check_passes (State.ownChunk_ok hb), State.doing_ready _ hr]
  refine (congrArg (finish s) ((check_passes (State.notHeld_ok hh)).trans ?_)).trans (finish_ok s _)
  rw [hkey]
  dsimp only
  have hlen : ¬(decide (fieldAt r.2 4 4 % 64 ≠ 0) || decide (fieldAt r.2 4 4 = 0) || decide (fieldAt r.2 4 4 > 2 ^ 19)) = true := by
    simp only [Bool.or_eq_true, decide_eq_true_eq, not_or, not_not, Nat.not_lt]
    exact ⟨⟨h64, h0⟩, hmax⟩
  have hrests : ¬(!(i.resting || decide (i.st = .unplaced))) = true := by
    rw [Bool.not_eq_true', Bool.not_eq_false, Bool.or_eq_true, decide_eq_true_eq]
    exact hrest
  have hplace : ¬(!s.engineIdle key || !(decide (i.st = .home) || decide (i.st = .stopped) || decide (i.st = .unplaced))) = true := by
    rw [hidle, Bool.not_true, Bool.false_or, Bool.not_eq_true', Bool.not_eq_false]
    simpa only [Bool.or_eq_true, decide_eq_true_eq, or_assoc] using hst
  rw [check_passes (faultIf_neg (by simp [hva])), ← State.after, bind_passes hblock, if_neg hlen, bind_passes himage,
    himg]
  dsimp only
  rw [if_neg hrests, if_neg hplace, hcore]
  dsimp only
  rw [hput]

end Context

/-- Settles O38: each instruction behind its checks. -/
theorem contextInstructions : Obligations.ContextInstructions := by
  unfold Obligations.ContextInstructions
  intro s d a b key c i h va
  refine ⟨fun hs hb hh hkey hva => ⟨fun hc hrest hother hidle hst xs hxs => ⟨fun hbad hr => ?_, fun hgood hmay hr => ?_⟩, ?_⟩,
    fun hs => ⟨ctxsave_user hs, ctxrest_user _ _ hs, ctxrest_user _ _ hs⟩⟩
  · rw [Traps, ctxsave_saves hs hb hh hkey hva hc hrest hother hidle hst hxs hr, State.saveImage, if_pos hbad]
    rfl
  · rw [ctxsave_saves hs hb hh hkey hva hc hrest hother hidle hst hxs hr, State.saveImage, if_neg (by simp [hgood]),
      if_neg (by simp [hmay])]
    rfl
  · intro any r q img k t ins hblock h64 h0 hmax himage himg hrest hidle hst hcore hput hr
    have hexec : exec ins s = ctxrest ins any d a b s := by cases any <;> rfl
    rw [hexec]
    exact ctxrest_restores hs hb hh hkey hva hblock h64 h0 hmax himage himg hrest hidle hst hcore hput hr

end Sys2Proof.Machine
end

section
/-! Proof of the statement on increments, credits, walks and fills. -/
namespace Sys2Proof.Machine

-- One proof after another: the threads of many proofs at once do not fit the memory of the check.
set_option Elab.async false

/-! ### Increments (R207) -/

/-- A changed latch knocks down or squashes what has read it, and leaves the rest (R218). -/
theorem State.calm_latchChanged (s : State) (c n : Nat) : s.Calm (s.latchChanged c n) := by
  have held : s.Calm (match (s.core c).held with
      | some h => if h.chunks.any (fun (ch : Chunk) => ch.rd.contains (latchLine c n)) then State.knockDown 8 s c true else s
      | none => s) := by
    split
    · split
      · exact State.calm_knockDown _ _ _ _
      · exact State.Calm.refl s
    · exact State.Calm.refl s
  have opened (v : State) : v.Calm (match (v.core c).chunk with
      | some ch => if ch.rd.contains (latchLine c n) then v.squash c false else v
      | none => v) := by
    split
    · split
      · exact State.calm_squash _ _ _
      · exact State.Calm.refl _
    · exact State.Calm.refl _
  exact held.trans (opened _)

/-- A counter's latch after an increment (R207). -/
def Latch.noted (old : Latch) (bad : Option (Nat × Nat × Nat)) : Latch :=
  match bad with
  | none => old
  | some (c, a, b) => if old.ep then { old with multi := true } else ⟨true, false, c, a, min b (2 ^ 32 - 1)⟩

section Increment
variable (k : Core) (p : Post)

@[simp] theorem Core.applyInc_mb : (k.applyInc p).mb = FMap.put k.mb p.idx ((FMap.get 0 k.mb p.idx + p.inc) % 2 ^ 32) := rfl

theorem Core.applyInc_latch : FMap.get Latch.clear (k.applyInc p).mbLatch p.idx =
    (FMap.get Latch.clear k.mbLatch p.idx).noted p.bad := by
  change FMap.get Latch.clear (if (FMap.get Latch.clear k.mbLatch p.idx).noted p.bad = FMap.get Latch.clear k.mbLatch p.idx then k.mbLatch
    else FMap.put k.mbLatch p.idx ((FMap.get Latch.clear k.mbLatch p.idx).noted p.bad)) p.idx = _
  split
  · exact ‹_ = _›.symm
  · exact FMap.get_put_self _ _ _ _

variable (s : State)

/-- The core that an increment reaches, before its latch's readers start again. -/
def State.incremented : State := s.updCore p.core fun k => (k.applyInc p).wfiEvent 0

theorem State.applyPost_calm : (s.incremented p).Calm (s.applyPost p) := by
  unfold State.applyPost
  split
  · exact State.calm_latchChanged _ _ _
  · exact State.Calm.refl _

theorem State.applyPost_good (h : p.bad = none) : s.applyPost p = s.incremented p := by
  unfold State.applyPost
  rw [h]
  rfl

theorem State.incremented_thin : s.Thin (s.incremented p) := by
  intro c
  by_cases hc : c = p.core
  · subst hc
    rw [State.incremented, State.updCore_core_self]
    exact racksThin.refl _
  · rw [State.incremented, State.updCore_core_other _ _ _ _ hc]
    exact racksThin.refl _

theorem State.applyPost_mem : MemIs s s.mem (s.applyPost p) :=
  (MemIs.of_mem (s := s) (t := s.incremented p) rfl).trans (s.incremented_thin p) (s.applyPost_calm p).mem

theorem State.applyPost_counter : (s.applyPost p).counterVal (p.core, p.idx) =
    (s.counterVal (p.core, p.idx) + p.inc) % 2 ^ 32 := by
  refine ((s.applyPost_calm p).counterVal (p.core, p.idx)).trans ?_
  rw [State.incremented, State.updCore_core_self]
  exact FMap.get_put_self _ _ _ _

theorem State.applyPost_counter_other {k : Nat × Nat} (h : k ≠ (p.core, p.idx)) : (s.applyPost p).counterVal k = s.counterVal k := by
  refine ((s.applyPost_calm p).counterVal k).trans ?_
  obtain ⟨c, n⟩ := k
  by_cases hc : c = p.core
  · subst hc
    rw [State.incremented, State.updCore_core_self]
    exact FMap.get_put_other _ _ _ _ _ fun hn => h (Prod.ext rfl hn)
  · rw [State.incremented, State.updCore_core_other _ _ _ _ hc]
    rfl

theorem State.applyPost_latch : FMap.get Latch.clear ((s.applyPost p).core p.core).mbLatch p.idx =
    (FMap.get Latch.clear (s.core p.core).mbLatch p.idx).noted p.bad := by
  rw [((s.applyPost_calm p).core p.core).mbLatch, State.incremented, State.updCore_core_self]
  exact Core.applyInc_latch _ p

end Increment

theorem counterIncrement_reaches {s : State} {p : Post} {rest : List Post} (hp : pick s.posts (s.arg 0) = some (p, rest))
    (ht : (s.core p.core).takeover = false)
    (hq : ∀ q ∈ s.posts.take (s.arg 0), ¬(q.agent = p.agent ∧ q.core = p.core ∧ q.idx = p.idx)) :
    exec .counterIncrement s = .next (({ s with posts := rest } : State).applyPost p) := by
  have hnone : ¬((s.posts.take (s.arg 0)).any fun (q : Post) => q.agent = p.agent && q.core = p.core && q.idx = p.idx) = true := by
    simpa [and_assoc] using hq
  change execCounterIncrement s = _
  rw [execCounterIncrement, hp]
  dsimp only
  rw [ht, if_neg Bool.false_ne_true, if_neg hnone]

/-! ### Credits (R19) -/

section Credit
variable {s : State} {k : Nat} {i : Inst}

theorem State.addCredit_find (h : FMap.find? s.insts k = some i) (p n : Nat) :
    ∃ j, FMap.find? (s.addCredit k p n).insts k = some j ∧ FMap.get 0 j.credit p = FMap.get 0 i.credit p + (n : Int) := by
  unfold State.addCredit
  split
  · rename_i hn
    exact ⟨i, h, by rw [hn]; exact (Int.add_zero _).symm⟩
  · refine ⟨{ i with credit := FMap.upd 0 i.credit p (· + (n : Int)) }, ?_, FMap.get_upd_self 0 i.credit p (· + (n : Int))⟩
    rw [State.updInst, h]
    exact FMap.find_put_self _ _ _

/-- A wake-up leaves an `Inst`'s credit. -/
theorem State.wake_credit (h : FMap.find? s.insts k = some i) : ∃ j, FMap.find? (s.wake k).insts k = some j ∧ j.credit = i.credit := by
  unfold State.wake
  rw [h]
  dsimp only
  split
  · exact ⟨i, h, rfl⟩
  · split
    · exact ⟨i, h, rfl⟩
    · split
      · refine ⟨{ i with since := none }, ?_, rfl⟩
        simp only [State.updInst, State.updCore_insts, h]
        exact FMap.find_put_self _ _ _
      · exact ⟨i, h, rfl⟩

theorem creditReturn_adds {p n : Nat} {rest : List (Nat × Nat × Nat)} (hp : pick s.credits (s.arg 0) = some ((k, p, n), rest))
    (hi : FMap.find? s.insts k = some i) : ∃ t j, exec .creditReturn s = .next t ∧ t.credits = rest ∧ FMap.find? t.insts k = some j ∧
      FMap.get 0 j.credit p = FMap.get 0 i.credit p + (n : Int) := by
  let q : State := { s with credits := rest }
  obtain ⟨j, hj, hcredit⟩ := State.addCredit_find (s := q) hi p n
  obtain ⟨x, hx, hsame⟩ := State.wake_credit hj
  have he : exec .creditReturn s = .next ((q.addCredit k p n).wake k) := by
    change execCreditReturn s = _
    rw [execCreditReturn, hp]
  refine ⟨_, x, he, ?_, hx, by rw [hsame, hcredit]⟩
  exact ((State.calm_addCredit q k p n).trans (State.calm_wake _ k)).credits

end Credit

/-! ### Walks (R177) -/

/-- The TLBs give back the leaf that has entered them. -/
theorem State.fillTlb_translate (s : State) (c part va : Nat) (l : Leaf) (h : va < 2 ^ 48) :
    (s.fillTlb c part va l).translate c part va = some l := by
  have hcore : ((s.fillTlb c part va l).core c).tlb = tlbPut 64 (s.core c).tlb ⟨part, va / 2 ^ l.size * 2 ^ l.size, l⟩ := by
    rw [State.fillTlb, State.updCluster_core, State.updCore_core_self]
  have hfind : tlbFind (tlbPut 64 (s.core c).tlb ⟨part, va / 2 ^ l.size * 2 ^ l.size, l⟩) part va = some l := by
    simp [tlbPut, tlbFind, Tlb.hits]
  rw [State.translate, if_neg (Nat.not_le.2 h), hcore, hfind]

theorem State.walk_lt {s : State} {part va : Nat} {l : Leaf} (h : s.walk part va = .ok l) : va < 2 ^ 48 := by
  unfold State.walk at h
  by_contra hva
  rw [if_pos (Nat.not_lt.1 hva)] at h
  cases h

/-! ### Fills of the instruction cache (R121) -/

section Fill
variable (x : CodeId) (line : Nat)

theorem Core.icFill_has (k : Core) : (k.icFill x line).icHas x line = true := by
  unfold Core.icFill
  split
  · assumption
  · unfold Core.icHas FMap.upd
    rw [FMap.get_put_self]
    simp

/-- After the fills of a list of cores each of them has the line, and a core that had it keeps it. -/
theorem State.icFills_has (l : List Nat) (s : State) (c : Nat) (h : c ∈ l ∨ (s.core c).icHas x line = true) :
    ((l.foldl (fun s c => s.updCore c fun k => k.icFill x line) s).core c).icHas x line = true := by
  induction l generalizing s with
  | nil => exact h.resolve_left List.not_mem_nil
  | cons a l ih =>
    refine ih _ ?_
    by_cases hc : c = a
    · subst hc
      rw [State.updCore_core_self]
      exact .inr (Core.icFill_has x line _)
    · rw [State.updCore_core_other _ _ _ _ hc]
      exact h.imp_left fun hm => (List.mem_cons.1 hm).resolve_left hc

theorem State.icFills_mem (l : List Nat) (s : State) :
    (l.foldl (fun s c => s.updCore c fun k => k.icFill x line) s).mem = s.mem := by
  induction l generalizing s with
  | nil => rfl
  | cons a l ih => exact ih _

end Fill

/-! ### Refills (R205) -/

section Refill
variable (s : State) (c : Nat)

/-- A stream after it has read its next element. -/
def Stream.took (x : Stream) (r : List Tlb × Elem) : Stream :=
  { x with tlb := r.1, staged := x.staged ++ [r.2], next := x.next + 1 }

theorem State.streamBeat_succ (x : Stream) (n : Nat) : s.streamBeat c x (n + 1) =
    if x.next ≥ patTotal x.counts then x
    else if (s.streamElem c x x.next).2.bad.isSome then x.took (s.streamElem c x x.next)
    else s.streamBeat c (x.took (s.streamElem c x x.next)) n := rfl

/-- A beat appends elements to the staging buffer, at most as many as it may, and advances past them. -/
theorem State.streamBeat_appends (fuel : Nat) (x : Stream) : ∃ l, (s.streamBeat c x fuel).staged = x.staged ++ l ∧
    l.length ≤ fuel ∧ (s.streamBeat c x fuel).next = x.next + l.length := by
  induction fuel generalizing x with
  | zero => exact ⟨[], (List.append_nil _).symm, Nat.le_refl _, rfl⟩
  | succ n ih =>
    rw [State.streamBeat_succ]
    split
    · exact ⟨[], (List.append_nil _).symm, Nat.zero_le _, rfl⟩
    · split
      · exact ⟨[_], rfl, by simp, rfl⟩
      · obtain ⟨l, hl, hn, hnext⟩ := ih (x.took (s.streamElem c x x.next))
        refine ⟨(s.streamElem c x x.next).2 :: l, ?_, Nat.succ_le_succ hn, ?_⟩
        · rw [hl, Stream.took, List.append_assoc]
          rfl
        · rw [hnext, List.length_cons]
          change x.next + 1 + l.length = _
          omega

/-- A beat before the end of the pattern takes the next element first. -/
theorem State.streamBeat_head {fuel : Nat} {x : Stream} (hf : fuel ≠ 0) (hx : x.next < patTotal x.counts) (h0 : x.staged = []) :
    (s.streamBeat c x fuel).staged.head? = some (s.streamElem c x x.next).2 := by
  obtain ⟨n, rfl⟩ := Nat.exists_eq_succ_of_ne_zero hf
  rw [State.streamBeat_succ, if_neg (Nat.not_le.2 hx)]
  split
  · rw [Stream.took, h0]; rfl
  · obtain ⟨l, hl, -⟩ := s.streamBeat_appends c n (x.took (s.streamElem c x x.next))
    rw [hl, Stream.took, h0]
    rfl

/-- What stands in a stream's staging buffer does not matter to the element that is read. -/
theorem State.streamElem_unstaged (x : Stream) (n : Nat) :
    s.streamElem c { x with staged := [] } n = s.streamElem c x n := by
  have hslots (l : List (Nat × Nat)) (tlb : List Tlb) :
      s.streamSlots c { x with staged := [] } tlb l = s.streamSlots c x tlb l := by
    induction l generalizing tlb with
    | nil => rfl
    | cons p r ih =>
      unfold State.streamSlots
      simp only [ih]
      rfl
  unfold State.streamElem
  dsimp only
  rw [hslots]
  rfl

theorem State.refillRoom_spec {t : Nat} {x : Stream} (h : s.refillRoom t x ≠ 0) :
    x.next < patTotal x.counts ∧ s.refillRoom t x * x.esz ≤ max 64 x.esz := by
  unfold State.refillRoom at h ⊢
  split at h
  · exact absurd rfl h
  · rename_i hgo
    rw [if_neg hgo]
    refine ⟨?_, (Nat.mul_le_mul_right _ (Nat.min_le_right _ _)).trans ?_⟩
    · simp only [Bool.or_eq_true, decide_eq_true_eq, not_or] at hgo
      exact Nat.not_le.1 hgo.1.2
    · obtain h1 | h1 := Nat.le_total 1 (64 / x.esz)
      · rw [Nat.max_eq_right h1]
        exact (Nat.div_mul_le_self _ _).trans (Nat.le_max_left _ _)
      · rw [Nat.max_eq_left h1, Nat.one_mul]
        exact Nat.le_max_right _ _

theorem State.engFills_cores (l : List Tlb) (s : State) : (s.engFills c l).cores = s.cores ∧ (s.engFills c l).mem = s.mem ∧
    (s.engFills c l).cur = s.cur := by
  unfold State.engFills
  induction l generalizing s with
  | nil => exact ⟨rfl, rfl, rfl⟩
  | cons e l ih => exact ih _

end Refill

/-- A beat that went from the stream `x` to `y` lands in the staging buffer, unless the stream has moved on. -/
def CoreT.staged (ct : CoreT) (t : Nat) (x y : Stream) : CoreT :=
  match FMap.find? ct.streams t with
  | some z =>
    if z.next ≠ x.next then ct else
    { ct with streams := FMap.put ct.streams t { z with staged := z.staged ++ y.staged, next := y.next, tlb := y.tlb } }
  | none => ct

theorem CoreT.staged_find {ct : CoreT} {t : Nat} {x : Stream} (y : Stream) (h : FMap.find? ct.streams t = some x) :
    FMap.find? (ct.staged t x y).streams t = some { x with staged := x.staged ++ y.staged, next := y.next, tlb := y.tlb } := by
  rw [CoreT.staged, h]
  dsimp only
  rw [if_neg (not_not.2 rfl)]
  exact FMap.find_put_self _ _ _

theorem streamRefill_stages {s : State} {x : Stream} (hx : FMap.find? s.t.streams (s.arg 0) = some x) (ht : s.me.takeover = false)
    (hroom : s.refillRoom (s.arg 0) x ≠ 0) :
    ∃ t z l, exec .streamRefill s = .next t ∧ t.mem = s.mem ∧ FMap.find? t.t.streams (s.arg 0) = some z ∧
      z.staged = x.staged ++ l ∧ l.length ≤ s.refillRoom (s.arg 0) x ∧ l.length * x.esz ≤ max 64 x.esz ∧
      z.next = x.next + l.length ∧ l.head? = some (s.streamElem s.cur x x.next).2 := by
  let y := s.streamBeat s.cur { x with staged := [] } (s.refillRoom (s.arg 0) x)
  obtain ⟨l, hl, hlen, hnext⟩ := s.streamBeat_appends s.cur (s.refillRoom (s.arg 0) x) { x with staged := [] }
  rw [List.nil_append] at hl
  obtain ⟨hlt, hesz⟩ := s.refillRoom_spec hroom
  obtain ⟨hcores, hmem, hcur⟩ := State.engFills_cores s.cur y.tlb s
  have hme : (s.engFills s.cur y.tlb).me = s.me := by
    rw [State.me, State.core, hcores, hcur]
    rfl
  have hexec : exec .streamRefill s = .next ((s.engFills s.cur y.tlb).updMe fun k => k.both fun ct => ct.staged (s.arg 0) x y) := by
    change execStreamRefill s = _
    rw [execStreamRefill]
    simp only [hx, ht, Bool.false_or, decide_eq_true_eq, if_neg hroom]
    rfl
  refine ⟨_, { x with staged := x.staged ++ y.staged, next := y.next, tlb := y.tlb }, l, hexec, hmem, ?_, ?_, hlen,
    (Nat.mul_le_mul_right _ hlen).trans hesz, hnext, ?_⟩
  · rw [State.updMe_t, hme]
    exact CoreT.staged_find y hx
  · exact congrArg (x.staged ++ ·) hl
  · rw [← hl, State.streamBeat_head (x := { x with staged := [] }) s s.cur hroom hlt rfl]
    exact congrArg (fun r => some r.2) (s.streamElem_unstaged s.cur x x.next)

/-- Settles O39: each step by what it answers. -/
theorem counterCacheSteps : Obligations.CounterCacheSteps := by
  unfold Obligations.CounterCacheSteps
  refine fun s => ⟨fun p rest hp ht hq => ?_, fun k p n rest i hp hi => creditReturn_adds hp hi, fun l hl => ?_, fun n hn => ?_,
    fun x hx hlo hhi => ?_, fun x hx ht hroom => streamRefill_stages hx ht hroom⟩
  · let q : State := { s with posts := rest }
    refine ⟨_, counterIncrement_reaches hp ht hq, (q.applyPost_calm p).posts, q.applyPost_mem p,
      fun hgood => (congrArg State.mem (q.applyPost_good p hgood)).trans rfl, q.applyPost_counter p, fun k hk => q.applyPost_counter_other p hk, ?_⟩
    exact q.applyPost_latch p
  · refine ⟨s.fillTlb s.cur s.me.part (s.arg 0) l, ?_, s.fillTlb_translate _ _ _ _ (State.walk_lt hl), rfl⟩
    change execPageWalk s = _
    rw [execPageWalk, hl]
  · change execPageWalk s = _
    rw [execPageWalk, hn]
    rfl
  · refine ⟨s.icFillAll (s.arg 0) x.id (s.arg 2 / 64), ?_, State.icFills_mem _ _ _ s, fun c hc => State.icFills_has _ _ _ s c (.inl hc)⟩
    change execIcacheFill s = _
    rw [execIcacheFill]
    simp only [hx, hlo, hhi, decide_true, Bool.and_self, if_true]

end Sys2Proof.Machine
end

section
/-! What wake-ups, squashes, knock-downs and changed latches leave of a core that holds no firing: its engines, and, where
no chunk is open either, its tentative part beside racks and marks. (`State.Calm` says what they leave of every core.) -/
namespace Sys2Proof.Machine

-- One proof after another: the threads of many proofs at once do not fit the memory of the check.
set_option Elab.async false

/-- A tentative part without the records, the marks, the match record and the level-0 firing. -/
def CoreT.still (t : CoreT) : CoreT := { t with fir0 := none, locals := [], marks := [], watchRec := 0 }

/-- A core without a held firing keeps that, and its engines; one without a chunk keeps its tentative part, too. -/
structure Core.Still (k l : Core) : Prop where
  free : k.held = none → l.held = none ∧ l.eng = k.eng
  bare : k.held = none → k.chunk = none → l.chunk = none ∧ l.t.still = k.t.still

/-- Every core keeps that. -/
def State.Still (s t : State) : Prop := ∀ c, (s.core c).Still (t.core c)

/-- Every core but one. -/
def State.StillBut (c : Nat) (s t : State) : Prop := ∀ d, d ≠ c → (s.core d).Still (t.core d)

section Cores
variable {k l m : Core}

theorem Core.Still.refl (k : Core) : k.Still k := ⟨fun h => ⟨h, rfl⟩, fun _ h => ⟨h, rfl⟩⟩

theorem Core.Still.trans (a : k.Still l) (b : l.Still m) : k.Still m where
  free h := by
    obtain ⟨h1, e1⟩ := a.free h
    obtain ⟨h2, e2⟩ := b.free h1
    exact ⟨h2, e2.trans e1⟩
  bare h hc := by
    obtain ⟨h1, -⟩ := a.free h
    obtain ⟨hc1, t1⟩ := a.bare h hc
    obtain ⟨hc2, t2⟩ := b.bare h1 hc1
    exact ⟨hc2, t2.trans t1⟩

/-- Of a core with a held firing nothing is said. -/
theorem Core.Still.of_held (h : k.held ≠ none) : k.Still l := ⟨fun h' => absurd h' h, fun h' => absurd h' h⟩

/-- A core whose held firing and engines stay, and that has an open chunk. -/
theorem Core.Still.of_chunk (h : k.chunk ≠ none) (hh : k.held = none → l.held = none) (he : l.eng = k.eng) : k.Still l :=
  ⟨fun h' => ⟨hh h', he⟩, fun _ h' => absurd h' h⟩

/-- A change that the hardware makes to a tentative part beside what is said of it. -/
theorem Core.still_both (k : Core) (f : CoreT → CoreT) (hf : ∀ t : CoreT, (f t).still = t.still) : k.Still (k.both f) :=
  ⟨fun h => ⟨by rw [Core.both, h]; rfl, rfl⟩, fun _ h => ⟨by rw [Core.both, h]; rfl, hf k.t⟩⟩

theorem Core.still_updRack (k : Core) (base : Nat) (f : Rack → Rack) : k.Still (k.updRack base f) := by
  unfold Core.updRack
  split
  · exact ⟨fun h => ⟨h, rfl⟩, fun _ h => ⟨h, rfl⟩⟩
  · refine Core.still_both _ _ fun t => ?_
    split <;> rfl

end Cores

section States
variable {s t u : State} {c : Nat}

theorem State.Still.refl (s : State) : s.Still s := fun _ => Core.Still.refl _

theorem State.Still.trans (a : s.Still t) (b : t.Still u) : s.Still u := fun c => (a c).trans (b c)

theorem State.Still.but (h : s.Still t) (c : Nat) : State.StillBut c s t := fun d _ => h d

theorem State.StillBut.trans (a : State.StillBut c s t) (b : State.StillBut c t u) : State.StillBut c s u :=
  fun d hd => (a d hd).trans (b d hd)

/-- Where the core apart has a held firing, nothing is apart. -/
theorem State.StillBut.still (a : State.StillBut c s t) (h : (s.core c).held ≠ none) : s.Still t := fun d => by
  by_cases hd : d = c
  · exact hd ▸ Core.Still.of_held h
  · exact a d hd

theorem State.still_of_cores (h : t.cores = s.cores) : s.Still t := fun c => by
  rw [State.core, State.core, h]
  exact Core.Still.refl _

variable (s c)

theorem State.still_putCore (k : Core) (h : (s.core c).Still k) : s.Still (s.putCore c k) := fun d => by
  by_cases hd : d = c
  · rw [hd, State.putCore_core_self]
    exact h
  · rw [State.putCore_core_other _ _ _ _ hd]
    exact Core.Still.refl _

theorem State.stillBut_putCore (k : Core) : State.StillBut c s (s.putCore c k) := fun d hd => by
  rw [State.putCore_core_other _ _ _ _ hd]
  exact Core.Still.refl _

theorem State.still_updCore (f : Core → Core) (h : ∀ k : Core, k.Still (f k)) : s.Still (s.updCore c f) :=
  s.still_putCore c _ (h _)

theorem State.still_updInst (i : Nat) (f : Inst → Inst) : s.Still (s.updInst i f) :=
  State.still_of_cores (State.updInst_cores _ _ _)

theorem State.still_foldl {α : Type} (f : State → α → State) (h : ∀ (s : State) a, s.Still (f s a)) (l : List α) (s : State) :
    State.Still s (l.foldl f s) := by
  induction l generalizing s with
  | nil => exact State.Still.refl s
  | cons a l ih => exact (h s a).trans (ih _)

theorem State.still_runq (f : List Entry → List Entry) : s.Still (s.updCore c fun k => { k with runq := f k.runq }) :=
  s.still_updCore c _ fun _ => ⟨fun h => ⟨h, rfl⟩, fun _ h => ⟨h, rfl⟩⟩

theorem State.still_wake (key : Nat) : s.Still (s.wake key) := by
  unfold State.wake
  split
  · exact State.Still.refl s
  · split
    · exact State.Still.refl s
    · split
      · exact State.Still.refl s
      · split
        · exact (State.still_runq s _ fun l => l ++ _).trans (State.still_updInst _ _ _)
        · exact State.Still.refl s

theorem State.still_wakeCore : s.Still (s.wakeCore c) :=
  State.still_foldl (fun (s : State) (p : Nat × Inst) => s.wake p.1) (fun s p => State.still_wake s p.1) _ s

theorem State.still_addCredit (inst p n : Nat) : s.Still (s.addCredit inst p n) := by
  unfold State.addCredit
  split
  · exact State.Still.refl s
  · exact State.still_updInst s _ _

theorem State.still_returnRoom (f : Firing) : s.Still (s.returnRoom f) := by
  unfold State.returnRoom
  split
  · exact State.Still.refl s
  · exact State.still_foldl _ (fun s p => State.still_addCredit s _ _ _) _ s

theorem State.still_leaveSolo : s.Still (s.leaveSolo c) := by
  unfold State.leaveSolo
  split
  · exact State.Still.refl s
  · exact (State.still_updCore s c (fun k => { k with solo := none }) fun _ => ⟨fun h => ⟨h, rfl⟩, fun _ h => ⟨h, rfl⟩⟩).trans
      (State.still_of_cores rfl)

theorem State.still_capture (base slot : Nat) : s.Still (s.capture c base slot) := by
  unfold State.capture
  dsimp only
  split
  · exact State.Still.refl s
  · split
    · exact State.Still.refl s
    · exact State.still_updCore s c _ fun k => Core.still_both _ _ fun _ => rfl

theorem State.still_fillNow (base n : Nat) : s.Still (s.fillNow c base n) := by
  unfold State.fillNow
  dsimp only
  refine State.Still.trans ?_ (State.still_wakeCore _ c)
  refine State.Still.trans ?_ (State.still_updCore _ c _ fun k => Core.still_updRack k base _)
  exact State.still_foldl _ (fun s i => State.still_capture s _ _ _) _ s

theorem State.still_fillRack (base n : Nat) : s.Still (s.fillRack c base n) := by
  unfold State.fillRack
  split
  · split
    · exact State.still_updCore s c _ fun k => Core.still_updRack k base _
    · exact State.still_fillNow s c base n
  · exact State.still_fillNow s c base n

theorem State.still_fillWaiting (base : Nat) : s.Still (s.fillWaiting c base) := by
  unfold State.fillWaiting
  split
  · exact State.Still.refl s
  · split
    · exact State.Still.refl s
    · exact (State.still_updCore s c _ fun k => Core.still_updRack k base _).trans (State.still_fillNow _ c base _)

theorem State.still_unsendRack (base key : Nat) : s.Still (s.unsendRack c base key) := by
  unfold State.unsendRack
  split
  · exact State.Still.refl s
  · dsimp only
    split
    · exact State.Still.refl s
    · refine State.Still.trans ?_ (State.still_wakeCore _ _)
      refine State.Still.trans ?_ (State.still_runq _ _ _)
      exact State.Still.trans (State.still_of_cores rfl) (State.still_updCore _ c _ fun k => Core.still_updRack k base _)

theorem State.still_unsend (key : Nat) : s.Still (s.unsend key) :=
  State.still_foldl _ (fun s _ => State.still_foldl _ (fun s _ => State.still_unsendRack s _ _ _) _ s) _ s

/-- The names of resolved firings go from the level-0 firings and the held ones. -/
theorem State.still_resolved (inst : Nat) : s.Still (s.resolved inst) := fun c =>
  FMap.get_map_rel Core.Still Core.reset
    (fun k =>
      let drop (f : Firing) : Firing := { f with deps := f.deps.filter (· ≠ inst) }
      let k := k.both fun t => { t with fir0 := t.fir0.map drop }
      { k with held := k.held.map fun (h : Held) => { h with fir := drop h.fir } })
    (Core.Still.refl _)
    (fun k => ⟨fun h => ⟨by simp [Core.both, h], rfl⟩, fun _ h => ⟨by simp [Core.both, h], rfl⟩⟩) s.cores c

@[simp] theorem Core.setWaiting_held (k : Core) (level : Nat) (w : Waiting) : (k.setWaiting level w).held = k.held := by
  unfold Core.setWaiting
  split <;> rfl

@[simp] theorem Core.setWaiting_eng (k : Core) (level : Nat) (w : Waiting) : (k.setWaiting level w).eng = k.eng := by
  unfold Core.setWaiting
  split <;> rfl

@[simp] theorem Core.setSquashes_held (k : Core) (level n : Nat) : (k.setSquashes level n).held = k.held := by
  unfold Core.setSquashes
  split <;> rfl

@[simp] theorem Core.setSquashes_eng (k : Core) (level n : Nat) : (k.setSquashes level n).eng = k.eng := by
  unfold Core.setSquashes
  split <;> rfl

theorem State.still_squash (counts : Bool) : s.Still (s.squash c counts) := by
  unfold State.squash
  dsimp only
  split
  · exact State.Still.refl s
  · rename_i ch hch
    have hc : (s.core c).chunk ≠ none := by rw [hch]; exact Option.some_ne_none ch
    split
    · refine State.Still.trans (State.still_putCore s c _ (Core.Still.of_chunk hc (fun h => ?_) ?_)) (State.still_of_cores rfl)
      · simp [Core.settleSlots, Core.both, h]
      · simp [Core.settleSlots, Core.both]
    · refine State.still_putCore s c _ (Core.Still.of_chunk hc (fun h => ?_) ?_)
      · simp [Core.settleSlots, Core.both, h]
      · simp [Core.settleSlots, Core.both]

/-- A discard changes its own core's tentative part. -/
theorem State.stillBut_discard (level : Nat) : State.StillBut c s (s.discard c level) := by
  unfold State.discard
  dsimp only
  split
  · exact (State.Still.refl s).but c
  · refine State.StillBut.trans ?_ ((State.still_wakeCore _ _).but c)
    refine State.StillBut.trans ?_ ((State.still_updInst _ _ _).but c)
    split
    · exact ((State.stillBut_putCore s c _).trans ((State.still_returnRoom _ _).but c)).trans ((State.still_leaveSolo _ _).but c)
    · exact (State.stillBut_putCore s c _).trans ((State.still_returnRoom _ _).but c)

theorem State.still_knockDown (fuel : Nat) (s : State) (c : Nat) (conflict : Bool) : s.Still (State.knockDown fuel s c conflict) := by
  induction fuel generalizing s c conflict with
  | zero => exact State.Still.refl s
  | succ n ih =>
    unfold State.knockDown
    dsimp only
    split
    · exact State.Still.refl s
    · rename_i h hh
      refine State.StillBut.still (c := c) ?_ (by simp [hh])
      refine State.StillBut.trans ?_ ((State.still_wakeCore _ _).but c)
      refine State.StillBut.trans ?_ ((State.still_foldl (fun (s : State) d => State.knockDown n s d false) (fun s d => ih s d _) _ _).but c)
      have hfill (o : Option Nat) (s : State) : s.Still (match o with | some b => s.fillWaiting c b | none => s) := by
        split
        · exact State.still_fillWaiting _ _ _
        · exact State.Still.refl s
      refine State.StillBut.trans ?_ ((hfill _ _).but c)
      refine State.StillBut.trans ?_ ((State.still_of_cores rfl).but c)
      have hbar (s : State) (f : Inst → Inst) : s.Still (if conflict = true then s.updInst h.fir.inst f else s) := by
        split
        · exact State.still_updInst _ _ _
        · exact State.Still.refl s
      refine State.StillBut.trans ?_ ((hbar _ _).but c)
      refine State.StillBut.trans ?_ ((State.still_resolved _ _).but c)
      refine State.StillBut.trans ((State.still_unsend s (h.fir.inst + 1)).but c) ?_
      split
      · exact State.stillBut_putCore _ c _
      · split
        · exact (State.stillBut_putCore _ c _).trans (State.stillBut_discard _ _ _)
        · exact ((State.stillBut_putCore _ c _).trans ((State.still_returnRoom _ _).but c)).trans ((State.still_updInst _ _ _).but c)

theorem State.still_signal (scope u : Nat) (lines : List Nat) : s.Still (s.signal scope u lines) := by
  unfold State.signal
  split
  · exact State.Still.refl s
  · refine (State.still_of_cores (t := s.next) rfl).trans (State.still_foldl _ (fun s p => ?_) _ _)
    dsimp only
    split
    · exact State.Still.refl s
    · have held : s.Still (match (s.core p.1).held with
          | some h => if (h.chunks.any (fun ch => conflicts ch.rd lines s.fresh p.1) && !s.firmTurn p.1 h) = true
              then State.knockDown 8 s p.1 true else s
          | none => s) := by
        split
        · split
          · exact State.still_knockDown _ _ _ _
          · exact State.Still.refl s
        · exact State.Still.refl s
      have opened (v : State) : v.Still (match (v.core p.1).chunk with
          | some ch => if conflicts ch.rd lines v.fresh p.1 = true then v.squash p.1 true else v
          | none => v) := by
        split
        · split
          · exact State.still_squash _ _ _
          · exact State.Still.refl _
        · exact State.Still.refl _
      exact held.trans (opened _)

theorem State.still_latchChanged (n : Nat) : s.Still (s.latchChanged c n) := by
  have held : s.Still (match (s.core c).held with
      | some h => if h.chunks.any (fun (ch : Chunk) => ch.rd.contains (latchLine c n)) then State.knockDown 8 s c true else s
      | none => s) := by
    split
    · split
      · exact State.still_knockDown _ _ _ _
      · exact State.Still.refl s
    · exact State.Still.refl s
  have opened (v : State) : v.Still (match (v.core c).chunk with
      | some ch => if ch.rd.contains (latchLine c n) then v.squash c false else v
      | none => v) := by
    split
    · split
      · exact State.still_squash _ _ _
      · exact State.Still.refl _
    · exact State.Still.refl _
  exact held.trans (opened _)

theorem State.still_incremented (p : Post) : s.Still (State.incremented p s) :=
  s.still_updCore p.core _ fun _ => ⟨fun h => ⟨h, rfl⟩, fun _ h => ⟨h, rfl⟩⟩

theorem State.still_applyPost (p : Post) : s.Still (s.applyPost p) := by
  unfold State.applyPost
  split
  · exact (s.still_incremented p).trans (State.still_latchChanged _ _ _)
  · exact s.still_incremented p

theorem State.still_completePost (cnt : Option (Nat × Nat)) (agent inc : Nat) (bad : Option (Nat × Nat × Nat)) :
    s.Still (s.completePost cnt agent inc bad) := by
  unfold State.completePost
  split
  · split
    · exact State.Still.refl s
    · exact s.still_applyPost _
  · exact State.Still.refl s

/-- A watchpoint notes a landing write in the match record and in the pending causes. -/
theorem Core.still_watchLand (k : Core) (kind src : Nat) (addrs : List Nat) : k.Still (k.watchLand kind src addrs) := by
  have pend (k : Core) (c : Cause) (v : Word) (n : Nat) : k.Still (k.pendImprecise c v n) := by
    unfold Core.pendImprecise
    split
    · exact Core.Still.refl k
    · exact ⟨fun h => ⟨h, rfl⟩, fun _ h => ⟨h, rfl⟩⟩
  have one (k : Core) (b : Bool) (o : Option Nat) (fir : Option Firing) : k.Still (match fir with
      | none => k
      | some f => if b = true then k else match o with
        | none => k
        | some a => (k.both fun t => { t with watchRec := word (kind <<< 61 + src <<< 48 + a) }).pendImprecise .watchLanding
            (word (kind <<< 61 + src <<< 48 + a)) f.serial) := by
    split
    · exact Core.Still.refl k
    · split
      · exact Core.Still.refl k
      · split
        · exact Core.Still.refl k
        · exact (Core.still_both k (fun t => { t with watchRec := word (kind <<< 61 + src <<< 48 + _) }) fun _ => rfl).trans (pend _ _ _ _)
  exact (one k _ _ _).trans (one _ _ _ _)

theorem State.still_watchAll (kind src : Nat) (skip : Option Nat) (addrs : List Nat) : s.Still (s.watchAll kind src skip addrs) :=
  State.still_foldl _ (fun s _ => State.still_updCore s _ _ fun k => Core.still_watchLand k _ _ _) _ s

theorem State.still_land (u scope kind src : Nat) (w : List (Nat × Byte × Byte)) : s.Still (s.land u scope kind src w) :=
  (State.still_of_cores (t := s.replace w) rfl).trans ((State.still_watchAll _ _ _ _ _).trans (State.still_signal _ _ _ _))

end States

end Sys2Proof.Machine
end

section
/-! Proof of the statement on the steps of a copy. -/
namespace Sys2Proof.Machine

-- One proof after another: the threads of many proofs at once do not fit the memory of the check.
set_option Elab.async false

/-! ### The engines of the step's core -/

theorem getElem?_span (a n i : Nat) : (span a n)[i]? = if i < n then some (a + i) else none := by
  induction n generalizing a i with
  | zero => rfl
  | succ n ih =>
    cases i with
    | zero => rfl
    | succ i =>
      rw [span, List.getElem?_cons_succ, ih]
      simp only [Nat.add_lt_add_iff_right]
      split
      · exact congrArg some (by omega)
      · rfl

/-- The element at one index changes, the others stay. -/
theorem getElem?_changeAt {α : Type} (l : List α) (f : α → α) (i j : Nat) :
    ((l.zip (span 0 l.length)).map fun (p : α × Nat) => if p.2 = i then f p.1 else p.1)[j]? =
      (l[j]?).map fun x => if j = i then f x else x := by
  have hj : ((l.zip (span 0 l.length)))[j]? = (l[j]?).map fun x => (x, j) := by
    unfold List.zip
    rw [List.getElem?_zipWith, getElem?_span]
    obtain h | h := Nat.lt_or_ge j l.length
    · rw [if_pos h, List.getElem?_eq_getElem h, Nat.zero_add]
      rfl
    · rw [if_neg (Nat.not_lt.2 h), List.getElem?_eq_none h]
      rfl
  rw [List.getElem?_map, hj, Option.map_map]
  rfl

section Engine
variable {s : State} {c : Nat} {f : Engines → Engines}

@[simp] theorem State.updEng_me : (s.updEng s.cur f).me = { s.me with eng := f s.me.eng } := FMap.get_put_self _ _ _ _

theorem State.updEng_core_self : (s.updEng c f).core c = { s.core c with eng := f (s.core c).eng } := FMap.get_put_self _ _ _ _

theorem State.updEng_core_other {d : Nat} (h : d ≠ c) : (s.updEng c f).core d = s.core d := State.updCore_core_other _ _ _ _ h

/-- A change of engines leaves the racks. -/
theorem State.updEng_thin : s.Thin (s.updEng c f) := fun d => by
  by_cases hd : d = c
  · rw [hd, State.updEng_core_self]
    exact racksThin.refl _
  · rw [State.updEng_core_other hd]
    exact racksThin.refl _

/-- What is known of memory after a step counts from before it, where the racks stayed. -/
theorem MemIs.of_thin {s t u : State} {m : FMap Byte} (h : s.Thin t) (b : MemIs t m u) : MemIs s m u :=
  ⟨fun a ha => b.1 a fun h' => ha (h.inRack h'), fun hs => b.2 (h.noSpec hs)⟩

end Engine

section Head
variable {g : Engines} {ch : Nat} {x : Copy}

/-- The copy that a channel moves, changed in its place. -/
theorem Engines.updHead_head {f : Copy → Copy} (h : g.head ch = some x) (hf : ∀ y, (f y).ch = y.ch) :
    (g.updHead ch f).head ch = some (f x) := by
  have hfind (l : List Copy) (hl : l.find? (fun y => decide (y.ch = ch)) = some x) :
      (l.map fun (y : Copy) => if y.ch = ch && y.id = x.id then f y else y).find? (fun y => decide (y.ch = ch)) = some (f x) := by
    induction l with
    | nil => cases hl
    | cons y l ih =>
      by_cases hy : y.ch = ch
      · rw [List.find?_cons_of_pos (by simpa using hy)] at hl
        obtain rfl := Option.some.inj hl
        rw [List.map_cons, List.find?_cons_of_pos]
        · simp [hy]
        · simp [hf, hy]
      · rw [List.find?_cons_of_neg (by simpa using hy)] at hl
        rw [List.map_cons, List.find?_cons_of_neg]
        · exact ih hl
        · simp [hy]
  rw [Engines.updHead, h]
  exact hfind _ h

/-- Which copy a channel moves hangs on the copies alone. -/
theorem Engines.head_of_copies {g' : Engines} (h : g'.copies = g.copies) : g'.head ch = g.head ch := by
  rw [Engines.head, h, Engines.head]

end Head

/-! ### Racks of a copy (R203) -/

theorem Core.updRack_rack {k : Core} {base : Nat} {r : Rack} (f : Rack → Rack) (h : k.rack? base = some r) :
    (k.updRack base f).rack? base = some (f r) := by
  unfold Core.rack? at h
  unfold Core.updRack
  split
  · rename_i q hq
    rw [hq] at h
    obtain rfl := Option.some.inj h
    unfold Core.rack?
    dsimp only
    rw [FMap.find_put_self]
  · rename_i hq
    rw [hq] at h
    dsimp only at h
    unfold Core.rack? Core.both
    dsimp only
    rw [hq, h]
    exact FMap.find_put_self _ _ _

@[simp] theorem Core.updRack_eng (k : Core) (base : Nat) (f : Rack → Rack) : (k.updRack base f).eng = k.eng := by
  unfold Core.updRack
  split <;> rfl

theorem State.copyRack_rack {s : State} {c o base : Nat} {x : Copy} {r : Rack} {l : Leaf}
    (h : s.copyRack c x = .ok (o, base, r, l)) : (s.core o).rack? base = some r := by
  unfold State.copyRack at h
  cases hd : s.copySide c x x.dst true with
  | error e => rw [hd] at h; cases h
  | ok d =>
    rw [hd] at h
    dsimp only [bind, Except.bind] at h
    split at h
    · split at h
      · cases h
      · split at h
        · cases h
        · split at h
          · cases h
          · rename_i q hq
            split at h
            · cases h
            · split at h
              · cases h
              · split at h
                · cases h
                · cases h
                  exact hq
    · cases h

/-! ### The steps -/

/-- The copy at an index is in flight. -/
def Engines.started (g : Engines) (i : Nat) : Engines :=
  let one (p : Copy × Nat) : Copy := if p.2 = i then { p.1 with active := true } else p.1
  { g with copies := (g.copies.zip (span 0 g.copies.length)).map one }

/-- A copy that has reserved its slots, some of whose elements may lie beyond them. -/
def Copy.placedAt (x : Copy) (p : Nat × Nat × Nat) (l : Leaf) (beyond : Bool) : Copy :=
  { x with place := some p, tlb := keepTlb x.tlb x.part x.dst l, bad := firstCause x.bad (if beyond then some .copyPattern else none) }

/-- A copy whose beat of `n` elements has landed. -/
def Copy.advanced (x : Copy) (n : Nat) (tlb : List Tlb) : Copy :=
  { x with pos := x.pos + n, bytes := x.bytes + n * x.esz, tlb := tlb }

/-- Engines whose channel has been served. -/
def Engines.served (g : Engines) (ch : Nat) (f : Copy → Copy) : Engines := { g.updHead ch f with turn := ch }

section Steps
variable {s : State} {x : Copy}

theorem copyStart_starts {i : Nat} (ht : s.me.takeover = false) (hn : (s.me.eng.copies.filter fun x => x.active).length < 32)
    (hi : s.me.eng.copies.findIdx? (fun x => !x.active) = some i) :
    ∃ t, exec .copyStart s = .next t ∧ t.mem = s.mem ∧
      t.me.eng.copies[i]? = (s.me.eng.copies[i]?).map (fun x => { x with active := true }) ∧
      ∀ j, j ≠ i → t.me.eng.copies[j]? = s.me.eng.copies[j]? := by
  have hexec : exec .copyStart s = .next (s.updEng s.cur fun g => g.started i) := by
    change execCopyStart s = _
    rw [execCopyStart]
    dsimp only
    rw [ht, Bool.false_or, if_neg (by simpa using hn), hi]
    rfl
  have hget (j : Nat) := getElem?_changeAt s.me.eng.copies (fun x => { x with active := true }) i j
  refine ⟨_, hexec, rfl, ?_, fun j hj => ?_⟩
  · rw [State.updEng_me]
    exact (hget i).trans (by simp)
  · rw [State.updEng_me]
    exact (hget j).trans (by simp [hj])

theorem copyRackReserve_reserves {o base : Nat} {r : Rack} {l : Leaf} (hx : s.me.eng.head (s.arg 0) = some x)
    (ht : s.me.takeover = false) (ha : x.active = true) (hrk : x.rk = true) (hn : x.rkn ≠ 0) (hp : x.place = none)
    (hr : s.copyRack s.cur x = .ok (o, base, r, l)) (hroom : x.rkn ≤ r.n - r.nfill - r.reserved) :
    ∃ t y, exec .copyRackReserve s = .next t ∧ t.mem = s.mem ∧
      (t.core o).rack? base = some { r with resv := r.resv ++ [(copyKey s.cur x, x.rkn)] } ∧
      t.me.eng.head (s.arg 0) = some y ∧ y.place = some (o, base, (r.fill + r.reserved) % r.n) := by
  have hskip : ¬(s.me.takeover || !x.active || !x.rk || decide (x.rkn = 0) || x.place.isSome) = true := by
    simp [ht, ha, hrk, hn, hp]
  obtain ⟨place, hplace⟩ : ∃ f : Copy → Copy, (∀ y, (f y).ch = y.ch ∧ (f y).place = some (o, base, (r.fill + r.reserved) % r.n)) ∧
      exec .copyRackReserve s = .next ((s.updEng s.cur fun g => g.updHead (s.arg 0) f).updCore o fun k =>
        k.updRack base fun r => { r with resv := r.resv ++ [(copyKey s.cur x, x.rkn)] }) := by
    refine ⟨fun y => y.placedAt (o, base, (r.fill + r.reserved) % r.n) l (decide ((patExtent x.counts x.dstr).1 < 0) ||
      decide ((patExtent x.counts x.dstr).2 + x.esz > x.rkn * r.slotSize)), fun y => ⟨rfl, rfl⟩, ?_⟩
    change execCopyRackReserve s = _
    rw [execCopyRackReserve]
    dsimp only
    rw [hx]
    dsimp only
    rw [if_neg hskip, hr]
    dsimp only
    rw [if_neg (Nat.not_lt.2 hroom)]
    rfl
  obtain ⟨hf, hexec⟩ := hplace
  have hrack : ((s.updEng s.cur fun g => g.updHead (s.arg 0) place).core o).rack? base = some r := by
    by_cases ho : o = s.cur
    · have := State.copyRack_rack hr
      subst ho
      rw [State.updEng_core_self]
      exact this
    · rw [State.updEng_core_other ho]
      exact State.copyRack_rack hr
  have heng (k : Core) : (k.updRack base fun r => { r with resv := r.resv ++ [(copyKey s.cur x, x.rkn)] }).eng = k.eng :=
    Core.updRack_eng _ _ _
  refine ⟨_, place x, hexec, rfl, ?_, ?_, (hf x).2⟩
  · rw [State.updCore_core_self]
    exact Core.updRack_rack _ hrack
  · refine Eq.trans (congrArg (Engines.head · (s.arg 0)) ?_) (Engines.updHead_head hx fun y => (hf y).1)
    change (State.core _ s.cur).eng = _
    by_cases ho : s.cur = o
    · rw [← ho, State.updCore_core_self, heng, State.updEng_core_self]
      rfl
    · rw [State.updCore_core_other _ _ _ _ ho, State.updEng_core_self]
      rfl

theorem copyBeat_idle (h : s.refillDue = true ∨ s.me.eng.nextCh ≠ some (s.arg 0)) : exec .copyBeat s = .next s := by
  change execCopyBeat s = _
  rw [execCopyBeat]
  dsimp only
  split
  · rfl
  · have : (s.me.takeover || s.refillDue || decide (s.me.eng.nextCh ≠ some (s.arg 0))) = true := by
      obtain h | h := h
      · simp [h]
      · simp [h]
    rw [if_pos this]
    rfl

section Beat
variable (hx : s.me.eng.head (s.arg 0) = some x) (ht : s.me.takeover = false) (hd : s.refillDue = false)
  (hch : s.me.eng.nextCh = some (s.arg 0))
include hx ht hd hch

theorem execCopyBeat_turn : execCopyBeat s =
    match s.copyElems s.cur x ⟨[], x.tlb, 0⟩ (s.copyRun s.cur x) with
    | .error e => .next (s.updEng s.cur fun g => g.served (s.arg 0) fun x => { x with bad := some e })
    | .ok b =>
      if s.away (b.out.map (·.1)) then .idle s else
      .next (((s.updEng s.cur fun g => g.served (s.arg 0) fun y => y.advanced (s.copyRun s.cur x).length b.tlb).engFills
        s.cur b.tlb).land s.cur b.scope 1 s.cur b.out) := by
  rw [execCopyBeat]
  dsimp only
  rw [hx]
  dsimp only
  rw [if_neg (by simp [ht, hd, hch])]
  rfl

theorem copyBeat_lands {b : Beat} (hb : s.copyElems s.cur x ⟨[], x.tlb, 0⟩ (s.copyRun s.cur x) = .ok b)
    (haway : s.away (b.out.map (·.1)) = false) :
    ∃ t y, exec .copyBeat s = .next t ∧ MemIs s (s.poke b.out).mem t ∧ t.me.eng.head (s.arg 0) = some y ∧
      y.pos = x.pos + (s.copyRun s.cur x).length ∧ y.bytes = x.bytes + (s.copyRun s.cur x).length * x.esz := by
  let q : State := s.updEng s.cur fun g => g.served (s.arg 0) fun y => y.advanced (s.copyRun s.cur x).length b.tlb
  have hexec : exec .copyBeat s = .next ((q.engFills s.cur b.tlb).land s.cur b.scope 1 s.cur b.out) := by
    change execCopyBeat s = _
    rw [execCopyBeat_turn hx ht hd hch, hb]
    dsimp only
    rw [haway, if_neg Bool.false_ne_true]
  obtain ⟨hcores, hmem, hcur⟩ := State.engFills_cores s.cur b.tlb q
  have hthin : s.Thin (q.engFills s.cur b.tlb) := fun c => by
    rw [State.core, State.core, hcores]
    exact State.updEng_thin c
  have hpoke : ((q.engFills s.cur b.tlb).poke b.out).mem = (s.poke b.out).mem := by
    rw [State.poke, State.poke, hmem]
    rfl
  refine ⟨_, x.advanced (s.copyRun s.cur x).length b.tlb,
    hexec, MemIs.of_thin hthin (hpoke ▸ State.land_mem _ _ _ _ _ _), ?_, rfl, rfl⟩
  refine Eq.trans (Engines.head_of_copies (g := q.me.eng) ?_) (by
    rw [State.updEng_me]
    exact Engines.updHead_head hx fun y => rfl)
  have hland := (State.land_core (q.engFills s.cur b.tlb) s.cur b.scope 1 s.cur b.out s.cur).copies
  rw [State.me, State.land_cur, hcur]
  refine hland.trans ?_
  rw [State.core, hcores]
  rfl

theorem copyBeat_faults {e : Cause} (he : s.copyElems s.cur x ⟨[], x.tlb, 0⟩ (s.copyRun s.cur x) = .error e) :
    ∃ t y, exec .copyBeat s = .next t ∧ t.mem = s.mem ∧ t.me.eng.head (s.arg 0) = some y ∧ y.bad = some e ∧ y.pos = x.pos := by
  have hexec : exec .copyBeat s = .next (s.updEng s.cur fun g => g.served (s.arg 0) fun x => { x with bad := some e }) := by
    change execCopyBeat s = _
    rw [execCopyBeat_turn hx ht hd hch, he]
  refine ⟨_, { x with bad := some e }, hexec, rfl, ?_, rfl, rfl⟩
  rw [State.updEng_me]
  exact Engines.updHead_head hx fun y => rfl

end Beat

/-! ### Completion (R199) -/

/-- Every core is left calm, and still where it is bare. -/
structure State.Rests (s t : State) : Prop where
  cur : t.cur = s.cur
  core : ∀ d, (s.core d).Calm (t.core d)
  still : s.Still t

theorem State.Rests.trans {s t u : State} (a : s.Rests t) (b : t.Rests u) : s.Rests u :=
  ⟨b.cur.trans a.cur, fun d => (a.core d).trans (b.core d), a.still.trans b.still⟩

theorem State.Rests.refl (s : State) : s.Rests s := ⟨rfl, fun _ => Core.Calm.refl _, State.Still.refl s⟩

theorem State.Calm.rests {s t : State} (h : s.Calm t) (h' : s.Still t) : s.Rests t := ⟨h.cur, h.core, h'⟩

theorem State.rests_of_cores {s t : State} (h : t.cores = s.cores) (hc : t.cur = s.cur) : s.Rests t :=
  ⟨hc, fun d => by rw [State.core, State.core, h]; exact Core.Calm.refl _, State.still_of_cores h⟩

theorem State.calm_fillRack (s : State) (c base n : Nat) : s.Calm (s.fillRack c base n) := by
  unfold State.fillRack
  split
  · split
    · exact State.calm_updCore s c _ fun k => Core.calm_updRack k base _ fun q =>
        Rack.thins_of (r := { q with wait := q.wait + n }) ⟨rfl, rfl, rfl⟩
    · exact State.calm_fillNow s c base n
  · exact State.calm_fillNow s c base n

theorem State.rests_spoil (s : State) (x : Copy) : s.Rests (s.spoil x) := by
  unfold State.spoil
  split
  · exact State.rests_of_cores rfl rfl
  · exact State.Rests.refl s

/-- A completing copy's fill ends its reservation and fills its slots. -/
theorem State.rests_copyFill (s : State) (c : Nat) (x : Copy) : s.Rests (s.copyFill c x) := by
  unfold State.copyFill
  split
  · rename_i o base first r hp
    have hspoil : s.Rests (if x.bad.isSome then s.spoil x else s) := by
      split
      · exact s.rests_spoil x
      · exact State.Rests.refl s
    refine (hspoil.trans ?_).trans ((State.calm_fillRack _ o base x.rkn).rests (State.still_fillRack _ o base x.rkn))
    exact (State.calm_updCore _ o _ fun k => Core.calm_updRack k base _ fun q => Rack.thins_of
      (r := { q with resv := q.resv.filter fun (p : Nat × Nat) => p.1 ≠ copyKey c x }) ⟨rfl, rfl, rfl⟩).rests
      (State.still_updCore _ o _ fun k => Core.still_updRack k base _)
  · exact State.Rests.refl s

/-- An increment leaves every engine's copies. -/
theorem State.applyPost_engine (s : State) (p : Post) (d : Nat) : ((s.applyPost p).core d).eng.copies = (s.core d).eng.copies ∧
    ((s.applyPost p).core d).eng.doneId = (s.core d).eng.doneId := by
  have hcalm := (s.applyPost_calm p).core d
  rw [hcalm.copies, hcalm.doneId, State.incremented]
  by_cases hd : d = p.core
  · rw [hd, State.updCore_core_self]
    exact ⟨rfl, rfl⟩
  · rw [State.updCore_core_other _ _ _ _ hd]
    exact ⟨rfl, rfl⟩

section Post
variable (cnt : Option (Nat × Nat)) (agent inc : Nat) (bad : Option (Nat × Nat × Nat))

theorem State.completePost_engine (d : Nat) : ((s.completePost cnt agent inc bad).core d).eng.copies = (s.core d).eng.copies := by
  unfold State.completePost
  split
  · split
    · rfl
    · exact (s.applyPost_engine _ d).1
  · rfl

theorem State.completePost_cur : (s.completePost cnt agent inc bad).cur = s.cur := by
  unfold State.completePost
  split
  · split
    · rfl
    · exact (s.applyPost_calm _).cur
  · rfl

theorem State.completePost_counter (k : Nat × Nat) : (s.completePost (some k) agent inc bad).counterVal k = (s.counterVal k + inc) % 2 ^ 32 ∨
    inc % 2 ^ 32 = 0 ∧ (s.completePost (some k) agent inc bad).counterVal k = s.counterVal k := by
  unfold State.completePost
  dsimp only
  split
  · exact .inr ⟨‹_›, rfl⟩
  · refine .inl ((s.applyPost_counter ⟨agent, k.1, k.2, inc % 2 ^ 32, bad⟩).trans ?_)
    exact Nat.add_mod_mod _ _ _

end Post

/-- A core whose channel's copy has completed. -/
def Core.copyDone (k : Core) (ch : Nat) (x : Copy) : Core :=
  let g := k.eng
  let left := g.copies.eraseIdx (g.copies.findIdx fun (y : Copy) => y.ch = ch)
  let k := ({ k with eng := { g with doneId := FMap.put g.doneId ch x.id, copies := left } } : Core).wfiEvent 2
  if x.peng then k.engineDone x.inst x.bad 0 x.bytes else k

theorem Core.copyDone_spec (k : Core) (ch : Nat) (x : Copy) : (k.copyDone ch x).mb = k.mb ∧ (k.copyDone ch x).t = k.t ∧
    (k.copyDone ch x).eng.copies = k.eng.copies.eraseIdx (k.eng.copies.findIdx fun (y : Copy) => y.ch = ch) ∧
    (k.copyDone ch x).eng.doneId = FMap.put k.eng.doneId ch x.id := by
  unfold Core.copyDone
  dsimp only
  split <;> exact ⟨rfl, rfl, rfl, rfl⟩

/-- A channel's latch notes a cause (R199). -/
def CoreT.latchChannel (t : CoreT) (ch : Nat) (e : Cause) : CoreT :=
  let note (l : Latch) : Latch := if l.ep then { l with multi := true } else ⟨true, false, e.code, 0, 0⟩
  { t with chLatch := FMap.upd Latch.clear t.chLatch ch note }

theorem CoreT.latchChannel_get (t : CoreT) (ch : Nat) (e : Cause) : FMap.get Latch.clear (t.latchChannel ch e).chLatch ch =
    if (FMap.get Latch.clear t.chLatch ch).ep then { FMap.get Latch.clear t.chLatch ch with multi := true }
    else ⟨true, false, e.code, 0, 0⟩ :=
  FMap.get_put_self _ _ _ _

/-- The channel's latch notes the cause of a copy that completes in the error phase. -/
def State.latchCopy (s : State) (c ch : Nat) (x : Copy) : State :=
  match (if x.peng then none else x.bad) with
  | none => s
  | some e => s.updCore c fun k => k.both fun t => t.latchChannel ch e

theorem State.latchCopy_core (s : State) (c ch : Nat) (x : Copy) (d : Nat) : ((s.latchCopy c ch x).core d).mb = (s.core d).mb ∧
    ((s.latchCopy c ch x).core d).eng = (s.core d).eng ∧ (s.latchCopy c ch x).cur = s.cur := by
  unfold State.latchCopy
  split
  · exact ⟨rfl, rfl, rfl⟩
  · by_cases hd : d = c
    · rw [hd, State.updCore_core_self]
      exact ⟨rfl, rfl, rfl⟩
    · rw [State.updCore_core_other _ _ _ _ hd]
      exact ⟨rfl, rfl, rfl⟩

/-- The state after the fill and the post of a completing copy. -/
def State.copyPosted (s : State) (x : Copy) : State :=
  (s.copyFill s.cur x).completePost x.cnt (agentOf s.cur 1) (fieldAt x.desc 0x1C 4)
    ((if x.peng then none else x.bad).map fun e => (e.code, 0, x.bytes))

theorem copyCompletion_eq (hx : s.me.eng.head (s.arg 0) = some x) (ht : s.me.takeover = false) (haway : s.cntAway x.cnt = false)
    (ha : x.active = true) (hend : x.bad.isSome = true ∨ x.total ≤ x.pos) (hturn : s.copyTurn s.cur x = true) :
    exec .copyCompletion s = .next (((s.copyPosted x).latchCopy s.cur (s.arg 0) x).updCore s.cur fun k => k.copyDone (s.arg 0) x) := by
  change execCopyCompletion s = _
  rw [execCopyCompletion]
  dsimp only
  rw [hx]
  dsimp only
  have hdone : (x.bad.isSome || decide (x.pos ≥ x.total)) = true := by
    rw [Bool.or_eq_true, decide_eq_true_eq]
    exact hend
  rw [if_neg (by rw [ht, haway, ha, hdone, hturn]; decide)]
  rfl

/-- What the fill and the post leave of the step's core, and the counter. -/
theorem State.copyPosted_spec (s : State) (x : Copy) : (s.copyPosted x).cur = s.cur ∧
    ((s.copyPosted x).core s.cur).eng.copies = s.me.eng.copies ∧ s.Still (s.copyPosted x) ∧
    ∀ k, x.cnt = some k → (s.copyPosted x).counterVal k = (s.counterVal k + fieldAt x.desc 0x1C 4) % 2 ^ 32 ∨
      fieldAt x.desc 0x1C 4 % 2 ^ 32 = 0 ∧ (s.copyPosted x).counterVal k = s.counterVal k := by
  obtain ⟨hcur, hcore, hstill⟩ := s.rests_copyFill s.cur x
  refine ⟨(State.completePost_cur _ _ _ _).trans hcur, (State.completePost_engine _ _ _ _ _).trans (hcore s.cur).copies,
    hstill.trans (State.still_completePost _ _ _ _ _), fun k hk => ?_⟩
  have hval : (s.copyFill s.cur x).counterVal k = s.counterVal k := by
    rw [State.counterVal, (hcore k.1).mb, State.counterVal]
  rw [State.copyPosted, hk, ← hval]
  exact State.completePost_counter _ _ _ k

theorem copyCompletion_completes (hx : s.me.eng.head (s.arg 0) = some x) (ht : s.me.takeover = false)
    (haway : s.cntAway x.cnt = false) (ha : x.active = true) (hend : x.bad.isSome = true ∨ x.total ≤ x.pos)
    (hturn : s.copyTurn s.cur x = true) :
    ∃ t, exec .copyCompletion s = .next t ∧ FMap.find? t.me.eng.doneId (s.arg 0) = some x.id ∧
      t.me.eng.copies = s.me.eng.copies.eraseIdx (s.me.eng.copies.findIdx fun y => y.ch = s.arg 0) ∧
      (∀ k, x.cnt = some k → t.counterVal k = (s.counterVal k + fieldAt x.desc 0x1C 4) % 2 ^ 32 ∨
        fieldAt x.desc 0x1C 4 % 2 ^ 32 = 0 ∧ t.counterVal k = s.counterVal k) ∧
      (∀ e, x.bad = some e → x.peng = false → (FMap.get Latch.clear s.t.chLatch (s.arg 0)).ep = false → s.me.chunk = none →
        s.me.held = none → FMap.get Latch.clear t.t.chLatch (s.arg 0) = ⟨true, false, e.code, 0, 0⟩) := by
  obtain ⟨hcur, hcopies, hstill, hcount⟩ := s.copyPosted_spec x
  let q : State := (s.copyPosted x).latchCopy s.cur (s.arg 0) x
  obtain ⟨-, hqeng, hqcur⟩ := (s.copyPosted x).latchCopy_core s.cur (s.arg 0) x s.cur
  have hme : (q.updCore s.cur fun k => k.copyDone (s.arg 0) x).me = (q.core s.cur).copyDone (s.arg 0) x := by
    have hc : (q.updCore s.cur fun k => k.copyDone (s.arg 0) x).cur = s.cur := hqcur.trans hcur
    rw [State.me, hc, State.updCore_core_self]
  obtain ⟨-, hdt, hdcopies, hdone⟩ := (q.core s.cur).copyDone_spec (s.arg 0) x
  refine ⟨_, copyCompletion_eq hx ht haway ha hend hturn, ?_, ?_, fun k hk => ?_, fun e he hp hep hk hh => ?_⟩
  · rw [hme, hdone]
    exact FMap.find_put_self _ _ _
  · rw [hme, hdcopies, hqeng, hcopies]
  · have hmb (d : Nat) : ((q.updCore s.cur fun k => k.copyDone (s.arg 0) x).core d).mb = ((s.copyPosted x).core d).mb := by
      obtain ⟨hqmb, -, -⟩ := (s.copyPosted x).latchCopy_core s.cur (s.arg 0) x d
      by_cases hd : d = s.cur
      · rw [hd, State.updCore_core_self, ((q.core s.cur).copyDone_spec (s.arg 0) x).1, ← hd]
        exact hqmb
      · rw [State.updCore_core_other _ _ _ _ hd]
        exact hqmb
    have hval : (q.updCore s.cur fun k => k.copyDone (s.arg 0) x).counterVal k = (s.copyPosted x).counterVal k := by
      rw [State.counterVal, hmb, State.counterVal]
    rw [hval]
    exact hcount k hk
  · obtain ⟨-, ht'⟩ := (hstill s.cur).bare hh hk
    have hlatch : ((s.copyPosted x).core s.cur).t.chLatch = s.t.chLatch := by
      have h := congrArg CoreT.chLatch ht'
      exact h
    have hq : q = (s.copyPosted x).updCore s.cur fun k => k.both fun t => t.latchChannel (s.arg 0) e := by
      change State.latchCopy _ _ _ _ = _
      rw [State.latchCopy, he, hp]
      rfl
    rw [State.t, hme, hdt, hq, State.updCore_core_self]
    change FMap.get Latch.clear (((s.copyPosted x).core s.cur).t.latchChannel (s.arg 0) e).chLatch (s.arg 0) = _
    rw [CoreT.latchChannel_get, hlatch, hep]
    rfl

end Steps

/-- Settles O40: each step of a copy by what it answers. -/
theorem copySteps : Obligations.CopySteps := by
  unfold Obligations.CopySteps
  exact fun s => ⟨fun i ht hn hi => copyStart_starts ht hn hi,
    fun x o base r l hx ht ha hrk hn hp hr hroom => copyRackReserve_reserves hx ht ha hrk hn hp hr hroom, copyBeat_idle,
    fun x hx ht hd hch => ⟨fun b hb haway => copyBeat_lands hx ht hd hch hb haway, fun e he => copyBeat_faults hx ht hd hch he⟩,
    fun x hx ht haway ha hend hturn => copyCompletion_completes hx ht haway ha hend hturn⟩

end Sys2Proof.Machine
end

section
/-! Proof of the statement on the steps of the matrix and Marquetry units. -/
namespace Sys2Proof.Machine

-- One proof after another: the threads of many proofs at once do not fit the memory of the check.
set_option Elab.async false

/-! ### A matrix command's work leaves a core without a held firing without one -/

/-- The step's core stays, and a core without a held firing gets none. -/
structure State.Unheld (c : Nat) (s t : State) : Prop where
  cur : t.cur = s.cur
  free : (s.core c).held = none → (t.core c).held = none

section Unheld
variable {s t u : State} {c : Nat}

theorem State.Unheld.refl (c : Nat) (s : State) : State.Unheld c s s := ⟨rfl, id⟩

theorem State.Unheld.trans (a : State.Unheld c s t) (b : State.Unheld c t u) : State.Unheld c s u :=
  ⟨b.cur.trans a.cur, fun h => b.free (a.free h)⟩

theorem State.unheld_of_cores (h : t.cores = s.cores) (hc : t.cur = s.cur) : State.Unheld c s t :=
  ⟨hc, fun h' => by rw [State.core, h]; exact h'⟩

theorem State.unheld_foldl {α : Type} (f : State → α → State) (h : ∀ (s : State) a, State.Unheld c s (f s a)) (l : List α) (s : State) :
    State.Unheld c s (l.foldl f s) := by
  induction l generalizing s with
  | nil => exact State.Unheld.refl c s
  | cons a l ih => exact (h s a).trans (ih _)

theorem Core.both_held {k : Core} (f : CoreT → CoreT) (h : k.held = none) : (k.both f).held = none := by rw [Core.both, h]; rfl

variable (s c)

theorem State.unheld_updCore (f : Core → Core) (hf : ∀ k : Core, k.held = none → (f k).held = none) : State.Unheld c s (s.updCore c f) :=
  ⟨rfl, fun h => by rw [State.updCore_core_self]; exact hf _ h⟩

theorem State.unheld_updEng (f : Engines → Engines) : State.Unheld c s (s.updEng c f) := s.unheld_updCore c _ fun _ h => h

theorem State.unheld_engFills (l : List Tlb) : State.Unheld c s (s.engFills c l) :=
  State.unheld_of_cores (s.engFills_cores c l).1 (s.engFills_cores c l).2.2

/-- A command has read its operands and counts its products. -/
theorem State.unheld_ran (l : List Tlb) (f : Engines → Engines) : State.Unheld c s ((s.engFills c l).updEng c f) :=
  (s.unheld_engFills c l).trans (State.unheld_updEng _ c f)

theorem State.unheld_land (u scope kind src : Nat) (w : List (Nat × Byte × Byte)) : State.Unheld c s (s.land u scope kind src w) :=
  ⟨s.land_cur u scope kind src w, fun h => ((s.still_land u scope kind src w c).free h).1⟩

theorem State.unheld_landRuns (cap : Nat) (ps : List Put) : State.Unheld c s (s.landRuns c cap ps) := by
  refine State.unheld_foldl _ (fun s r => ?_) _ s
  split
  · exact State.unheld_land _ _ _ _ _ _ _
  · exact State.Unheld.refl c s

theorem State.unheld_putAll (m : MatCmd) (size : Nat) (f : Acc → Nat → List (Nat × Byte × Byte)) (l : List (Nat × Nat)) :
    State.Unheld c s (s.putAll c m size f l).1 := State.unheld_landRuns _ _ _ _

theorem State.unheld_slotPut (n : Nat) (f : Slot → Slot) : State.Unheld c s (s.slotPut c n f) := by
  refine s.unheld_updCore c _ fun k h => ?_
  dsimp only
  split <;> exact Core.both_held (fun t => t.onSlot n f) h

theorem State.unheld_countDrain (n : Nat) : State.Unheld c s (s.countDrain c n) := by
  refine s.unheld_updCore c _ fun k h => ?_
  dsimp only
  split <;> exact Core.both_held (fun t => t.onSlot n fun x => { x with dcnt := (x.dcnt + 1) % 2 ^ 16 }) h

theorem State.unheld_heldLines (m : MatCmd) (lines : List Nat) : State.Unheld c s (s.heldLines c m lines) := by
  unfold State.heldLines
  split
  · exact s.unheld_updCore c _ fun k h => by dsimp only; rw [h]; rfl
  · exact State.Unheld.refl c s

theorem Done.unheld_slot (m : MatCmd) (r : Except Cause (Rd × Nat × (Slot → Slot))) : State.Unheld c s (Done.slot s c m r).s := by
  unfold Done.slot
  split
  · exact State.Unheld.refl c s
  · exact (((State.unheld_heldLines _ _ _ _).trans (State.unheld_engFills _ _ _)).trans (State.unheld_updEng _ _ _)).trans
      (State.unheld_slotPut _ _ _ _)

theorem State.unheld_runMdrain (m : MatCmd) (a : Nat) : State.Unheld c s (s.runMdrain c m a).s := by
  unfold State.runMdrain
  dsimp only
  refine State.Unheld.trans ?_ (State.unheld_countDrain _ _ _)
  split
  · exact State.Unheld.refl c s
  · exact State.unheld_putAll _ _ _ _ _ _

theorem State.unheld_runGauge (m : MatCmd) (b : List Byte) (sel : Nat) : State.Unheld c s (s.runGauge c m b sel).s := by
  unfold State.runGauge
  split
  · exact State.Unheld.refl c s
  · dsimp only
    split
    · exact State.Unheld.refl c s
    · split
      · refine State.Unheld.trans ?_ (State.unheld_putAll _ _ _ _ _ _)
        split
        · exact (State.unheld_ran _ _ _ _).trans (State.unheld_putAll _ _ _ _ _ _)
        · dsimp only
          exact State.unheld_ran s c _ _
      · split
        · exact (State.unheld_ran _ _ _ _).trans (State.unheld_putAll _ _ _ _ _ _)
        · dsimp only
          exact State.unheld_ran s c _ _

theorem State.unheld_runKmma (m : MatCmd) (b : List Byte) (n : Nat) (seed : Lane) : State.Unheld c s (s.runKmma c m b n seed).s := by
  unfold State.runKmma
  split
  · exact State.Unheld.refl c s
  · dsimp only
    split
    · exact Done.unheld_slot _ _ _ _
    · split
      · exact State.Unheld.refl c s
      · have logged (tlb : List Tlb) (f : Engines → Engines) (size : Nat) (g : Acc → Nat → List (Nat × Byte × Byte)) (l : List (Nat × Nat))
            (b : Bool) : State.Unheld c s (if b = true then ((s.engFills c tlb).updEng c f).putAll c m size g l
              else ((s.engFills c tlb).updEng c f, 0, none)).1 := by
          split
          · exact (State.unheld_ran _ _ _ _).trans (State.unheld_putAll _ _ _ _ _ _)
          · exact State.unheld_ran _ _ _ _
        split
        · exact logged _ _ _ _ _ _
        · dsimp only
          split
          · exact (logged _ _ _ _ _ _).trans (Done.unheld_slot _ _ _ _)
          · exact (logged _ _ _ _ _ _).trans (Done.unheld_slot _ _ _ _)

theorem State.unheld_runMat (m : MatCmd) : State.Unheld c s (s.runMat c m).s := by
  unfold State.runMat
  split
  · dsimp only
    split
    · exact s.unheld_countDrain c _
    · exact State.Unheld.refl c s
  · split
    · exact s.unheld_slotPut c _ _
    · exact Done.unheld_slot _ _ _ _
    · exact Done.unheld_slot _ _ _ _
    · exact Done.unheld_slot _ _ _ _
    · exact s.unheld_runMdrain c m _
    · exact State.unheld_landRuns _ _ _ _
    · exact Done.unheld_slot _ _ _ _
    · exact s.unheld_runGauge c m _ _
    · exact s.unheld_runKmma c m _ _ _

theorem State.unheld_unclaim (level b : Nat) : State.Unheld c s (s.updCore c fun k => k.unclaim level b 1) :=
  s.unheld_updCore c _ fun _ h => Core.both_held _ h

theorem State.unheld_updRack (b : Nat) (f : Rack → Rack) : State.Unheld c s (s.updCore c fun k => k.updRack b f) :=
  s.unheld_updCore c _ fun k h => ((Core.still_updRack k b f).free h).1

theorem State.unheld_payCredits (b : Nat) : State.Unheld c s (s.payCredits c b) := by
  unfold State.payCredits
  split
  · exact State.Unheld.refl c s
  · exact (s.unheld_updRack c b _).trans (State.unheld_of_cores rfl rfl)

theorem State.unheld_freeClaim (m : MatCmd) (x : Src) : State.Unheld c s (s.freeClaim c m x) := by
  unfold State.freeClaim
  split
  · dsimp only
    split
    · refine s.unheld_updCore c _ fun k h => ?_
      split
      · exact Core.both_held _ (by dsimp only; rw [h]; rfl)
      · dsimp only; rw [h]; rfl
    · refine State.Unheld.trans ?_ ⟨(State.calm_wakeCore _ c).cur, fun h => ((State.still_wakeCore _ c c).free h).1⟩
      split
      · exact (s.unheld_updRack c _ _).trans (State.unheld_unclaim _ c _ _)
      · exact (s.unheld_updRack c _ _).trans (State.unheld_payCredits _ c _)
  · exact State.Unheld.refl c s

end Unheld

/-! ### The matrix unit -/

section Matrix
variable {s : State} {m : MatCmd} {rest : List MatCmd}

theorem matrixCommandStart_starts (ht : s.me.takeover = false) (hm : s.me.eng.mat = m :: rest) (hs : m.started = false) :
    ∃ t n, exec .matrixCommandStart s = .next t ∧ t.me.eng.mat = n :: rest ∧ n.started = true ∧
      n.scale = (s.cluster (clusterOf s.cur)).scale ∧ n.op = m.op ∧ n.slot = m.slot ∧ t.mem = s.mem := by
  obtain ⟨n, hexec, h⟩ : ∃ n : MatCmd, exec .matrixCommandStart s = .next (s.updEng s.cur fun g => { g with mat := n :: rest }) ∧
      n.started = true ∧ n.scale = (s.cluster (clusterOf s.cur)).scale ∧ n.op = m.op ∧ n.slot = m.slot := by
    change ∃ n, execMatrixCommandStart s = _ ∧ _
    rw [execMatrixCommandStart]
    dsimp only
    rw [ht, if_neg Bool.false_ne_true, hm]
    dsimp only
    rw [hs, if_neg Bool.false_ne_true]
    refine ⟨_, rfl, ?_⟩
    split
    · split
      · exact ⟨rfl, rfl, rfl, rfl⟩
      · split
        · exact ⟨rfl, rfl, rfl, rfl⟩
        · split
          · exact ⟨rfl, rfl, rfl, rfl⟩
          · split <;> exact ⟨rfl, rfl, rfl, rfl⟩
    · exact ⟨rfl, rfl, rfl, rfl⟩
  obtain ⟨h1, h2, h3, h4⟩ := h
  exact ⟨_, n, hexec, by rw [State.updEng_me], h1, h2, h3, h4, rfl⟩

/-- A command that takes nothing from the links pulls no strip. -/
theorem pullStrips_none (n fuel : Nat) (k : Core) : pullStrips none none n fuel k m = (k, m) := by
  cases fuel <;> simp [pullStrips]

/-- The state that a completing command's work and its latch leave (R223). -/
def State.worked (s : State) (c : Nat) (m : MatCmd) : State :=
  let d := s.runMat c m
  let s := if d.bad.isSome then d.s.next.slotPut c m.slot (s.failedKstat c m (Config.freeXval d.s.fresh)) else d.s
  match (if m.peng then none else d.bad) with
  | none => s
  | some e => s.slotPut c m.slot fun x =>
      { x with latch := if x.latch.ep then { x.latch with multi := true } else ⟨true, false, e.code, 0, 0⟩ }

/-- The state after its slots are freed and it has left the queue. -/
def State.left (s : State) (c : Nat) (m : MatCmd) (rest : List MatCmd) : State :=
  let s := m.op.frees.foldl (fun s x => s.freeClaim c m x) s
  (s.updEng c fun g => { g with mat := rest }).updCore c Core.settleSlots

/-- A completed command's counter is incremented (R224). -/
def State.counted (s : State) (c : Nat) (m : MatCmd) (d : Done) : State :=
  let err := if m.peng then none else d.bad
  let q := m.target c
  match q.1 with
  | some (o, n) => s.applyPost ⟨agentOf c 2, o, n, q.2 % 2 ^ 32, err.map fun e => (e.code, m.agent, d.bytes)⟩
  | none => s

/-- The end of a completion: its post and what a trapped firing's wait is told. -/
def State.posted (s : State) (c : Nat) (m : MatCmd) (d : Done) : State :=
  if m.peng then (s.counted c m d).updCore c fun k => k.engineDone m.inst d.bad m.agent d.bytes else s.counted c m d

theorem State.completeMat_eq (c : Nat) : s.completeMat c m rest = ((s.worked c m).left c m rest).posted c m (s.runMat c m) := rfl

theorem State.unheld_worked (s : State) (c : Nat) (m : MatCmd) : State.Unheld c s (s.worked c m) := by
  have done : State.Unheld c s (if (s.runMat c m).bad.isSome then
      (s.runMat c m).s.next.slotPut c m.slot (s.failedKstat c m (Config.freeXval (s.runMat c m).s.fresh)) else (s.runMat c m).s) := by
    split
    · exact ((s.unheld_runMat c m).trans (u := (s.runMat c m).s.next) (State.unheld_of_cores rfl rfl)).trans
        (State.unheld_slotPut _ _ _ _)
    · exact s.unheld_runMat c m
  unfold State.worked
  dsimp only
  split
  · exact done
  · exact done.trans (State.unheld_slotPut _ _ _ _)

/-- Once it has left, the rest of the queue is what stands there, and the unit has no held firing where it had none. -/
theorem State.left_spec (s : State) (c : Nat) (m : MatCmd) (rest : List MatCmd) :
    State.Unheld c s (s.left c m rest) ∧ ((s.left c m rest).core c).eng.mat = rest := by
  have frees := State.unheld_foldl _ (fun (s : State) x => s.unheld_freeClaim c m x) m.op.frees s
  refine ⟨(frees.trans (State.unheld_updEng _ c _)).trans (State.unheld_updCore _ c _ fun _ h => Core.both_held _ h), ?_⟩
  rw [State.left, State.updCore_core_self, Core.settleSlots, Core.both, State.updEng_core_self]

theorem State.posted_eng (s : State) (m : MatCmd) (d : Done) (h : (s.core s.cur).held = none) :
    (s.posted s.cur m d).cur = s.cur ∧ ((s.posted s.cur m d).core s.cur).eng.mat = (s.core s.cur).eng.mat := by
  have counted : (s.counted s.cur m d).cur = s.cur ∧ ((s.counted s.cur m d).core s.cur).eng.mat = (s.core s.cur).eng.mat := by
    unfold State.counted
    dsimp only
    split
    · exact ⟨(s.applyPost_calm _).cur, by rw [((s.still_applyPost _ s.cur).free h).2]⟩
    · exact ⟨rfl, rfl⟩
  unfold State.posted
  split
  · refine ⟨counted.1, ?_⟩
    rw [State.updCore_core_self]
    exact counted.2
  · exact counted

theorem matrixCommandCompletion_eq (ht : s.me.takeover = false) (hm : s.me.eng.mat = m :: rest) (hs : m.started = true)
    (hl : m.op.links = (none, none)) (ha : s.matAway s.cur m = false) :
    exec .matrixCommandCompletion s = .next ((s.putMe s.me).completeMat s.cur m rest) := by
  change execMatrixCommandCompletion s = _
  rw [execMatrixCommandCompletion]
  dsimp only
  rw [ht, if_neg Bool.false_ne_true, hm]
  dsimp only
  rw [hs, hl, pullStrips_none, if_neg (by decide), if_neg (by simp), ha, if_neg Bool.false_ne_true]

theorem matrixCommandCompletion_leaves (hh : s.me.held = none) :
    ((s.putMe s.me).completeMat s.cur m rest).me.eng.mat = rest := by
  let q : State := s.putMe s.me
  have hq : (q.core s.cur).held = none := (congrArg Core.held (State.putCore_core_self s s.cur s.me)).trans hh
  obtain ⟨hleft, hmat⟩ := (q.worked s.cur m).left_spec s.cur m rest
  have hun := (q.unheld_worked s.cur m).trans hleft
  have hcur : ((q.worked s.cur m).left s.cur m rest).cur = s.cur := hun.cur
  obtain ⟨h1, h2⟩ := State.posted_eng _ m (q.runMat s.cur m) ((congrArg (fun c => (State.core _ c).held) hcur).trans (hun.free hq))
  rw [hcur] at h1 h2
  rw [State.completeMat_eq, State.me, h1, h2, hmat]

/-- A completed MZERO's slot. -/
def Slot.zeroed (x : Slot) : Slot := { x with vals := [], side := 0#32, kstat := 0#64, latch := Latch.clear }

theorem FMap.find?_filter {V : Type} (p : Nat × V → Bool) (m : FMap V) {k : Nat} {v : V} (h : FMap.find? m k = some v) (hp : p (k, v) = true) :
    FMap.find? (m.filter p) k = some v := by
  induction m with
  | nil => cases h
  | cons e m ih =>
    obtain ⟨j, w⟩ := e
    rw [FMap.find?] at h
    split at h
    · rename_i hk
      obtain rfl := Option.some.inj h
      subst hk
      rw [List.filter_cons_of_pos hp, FMap.find?, if_pos rfl]
    · rename_i hk
      split at h
      · cases h
      · rename_i hlt
        rw [List.filter_cons]
        split
        · rw [FMap.find?, if_neg hk, if_neg hlt]
          exact ih h
        · exact ih h

theorem State.slotPut_find {n : Nat} {x : Slot} {f : Slot → Slot} {c : Nat} (h : FMap.find? (s.core c).t.slots n = some x)
    (hf : (f x).par = x.par ∧ (f x).dcnt = x.dcnt) : FMap.find? ((s.slotPut c n f).core c).t.slots n = some (f x) := by
  have put (g : Slot → Slot) : FMap.find? ((s.core c).t.onSlot n g).slots n = some (g x) := by
    rw [CoreT.onSlot, h]
    exact FMap.find_put_self _ _ _
  rw [State.slotPut, State.updCore_core_self]
  dsimp only
  split
  · refine (put _).trans ?_
    rw [← hf.1, ← hf.2]
  · exact put f

/-- The state that an MZERO of the unit leaves, before a trapped firing is told. -/
def State.mzeroed (s : State) (n : Nat) (rest : List MatCmd) : State :=
  ((s.slotPut s.cur n Slot.zeroed).updEng s.cur fun g => { g with mat := rest }).updCore s.cur Core.settleSlots

theorem completeMat_mzero (hop : m.op = .mzero) (hb : m.bad = none) : s.completeMat s.cur m rest =
    if m.peng then (s.mzeroed m.slot rest).updCore s.cur fun k => k.engineDone m.inst none m.agent 0 else s.mzeroed m.slot rest := by
  have hrun : s.runMat s.cur m = ⟨s.slotPut s.cur m.slot Slot.zeroed, 0, none⟩ := by
    unfold State.runMat
    rw [hb, hop]
    rfl
  have hworked : s.worked s.cur m = s.slotPut s.cur m.slot Slot.zeroed := by
    rw [State.worked, hrun]
    simp
  rw [State.completeMat_eq, hworked, hrun, State.posted, State.counted, State.left, MatCmd.target, hop]
  rfl

theorem State.mzeroed_slot {n : Nat} {x : Slot} (hx : FMap.find? s.t.slots n = some x) (hf : x.freeing = false) :
    FMap.find? ((s.mzeroed n rest).core s.cur).t.slots n = some x.zeroed := by
  have h := State.slotPut_find (f := Slot.zeroed) hx ⟨rfl, rfl⟩
  rw [State.mzeroed, State.updCore_core_self, State.updEng_core_self]
  exact FMap.find?_filter _ _ h (by simp [Slot.zeroed, hf])

theorem matrixCommandCompletion_completes (ht : s.me.takeover = false) (hm : s.me.eng.mat = m :: rest) (hs : m.started = true)
    (hl : m.op.links = (none, none)) (ha : s.matAway s.cur m = false) :
    ∃ t, exec .matrixCommandCompletion s = .next t ∧ (s.me.held = none → t.me.eng.mat = rest) ∧
      (m.op = .mzero → m.bad = none → t.mem = s.mem ∧
        ∀ x, FMap.find? s.t.slots m.slot = some x → x.freeing = false →
          FMap.find? t.t.slots m.slot = some { x with vals := [], side := 0#32, kstat := 0#64, latch := Latch.clear }) := by
  refine ⟨_, matrixCommandCompletion_eq ht hm hs hl ha, matrixCommandCompletion_leaves, fun hop hb => ?_⟩
  rw [show s.cur = (s.putMe s.me).cur from rfl, completeMat_mzero hop hb]
  have hme : (s.putMe s.me).t = s.t := congrArg Core.t (State.putCore_core_self s s.cur s.me)
  refine ⟨by split <;> rfl, fun x hx hf => ?_⟩
  rw [← hme] at hx
  have h := State.mzeroed_slot (rest := rest) hx hf
  split
  · refine Eq.trans (congrArg (fun t : CoreT => FMap.find? t.slots m.slot) ?_) h
    exact (congrArg Core.t (State.updCore_core_self ((s.putMe s.me).mzeroed m.slot rest) s.cur _)).trans rfl
  · exact h

end Matrix

/-! ### The Marquetry unit -/

section Marquetry
variable {s : State} {m : MqCmd} {rest : List MqCmd}

/-- A beat of the Marquetry unit: its translations are kept, the command goes on as `k`, its bytes land. -/
def State.mqLanded (s : State) (l : List Tlb) (k : MqCmd) (scope : Nat) (w : List (Nat × Byte × Byte)) : State :=
  ((s.engFills s.cur l).mqRun s.cur k).land s.cur scope 5 s.cur w

theorem State.mqLanded_spec (hm : s.me.eng.mq = m :: rest) (l : List Tlb) (k : MqCmd) (scope : Nat) (w : List (Nat × Byte × Byte)) :
    MemIs s (s.poke w).mem (s.mqLanded l k scope w) ∧ (s.mqLanded l k scope w).me.eng.mq = k :: rest := by
  obtain ⟨hcores, hmem, hcur⟩ := s.engFills_cores s.cur l
  let q : State := (s.engFills s.cur l).mqRun s.cur k
  have hcore (c : Nat) : (s.engFills s.cur l).core c = s.core c := by rw [State.core, hcores, State.core]
  have hthin : s.Thin q := fun c => hcore c ▸ State.updEng_thin c
  have hpoke : (q.poke w).mem = (s.poke w).mem := by
    rw [State.poke, State.poke, ← hmem]
    rfl
  refine ⟨MemIs.of_thin hthin (hpoke ▸ State.land_mem q _ _ _ _ _), ?_⟩
  have hq : (q.core s.cur).eng.mq = k :: rest := by
    have hmq : (s.core s.cur).eng.mq = m :: rest := hm
    change ((State.mqRun _ _ _).core _).eng.mq = _
    rw [State.mqRun, State.updEng_core_self, hcore]
    dsimp only
    rw [hmq]
    rfl
  rw [State.me, State.mqLanded, State.land_cur, show (State.mqRun _ _ _).cur = s.cur from hcur]
  exact (State.land_core q s.cur scope 5 s.cur w s.cur).mq.trans hq

theorem marquetryAdd_adds (ht : s.me.takeover = false) {n : Nat} {x : Lane} {l : List (Nat × Lane)} {a : Acc}
    (hm : s.me.eng.mq = m :: rest) (hz : m.zero = false) (hb : m.bad = none) (hw : m.work.drop m.pos = (n, x) :: l)
    (ha : s.mqWord s.cur m m.tlb (m.at n) = .ok a) :
    ∃ t k, exec .marquetryAdd s = .next t ∧
      MemIs s (s.poke (maskedBytes a.dev (leBytes 4 (fadd .rne (BitVec.ofNat 32 (leVal (s.bytesAt a.dev 4))) x).toNat))).mem t ∧
      t.me.eng.mq = k :: rest ∧ k.pos = m.pos + 1 := by
  let k : MqCmd := { m with pos := m.pos + 1, tlb := keepTlb m.tlb m.part (m.at n) a.leaf }
  have hexec : exec .marquetryAdd s = .next (s.mqLanded [⟨m.part, m.at n, a.leaf⟩] k a.leaf.scope
      (maskedBytes a.dev (leBytes 4 (fadd .rne (BitVec.ofNat 32 (leVal (s.bytesAt a.dev 4))) x).toNat))) := by
    change execMarquetryAdd s = _
    rw [execMarquetryAdd]
    dsimp only
    rw [ht, if_neg Bool.false_ne_true, hm]
    dsimp only
    rw [if_neg (by simp [hz, hb]), hw]
    dsimp only
    rw [ha]
    rfl
  obtain ⟨hmem, hmq⟩ := State.mqLanded_spec hm [⟨m.part, m.at n, a.leaf⟩] k a.leaf.scope
    (maskedBytes a.dev (leBytes 4 (fadd .rne (BitVec.ofNat 32 (leVal (s.bytesAt a.dev 4))) x).toNat))
  exact ⟨_, k, hexec, hmem, hmq, rfl⟩

/-- The scope of the first word's page. -/
def firstScope (as : List Acc) : Nat := match as with | a :: _ => a.leaf.scope | [] => 0

theorem mqzBeat_zeroes (ht : s.me.takeover = false) {n : Nat} {x : Lane} {l : List (Nat × Lane)} {tlb : List Tlb} {as : List Acc}
    (hm : s.me.eng.mq = m :: rest) (hz : m.zero = true) (hb : m.bad = none) (hw : m.work.drop m.pos = (n, x) :: l)
    (ha : s.mqzWords s.cur m m.tlb ((((m.work.drop m.pos).take 64).map (·.1)).takeWhile fun k => m.at k / 256 = m.at n / 256)
      = .ok (tlb, as)) :
    ∃ t k, exec .mqzBeat s = .next t ∧ MemIs s (s.poke (as.flatMap fun a => maskedBytes a.dev (leBytes 4 0))).mem t ∧
      t.me.eng.mq = k :: rest ∧ m.pos < k.pos := by
  let run : List Nat := (((m.work.drop m.pos).take 64).map (·.1)).takeWhile fun k => m.at k / 256 = m.at n / 256
  let k : MqCmd := { m with pos := m.pos + run.length, tlb := tlb }
  have hexec : exec .mqzBeat s = .next (s.mqLanded tlb k (firstScope as) (as.flatMap fun a => maskedBytes a.dev (leBytes 4 0))) := by
    change execMqzBeat s = _
    rw [execMqzBeat]
    dsimp only
    rw [ht, if_neg Bool.false_ne_true, hm]
    dsimp only
    rw [if_neg (by simp [hz, hb])]
    split
    · rename_i h
      rw [hw] at h
      cases h
    · rename_i h
      rw [hw] at h
      cases h
      rw [ha]
      rfl
  have hrun : run.length ≠ 0 := by
    change (List.takeWhile _ _).length ≠ 0
    rw [hw, List.take_succ_cons, List.map_cons, List.takeWhile_cons_of_pos (by simp)]
    simp
  obtain ⟨hmem, hmq⟩ := State.mqLanded_spec hm tlb k (firstScope as) (as.flatMap fun a => maskedBytes a.dev (leBytes 4 0))
  exact ⟨_, k, hexec, hmem, hmq, Nat.lt_add_of_pos_right (Nat.pos_of_ne_zero hrun)⟩

/-- The increment of a completing command (R279). -/
def MqCmd.post (m : MqCmd) (c : Nat) : Post :=
  ⟨agentOf c 3, c, m.mb, 1, (if m.peng then none else m.bad).map fun e => (e.code, 3, 4 * m.pos)⟩

theorem marquetryCompletion_posts (ht : s.me.takeover = false) (hm : s.me.eng.mq = m :: rest)
    (hend : m.bad.isSome = true ∨ m.work.length ≤ m.pos) :
    ∃ t, exec .marquetryCompletion s = .next t ∧ MemIs s s.mem t ∧ t.me.eng.mq = rest ∧
      t.counterVal (s.cur, m.mb) = (s.counterVal (s.cur, m.mb) + 1) % 2 ^ 32 ∧
      (∀ e, m.bad = some e → m.peng = false → (FMap.get Latch.clear s.me.mbLatch m.mb).ep = false →
        FMap.get Latch.clear t.me.mbLatch m.mb = ⟨true, false, e.code, 3, min (4 * m.pos) (2 ^ 32 - 1)⟩) := by
  let q : State := s.updEng s.cur fun g => { g with mq := rest }
  let p : State := q.applyPost (m.post s.cur)
  have hexec : exec .marquetryCompletion s =
      .next (if m.peng then p.updCore s.cur fun k => k.engineDone m.inst m.bad 3 (4 * m.pos) else p) := by
    change execMarquetryCompletion s = _
    rw [execMarquetryCompletion]
    dsimp only
    rw [ht, if_neg Bool.false_ne_true, hm]
    dsimp only
    rw [if_neg (by
      obtain h | h := hend
      · cases hb : m.bad <;> simp_all
      · simp [h])]
    rfl
  have hmem : MemIs s s.mem p := MemIs.of_thin (s := s) (t := q) State.updEng_thin (q.applyPost_mem (m.post s.cur))
  have hcur : p.cur = s.cur := (q.applyPost_calm (m.post s.cur)).cur
  have hmq : (p.core s.cur).eng.mq = rest := by
    rw [((q.applyPost_calm (m.post s.cur)).core s.cur).mq, State.incremented]
    change ((State.updCore q s.cur _).core s.cur).eng.mq = rest
    rw [State.updCore_core_self]
    change (q.core s.cur).eng.mq = rest
    rw [State.updEng_core_self]
  have hcount : p.counterVal (s.cur, m.mb) = (s.counterVal (s.cur, m.mb) + 1) % 2 ^ 32 := by
    refine (q.applyPost_counter (m.post s.cur)).trans ?_
    change (q.counterVal (s.cur, m.mb) + 1) % 2 ^ 32 = _
    rw [State.counterVal, State.updEng_core_self]
    rfl
  have hlatch (e : Cause) (he : m.bad = some e) (hp : m.peng = false) (hep : (FMap.get Latch.clear s.me.mbLatch m.mb).ep = false) :
      FMap.get Latch.clear (p.core s.cur).mbLatch m.mb = ⟨true, false, e.code, 3, min (4 * m.pos) (2 ^ 32 - 1)⟩ := by
    refine (q.applyPost_latch (m.post s.cur)).trans ?_
    change (FMap.get Latch.clear (q.core s.cur).mbLatch m.mb).noted (m.post s.cur).bad = _
    rw [State.updEng_core_self, MqCmd.post, hp, he]
    have hep' : (FMap.get Latch.clear (s.core s.cur).mbLatch m.mb).ep = false := hep
    simp [Latch.noted, hep']
  refine ⟨_, hexec, ?_⟩
  split
  · have hme : (p.updCore s.cur fun k => k.engineDone m.inst m.bad 3 (4 * m.pos)).me =
        (p.core s.cur).engineDone m.inst m.bad 3 (4 * m.pos) := by
      rw [State.me, show (State.updCore _ _ _).cur = s.cur from hcur, State.updCore_core_self]
    refine ⟨hmem, ?_, ?_, fun e he hp hep => ?_⟩
    · rw [hme]
      exact hmq
    · rw [State.counterVal, State.updCore_core_self]
      exact hcount
    · rw [hme]
      exact hlatch e he hp hep
  · rw [State.me, hcur]
    exact ⟨hmem, hmq, hcount, hlatch⟩

end Marquetry

/-- Settles O41: each step of the two units by what it answers. -/
theorem engineSteps : Obligations.EngineSteps := by
  unfold Obligations.EngineSteps
  exact fun s ht => ⟨fun m rest hm hs => matrixCommandStart_starts ht hm hs,
    fun m rest hm hs hl ha => matrixCommandCompletion_completes ht hm hs hl ha,
    fun m rest n x l a hm hz hb hw ha => marquetryAdd_adds ht hm hz hb hw ha,
    fun m rest n x l hm hz hb hw tlb as ha => mqzBeat_zeroes ht hm hz hb hw ha,
    fun m rest hm hend => marquetryCompletion_posts ht hm hend⟩

end Sys2Proof.Machine
end

section
/-! Proof of the statement on far atomics and barriers at their home (R298, R301-R305). -/
namespace Sys2Proof.Machine

-- One proof after another: the threads of many proofs at once do not fit the memory of the check.
set_option Elab.async false

/-! ### Memory after a write of whole bytes -/

section Bytes
variable (s : State)

theorem State.poke_append (v w : List (Nat × Byte × Byte)) : s.poke (v ++ w) = (s.poke v).poke w := by
  rw [State.poke, List.foldl_append]
  rfl

theorem State.poke_byte_self (a : Nat) (b : Byte) : (s.poke [(a, 0xFF#8, b)]).byte a = b := by
  refine (FMap.get_set_self _ _ _ _).trans ?_
  exact overlay_full _ b 0#8

/-- The bytes of a write read back. -/
theorem State.bytesAt_poke_self (bs : List Byte) (a : Nat) : (s.poke (maskedBytes a bs)).bytesAt a bs.length = bs := by
  induction bs generalizing s a with
  | nil => rfl
  | cons b bs ih =>
    have hbyte : ((s.poke [(a, 0xFF#8, b)]).poke (maskedBytes (a + 1) bs)).byte a = b := by
      rw [State.poke_byte_other _ _ _ fun p hp => by have := maskedBytes_addr hp; omega]
      exact s.poke_byte_self a b
    rw [maskedBytes_cons, ← List.singleton_append, State.poke_append, List.length_cons, State.bytesAt, span, List.map_cons, hbyte]
    exact congrArg (b :: ·) (ih _ _)

theorem State.bytesAt_congr {s t : State} {a n : Nat} (h : ∀ k, k < n → t.byte (a + k) = s.byte (a + k)) : t.bytesAt a n = s.bytesAt a n := by
  rw [State.bytesAt, State.bytesAt]
  refine List.map_congr_left fun x hx => ?_
  obtain ⟨h1, h2⟩ := mem_span.1 hx
  have := h (x - a) (by omega)
  rwa [Nat.add_sub_cancel' h1] at this

/-- Bytes beside a write stay. -/
theorem State.bytesAt_poke_other (bs : List Byte) {a b n : Nat} (h : a + bs.length ≤ b ∨ b + n ≤ a) :
    (s.poke (maskedBytes a bs)).bytesAt b n = s.bytesAt b n :=
  State.bytesAt_congr fun k hk => s.poke_byte_other _ _ fun p hp => by
    have := maskedBytes_addr hp
    omega

theorem leVal_leBytes (n x : Nat) : leVal (leBytes n x) = x % 256 ^ n := by
  induction n generalizing x with
  | zero => simp [leBytes, leVal, Nat.mod_one]
  | succ n ih => rw [leBytes, leVal, ih, BitVec.toNat_ofNat, Nat.pow_succ' (n := n) (m := 256), (Nat.mod_mul : x % (256 * 256 ^ n) = _)]

theorem State.leVal_poke_self {n x a : Nat} (h : x < 256 ^ n) : leVal ((s.poke (maskedBytes a (leBytes n x))).bytesAt a n) = x := by
  have := s.bytesAt_poke_self (leBytes n x) a
  rw [length_leBytes] at this
  rw [this, leVal_leBytes, Nat.mod_eq_of_lt h]

theorem State.leVal_bytesAt_lt (a n : Nat) : leVal (s.bytesAt a n) < 2 ^ (8 * n) := by
  have := leVal_lt (s.bytesAt a n)
  rwa [State.bytesAt_length] at this

end Bytes

/-! ### Barrier objects (R302, R304) -/

section Bar

theorem clearBit_le (m i : Nat) : clearBit m i ≤ m := by
  unfold clearBit
  split
  · exact Nat.sub_le _ _
  · exact Nat.le_refl m

theorem putBit_lt {m i n : Nat} (hm : m < 2 ^ n) (hi : i < n) : putBit m i < 2 ^ n := by
  unfold putBit
  split
  · exact hm
  · rename_i hb
    rw [bit_eq_decide, decide_eq_true_eq] at hb
    have hpow : 2 ^ n = 2 * 2 ^ (n - 1 - i) * 2 ^ i := by
      rw [← Nat.pow_succ', ← Nat.pow_add]
      congr 1
      omega
    have hpos : 0 < 2 ^ i := Nat.two_pow_pos i
    rw [hpow] at hm ⊢
    rw [← Nat.div_lt_iff_lt_mul hpos] at hm ⊢
    rw [Nat.add_div_right _ hpos]
    omega

/-- The fields of an object fit their places. -/
structure Bar.Fits (o : Bar) : Prop where
  members : o.members < 2 ^ 64
  arrived : o.arrived < 2 ^ 64
  phase : o.phase < 2 ^ 32

theorem State.bar_fits (s : State) (a : Nat) : (s.bar a).Fits :=
  ⟨s.leVal_bytesAt_lt a 8, s.leVal_bytesAt_lt (a + 8) 8, s.leVal_bytesAt_lt (a + 16) 4⟩

/-- What an operation makes of an object: it fits, its phase stays, and an arrival leaves its members. -/
theorem Bar.apply_fits {o p : Bar} {op b v : Nat} (h : o.Fits) (hb : b < 2 ^ 64) (hp : o.apply op b = .ok (p, v)) :
    p.Fits ∧ p.phase = o.phase ∧ (op = 1 → p.members = o.members) := by
  obtain ⟨hm, ha, hph⟩ := h
  unfold Bar.apply at hp
  dsimp only at hp
  split at hp
  · cases hp
    exact ⟨⟨hb, Nat.two_pow_pos 64, hph⟩, rfl, fun h => by cases h⟩
  · split at hp
    · cases hp
    · cases hp
      exact ⟨⟨hm, putBit_lt ha (Nat.mod_lt _ (by decide)), hph⟩, rfl, fun _ => rfl⟩
  · rename_i h1
    split at hp
    · cases hp
    · cases hp
      exact ⟨⟨(clearBit_le _ _).trans_lt hm, (clearBit_le _ _).trans_lt ha, hph⟩, rfl, fun h => absurd h h1⟩

theorem Bar.settle_fits {o : Bar} (h : o.Fits) : o.settle.1.Fits ∧ o.settle.1.members = o.members ∧
    (o.settle.2 = false → o.settle.1.phase = o.phase) := by
  obtain ⟨hm, ha, hph⟩ := h
  unfold Bar.settle
  split
  · exact ⟨⟨hm, Nat.two_pow_pos 64, Nat.mod_lt _ (by decide)⟩, rfl, fun h => by cases h⟩
  · exact ⟨⟨hm, ha, hph⟩, rfl, fun _ => rfl⟩

/-- An object is what an operation's writes make it. -/
theorem State.bar_poke {s : State} {o : Bar} {a op : Nat} {done : Bool} (h : o.Fits) (hm : op = 1 → o.members = (s.bar a).members)
    (hp : done = false → o.phase = (s.bar a).phase) : (s.poke (o.writes a op done)).bar a = o := by
  obtain ⟨h1, h2, h3⟩ := h
  rw [Bar.writes, State.poke_append, State.poke_append]
  have key : ∀ w1 w3 : List (Nat × Byte × Byte),
      (leVal ((s.poke w1).bytesAt a 8) = o.members) → (∀ s : State, (s.poke w3).bytesAt a 8 = s.bytesAt a 8) →
      (∀ s : State, (s.poke w3).bytesAt (a + 8) 8 = s.bytesAt (a + 8) 8) →
      (leVal ((((s.poke w1).poke (maskedBytes (a + 8) (leBytes 8 o.arrived))).poke w3).bytesAt (a + 16) 4) = o.phase) →
      (((s.poke w1).poke (maskedBytes (a + 8) (leBytes 8 o.arrived))).poke w3).bar a = o := by
    intro w1 w3 e1 e3 e3' e4
    have hm : leVal ((((s.poke w1).poke (maskedBytes (a + 8) (leBytes 8 o.arrived))).poke w3).bytesAt a 8) = o.members := by
      rw [e3, State.bytesAt_poke_other _ _ (by simp), e1]
    have ha : leVal ((((s.poke w1).poke (maskedBytes (a + 8) (leBytes 8 o.arrived))).poke w3).bytesAt (a + 8) 8) = o.arrived := by
      rw [e3', State.leVal_poke_self _ h2]
    rw [State.bar, hm, ha, e4]
  refine key _ _ ?_ (fun s => ?_) (fun s => ?_) ?_
  · split
    · exact (hm ‹_›).symm
    · exact State.leVal_poke_self s h1
  · split
    · exact State.bytesAt_poke_other _ _ (by simp)
    · rfl
  · split
    · exact State.bytesAt_poke_other _ _ (by simp)
    · rfl
  · cases done with
    | true => exact State.leVal_poke_self _ h3
    | false =>
      change leVal (((s.poke _).poke (maskedBytes (a + 8) (leBytes 8 o.arrived))).bytesAt (a + 16) 4) = _
      rw [State.bytesAt_poke_other _ _ (by simp), hp rfl]
      split
      · rfl
      · rw [State.bytesAt_poke_other _ _ (by simp)]
        rfl

end Bar

/-! ### Replies and the home's entry -/

/-- Firing `n` of a level is there. -/
def CoreT.there (t : CoreT) (level n : Nat) : Bool := (if level = 1 then t.fir1 else t.fir0).any (·.serial = n)

theorem CoreT.there_congr {t u : CoreT} (h0 : u.fir0 = t.fir0) (h1 : u.fir1 = t.fir1) (level n : Nat) :
    u.there level n = t.there level n := by rw [CoreT.there, h0, h1, CoreT.there]

/-- The firings' numbers tell whether one is there. -/
theorem CoreT.there_of_serials {t u : CoreT} (h : u.serials = t.serials) (level n : Nat) : u.there level n = t.there level n := by
  have one (o : Option Firing) : o.any (·.serial = n) = (o.map (·.serial)).any (· = n) := by cases o <;> rfl
  obtain ⟨h0, h1⟩ := Prod.ext_iff.1 h
  unfold CoreT.there
  rw [one, one]
  split
  · exact congrArg (Option.any (· = n)) h1
  · exact congrArg (Option.any (· = n)) h0

/-- A core that a reply has reached. -/
def Core.replied (k : Core) (level n v : Nat) (bad : Option (Cause × Nat)) : Core :=
  if !k.t.there level n then k else
  match (k.waiting level).await with
  | .reply _ _ _ => k.setWaiting level { k.waiting level with reply := some (v, bad) }
  | _ => k

/-- Firing `n` of a level of a core is there and waits for a reply. -/
def State.Awaits (s : State) (c level n : Nat) : Prop :=
  (∃ r pc back, ((s.core c).waiting level).await = .reply r pc back) ∧
    (s.core c).t.there level n = true

section Reply
variable {s : State} {c level n v : Nat} {bad : Option (Cause × Nat)}

theorem Core.waiting_setWaiting_other (k : Core) {l m : Nat} (w : Waiting) (h : (l = 1) ≠ (m = 1)) :
    (k.setWaiting m w).waiting l = k.waiting l := by
  unfold Core.setWaiting Core.waiting
  by_cases h1 : l = 1 <;> by_cases h2 : m = 1 <;> simp_all

theorem Core.waiting_congr (k : Core) {l m : Nat} (h : (l = 1) = (m = 1)) : k.waiting l = k.waiting m := by
  unfold Core.waiting
  simp only [h]

theorem State.reply'_core_self : (s.reply' c level n v bad).core c = (s.core c).replied level n v bad :=
  State.updCore_core_self _ _ _

/-- The reply stands at the waiting firing. -/
theorem State.reply'_reply (h : s.Awaits c level n) : (((s.reply' c level n v bad).core c).waiting level).reply = some (v, bad) := by
  obtain ⟨⟨r, pc, back, hw⟩, hf⟩ := h
  rw [State.reply'_core_self, Core.replied, hf, hw]
  exact congrArg Waiting.reply (Core.setWaiting_waiting _ _ _)

theorem State.reply'_core_other {d : Nat} (h : d ≠ c) : (s.reply' c level n v bad).core d = s.core d :=
  State.updCore_core_other _ _ _ _ h

/-- Which firings wait for a reply stays; so do the replies that are there, but for that of one level. -/
theorem State.reply'_waiting (d l : Nat) :
    ((s.reply' c level n v bad).core d).t = (s.core d).t ∧
    (((s.reply' c level n v bad).core d).waiting l).await = ((s.core d).waiting l).await ∧
    ((((s.reply' c level n v bad).core d).waiting l).reply = ((s.core d).waiting l).reply ∨
      (((s.reply' c level n v bad).core d).waiting l).reply = some (v, bad)) := by
  by_cases hd : d = c
  · subst hd
    rw [State.reply'_core_self, Core.replied]
    split
    · exact ⟨rfl, rfl, .inl rfl⟩
    · split
      · refine ⟨Core.setWaiting_t _ _ _, ?_⟩
        by_cases hl : (l = 1) = (level = 1)
        · rw [Core.waiting_congr _ hl, Core.setWaiting_waiting, Core.waiting_congr _ hl]
          exact ⟨rfl, .inr rfl⟩
        · rw [Core.waiting_setWaiting_other _ _ hl]
          exact ⟨rfl, .inl rfl⟩
      · exact ⟨rfl, rfl, .inl rfl⟩
  · rw [State.reply'_core_other hd]
    exact ⟨rfl, rfl, .inl rfl⟩

theorem State.Awaits.reply' {d l k : Nat} (h : s.Awaits d l k) : (s.reply' c level n v bad).Awaits d l k := by
  obtain ⟨ht, hw, -⟩ := s.reply'_waiting (c := c) (level := level) (n := n) (v := v) (bad := bad) d l
  unfold State.Awaits
  rw [ht, hw]
  exact h

/-- The home's answers to the waits that it releases are all the phase: who has one keeps it. -/
theorem State.foldl_reply'_keeps (val : Nat) (l : List BarReq) (s : State) (c level : Nat)
    (h : ((s.core c).waiting level).reply = some (val, none)) :
    (((l.foldl (fun (s : State) (q : BarReq) => s.reply' q.core q.level q.fir val none) s).core c).waiting level).reply = some (val, none) := by
  induction l generalizing s with
  | nil => exact h
  | cons q l ih =>
    refine ih _ ?_
    obtain ⟨-, -, h' | h'⟩ := s.reply'_waiting (c := q.core) (level := q.level) (n := q.fir) (v := val) (bad := none) c level
    · exact h'.trans h
    · exact h'

/-- Each released wait is answered. -/
theorem State.foldl_reply'_answers (val : Nat) (l : List BarReq) (s : State) {q : BarReq} (hq : q ∈ l) (h : s.Awaits q.core q.level q.fir) :
    (((l.foldl (fun (s : State) (q : BarReq) => s.reply' q.core q.level q.fir val none) s).core q.core).waiting q.level).reply =
      some (val, none) := by
  induction l generalizing s with
  | nil => cases hq
  | cons p l ih =>
    obtain rfl | hq := List.mem_cons.1 hq
    · exact State.foldl_reply'_keeps val l _ _ _ (State.reply'_reply h)
    · exact ih _ hq h.reply'

/-- A core none of whose firings has a wait at the home stays; so does all but the cores. -/
theorem State.foldl_reply'_rest (val : Nat) (l : List BarReq) (s : State) :
    let t := l.foldl (fun (s : State) (q : BarReq) => s.reply' q.core q.level q.fir val none) s
    t.mem = s.mem ∧ t.bars = s.bars ∧ t.barHeld = s.barHeld ∧ ∀ c, (∀ w ∈ l, w.core ≠ c) → t.core c = s.core c := by
  induction l generalizing s with
  | nil => exact ⟨rfl, rfl, rfl, fun _ _ => rfl⟩
  | cons q l ih =>
    obtain ⟨h1, h2, h3, h4⟩ := ih (s.reply' q.core q.level q.fir val none)
    refine ⟨h1, h2, h3, fun c hc => ?_⟩
    rw [List.forall_mem_cons] at hc
    exact (h4 c hc.2).trans (State.reply'_core_other (Ne.symm hc.1))

/-- The waits on one object all get its phase. -/
theorem State.foldl_phase (a : Nat) (l : List BarReq) (h : ∀ q ∈ l, q.addr = a) (s : State) :
    l.foldl (fun (s : State) (q : BarReq) => s.reply' q.core q.level q.fir (s.bar q.addr).phase none) s =
      l.foldl (fun (s : State) (q : BarReq) => s.reply' q.core q.level q.fir (s.bar a).phase none) s := by
  induction l generalizing s with
  | nil => rfl
  | cons q l ih =>
    rw [List.forall_mem_cons] at h
    rw [List.foldl_cons, List.foldl_cons, h.1, ih h.2]

theorem State.foldl_phase_const (a v : Nat) (l : List BarReq) (s : State) (h : (s.bar a).phase = v) :
    l.foldl (fun (s : State) (q : BarReq) => s.reply' q.core q.level q.fir (s.bar a).phase none) s =
      l.foldl (fun (s : State) (q : BarReq) => s.reply' q.core q.level q.fir v none) s := by
  induction l generalizing s with
  | nil => rfl
  | cons q l ih =>
    rw [List.foldl_cons, List.foldl_cons, h]
    exact ih _ h

/-- Releasing the waits on an object answers those that are over, and changes no memory (R304). -/
theorem State.releaseWaits_spec (s : State) (a : Nat) :
    (s.releaseWaits a).mem = s.mem ∧ (s.releaseWaits a).bars = s.bars ∧
    (∀ q ∈ s.barHeld, s.waitOver q = false → q ∈ (s.releaseWaits a).barHeld) ∧
    (∀ c, (∀ w ∈ s.barHeld, w.core ≠ c) → (s.releaseWaits a).core c = s.core c) ∧
    (∀ q ∈ s.barHeld, q.addr = a → s.waitOver q = true → s.Awaits q.core q.level q.fir →
      (((s.releaseWaits a).core q.core).waiting q.level).reply = some ((s.bar a).phase, none)) := by
  let due (q : BarReq) : Bool := decide (q.addr = a) && s.waitOver q
  let u : State := { s with barHeld := s.barHeld.filter fun q => !due q }
  have hdue (q : BarReq) (h : q ∈ s.barHeld.filter due) : q.addr = a :=
    of_decide_eq_true (Bool.and_eq_true_iff.1 (List.mem_filter.1 h).2).1
  have heq : s.releaseWaits a = (s.barHeld.filter due).foldl
      (fun (s : State) (q : BarReq) => s.reply' q.core q.level q.fir (s.bar a).phase none) u :=
    State.foldl_phase a _ hdue u
  rw [heq, State.foldl_phase_const a (s.bar a).phase _ u rfl]
  obtain ⟨h1, h2, h3, h4⟩ := State.foldl_reply'_rest (s.bar a).phase (s.barHeld.filter due) u
  refine ⟨h1, h2, fun q hq ho => ?_, fun c hc => ?_, fun q hq ha ho hw => ?_⟩
  · rw [h3]
    refine List.mem_filter.2 ⟨hq, ?_⟩
    simp only [due, ho, Bool.and_false, Bool.not_false]
  · exact h4 c fun w hw => hc w (List.mem_filter.1 hw).1
  · refine State.foldl_reply'_answers _ _ u (List.mem_filter.2 ⟨hq, ?_⟩) hw
    simp only [due, ha, ho, decide_true, Bool.and_true]

end Reply

section Enter
variable {s : State} {a : Nat} (hq : ∀ h, s.homeOf a = some h → (s.core h).chunk = none)
include hq

/-- A home without an open chunk pre-empts at once: the parked values of its core move away. -/
theorem State.enterHome_quiet : s.enterHome a = s ∨
    ∃ h f, s.enterHome a = s.updCore h (fun k => k.both f) ∧ ∀ t : CoreT, (f t).fir0 = t.fir0 ∧ (f t).fir1 = t.fir1 := by
  unfold State.enterHome
  split
  · rename_i h hh
    rw [hq h hh]
    dsimp only [Option.isNone_none]
    rw [if_pos rfl, hq h hh]
    split
    · exact .inl rfl
    · exact .inr ⟨h, _, rfl, fun t => ⟨rfl, rfl⟩⟩
  · exact .inl rfl

theorem State.enterHome_calm : s.Calm (s.enterHome a) := by
  obtain h | ⟨c, f, h, hf⟩ := State.enterHome_quiet hq
  · rw [h]
    exact State.Calm.refl s
  · rw [h]
    exact State.calm_updCore s c _ fun k => Core.calm_both k f fun t => by rw [CoreT.serials, (hf t).1, (hf t).2]; rfl

/-- Its waits, its firings and what is uncorrectable stay. -/
theorem State.enterHome_spec : (s.enterHome a).mem = s.mem ∧ (s.enterHome a).poison = s.poison ∧
    (∀ c level n, s.Awaits c level n → (s.enterHome a).Awaits c level n) ∧ (s.enterHome a).homeWaits a = false ∧
    ∀ c, (s.core c).chunk = none → (s.core c).held = none →
      ((s.enterHome a).core c).chunk = none ∧ ((s.enterHome a).core c).held = none := by
  have hwaits : s.homeWaits a = false := by
    unfold State.homeWaits
    split
    · rename_i h hh
      rw [hq h hh]
      rfl
    · rfl
  obtain h | ⟨c, f, h, hf⟩ := State.enterHome_quiet hq
  · rw [h]
    exact ⟨rfl, rfl, fun _ _ _ => id, hwaits, fun _ => And.intro⟩
  · rw [h]
    have hcore (d : Nat) : ((s.updCore c fun k => k.both f).core d = s.core d) ∨
        (s.updCore c fun k => k.both f).core d = (s.core d).both f := by
      by_cases hd : d = c
      · subst hd
        exact .inr (State.updCore_core_self _ _ _)
      · exact .inl (State.updCore_core_other _ _ _ _ hd)
    refine ⟨rfl, rfl, fun d level n => ?_, ?_, fun d hd he => ?_⟩
    · unfold State.Awaits
      obtain e | e := hcore d
      · rw [e]
        exact id
      · rw [e]
        exact fun ⟨hw, hn⟩ => ⟨hw, (CoreT.there_congr (hf _).1 (hf _).2 _ _).trans hn⟩
    · have hhome : (s.updCore c fun k => k.both f).homeOf a = s.homeOf a := rfl
      unfold State.homeWaits
      rw [hhome]
      split
      · rename_i h hh
        obtain e | e := hcore h
        · rw [e, hq h hh]
          rfl
        · rw [e, Core.both, hq h hh]
          rfl
      · rfl
    · obtain e | e := hcore d
      · rw [e]
        exact ⟨hd, he⟩
      · rw [e, Core.both, hd, he]
        exact ⟨rfl, rfl⟩

end Enter

/-! ### Far atomics -/

section Far
variable {s : State} {f : Far} {rest : List Far}

theorem execFarAtomic_turn (hp : pick s.far (s.arg 0) = some (f, rest)) (hf : s.homeFree f.addr = true)
    (ho : ∀ g ∈ s.far.take (s.arg 0), ¬(g.core = f.core ∧ s.homeKey g.addr = s.homeKey f.addr)) : exec .farAtomic s =
      if (s.enterHome f.addr).homeWaits f.addr then .next (s.enterHome f.addr) else
      .next (match s.homeOf f.addr with
        | some h => (({ s.enterHome f.addr with far := rest ++ (s.enterHome f.addr).far.drop s.far.length } : State).farAt f).farMore h
            (min 15 (s.arg 1))
        | none => ({ s.enterHome f.addr with far := rest ++ (s.enterHome f.addr).far.drop s.far.length } : State).farAt f) := by
  change execFarAtomic s = _
  rw [execFarAtomic]
  dsimp only
  rw [hp]
  dsimp only
  refine (if_neg ?_).trans rfl
  rw [hf, Bool.not_true, Bool.or_false, List.any_eq_true]
  rintro ⟨g, hg, hg'⟩
  exact ho g hg (by simpa using hg')

theorem farAtomic_waits (hp : pick s.far (s.arg 0) = some (f, rest)) (hf : s.homeFree f.addr = true)
    (ho : ∀ g ∈ s.far.take (s.arg 0), ¬(g.core = f.core ∧ s.homeKey g.addr = s.homeKey f.addr))
    (hw : (s.enterHome f.addr).homeWaits f.addr = true) : exec .farAtomic s = .next (s.enterHome f.addr) := by
  rw [execFarAtomic_turn hp hf ho, if_pos hw]

/-- A far atomic's write lands, and its firing gets its reply. -/
theorem State.farAt_spec (hbad : s.badBytes f.addr (if f.w64 then 8 else 4) = false) :
    let size := if f.w64 then 8 else 4
    let old := leVal (s.bytesAt f.addr size)
    (s.farAt f).far = s.far ∧ MemIs s (s.poke (maskedBytes f.addr (leBytes size (amoNew f.op (8 * size) old f.b f.c)))).mem (s.farAt f) ∧
      (f.waits = true → (s.core f.core).chunk = none → (s.core f.core).held = none → s.Awaits f.core f.level f.fir →
        (((s.farAt f).core f.core).waiting f.level).reply = some ((amoOld f.op (8 * size) old).toNat, none)) := by
  intro size old
  let q : State := s.land f.core f.scope 2 f.core (maskedBytes f.addr (leBytes size (amoNew f.op (8 * size) old f.b f.c)))
  have hcalm := s.land_calm f.core f.scope 2 f.core (maskedBytes f.addr (leBytes size (amoNew f.op (8 * size) old f.b f.c)))
  have hmem := s.land_mem f.core f.scope 2 f.core (maskedBytes f.addr (leBytes size (amoNew f.op (8 * size) old f.b f.c)))
  have hcore := s.land_core f.core f.scope 2 f.core (maskedBytes f.addr (leBytes size (amoNew f.op (8 * size) old f.b f.c))) f.core
  have heq : s.farAt f = if f.waits then q.reply' f.core f.level f.fir (amoOld f.op (8 * size) old).toNat none else q := by
    rw [State.farAt]
    dsimp only
    rw [hbad, if_neg Bool.false_ne_true]
  rw [heq]
  refine ⟨by split <;> exact hcalm.far, by split <;> exact hmem, fun hw hc hh ha => ?_⟩
  rw [hw, if_pos rfl]
  refine State.reply'_reply ?_
  obtain ⟨-, -, h0, h1, hser⟩ := hcore.rest hc hh
  obtain ⟨ha, ht⟩ := ha
  refine ⟨?_, ?_⟩
  · unfold Core.waiting at ha ⊢
    rw [h0, h1]
    exact ha
  · exact (CoreT.there_of_serials hser _ _).trans ht

theorem farAtomic_performs (hp : pick s.far (s.arg 0) = some (f, rest)) (h1 : s.arg 1 = 0) (hf : s.homeFree f.addr = true)
    (hq : ∀ h, s.homeOf f.addr = some h → (s.core h).chunk = none)
    (hbad : s.badBytes f.addr (if f.w64 then 8 else 4) = false)
    (ho : ∀ g ∈ s.far.take (s.arg 0), ¬(g.core = f.core ∧ s.homeKey g.addr = s.homeKey f.addr)) :
    let size := if f.w64 then 8 else 4
    let old := leVal (s.bytesAt f.addr size)
    ∃ t, exec .farAtomic s = .next t ∧ t.far = rest ∧
      MemIs s (s.poke (maskedBytes f.addr (leBytes size (amoNew f.op (8 * size) old f.b f.c)))).mem t ∧
      (f.waits = true → (s.core f.core).chunk = none → (s.core f.core).held = none → s.Awaits f.core f.level f.fir →
        ((t.core f.core).waiting f.level).reply = some ((amoOld f.op (8 * size) old).toNat, none)) := by
  intro size old
  have hcalm := State.enterHome_calm hq
  obtain ⟨hmem, hpoison, hawaits, hwaits, hrest⟩ := State.enterHome_spec hq
  let q : State := { s.enterHome f.addr with far := rest }
  have hexec : exec .farAtomic s = .next (q.farAt f) := by
    rw [execFarAtomic_turn hp hf ho, hwaits, if_neg Bool.false_ne_true, hcalm.far, List.drop_length, List.append_nil, h1]
    cases s.homeOf f.addr <;> rfl
  have hbadq : q.badBytes f.addr size = false := by
    rw [State.badBytes, show q.poison = s.poison from hpoison]
    exact hbad
  have hold : leVal (q.bytesAt f.addr size) = old := by
    refine congrArg leVal (State.bytesAt_congr fun k _ => ?_)
    rw [State.byte, show q.mem = s.mem from hmem, State.byte]
  obtain ⟨hfar, hland, hreply⟩ := State.farAt_spec (s := q) (f := f) hbadq
  rw [hold] at hland hreply
  have hpoke : ∀ w, (q.poke w).mem = (s.poke w).mem := fun w => by
    rw [State.poke, show q.mem = s.mem from hmem, State.poke]
  rw [hpoke] at hland
  refine ⟨_, hexec, hfar, MemIs.of_thin (t := q) (fun c => (hcalm.core c).racks) hland, fun hw hc hh ha => ?_⟩
  obtain ⟨hc', hh'⟩ := hrest f.core hc hh
  exact hreply hw hc' hh' (hawaits _ _ _ ha)

end Far

/-! ### Barriers -/

/-- A landing write keeps which firings wait for a reply, of a core that has neither an open chunk nor a held firing. -/
theorem State.Awaits.land {s : State} {c level n : Nat} (h : s.Awaits c level n) (hc : (s.core c).chunk = none)
    (hh : (s.core c).held = none) (u scope kind src : Nat) (w : List (Nat × Byte × Byte)) :
    (s.land u scope kind src w).Awaits c level n := by
  obtain ⟨-, -, h0, h1, hser⟩ := (s.land_core u scope kind src w c).rest hc hh
  obtain ⟨ha, ht⟩ := h
  refine ⟨?_, (CoreT.there_of_serials hser _ _).trans ht⟩
  unfold Core.waiting at ha ⊢
  rw [h0, h1]
  exact ha

section Barrier
variable {s : State} {q : BarReq} {rest : List BarReq}

/-- The state in which a barrier request is performed: the home has pre-empted its core, and the request has left its queue. -/
def State.atBar (s : State) (q : BarReq) (rest : List BarReq) : State := { s.enterHome q.addr with bars := rest }

/-- What the request finds is what stood there before. -/
theorem State.atBar_spec (hq : ∀ h, s.homeOf q.addr = some h → (s.core h).chunk = none) (hbad : s.badBytes q.addr 20 = false) :
    (s.atBar q rest).mem = s.mem ∧ (s.atBar q rest).badBytes q.addr 20 = false ∧
    (s.atBar q rest).bar q.addr = s.bar q.addr ∧ (∀ p, (s.atBar q rest).waitOver p = s.waitOver p) ∧
    (∀ c level n, s.Awaits c level n → (s.atBar q rest).Awaits c level n) ∧ s.Thin (s.atBar q rest) ∧
    (s.atBar q rest).barHeld = s.barHeld ∧ ∀ c, (s.core c).chunk = none → (s.core c).held = none →
      ((s.atBar q rest).core c).chunk = none ∧ ((s.atBar q rest).core c).held = none := by
  obtain ⟨hmem, hpoison, hawaits, -, hrest⟩ := State.enterHome_spec hq
  have hbar (a : Nat) : (s.atBar q rest).bar a = s.bar a := by
    have hb (a n : Nat) : (s.atBar q rest).bytesAt a n = s.bytesAt a n := State.bytesAt_congr fun k _ => by
      rw [State.byte, show (s.atBar q rest).mem = s.mem from hmem, State.byte]
    rw [State.bar, hb, hb, hb, State.bar]
  refine ⟨hmem, ?_, hbar _, fun p => ?_, hawaits, fun c => ((State.enterHome_calm hq).core c).racks, (State.enterHome_calm hq).barHeld, hrest⟩
  · rw [State.badBytes, show (s.atBar q rest).poison = s.poison from hpoison]
    exact hbad
  · rw [State.waitOver, hbar, State.waitOver]

variable (hp : pick s.bars (s.arg 0) = some (q, rest)) (hf : s.homeFree q.addr = true)
  (hq : ∀ h, s.homeOf q.addr = some h → (s.core h).chunk = none)
include hp hf hq

theorem execBarrierRequest_turn : exec .barrierRequest s = .next ((s.atBar q rest).barrierAt q) := by
  obtain ⟨-, -, -, hwaits, -⟩ := State.enterHome_spec hq
  change execBarrierRequest s = _
  rw [execBarrierRequest, hp]
  dsimp only
  rw [hf, hwaits, if_neg (by decide), if_neg Bool.false_ne_true, (State.enterHome_calm hq).bars, List.drop_length, List.append_nil]
  rfl

variable (hbad : s.badBytes q.addr 20 = false)
include hbad

theorem barrierRequest_refused {e : Cause} (hop : q.op < 3) (he : (s.bar q.addr).apply q.op q.b = .error e)
    (ha : s.Awaits q.core q.level q.fir) :
    ∃ t, exec .barrierRequest s = .next t ∧ t.bars = rest ∧ t.mem = s.mem ∧
      ((t.core q.core).waiting q.level).reply = some (0, some (e, q.va)) := by
  obtain ⟨hmem, hbad', hbar, -, hawaits, -, -, -⟩ := State.atBar_spec (rest := rest) hq hbad
  have heq : (s.atBar q rest).barrierAt q = (s.atBar q rest).reply' q.core q.level q.fir 0 (some (e, q.va)) := by
    rw [State.barrierAt, hbad', if_neg Bool.false_ne_true, if_neg (by omega), hbar, he]
  refine ⟨_, execBarrierRequest_turn hp hf hq, ?_⟩
  rw [heq]
  exact ⟨rfl, hmem, State.reply'_reply (hawaits _ _ _ ha)⟩

theorem barrierRequest_wait (hop : q.op = 3) (ha : s.Awaits q.core q.level q.fir) :
    ∃ t, exec .barrierRequest s = .next t ∧ t.bars = rest ∧ t.mem = s.mem ∧
      (s.waitOver q = true → ((t.core q.core).waiting q.level).reply = some ((s.bar q.addr).phase, none)) ∧
      (s.waitOver q = false → q ∈ t.barHeld) := by
  obtain ⟨hmem, hbad', hbar, hover, hawaits, -, -, -⟩ := State.atBar_spec (rest := rest) hq hbad
  let u : State := { s.atBar q rest with barHeld := (s.atBar q rest).barHeld ++ [q] }
  have heq : (s.atBar q rest).barrierAt q = u.releaseWaits q.addr := by
    rw [State.barrierAt, hbad', if_neg Bool.false_ne_true, if_pos hop]
  have hu : q ∈ u.barHeld := List.mem_append_right _ (List.mem_singleton_self q)
  obtain ⟨h1, h2, h3, -, h5⟩ := u.releaseWaits_spec q.addr
  refine ⟨_, execBarrierRequest_turn hp hf hq, ?_⟩
  rw [heq]
  refine ⟨h2, h1.trans hmem, fun ho => ?_, fun ho => h3 q hu ((hover q).trans ho)⟩
  exact (h5 q hu rfl ((hover q).trans ho) (hawaits _ _ _ ha)).trans (congrArg (fun o : Bar => some (o.phase, none)) hbar)

theorem barrierRequest_applies {o : Bar} {v : Nat} (hop : q.op < 3) (hb : q.b < 2 ^ 64) (ho : (s.bar q.addr).apply q.op q.b = .ok (o, v)) :
    ∃ t, exec .barrierRequest s = .next t ∧ t.bars = rest ∧
      (s.NoSpec ∨ (∀ k, k < 20 → ¬s.InRack (q.addr + k)) → t.bar q.addr = o.settle.1) ∧
      ((s.core q.core).chunk = none → (s.core q.core).held = none → (∀ w ∈ s.barHeld, w.core ≠ q.core) →
        s.Awaits q.core q.level q.fir → ((t.core q.core).waiting q.level).reply = some (v, none)) := by
  obtain ⟨hmem, hbad', hbar, -, hawaits, hthin, hheld, hrest⟩ := State.atBar_spec (rest := rest) hq hbad
  let w : List (Nat × Byte × Byte) := o.settle.1.writes q.addr q.op o.settle.2
  let u : State := (s.atBar q rest).land q.core q.scope 2 q.core w
  let r : State := u.reply' q.core q.level q.fir v none
  have heq : (s.atBar q rest).barrierAt q = r.releaseWaits q.addr := by
    rw [State.barrierAt, hbad', if_neg Bool.false_ne_true, if_neg (by omega), hbar, ho]
  have hcalm := (s.atBar q rest).land_calm q.core q.scope 2 q.core w
  have hland : MemIs s (s.poke w).mem u := by
    have h := MemIs.of_thin hthin ((s.atBar q rest).land_mem q.core q.scope 2 q.core w)
    rwa [State.poke, hmem] at h
  obtain ⟨h1, h2, -, h4, -⟩ := r.releaseWaits_spec q.addr
  refine ⟨_, execBarrierRequest_turn hp hf hq, ?_⟩
  rw [heq]
  refine ⟨h2.trans hcalm.bars, fun hs => ?_, fun hc hh hw ha => ?_⟩
  · obtain ⟨hfits, hphase, hmembers⟩ := Bar.apply_fits (s.bar_fits q.addr) hb ho
    obtain ⟨hfits', hmem', hphase'⟩ := Bar.settle_fits hfits
    have hpoke : (s.poke w).bar q.addr = o.settle.1 := State.bar_poke hfits' (fun h => hmem'.trans (hmembers h))
      fun h => (hphase' h).trans hphase
    have hbyte (k : Nat) (hk : k < 20) : (r.releaseWaits q.addr).byte (q.addr + k) = (s.poke w).byte (q.addr + k) := by
      rw [State.byte, h1]
      obtain h | h := hs
      · exact congrArg (FMap.get 0#8 · _) (hland.2 h)
      · exact hland.1 _ (h k hk)
    have hbytes (i n : Nat) (h : i + n ≤ 20) : (r.releaseWaits q.addr).bytesAt (q.addr + i) n = (s.poke w).bytesAt (q.addr + i) n :=
      State.bytesAt_congr fun k hk => by
        rw [Nat.add_assoc]
        exact hbyte (i + k) (by omega)
    rw [← hpoke, State.bar, hbytes 8 8 (by decide), hbytes 16 4 (by decide)]
    have h0 := hbytes 0 8 (by decide)
    rw [Nat.add_zero] at h0
    rw [h0, State.bar]
  · obtain ⟨hc', hh'⟩ := hrest _ hc hh
    have hr : ((r.core q.core).waiting q.level).reply = some (v, none) :=
      State.reply'_reply ((hawaits _ _ _ ha).land hc' hh' _ _ _ _ _)
    have hheld' : r.barHeld = s.barHeld := hcalm.barHeld.trans hheld
    rw [h4 q.core (by rw [hheld']; exact hw)]
    exact hr

end Barrier

/-! ### Replies at the waiting core -/

section TakeReply
variable {s : State} {r : Reg} {pc : Word} {u : Undone} {v : Nat}

theorem farAtomicReply_completes (hw : (s.me.waiting (s.arg 0)).await = .reply r pc u)
    (hr : (s.me.waiting (s.arg 0)).reply = some (v, none)) :
    ∃ w, w.t = (s.t.complete u (s.arg 0)).setGAt (s.arg 0) r (word v) ∧ w.me.waiting (s.arg 0) = Waiting.idle ∧
      w.mem = s.mem ∧ exec .farAtomicReply s = .next (u.push.foldl (fun w p => w.landPush w.cur p) w) ∧
      exec .barrierReply s = exec .farAtomicReply s := by
  let k : Core := (s.me.both fun t => (t.complete u (s.arg 0)).setGAt (s.arg 0) r (word v)).setWaiting (s.arg 0) Waiting.idle
  refine ⟨s.putMe k, ?_, ?_, rfl, ?_, rfl⟩
  · rw [State.t, State.putMe_me]
    exact Core.setWaiting_t _ _ _
  · rw [State.putMe_me]
    exact Core.setWaiting_waiting _ _ _
  · change s.takeReply (s.arg 0) = _
    rw [State.takeReply]
    dsimp only
    rw [hw, hr]

theorem farAtomicReply_refused {e : Cause} {x : Nat} (hw : (s.me.waiting (s.arg 0)).await = .reply r pc u)
    (hr : (s.me.waiting (s.arg 0)).reply = some (v, some (e, x))) :
    ∃ t, exec .farAtomicReply s = .next t ∧ exec .barrierReply s = .next t ∧ t.t = s.t.restore u ∧ t.mem = s.mem ∧
      t.me.waiting (s.arg 0) = ⟨.none, none, some (e, word x, pc)⟩ := by
  let k : Core := (s.me.both fun t => t.restore u).setWaiting (s.arg 0) { Waiting.idle with trap := some (e, word x, pc) }
  have hexec : s.takeReply (s.arg 0) = .next (s.putMe k) := by
    rw [State.takeReply]
    dsimp only
    rw [hw, hr]
  refine ⟨s.putMe k, hexec, hexec, ?_, rfl, ?_⟩
  · rw [State.t, State.putMe_me]
    exact Core.setWaiting_t _ _ _
  · rw [State.putMe_me]
    exact Core.setWaiting_waiting _ _ _

end TakeReply

/-- Settles O42: each step of a home, and of the core that waits for it, by what it answers. -/
theorem homeSteps : Obligations.HomeSteps := by
  unfold Obligations.HomeSteps
  intro s quiet there
  refine ⟨fun f rest hp hf ho hw => farAtomic_waits hp hf ho hw, fun f rest hp h1 hf hq hbad ho => ?_,
    fun q rest o v hp hf hq hbad hop hb ho => ?_,
    fun q rest e r pc back hp hf hq hbad hop he hw ht => barrierRequest_refused hp hf hq hbad hop he ⟨⟨r, pc, back, hw⟩, ht⟩,
    fun q rest r pc back hp hf hq hbad hop hw ht => barrierRequest_wait hp hf hq hbad hop ⟨⟨r, pc, back, hw⟩, ht⟩,
    fun r pc u v hw hr => farAtomicReply_completes hw hr, fun r pc u v e x hw hr => farAtomicReply_refused hw hr⟩
  · obtain ⟨t, h, hfar, hmem, hreply⟩ := farAtomic_performs hp h1 hf hq hbad ho
    exact ⟨t, h, hfar, hmem, fun r pc back hw hc hh ha ht => hreply hw hc hh ⟨⟨r, pc, back, ha⟩, ht⟩⟩
  · obtain ⟨t, h, hbars, hbar, hreply⟩ := barrierRequest_applies hp hf hq hbad hop hb ho
    exact ⟨t, h, hbars, hbar, fun r pc back hc hh hheld ha ht => hreply hc hh hheld ⟨⟨r, pc, back, ha⟩, ht⟩⟩

end Sys2Proof.Machine
end

section
/-! Proof of the statement on the issue choice and on pre-emption (R18, R27, R102). -/
namespace Sys2Proof.Machine

-- One proof after another: the threads of many proofs at once do not fit the memory of the check.
set_option Elab.async false

/-! ### The write of a predicted tile -/

/-- A core-scope write squashes and knocks down nothing where its core has no open chunk and its held firing has read
nothing yet. -/
theorem State.signal_own {s : State} {c : Nat} (lines : List Nat) (hc : (s.core c).chunk = none)
    (hh : ∀ h, (s.core c).held = some h → h.chunks = []) : (s.signal 0 c lines).cores = s.cores := by
  unfold State.signal
  split
  · rfl
  · dsimp only
    refine Eq.trans (congrArg State.cores (?_ : List.foldl _ s.next s.next.cores = s.next)) (rfl : s.next.cores = s.cores)
    have hc' : (s.next.core c).chunk = none := hc
    have hh' : ∀ h, (s.next.core c).held = some h → h.chunks = [] := hh
    generalize s.next.cores = l
    clear hc hh
    generalize s.next = u at hc' hh' ⊢
    induction l with
    | nil => rfl
    | cons p l ih =>
      rw [List.foldl_cons]
      refine Eq.trans (congrArg (fun v => List.foldl _ v l) ?_) ih
      split
      · rfl
      · rename_i hin
        have hp : p.1 = c := by simpa [inScope] using hin
        have hheld : (match (u.core p.1).held with
            | some h => if (h.chunks.any (fun ch => conflicts ch.rd lines u.fresh p.1) && !u.firmTurn p.1 h) = true
                then State.knockDown 8 u p.1 true else u
            | none => u) = u := by
          split
          · rename_i h hh
            rw [hp] at hh
            rw [hh' h hh, List.any_nil, Bool.false_and, if_neg Bool.false_ne_true]
          · rfl
        refine Eq.trans (congrArg (fun v : State => match (v.core p.1).chunk with
          | some ch => if conflicts ch.rd lines v.fresh p.1 = true then v.squash p.1 true else v
          | none => v) hheld) ?_
        rw [hp, hc']

theorem State.stage_cores {s : State} {c : Nat} (part va : Nat) (tile : List Byte) (hc : (s.core c).chunk = none)
    (hh : ∀ h, (s.core c).held = some h → h.chunks = []) :
    (s.stage c part va tile).cores = s.cores ∧ (s.stage c part va tile).cur = s.cur := by
  unfold State.stage
  split
  · exact ⟨rfl, rfl⟩
  · rename_i dev _
    exact ⟨State.signal_own (s := s.replace (maskedBytes dev tile)) _ hc hh, (State.calm_signal _ _ _ _).cur⟩

/-! ### A started firing -/

/-- XSTAT at a firing's start: bits 0 and 5 alone can be set. -/
theorem startXstat_bits (p : Prop) [Decidable p] (b : Bool) :
    (word (b2n (decide p) + 32 * b2n b)).getLsbD 0 = decide p ∧ (word (b2n (decide p) + 32 * b2n b)).getLsbD 4 = false := by
  by_cases h : p <;> cases b <;> simp [h, b2n] <;> decide

/-- What a core has once a firing has started on it (R18, R355, R356). -/
structure State.Started (s : State) (c : Nat) (e : Entry) (i : Inst) (k : Core) (f : Firing) : Prop where
  inst : f.inst = e.inst
  part : f.part = i.part
  pri : f.pri = aPri (s.descOfInst i)
  cls : f.cls = s.classOf i
  ran : f.ran = 0
  pc : f.pc = word ((s.imageOf i).1 + aEntry (s.descOfInst i))
  high : aPri (s.descOfInst i) = 1 → k.t.fir1 = some f ∧ k.t.fir0 = (s.core c).t.fir0 ∧ k.t.gp = (s.core c).t.gp ∧
    k.t.v = (s.core c).t.v ∧ k.t.tr0 = (s.core c).t.tr0
  low : aPri (s.descOfInst i) ≠ 1 → k.t.fir0 = some f ∧ k.t.fir1 = (s.core c).t.fir1
  sup : (if aPri (s.descOfInst i) = 1 then k.t.tr1 else k.t.tr0).xstat.getLsbD 0 = decide (i.lslot = 0xFFF)
  inTrap : (if aPri (s.descOfInst i) = 1 then k.t.tr1 else k.t.tr0).xstat.getLsbD 4 = false
  chmax : (if aPri (s.descOfInst i) = 1 then k.t.tr1 else k.t.tr0).chmax = 256
  watchm : (if aPri (s.descOfInst i) = 1 then k.t.tr1 else k.t.tr0).watchm = 0
  xvec : (if aPri (s.descOfInst i) = 1 then k.t.tr1 else k.t.tr0).xvec = word (s.startVec i)
  block : (if aPri (s.descOfInst i) = 1 then k.t.gs else k.t.gp)[9] = word (padOfCore c + i.block)
  runq : ∀ x ∈ k.runq, x.inst ≠ e.inst

theorem CoreT.setSkips_spec (t : CoreT) (b : Bool) : (t.setSkips b).fir0 = t.fir0 ∧ (t.setSkips b).fir1 = t.fir1 ∧
    (t.setSkips b).gp = t.gp ∧ (t.setSkips b).gs = t.gs ∧ (t.setSkips b).v = t.v ∧ (t.setSkips b).tr0 = t.tr0 ∧
    (t.setSkips b).tr1 = t.tr1 := by
  unfold CoreT.setSkips
  split <;> exact ⟨rfl, rfl, rfl, rfl, rfl, rfl, rfl⟩

/-- The trap registers of a starting firing. -/
def State.startTr (s : State) (i : Inst) (dry : Bool) (r : TrapRegs) : TrapRegs :=
  let sup := b2n (decide (i.lslot = 0xFFF))
  let dried := b2n dry
  let mode := word (wbits r.mode 3 1 * 2 + s.startPeng i)
  { r with mode := mode, watchm := 0, chmax := 256, xvec := word (s.startVec i), xstat := word (sup + 32 * dried) }

/-- The record of a starting firing. -/
def State.startRecord (s : State) (c : Nat) (e : Entry) (i : Inst) (aged : Bool) : Firing :=
  let d := s.descOfInst i
  let im := s.imageOf i
  let st := s.startOf c e.inst i
  { inst := e.inst, part := i.part, pri := aPri d, cls := s.classOf i, lo := im.1, hi := im.1 + im.2, pc := word (im.1 + aEntry d),
    ran := 0, waited := s.age e, aged := aged, entry := e.time, drawn := 0, serial := s.fresh, cycles := 0, draws := 0, sent := [],
    freed := [], actend := false, held := st.held, dry := st.dry, ord := st.ord, depth := st.depth, deps := st.deps, down := false }

/-- The level's registers on which it starts. -/
def State.startLevel (s : State) (c : Nat) (e : Entry) (i : Inst) (aged : Bool) : CoreT :=
  let d := s.descOfInst i
  let st := s.startOf c e.inst i
  let k := s.core c
  let f := s.startRecord c e i aged
  let regs := s.startRegs c i st
  let binds : FMap Nat := (actorRacks d).foldl (fun m p => FMap.put m p.1 (bits p.2 10 0)) []
  let t := if aPri d = 1
    then { k.t with fir1 := some f, gs := regs, tr1 := s.startTr i st.dry.isSome k.t.tr1, park := k.t.parkAway (isMemCore c) }
    else { k.t with fir0 := some f, gp := regs, tr0 := s.startTr i st.dry.isSome k.t.tr0, park := [], maskOpen := false, maskCnt := 0 }
  { t with binds := binds, npc := f.pc }

/-- The core on which it starts. -/
def State.startCore (s : State) (c : Nat) (e : Entry) (i : Inst) (aged : Bool) : Core :=
  let st := s.startOf c e.inst i
  let f := s.startRecord c e i aged
  let t := (s.startLevel c e i aged).setSkips false
  let wt : Waiting := if st.bad then { Waiting.idle with trap := some (.orderTimestamp, Config.freeXval s.fresh, f.pc) } else Waiting.idle
  let tile := match st.dry with
    | some b => (match ((s.core c).firmMark b).vers with
      | x :: y :: _ => predictTile ((s.core c).firmMark b).fmt x y
      | _ => [])
    | none => []
  let staging := match st.dry with | some b => (((s.core c).firmMark b).armed).getD 0 | none => 0
  let held := if st.held then some { heldOf f t with staging := staging, tile := tile } else (s.core c).held
  ({ s.core c with t := t, held := held, runq := (s.core c).runq.filter (·.inst ≠ e.inst) }).setWaiting (aPri (s.descOfInst i)) wt

/-- An `Inst` whose firing starts. -/
def Inst.started (x : Inst) (d : List Byte) : Inst :=
  let spend (m : FMap Int) (p : Nat) : FMap Int := FMap.upd 0 m p (· - (outRate (aOut d p) : Int))
  { x with busy := true, since := none, again := false, credit := (span 0 (aNout d)).foldl spend x.credit }

section Start
variable {s : State} {c : Nat} {e : Entry} {i : Inst} {aged : Bool}

theorem State.startFiring_eq (hi : FMap.find? s.insts e.inst = some i) : ∃ va tile, s.startFiring c e aged =
    if (s.startOf c e.inst i).dry.isSome
    then ((s.next.putCore c (s.startCore c e i aged)).updInst e.inst (·.started (s.descOfInst i))).stage c i.part va tile
    else (s.next.putCore c (s.startCore c e i aged)).updInst e.inst (·.started (s.descOfInst i)) := by
  unfold State.startFiring
  rw [hi]
  exact ⟨_, _, rfl⟩

theorem State.startFiring_core (hi : FMap.find? s.insts e.inst = some i) (hc : (s.core c).chunk = none) :
    (s.startFiring c e aged).core c = s.startCore c e i aged ∧ (s.startFiring c e aged).cur = s.cur := by
  obtain ⟨va, tile, heq⟩ := State.startFiring_eq (c := c) (aged := aged) hi
  let q : State := (s.next.putCore c (s.startCore c e i aged)).updInst e.inst (·.started (s.descOfInst i))
  have hcore : q.core c = s.startCore c e i aged := (State.updInst_core _ _ _ _).trans (State.putCore_core_self _ _ _)
  have hcur : q.cur = s.cur := (State.calm_updInst _ _ _).cur
  rw [heq]
  split
  · rename_i hd
    have hst : (s.startOf c e.inst i).held = true := by
      have : (s.startOf c e.inst i).held = ((s.startOf c e.inst i).dry.isSome || _) := Bool.or_assoc _ _ _
      rw [this, hd, Bool.true_or]
    have hs : q.cores = (q.stage c i.part va tile).cores ∧ (q.stage c i.part va tile).cur = q.cur := by
      have h := State.stage_cores (s := q) (c := c) i.part va tile ?_ fun h hh => ?_
      · exact ⟨h.1.symm, h.2⟩
      · rw [hcore, State.startCore, Core.setWaiting_chunk]
        exact hc
      · rw [hcore, State.startCore, Core.setWaiting_held] at hh
        dsimp only at hh
        rw [hst, if_pos rfl] at hh
        cases hh
        rfl
    exact ⟨(congrArg (fun m => FMap.get Core.reset m c) hs.1.symm).trans hcore, hs.2.trans hcur⟩
  · exact ⟨hcore, hcur⟩

theorem State.startCore_started : s.Started c e i (s.startCore c e i aged) (s.startRecord c e i aged) := by
  have ht : (s.startCore c e i aged).t = (s.startLevel c e i aged).setSkips false := Core.setWaiting_t _ _ _
  have hq : (s.startCore c e i aged).runq = (s.core c).runq.filter (fun x => x.inst ≠ e.inst) := by
    unfold State.startCore Core.setWaiting
    dsimp only
    split <;> rfl
  generalize s.startCore c e i aged = k at ht hq ⊢
  obtain ⟨h0, h1, hgp, hgs, hv, htr0, htr1⟩ := (s.startLevel c e i aged).setSkips_spec false
  have hxstat := startXstat_bits (i.lslot = 0xFFF) (s.startOf c e.inst i).dry.isSome
  have hregs : (s.startRegs c i (s.startOf c e.inst i))[9] = word (padOfCore c + i.block) := by
    simp [State.startRegs]
  have htr (hp : aPri (s.descOfInst i) = 1) : k.t.tr1 = s.startTr i (s.startOf c e.inst i).dry.isSome (s.core c).t.tr1 := by
    rw [ht, htr1, State.startLevel, if_pos hp]
  have htr' (hp : aPri (s.descOfInst i) ≠ 1) : k.t.tr0 = s.startTr i (s.startOf c e.inst i).dry.isSome (s.core c).t.tr0 := by
    rw [ht, htr0, State.startLevel, if_neg hp]
  have hany (P : TrapRegs → Prop) (h : ∀ r, P (s.startTr i (s.startOf c e.inst i).dry.isSome r)) :
      P (if aPri (s.descOfInst i) = 1 then k.t.tr1 else k.t.tr0) := by
    split
    · rw [htr ‹_›]
      exact h _
    · rw [htr' ‹_›]
      exact h _
  refine ⟨rfl, rfl, rfl, rfl, rfl, rfl, fun hp => ?_, fun hp => ?_, hany (·.xstat.getLsbD 0 = _) fun _ => hxstat.1,
    hany (·.xstat.getLsbD 4 = _) fun _ => hxstat.2, hany (·.chmax = _) fun _ => rfl, hany (·.watchm = _) fun _ => rfl,
    hany (·.xvec = _) fun _ => rfl, ?_, fun x hx => ?_⟩
  · rw [ht, h0, h1, hgp, hv, htr0, State.startLevel, if_pos hp]
    exact ⟨rfl, rfl, rfl, rfl, rfl⟩
  · rw [ht, h0, h1, State.startLevel, if_neg hp]
    exact ⟨rfl, rfl⟩
  · split
    · rename_i hp
      refine Eq.trans (congrArg (fun r : Vector Word 32 => r[9]) ?_) hregs
      rw [ht, hgs, State.startLevel, if_pos hp]
    · rename_i hp
      refine Eq.trans (congrArg (fun r : Vector Word 32 => r[9]) ?_) hregs
      rw [ht, hgp, State.startLevel, if_neg hp]
  · rw [hq] at hx
    exact of_decide_eq_true (List.mem_filter.1 hx).2

end Start

section Issue
variable {s : State} {e : Entry} {i : Inst}

theorem issueChoice_starts {aged : Bool} (hf : s.t.fir = none) (hk : s.me.chunk = none) (hd : s.me.draining = false)
    (ht : s.me.takeover = false) (hc : s.choose s.cur = some (e, aged)) (hi : FMap.find? s.insts e.inst = some i) :
    ∃ t f, exec .issueChoice s = .next t ∧ t.t.fir = some f ∧ f.inst = e.inst ∧ f.part = i.part ∧
      f.pri = aPri (s.descOfInst i) ∧ f.cls = s.classOf i ∧ f.ran = 0 ∧ t.t.pc = word ((s.imageOf i).1 + aEntry (s.descOfInst i)) ∧
      t.t.inTrap = false ∧ t.t.sup = decide (i.lslot = 0xFFF) ∧ t.t.tr.chmax = 256 ∧ t.t.tr.watchm = 0 ∧
      t.t.tr.xvec = word (s.startVec i) ∧ t.t.g 9#5 = word (padOfCore s.cur + i.block) ∧
      (∀ x ∈ t.me.runq, x.inst ≠ e.inst) := by
  have hexec : exec .issueChoice s = .next (s.startFiring s.cur e aged) := by
    change execIssueChoice s = _
    rw [execIssueChoice]
    rw [if_neg (by simp [show s.me.t.fir = none from hf, hk, hd, ht]), hc]
  obtain ⟨hcore, hcur⟩ := State.startFiring_core (aged := aged) hi hk
  have hme : (s.startFiring s.cur e aged).me = s.startCore s.cur e i aged := by rw [State.me, hcur, hcore]
  have h := State.startCore_started (s := s) (c := s.cur) (e := e) (i := i) (aged := aged)
  have hno : s.t.fir1 = none := by
    unfold CoreT.fir at hf
    split at hf
    · exact hf
    · rename_i h1
      simpa using h1
  have hfir : (s.startCore s.cur e i aged).t.fir = some (s.startRecord s.cur e i aged) ∧
      (s.startCore s.cur e i aged).t.fir1.isSome = decide (aPri (s.descOfInst i) = 1) := by
    by_cases hp : aPri (s.descOfInst i) = 1
    · obtain ⟨h1, -⟩ := h.high hp
      rw [CoreT.fir, h1, decide_eq_true hp]
      exact ⟨rfl, rfl⟩
    · obtain ⟨h0, h1⟩ := h.low hp
      rw [CoreT.fir, h1, show (s.core s.cur).t.fir1 = none from hno, decide_eq_false hp]
      exact ⟨h0, rfl⟩
  have htr : (s.startCore s.cur e i aged).t.tr =
      if aPri (s.descOfInst i) = 1 then (s.startCore s.cur e i aged).t.tr1 else (s.startCore s.cur e i aged).t.tr0 := by
    rw [CoreT.tr, hfir.2]
    simp only [decide_eq_true_eq]
  refine ⟨_, s.startRecord s.cur e i aged, hexec, ?_⟩
  rw [State.t, hme]
  refine ⟨hfir.1, h.inst, h.part, h.pri, h.cls, h.ran, ?_, ?_, ?_, ?_, ?_, ?_, ?_, h.runq⟩
  · rw [CoreT.pc, hfir.1]
    exact h.pc
  · rw [CoreT.inTrap, htr]
    exact h.inTrap
  · rw [CoreT.sup, htr]
    exact h.sup
  · rw [htr]
    exact h.chmax
  · rw [htr]
    exact h.watchm
  · rw [htr]
    exact h.xvec
  · rw [← h.block, CoreT.g, if_neg (by decide), hfir.2]
    simp only [decide_eq_true_eq]
    split <;> rfl

/-- A core without an open chunk has none to end. -/
theorem State.cutChunk_none {c : Nat} (h : (s.core c).chunk = none) : s.cutChunk c = s := by
  unfold State.cutChunk
  dsimp only
  split
  · rfl
  · rename_i ch hch
    cases (hch.symm.trans h : some ch = none)

theorem preEmption_starts (hp : s.preemptor = some e) (hk : s.me.chunk = none) (hi : FMap.find? s.insts e.inst = some i)
    (hd : aPri (s.descOfInst i) = 1) :
    ∃ t f, exec .preEmption s = .next t ∧ t.t.fir1 = some f ∧ f.inst = e.inst ∧ t.t.fir0 = s.t.fir0 ∧ t.t.gp = s.t.gp ∧
      t.t.v = s.t.v ∧ t.t.tr0 = s.t.tr0 ∧ t.t.pc = word ((s.imageOf i).1 + aEntry (s.descOfInst i)) := by
  let q : State := s.leaveSolo s.cur
  have hexec : exec .preEmption s = .next (q.startFiring s.cur e false) := by
    change execPreEmption s = _
    rw [execPreEmption, hp]
    dsimp only
    rw [State.cutChunk_none (s := s) (c := s.cur) hk, if_neg (by rw [hk]; decide)]
  have hq : q.insts = s.insts ∧ q.descOfInst i = s.descOfInst i ∧ q.imageOf i = s.imageOf i ∧ q.cur = s.cur ∧
      (q.core s.cur).t = s.t ∧ (q.core s.cur).chunk = none := by
    change (s.leaveSolo s.cur).insts = _ ∧ (s.leaveSolo s.cur).descOfInst i = _ ∧ (s.leaveSolo s.cur).imageOf i = _ ∧
      (s.leaveSolo s.cur).cur = _ ∧ ((s.leaveSolo s.cur).core s.cur).t = _ ∧ ((s.leaveSolo s.cur).core s.cur).chunk = _
    unfold State.leaveSolo
    split
    · exact ⟨rfl, rfl, rfl, rfl, rfl, hk⟩
    · have h := State.updCore_core_self s s.cur fun k => { k with solo := none }
      dsimp only
      exact ⟨rfl, rfl, rfl, rfl, (congrArg Core.t h).trans rfl, (congrArg Core.chunk h).trans hk⟩
  obtain ⟨hinsts, hdesc, himage, hqcur, hqt, hqk⟩ := hq
  obtain ⟨hcore, hcur⟩ := State.startFiring_core (s := q) (c := s.cur) (aged := false) (by rw [hinsts]; exact hi) hqk
  have hme : (q.startFiring s.cur e false).me = q.startCore s.cur e i false := by rw [State.me, hcur, hqcur, hcore]
  have h := State.startCore_started (s := q) (c := s.cur) (e := e) (i := i) (aged := false)
  obtain ⟨h1, h0, hgp, hv, htr0⟩ := h.high (hdesc ▸ hd)
  refine ⟨_, q.startRecord s.cur e i false, hexec, ?_⟩
  rw [State.t, hme]
  rw [hqt] at h0 hgp hv htr0
  refine ⟨h1, h.inst, h0, hgp, hv, htr0, ?_⟩
  rw [CoreT.pc, CoreT.fir, h1, ← hdesc, ← himage]
  exact h.pc

end Issue

/-- Settles O43: the firing that an issue choice or a pre-emption starts. -/
theorem issueSteps : Obligations.IssueSteps := by
  unfold Obligations.IssueSteps
  refine fun s => ⟨fun e aged i hf hk hd ht hc hi => issueChoice_starts hf hk hd ht hc hi, fun hp => ?_,
    fun e i hp hk hi hd => preEmption_starts hp hk hi hd⟩
  change execPreEmption s = _
  rw [execPreEmption, hp]
  rfl

end Sys2Proof.Machine
end

section
/-! What the shared operations leave of a core without an open chunk or without a held firing, and of the canonical form of
memory: they give no core an open chunk or a held firing, and write memory byte by byte alone. -/
namespace Sys2Proof.Machine

-- One proof after another: the threads of many proofs at once do not fit the memory of the check.
set_option Elab.async false

/-- A core gets neither an open chunk nor a held firing. -/
structure Core.Shut (k l : Core) : Prop where
  chunk : k.chunk = none → l.chunk = none
  held : k.held = none → l.held = none

/-- No core gets an open chunk or a held firing, and memory keeps its canonical form. -/
structure State.Shut (s t : State) : Prop where
  core : ∀ c, (s.core c).Shut (t.core c)
  wf : Memory.wf s.mem = true → Memory.wf t.mem = true

section Cores
variable {k l m : Core}

theorem Core.Shut.refl (k : Core) : k.Shut k := ⟨id, id⟩

theorem Core.Shut.trans (a : k.Shut l) (b : l.Shut m) : k.Shut m := ⟨fun h => b.chunk (a.chunk h), fun h => b.held (a.held h)⟩

/-- A core whose chunk and held firing are mapped. -/
theorem Core.Shut.of_map {f : Chunk → Chunk} {g : Held → Held} (hc : l.chunk = k.chunk.map f) (hh : l.held = k.held.map g) : k.Shut l :=
  ⟨fun h => by rw [hc, h]; rfl, fun h => by rw [hh, h]; rfl⟩

theorem Core.Shut.of_eq (hc : l.chunk = k.chunk) (hh : l.held = k.held) : k.Shut l := ⟨hc.trans, hh.trans⟩

theorem Core.shut_both (k : Core) (f : CoreT → CoreT) : k.Shut (k.both f) := Core.Shut.of_map rfl rfl

theorem Core.shut_updRack (k : Core) (base : Nat) (f : Rack → Rack) : k.Shut (k.updRack base f) := by
  unfold Core.updRack
  split
  · exact Core.Shut.of_eq rfl rfl
  · exact Core.shut_both _ _

theorem Core.shut_setWaiting (k : Core) (level : Nat) (w : Waiting) : k.Shut (k.setWaiting level w) :=
  Core.Shut.of_eq (Core.setWaiting_chunk k level w) (Core.setWaiting_held k level w)

theorem Core.shut_setSquashes (k : Core) (level n : Nat) : k.Shut (k.setSquashes level n) := by
  unfold Core.setSquashes
  split <;> exact Core.Shut.of_eq rfl rfl

theorem Core.shut_settleSlots (k : Core) : k.Shut k.settleSlots := Core.shut_both _ _

theorem Core.shut_foldl {α : Type} (f : Core → α → Core) (hf : ∀ (k : Core) a, k.Shut (f k a)) (l : List α) (k : Core) :
    Core.Shut k (l.foldl f k) := by
  induction l generalizing k with
  | nil => exact Core.Shut.refl k
  | cons a l ih => exact (hf k a).trans (ih _)

theorem Core.shut_keepClaims (k : Core) (fir : Nat) : k.Shut (k.keepClaims fir) := by
  unfold Core.keepClaims
  refine Core.Shut.trans ?_ (Core.shut_foldl _ (fun k b => Core.shut_updRack k b _) _ _)
  exact Core.Shut.of_eq rfl rfl

theorem Core.shut_unheld (k : Core) : k.Shut k.unheld := by
  unfold Core.unheld
  split
  · exact Core.Shut.refl k
  · exact ⟨fun h => by dsimp only; rw [h]; rfl, fun _ => rfl⟩

theorem Core.shut_pendImprecise (k : Core) (c : Cause) (v : Word) (n : Nat) : k.Shut (k.pendImprecise c v n) := by
  unfold Core.pendImprecise
  split <;> exact Core.Shut.of_eq rfl rfl

theorem Core.shut_watchLand (k : Core) (kind src : Nat) (addrs : List Nat) : k.Shut (k.watchLand kind src addrs) := by
  have one (k : Core) (b : Bool) (o : Option Nat) (fir : Option Firing) : k.Shut (match fir with
      | none => k
      | some f => if b = true then k else match o with
        | none => k
        | some a => (k.both fun t => { t with watchRec := word (kind <<< 61 + src <<< 48 + a) }).pendImprecise .watchLanding
            (word (kind <<< 61 + src <<< 48 + a)) f.serial) := by
    split
    · exact Core.Shut.refl k
    · split
      · exact Core.Shut.refl k
      · split
        · exact Core.Shut.refl k
        · exact (Core.shut_both k _).trans (Core.shut_pendImprecise _ _ _ _)
  exact (one k _ _ _).trans (one _ _ _ _)

end Cores

section States
variable {s t u : State} {c : Nat}

theorem State.Shut.refl (s : State) : s.Shut s := ⟨fun _ => Core.Shut.refl _, id⟩

theorem State.Shut.trans (a : s.Shut t) (b : t.Shut u) : s.Shut u := ⟨fun c => (a.core c).trans (b.core c), fun h => b.wf (a.wf h)⟩

theorem State.shut_of_cores (h : t.cores = s.cores) (hm : t.mem = s.mem) : s.Shut t :=
  ⟨fun c => by rw [State.core, State.core, h]; exact Core.Shut.refl _, fun h' => by rw [hm]; exact h'⟩

variable (s c)

theorem State.shut_putCore (k : Core) (h : (s.core c).Shut k) : s.Shut (s.putCore c k) := by
  refine ⟨fun d => ?_, id⟩
  by_cases hd : d = c
  · rw [hd, State.putCore_core_self]
    exact h
  · rw [State.putCore_core_other _ _ _ _ hd]
    exact Core.Shut.refl _

theorem State.shut_updCore (f : Core → Core) (h : ∀ k : Core, k.Shut (f k)) : s.Shut (s.updCore c f) := s.shut_putCore c _ (h _)

theorem State.shut_both (f : CoreT → CoreT) : s.Shut (s.updCore c fun k => k.both f) := s.shut_updCore c _ fun k => k.shut_both f

theorem State.shut_updRack (b : Nat) (f : Rack → Rack) : s.Shut (s.updCore c fun k => k.updRack b f) :=
  s.shut_updCore c _ fun k => k.shut_updRack b f

theorem State.shut_updInst (i : Nat) (f : Inst → Inst) : s.Shut (s.updInst i f) :=
  State.shut_of_cores (State.updInst_cores _ _ _) (State.updInst_mem _ _ _)

theorem State.shut_foldl {α : Type} (f : State → α → State) (h : ∀ (s : State) a, s.Shut (f s a)) (l : List α) (s : State) :
    State.Shut s (l.foldl f s) := by
  induction l generalizing s with
  | nil => exact State.Shut.refl s
  | cons a l ih => exact (h s a).trans (ih _)

theorem State.shut_poke (w : List (Nat × Byte × Byte)) : s.Shut (s.poke w) := ⟨fun _ => Core.Shut.refl _, Memory.wf_writes w _⟩

theorem State.shut_replace (w : List (Nat × Byte × Byte)) : s.Shut (s.replace w) :=
  (s.shut_poke w).trans (State.shut_of_cores rfl rfl)

theorem State.shut_runq (f : List Entry → List Entry) : s.Shut (s.updCore c fun k => { k with runq := f k.runq }) :=
  s.shut_updCore c _ fun _ => Core.Shut.of_eq rfl rfl

theorem State.shut_wake (key : Nat) : s.Shut (s.wake key) := by
  unfold State.wake
  split
  · exact State.Shut.refl s
  · split
    · exact State.Shut.refl s
    · split
      · exact State.Shut.refl s
      · split
        · exact (State.shut_runq s _ fun l => l ++ _).trans (State.shut_updInst _ _ _)
        · exact State.Shut.refl s

theorem State.shut_wakeCore : s.Shut (s.wakeCore c) :=
  State.shut_foldl (fun (s : State) (p : Nat × Inst) => s.wake p.1) (fun s p => State.shut_wake s p.1) _ s

theorem State.shut_addCredit (inst p n : Nat) : s.Shut (s.addCredit inst p n) := by
  unfold State.addCredit
  split
  · exact State.Shut.refl s
  · exact State.shut_updInst s _ _

theorem State.shut_returnRoom (f : Firing) : s.Shut (s.returnRoom f) := by
  unfold State.returnRoom
  split
  · exact State.Shut.refl s
  · exact State.shut_foldl _ (fun s p => State.shut_addCredit s _ _ _) _ s

theorem State.shut_leaveSolo : s.Shut (s.leaveSolo c) := by
  unfold State.leaveSolo
  split
  · exact State.Shut.refl s
  · exact (State.shut_updCore s c (fun k => { k with solo := none }) fun _ => Core.Shut.of_eq rfl rfl).trans
      (State.shut_of_cores rfl rfl)

theorem State.shut_capture (base slot : Nat) : s.Shut (s.capture c base slot) := by
  unfold State.capture
  dsimp only
  split
  · exact State.Shut.refl s
  · split
    · exact State.Shut.refl s
    · exact State.shut_both s c _

theorem State.shut_fillNow (base n : Nat) : s.Shut (s.fillNow c base n) := by
  unfold State.fillNow
  dsimp only
  refine State.Shut.trans ?_ (State.shut_wakeCore _ c)
  refine State.Shut.trans ?_ (State.shut_updRack _ c base _)
  exact State.shut_foldl _ (fun s i => State.shut_capture s _ _ _) _ s

theorem State.shut_fillRack (base n : Nat) : s.Shut (s.fillRack c base n) := by
  unfold State.fillRack
  split
  · split
    · exact State.shut_updRack s c base _
    · exact State.shut_fillNow s c base n
  · exact State.shut_fillNow s c base n

theorem State.shut_fillWaiting (base : Nat) : s.Shut (s.fillWaiting c base) := by
  unfold State.fillWaiting
  split
  · exact State.Shut.refl s
  · split
    · exact State.Shut.refl s
    · exact (State.shut_updRack s c base _).trans (State.shut_fillNow _ c base _)

theorem State.shut_carry (l : List (Nat × Nat × Nat)) : s.Shut (s.carry l) :=
  (State.shut_replace s _).trans (State.shut_of_cores rfl rfl)

theorem State.shut_unsendRack (base key : Nat) : s.Shut (s.unsendRack c base key) := by
  unfold State.unsendRack
  split
  · exact State.Shut.refl s
  · dsimp only
    split
    · exact State.Shut.refl s
    · refine State.Shut.trans ?_ (State.shut_wakeCore _ _)
      refine State.Shut.trans ?_ (State.shut_runq _ _ _)
      exact (State.shut_carry s _).trans (State.shut_updRack _ c base _)

theorem State.shut_unsend (key : Nat) : s.Shut (s.unsend key) :=
  State.shut_foldl _ (fun s _ => State.shut_foldl _ (fun s _ => State.shut_unsendRack s _ _ _) _ s) _ s

theorem State.shut_resolved (inst : Nat) : s.Shut (s.resolved inst) := by
  refine ⟨fun c => ?_, id⟩
  exact FMap.get_map_rel Core.Shut Core.reset
    (fun k =>
      let drop (f : Firing) : Firing := { f with deps := f.deps.filter (· ≠ inst) }
      let k := k.both fun t => { t with fir0 := t.fir0.map drop }
      { k with held := k.held.map fun (h : Held) => { h with fir := drop h.fir } })
    (Core.Shut.refl _)
    (fun k => ⟨fun h => by simp [Core.both, h], fun h => by simp [Core.both, h]⟩) s.cores c

theorem State.shut_updCluster (f : Cluster → Cluster) : s.Shut (s.updCluster c f) := State.shut_of_cores rfl rfl

theorem State.shut_squash (counts : Bool) : s.Shut (s.squash c counts) := by
  unfold State.squash
  dsimp only
  split
  · exact State.Shut.refl s
  · rename_i ch hch
    have key (lv n : Nat) : (s.core c).Shut ((({ s.core c with t := ch.ckpt, chunk := none, held := if (!(s.core c).t.heldNow) = true
        then (s.core c).held else if (!ch.ckpt.heldNow) = true then none else (s.core c).held.map fun h => { h with shadow := ch.shadow } }
        : Core).settleSlots.setSquashes lv n).setWaiting lv Waiting.idle) := by
      refine Core.Shut.trans (Core.Shut.trans (Core.Shut.trans ?_ (Core.shut_settleSlots _)) (Core.shut_setSquashes _ _ _))
        (Core.shut_setWaiting _ _ _)
      refine ⟨fun _ => rfl, fun h => ?_⟩
      dsimp only
      rw [h]
      split
      · rfl
      · split <;> rfl
    split
    · refine State.Shut.trans (State.shut_putCore s c _ ?_) (State.shut_of_cores rfl rfl)
      exact (key _ _).trans (Core.Shut.of_eq rfl rfl)
    · exact State.shut_putCore s c _ (key _ _)

theorem State.shut_discard (level : Nat) : s.Shut (s.discard c level) := by
  unfold State.discard
  dsimp only
  split
  · exact State.Shut.refl s
  · rename_i f hf
    refine State.Shut.trans ?_ (State.shut_wakeCore _ _)
    refine State.Shut.trans ?_ (State.shut_updInst _ _ _)
    have key (k : Core) (hk : (s.core c).Shut k) (g : CoreT → CoreT) (l : List (Cause × Word × Nat)) : (s.core c).Shut
        (Core.thaw { (((k.setWaiting level Waiting.idle).setSquashes level 0).keepClaims f.serial).settleSlots.both g with pendImp := l } level) := by
      exact (((((hk.trans (Core.shut_setWaiting _ _ _)).trans (Core.shut_setSquashes _ _ _)).trans (Core.shut_keepClaims _ _)).trans
        (Core.shut_settleSlots _)).trans (Core.shut_both _ g)).trans (Core.Shut.of_eq rfl rfl)
    split
    · refine State.Shut.trans ?_ (State.shut_leaveSolo _ _)
      refine State.Shut.trans (State.shut_putCore s c _ ?_) (State.shut_returnRoom _ _)
      refine key _ ?_ _ _
      exact ⟨fun _ => rfl, id⟩
    · refine State.Shut.trans (State.shut_putCore s c _ ?_) (State.shut_returnRoom _ _)
      exact key _ (Core.Shut.refl _) _ _

theorem State.shut_knockDown (fuel : Nat) (s : State) (c : Nat) (conflict : Bool) : s.Shut (State.knockDown fuel s c conflict) := by
  induction fuel generalizing s c conflict with
  | zero => exact State.Shut.refl s
  | succ n ih =>
    unfold State.knockDown
    dsimp only
    split
    · exact State.Shut.refl s
    · rename_i h hh
      refine State.Shut.trans ?_ (State.shut_wakeCore _ _)
      refine State.Shut.trans ?_ (State.shut_foldl (fun (s : State) d => State.knockDown n s d false) (fun s d => ih s d _) _ _)
      have hfill (o : Option Nat) (s : State) : s.Shut (match o with | some b => s.fillWaiting c b | none => s) := by
        split
        · exact State.shut_fillWaiting _ _ _
        · exact State.Shut.refl s
      refine State.Shut.trans ?_ (hfill _ _)
      refine State.Shut.trans ?_ (State.shut_updCluster _ _ _)
      have hbar (s : State) (f : Inst → Inst) : s.Shut (if conflict = true then s.updInst h.fir.inst f else s) := by
        split
        · exact State.shut_updInst _ _ _
        · exact State.Shut.refl s
      refine State.Shut.trans ?_ (hbar _ _)
      refine State.Shut.trans ?_ (State.shut_resolved _ _)
      refine State.Shut.trans (State.shut_unsend s (h.fir.inst + 1)) ?_
      split
      · exact State.shut_updCore _ c _ fun k => (Core.shut_unheld k).trans (Core.shut_both _ _)
      · split
        · refine State.Shut.trans (State.shut_updCore _ c _ fun k => ?_) (State.shut_discard _ _ _)
          refine Core.Shut.trans ?_ (Core.shut_both _ _)
          refine Core.Shut.trans ?_ (Core.shut_unheld _)
          split
          · exact ⟨fun _ => rfl, id⟩
          · exact Core.Shut.refl k
        · refine State.Shut.trans ?_ (State.shut_updInst _ _ _)
          exact State.Shut.trans (State.shut_updCore _ c _ Core.shut_unheld) (State.shut_returnRoom _ _)

theorem State.shut_signal (scope u : Nat) (lines : List Nat) : s.Shut (s.signal scope u lines) := by
  unfold State.signal
  split
  · exact State.Shut.refl s
  · refine (State.shut_of_cores (s := s) (t := s.next) rfl rfl).trans (State.shut_foldl _ (fun s p => ?_) _ _)
    dsimp only
    split
    · exact State.Shut.refl s
    · have held : s.Shut (match (s.core p.1).held with
          | some h => if (h.chunks.any (fun ch => conflicts ch.rd lines s.fresh p.1) && !s.firmTurn p.1 h) = true
              then State.knockDown 8 s p.1 true else s
          | none => s) := by
        split
        · split
          · exact State.shut_knockDown _ _ _ _
          · exact State.Shut.refl s
        · exact State.Shut.refl s
      have opened (v : State) : v.Shut (match (v.core p.1).chunk with
          | some ch => if conflicts ch.rd lines v.fresh p.1 = true then v.squash p.1 true else v
          | none => v) := by
        split
        · split
          · exact State.shut_squash _ _ _
          · exact State.Shut.refl _
        · exact State.Shut.refl _
      exact held.trans (opened _)

theorem State.shut_latchChanged (n : Nat) : s.Shut (s.latchChanged c n) := by
  have held : s.Shut (match (s.core c).held with
      | some h => if h.chunks.any (fun (ch : Chunk) => ch.rd.contains (latchLine c n)) then State.knockDown 8 s c true else s
      | none => s) := by
    split
    · split
      · exact State.shut_knockDown _ _ _ _
      · exact State.Shut.refl s
    · exact State.Shut.refl s
  have opened (v : State) : v.Shut (match (v.core c).chunk with
      | some ch => if ch.rd.contains (latchLine c n) then v.squash c false else v
      | none => v) := by
    split
    · split
      · exact State.shut_squash _ _ _
      · exact State.Shut.refl _
    · exact State.Shut.refl _
  exact held.trans (opened _)

theorem State.shut_applyPost (p : Post) : s.Shut (s.applyPost p) := by
  have h : s.Shut (State.incremented p s) := s.shut_updCore p.core _ fun _ => Core.Shut.of_eq rfl rfl
  unfold State.applyPost
  split
  · exact h.trans (State.shut_latchChanged _ _ _)
  · exact h

theorem State.shut_completePost (cnt : Option (Nat × Nat)) (agent inc : Nat) (bad : Option (Nat × Nat × Nat)) :
    s.Shut (s.completePost cnt agent inc bad) := by
  unfold State.completePost
  split
  · split
    · exact State.Shut.refl s
    · exact s.shut_applyPost _
  · exact State.Shut.refl s

theorem State.shut_watchAll (kind src : Nat) (skip : Option Nat) (addrs : List Nat) : s.Shut (s.watchAll kind src skip addrs) :=
  State.shut_foldl _ (fun s _ => State.shut_updCore s _ _ fun k => Core.shut_watchLand k _ _ _) _ s

theorem State.shut_land (u scope kind src : Nat) (w : List (Nat × Byte × Byte)) : s.Shut (s.land u scope kind src w) :=
  ((s.shut_replace w).trans (State.shut_watchAll _ _ _ _ _)).trans (State.shut_signal _ _ _ _)

end States

end Sys2Proof.Machine
end

section
/-! Refutation of the statement on commits, glue-up and the tolerance compare. It holds a glue-up's memory to the held
chunks' stores in every state without a speculative token that a rack's record shows. A record that a table out of order
hides comes to light when an `Inst` ends in one held chunk, and the write signature of the next chunk then moves its
tokens (R315): the statement wants rack tables in order, or that no chunk follows the one that ends the firing. -/
namespace Sys2Proof.Machine

-- One proof after another: the threads of many proofs at once do not fit the memory of the check.
set_option Elab.async false

/-- A firing of an `Inst` that has executed ACTEND. -/
def endedFiring (inst : Nat) : Firing :=
  { inst := inst, part := 0, pri := 0, cls := 0, lo := 0, hi := 0, pc := 0, ran := 0, waited := 0, aged := false, entry := 0, drawn := 0,
    serial := inst, cycles := 0, draws := 0, sent := [], freed := [], actend := true, held := true, dry := none, ord := none, depth := 0,
    deps := [], down := false }

/-- A rack of two slots of 64 bytes. -/
def twoSlots (owner : Option Nat) (senders : List (Nat × Nat × Nat × Nat)) : Rack :=
  { sz := 0, cntm1 := 1, fill := 0, free := 0, nfill := senders.length, owner := owner, level := 0, port := none, mail := false, resv := [],
    senders := senders, owed := [], pend := 0, defer := 0, due := 0, wait := 0 }

/-- A held firing with chunks. -/
def heldWith (inst : Nat) (chunks : List Chunk) : Held := { heldOf (endedFiring inst) CoreT.reset with chunks := chunks }

/-- A chunk of a held firing. -/
def heldChunk (rd wr : List Nat) (eff : List Effect) : Chunk :=
  { Core.reset.newChunk with rd := rd, wr := wr, scope := 3, eff := eff, sealed := true }

/-- An `Inst` on core 0. -/
def placedInst : Inst :=
  { part := 0, lslot := 0, aidx := 0, num := 0, core := some 0, st := .home, atStep := false, busy := true, credit := [],
    block := 0, mail := [], since := none, noDry := none, barred := [], again := false, tables := [], fwd := none, dest := none,
    markers := [], forced := false }

/-- The chunks of the firing that glues up: the first one ends it, the second one writes line 0. -/
def gluedChunks : List Chunk := [heldChunk [] [] [.ends 0], heldChunk [] [0] []]

/-- Its core: the rack at 3 stands behind that at 5. -/
def gluedCore : Core :=
  let racks : FMap Rack := [(5, twoSlots (some 7) []), (3, twoSlots none [(0, 0, 9, 0), (0, 0, 0, 0)])]
  { Core.reset with racks := racks, held := some (heldWith 7 gluedChunks) }

/-- A core whose held firing has read line 0. -/
def readerCore : Core := { Core.reset with held := some (heldWith 8 [heldChunk [0] [] []]) }

/-- Core 0 glues up. Its rack table is out of order, as no run leaves one: the record at 3, which holds a speculative token
of core 1's firing before a token at 0x100000000100, is found only once the one at 5 has gone with its `Inst`. -/
def hiddenRack : State :=
  { State.reset with insts := [(7, placedInst)], cores := [(0, gluedCore), (1, readerCore)], mem := [(0x100000000100, 1#8)] }

/-- A byte after an outcome. -/
def byteAfter (a : Nat) (o : Host.Outcome State Fault Refusal) : Byte :=
  match o with
  | .next t => t.byte a
  | _ => 0#8

theorem hiddenRack_noSpec : hiddenRack.NoSpec := by
  intro c base r hr x hx
  by_cases h0 : c = 0
  · subst h0
    change FMap.find? gluedCore.racks base = some r at hr
    rw [gluedCore, FMap.find?] at hr
    split at hr
    · cases hr
      cases hx
    · split at hr
      · cases hr
      · rw [FMap.find?, if_neg (by omega), if_neg (by omega)] at hr
        cases hr
  · have hnone : (hiddenRack.core c).racks = [] := by
      rw [State.core, hiddenRack, FMap.get, if_neg h0, if_neg (by omega), FMap.get]
      split
      · rfl
      · split <;> rfl
    rw [hnone] at hr
    cases hr

/-- The token that stood second has moved up. -/
theorem hiddenRack_moved : byteAfter 0x1000000000C0 (exec .glueUp hiddenRack) = 1#8 := by decide +kernel

/-- Refutes O44: in `hiddenRack` no record that is found holds a speculative token, and the held chunks store nothing, yet
the glue-up leaves another byte at 0x1000000000C0. -/
theorem not_resolutionSteps : ¬ Obligations.ResolutionSteps := by
  unfold Obligations.ResolutionSteps
  intro h
  obtain ⟨-, -, hglue, -⟩ := h hiddenRack
  obtain ⟨hmay, -⟩ := hglue (heldWith 7 gluedChunks) rfl
  obtain ⟨t, hexec, -, hfits, -⟩ := hmay (by decide +kernel)
  obtain ⟨-, hmem⟩ := hfits (by decide +kernel)
  have hbyte : t.byte 0x1000000000C0 = hiddenRack.byte 0x1000000000C0 := congrArg (FMap.get 0#8 · 0x1000000000C0) (hmem hiddenRack_noSpec)
  have hmoved := hiddenRack_moved
  rw [hexec, byteAfter, hbyte] at hmoved
  exact absurd hmoved (by decide +kernel)

end Sys2Proof.Machine
end

section
/-! Proof of the statement on kiln budgets and the thermal limit (R5, R104-R107). -/
namespace Sys2Proof.Machine

-- One proof after another: the threads of many proofs at once do not fit the memory of the check.
set_option Elab.async false

/-! ### Tables that are built in one pass -/

/-- A table with one row for each key of an ordered list. -/
theorem FMap.get_map_span {V : Type} (d : V) (f : Nat → V) (a n : Nat) (l : FMap V) {k : Nat} (h : a ≤ k ∧ k < a + n) :
    FMap.get d ((span a n).map (fun i => (i, f i)) ++ l) k = f k := by
  induction n generalizing a with
  | zero => omega
  | succ n ih =>
    rw [span, List.map_cons, List.cons_append, FMap.get]
    split
    · rw [‹k = a›]
    · rw [if_neg (by omega)]
      exact ih (a + 1) (by omega)

theorem FMap.get_map_span_above {V : Type} (d : V) (f : Nat → V) (a n : Nat) (l : FMap V) {k : Nat} (h : a + n ≤ k) :
    FMap.get d ((span a n).map (fun i => (i, f i)) ++ l) k = FMap.get d l k := by
  induction n generalizing a with
  | zero => rfl
  | succ n ih =>
    rw [span, List.map_cons, List.cons_append, FMap.get, if_neg (by omega), if_neg (by omega)]
    exact ih (a + 1) (by omega)

/-- What a key holds that a list of puts names, always with the same value. -/
theorem FMap.get_foldl_put_fun {V : Type} (d : V) (g : Nat × Nat → V) (l : List (Nat × Nat)) (m : FMap V) (k : Nat) (v : V)
    (hl : ∀ p ∈ l, p.1 = k → g p = v) (h : FMap.get d m k = v ∨ ∃ p ∈ l, p.1 = k) :
    FMap.get d (l.foldl (fun m p => FMap.put m p.1 (g p)) m) k = v := by
  induction l generalizing m with
  | nil =>
    obtain h | ⟨p, hp, -⟩ := h
    · exact h
    · cases hp
  | cons p l ih =>
    rw [List.forall_mem_cons] at hl
    refine ih _ hl.2 ?_
    dsimp only
    by_cases hk : p.1 = k
    · rw [hk, FMap.get_put_self]
      exact .inl (hl.1 hk)
    · rw [FMap.get_put_other _ _ _ _ _ (Ne.symm hk)]
      obtain h | ⟨q, hq, hqk⟩ := h
      · exact .inl h
      · obtain rfl | hq := List.mem_cons.1 hq
        · exact absurd hqk hk
        · exact .inr ⟨q, hq, hqk⟩

theorem FMap.get_of_find {V : Type} (d : V) {m : FMap V} {k : Nat} {v : V} (h : FMap.find? m k = some v) :
    FMap.get d m k = v ∧ (k, v) ∈ m := by
  induction m with
  | nil => cases h
  | cons p r ih =>
    obtain ⟨k', v'⟩ := p
    rw [FMap.find?] at h
    rw [FMap.get]
    split at h
    · rename_i hk
      subst hk
      obtain rfl := Option.some.inj h
      exact ⟨if_pos rfl, List.mem_cons_self ..⟩
    · rename_i hk
      split at h
      · cases h
      · rename_i hlt
        rw [if_neg hk, if_neg hlt]
        exact ⟨(ih h).1, List.mem_cons_of_mem _ (ih h).2⟩

/-- Every cluster of the package has its row. -/
theorem FMap.get_allClusters {V : Type} (d : V) (f : Nat → V) {cl : Nat} (h : cl ∈ allClusters) :
    FMap.get d (allClusters.map fun cl => (cl, f cl)) cl = f cl := by
  have hsplit : allClusters = span 0 92 ++ (span 128 92 ++ (span 256 92 ++ (span 384 92 ++ []))) := by
    simp [allClusters, span]
  rw [hsplit] at h ⊢
  simp only [List.mem_append, mem_span, List.not_mem_nil, or_false] at h
  simp only [List.map_append, List.map_nil]
  obtain h | h | h | h := h
  · exact FMap.get_map_span d f 0 92 _ h
  · rw [FMap.get_map_span_above d f 0 92 _ (by omega)]
    exact FMap.get_map_span d f 128 92 _ h
  · rw [FMap.get_map_span_above d f 0 92 _ (by omega), FMap.get_map_span_above d f 128 92 _ (by omega)]
    exact FMap.get_map_span d f 256 92 _ h
  · rw [FMap.get_map_span_above d f 0 92 _ (by omega), FMap.get_map_span_above d f 128 92 _ (by omega),
      FMap.get_map_span_above d f 256 92 _ (by omega)]
    exact FMap.get_map_span d f 384 92 _ h

/-! ### Rates and plans (R5, R104) -/

section Plan
variable {s : State} {dies clusters : List (Nat × Nat)}

theorem foldl_max_le (l : List Nat) (a : Nat) : a ≤ l.foldl max a ∧ ∀ x ∈ l, x ≤ l.foldl max a := by
  induction l generalizing a with
  | nil => exact ⟨Nat.le_refl a, fun x hx => absurd hx List.not_mem_nil⟩
  | cons y l ih =>
    obtain ⟨h1, h2⟩ := ih (max a y)
    rw [List.forall_mem_cons]
    exact ⟨(Nat.le_max_left a y).trans h1, (Nat.le_max_right a y).trans h1, h2⟩

theorem kilnUnits_eq (cls : Nat) : kilnUnits cls = 2 * 4 ^ min cls 3 := by
  match cls with
  | 0 | 1 | 2 => rfl
  | n + 3 => rw [Nat.min_eq_right (by omega)]; rfl

theorem freeRate_le_freeDraws {c : Nat} {k : Core} (h : (c, k) ∈ s.cores) : 13 * s.freeRate c ≤ s.freeDraws (dieOf c) := by
  have key (l : List (Nat × Core)) (n : Nat) :
      n ≤ l.foldl (fun n (p : Nat × Core) => if dieOf p.1 = dieOf c then n + 13 * s.freeRate p.1 else n) n ∧
      ((c, k) ∈ l → 13 * s.freeRate c ≤
        l.foldl (fun n (p : Nat × Core) => if dieOf p.1 = dieOf c then n + 13 * s.freeRate p.1 else n) n) := by
    induction l generalizing n with
    | nil => exact ⟨Nat.le_refl n, fun h => absurd h List.not_mem_nil⟩
    | cons p l ih =>
      obtain ⟨h1, h2⟩ := ih (if dieOf p.1 = dieOf c then n + 13 * s.freeRate p.1 else n)
      refine ⟨Nat.le_trans ?_ h1, fun hm => ?_⟩
      · split
        · exact Nat.le_add_right _ _
        · exact Nat.le_refl n
      · obtain rfl | hm := List.mem_cons.1 hm
        · rw [if_pos rfl] at h1
          rw [List.foldl_cons, if_pos rfl]
          exact Nat.le_trans (Nat.le_add_left (13 * s.freeRate c) n) h1
        · exact h2 hm
  exact (key s.cores 0).2 h

theorem freeRate_idle {c : Nat} (h0 : (s.core c).t.fir0 = none) (h1 : (s.core c).t.fir1 = none) (hq : (s.core c).runq = [])
    (hp : s.placedOn c = []) : s.freeRate c = 0 := by
  unfold State.freeRate
  dsimp only
  rw [h0, h1, hq, hp]
  rfl

/-- A firing that the kiln does not gate counts in its core's rate. -/
theorem le_freeRate {c : Nat} {f : Firing} (hf : (s.core c).t.fir0 = some f ∨ (s.core c).t.fir1 = some f)
    (h : f.pri = 1 ∨ f.aged = true ∨ f.cls = 0) : 2 * 4 ^ min f.cls 3 ≤ s.freeRate c := by
  rw [← kilnUnits_eq]
  refine (foldl_max_le _ 0).2 _ (List.mem_append_left _ (List.mem_append_left _ (List.mem_filterMap.2 ⟨f, ?_, ?_⟩)))
  · obtain hf | hf := hf
    · exact List.mem_append_left _ (by rw [hf]; exact List.mem_singleton_self f)
    · exact List.mem_append_right _ (by rw [hf]; exact List.mem_singleton_self f)
  · refine if_pos ?_
    obtain h | h | h := h <;> simp [h]

/-- The dies of a plan, in order. -/
theorem mem_zip_span {x : Nat × Nat} {d : Nat} (h : dies[d]? = some x) (hl : dies.length = 4) : (x, d) ∈ dies.zip (span 0 4) := by
  obtain ⟨hd, rfl⟩ := List.getElem?_eq_some_iff.1 h
  have hs : (span 0 4)[d]? = some d := by
    rw [getElem?_span, if_pos (by omega), Nat.zero_add]
  refine List.mem_iff_getElem?.2 ⟨d, ?_⟩
  unfold List.zip
  rw [List.getElem?_zipWith, List.getElem?_eq_getElem hd, hs]

theorem kilnPlanOk_reserve {d : Nat} {x : Nat × Nat} (h : dies[d]? = some x) (hx : x.2 = 0 ∨ x.2 < s.freeDraws d) :
    s.kilnPlanOk dies clusters = false := by
  rw [Bool.eq_false_iff]
  intro hok
  unfold State.kilnPlanOk at hok
  simp only [Bool.and_eq_true, decide_eq_true_eq, List.all_eq_true] at hok
  obtain ⟨⟨⟨hl, hres⟩, -⟩, -⟩ := hok
  have := hres _ (mem_zip_span h hl)
  dsimp only at this
  omega

theorem kilnPlanOk_cap (h : capUnits s.hub.cap < dies.foldl (fun n p => n + p.1 + p.2) 0) : s.kilnPlanOk dies clusters = false := by
  rw [Bool.eq_false_iff]
  intro hok
  unfold State.kilnPlanOk at hok
  simp only [Bool.and_eq_true, decide_eq_true_eq, List.all_eq_true] at hok
  obtain ⟨⟨-, hcap⟩, -⟩ := hok
  omega

theorem kilnPlanOk_length (h : s.kilnPlanOk dies clusters = true) : dies.length = 4 := by
  unfold State.kilnPlanOk at h
  simp only [Bool.and_eq_true, decide_eq_true_eq] at h
  exact h.1.1.1

end Plan

/-! ### A microsecond's replenishment (R104, R107) -/

section Cluster
variable {k : Cluster} {al : List (Nat × Nat)}

/-- An empty record. -/
def Kiln.none : Kiln := ⟨0, 0, 0, false⟩

theorem Cluster.replenish_kiln (p a : Nat) (h : ∀ q ∈ al, q.1 = p → q.2 = a) (hp : ∃ q ∈ al, q.1 = p) :
    FMap.get Kiln.none (k.replenish al).kilns p = (FMap.get Kiln.none k.kilns p).replenish a := by
  refine FMap.get_foldl_put_fun Kiln.none (fun q => (FMap.get Kiln.none k.kilns q.1).replenish q.2) al [] p _ (fun q hq hqp => ?_) (.inr hp)
  rw [hqp, h q hq hqp]

theorem Cluster.replenish_none (p : Nat) (h : ∀ q ∈ al, q.1 ≠ p) : FMap.get Kiln.none (k.replenish al).kilns p = Kiln.none :=
  FMap.get_foldl_put_fun Kiln.none (fun q => (FMap.get Kiln.none k.kilns q.1).replenish q.2) al [] p _
    (fun q hq hqp => absurd hqp (h q hq)) (.inl rfl)

theorem Cluster.holdAllot_kiln {p : Nat} {x : Kiln} (h : FMap.find? k.kilns p = some x) :
    FMap.get Kiln.none k.holdAllot.kilns p = x.replenish x.allot := by
  obtain ⟨hget, hmem⟩ := FMap.get_of_find Kiln.none h
  have h := Cluster.replenish_kiln (k := k) (al := (k.kilns.map (·.1)).dedup.map fun p => (p, (FMap.get Kiln.none k.kilns p).allot))
    p x.allot (fun q hq hqp => ?_) ⟨(p, _), List.mem_map.2 ⟨p, ?_, rfl⟩, rfl⟩
  · exact h.trans (by rw [hget])
  · obtain ⟨r, -, rfl⟩ := List.mem_map.1 hq
    obtain rfl : r = p := hqp
    exact congrArg Kiln.allot hget
  · exact List.mem_dedup.2 (List.mem_map.2 ⟨(p, x), hmem, rfl⟩)

variable {s : State} {cl a : Nat}

/-- A partition has one share in a cluster. -/
theorem State.sharers_unique {p v w : Nat} (hv : (p, v) ∈ s.sharers cl) (hw : (p, w) ∈ s.sharers cl) : v = w := by
  unfold State.sharers at hv hw
  obtain ⟨q, -, hq⟩ := List.mem_map.1 hv
  obtain ⟨r, -, hr⟩ := List.mem_map.1 hw
  cases hq
  cases hr
  rfl

theorem State.splitAllot_share {p w : Nat} (hw : (p, w) ∈ s.sharers cl) (hsum : (s.sharers cl).foldl (fun n p => n + p.2) 0 ≠ 0) :
    (∀ q ∈ s.splitAllot cl a, q.1 = p → q.2 = a * w / (s.sharers cl).foldl (fun n p => n + p.2) 0) ∧
      ∃ q ∈ s.splitAllot cl a, q.1 = p := by
  have heq : s.splitAllot cl a = (s.sharers cl).map fun p => (p.1, a * p.2 / (s.sharers cl).foldl (fun n p => n + p.2) 0) := by
    unfold State.splitAllot
    exact if_pos hsum
  rw [heq]
  refine ⟨fun q hq hqp => ?_, _, List.mem_map.2 ⟨_, hw, rfl⟩, rfl⟩
  obtain ⟨⟨r, v⟩, hr, rfl⟩ := List.mem_map.1 hq
  obtain rfl : r = p := hqp
  rw [State.sharers_unique hr hw]

/-- Only sharers get a part. -/
theorem State.splitAllot_fst {q : Nat × Nat} (hq : q ∈ s.splitAllot cl a) : ∃ w, (q.1, w) ∈ s.sharers cl := by
  unfold State.splitAllot at hq
  dsimp only at hq
  split at hq
  · obtain ⟨r, hr, rfl⟩ := List.mem_map.1 hq
    exact ⟨r.2, hr⟩
  · have key (l : List (Nat × Nat)) (f : List (Nat × Nat) × Nat → Nat × Nat → Nat) (g : List (Nat × Nat) × Nat → Nat × Nat → Nat)
        (x : List (Nat × Nat) × Nat) (h : q ∈ (l.foldl (fun x p => (x.1 ++ [(p.1, f x p)], g x p)) x).1) :
        q ∈ x.1 ∨ ∃ w, (q.1, w) ∈ l := by
      induction l generalizing x with
      | nil => exact .inl h
      | cons p l ih =>
        obtain h | ⟨w, hw⟩ := ih _ h
        · obtain h | h := List.mem_append.1 h
          · exact .inl h
          · obtain rfl := List.mem_singleton.1 h
            exact .inr ⟨p.2, List.mem_cons_self ..⟩
        · exact .inr ⟨w, List.mem_cons_of_mem _ hw⟩
    obtain h | h := key _ (fun x p => (Config.freeXval (s.fresh * 65536 + p.1)).toNat % (x.2 + 1)) _ _ hq
    · cases h
    · exact h

/-- The allotment of a cluster by a plan. A hot die's clusters get nothing. -/
def State.given (s : State) (clusters : List (Nat × Nat)) (cl : Nat) : Nat :=
  if (s.die (cl / 128)).hot then 0 else match clusters.find? (fun q => q.1 = cl) with | some q => q.2 | none => 0

theorem State.replenished_eq (clusters : List (Nat × Nat)) : s.replenished clusters cl =
    if s.hub.switching.contains (cl / 128) then (s.cluster cl).holdAllot
    else (s.cluster cl).replenish (s.splitAllot cl (s.given clusters cl)) := rfl

theorem State.replenished_scale (clusters : List (Nat × Nat)) :
    (s.replenished clusters cl).scale = scaleAfter (s.cluster cl).scale ((s.cluster cl).kilns.map (·.2)) := by
  unfold State.replenished
  dsimp only
  split <;> rfl

end Cluster

/-! ### The steps -/

section Steps
variable {s : State}

theorem kilnReplenishment_refused (h : s.kilnPlanOk (pairsOf (s.args.take 8)) (pairsOf (s.args.drop 8)) = false) :
    exec .kilnReplenishment s = .next s := by
  change execKilnReplenishment s = _
  rw [execKilnReplenishment]
  dsimp only
  rw [h]
  rfl

/-- The budgets of the dies after a plan. -/
theorem State.foldl_budget (l : List (Nat × Nat)) (a : Nat) (t : State) (d : Nat) :
    (∀ x, a ≤ d → l[d - a]? = some x → (((l.zip (span a l.length)).foldl
      (fun (s : State) p => s.updDie p.2 fun d => { d with budget := p.1.1 }) t).die d).budget = x.1) ∧
    (d < a → (((l.zip (span a l.length)).foldl (fun (s : State) p => s.updDie p.2 fun d => { d with budget := p.1.1 }) t).die d) = t.die d) := by
  induction l generalizing a t with
  | nil => exact ⟨fun x _ h => (by cases h), fun _ => rfl⟩
  | cons y l ih =>
    rw [List.length_cons, span, List.zip_cons_cons, List.foldl_cons]
    obtain ⟨h1, h2⟩ := ih (a + 1) (t.updDie a fun d => { d with budget := y.1 })
    refine ⟨fun x ha hx => ?_, fun hd => ?_⟩
    · obtain rfl | hlt := Nat.eq_or_lt_of_le ha
      · rw [Nat.sub_self, List.getElem?_cons_zero] at hx
        cases hx
        rw [h2 (Nat.lt_succ_self _), State.updDie_die_self]
      · refine h1 x hlt ?_
        rwa [show d - a = d - (a + 1) + 1 by omega, List.getElem?_cons_succ] at hx
    · rw [h2 (Nat.lt_succ_of_lt hd), State.updDie_die_other _ _ _ _ (by omega)]

theorem State.foldl_budget_clusters (l : List ((Nat × Nat) × Nat)) (t : State) :
    (l.foldl (fun (s : State) p => s.updDie p.2 fun d => { d with budget := p.1.1 }) t).clusters = t.clusters := by
  induction l generalizing t with
  | nil => rfl
  | cons p l ih => exact ih _

theorem kilnReplenishment_replenishes (h : s.kilnPlanOk (pairsOf (s.args.take 8)) (pairsOf (s.args.drop 8)) = true) :
    ∃ t, exec .kilnReplenishment s = .next t ∧
      (∀ d x, (pairsOf (s.args.take 8))[d]? = some x → (t.die d).budget = x.1) ∧
      ∀ cl ∈ allClusters, t.cluster cl = s.replenished (pairsOf (s.args.drop 8)) cl := by
  refine ⟨((pairsOf (s.args.take 8)).zip (span 0 4)).foldl (fun (s : State) p => s.updDie p.2 fun d => { d with budget := p.1.1 })
    { s.next with clusters := allClusters.map fun cl => (cl, s.replenished (pairsOf (s.args.drop 8)) cl) }, ?_,
    fun d x hx => ?_, fun cl hcl => ?_⟩
  · change execKilnReplenishment s = _
    rw [execKilnReplenishment]
    dsimp only
    rw [h, if_neg (by decide)]
  · have hb := (State.foldl_budget (pairsOf (s.args.take 8)) 0
      { s.next with clusters := allClusters.map fun cl => (cl, s.replenished (pairsOf (s.args.drop 8)) cl) } d).1 x (Nat.zero_le d) hx
    rwa [kilnPlanOk_length h] at hb
  · rw [State.cluster, State.foldl_budget_clusters]
    exact FMap.get_allClusters _ _ hcl

/-- A kiln after a draw. -/
def Kiln.drawn (x : Kiln) (units : Nat) : Kiln := { x with budget := x.budget - units, hit0 := x.hit0 || x.budget ≤ units }

/-- A draw takes the partition's units, and a firing with the number counts them. -/
theorem State.draw_kiln (c part fir units : Nat) :
    ((s.draw c part fir units).kiln c part).budget = (s.kiln c part).budget - units := by
  let f (k : Cluster) : Cluster := { k with kilns := FMap.upd Kiln.none k.kilns part (·.drawn units) }
  have h : (s.draw c part fir units).cluster (clusterOf c) = f (s.cluster (clusterOf c)) := State.updCluster_cluster_self s (clusterOf c) f
  rw [State.kiln, h]
  exact congrArg Kiln.budget (FMap.get_upd_self Kiln.none (s.cluster (clusterOf c)).kilns part (·.drawn units))

theorem State.draw_fir {f : Firing} (part units : Nat) (hf : s.t.fir = some f) :
    (s.draw s.cur part f.serial units).t.fir = some { f with drawn := f.drawn + units } := by
  have ht : (s.draw s.cur part f.serial units).t = { s.t with
      fir0 := s.t.fir0.map fun g => if g.serial = f.serial then { g with drawn := g.drawn + units } else g
      fir1 := s.t.fir1.map fun g => if g.serial = f.serial then { g with drawn := g.drawn + units } else g } :=
    congrArg Core.t (State.updCore_core_self _ s.cur _)
  unfold CoreT.fir at hf
  rw [ht, CoreT.fir]
  dsimp only
  split at hf
  · rw [hf]
    simp
  · rename_i h1
    rw [Option.not_isSome_iff_eq_none] at h1
    rw [h1, hf]
    simp

theorem kilnDraw_draws {f : Firing} (hf : s.t.fir = some f) (hcls : f.cls < 4) :
    (f.cycles < 64 * (f.draws + 1) → exec .kilnDraw s = .next s) ∧
    (64 * (f.draws + 1) ≤ f.cycles → ∃ t g, exec .kilnDraw s = .next t ∧
      (t.kiln s.cur f.part).budget = (s.kiln s.cur f.part).budget - 2 * 4 ^ f.cls ∧
      t.t.fir = some g ∧ g.drawn = f.drawn + 2 * 4 ^ f.cls ∧ g.draws = f.draws + 1) := by
  have hunits : kilnUnits f.cls = 2 * 4 ^ f.cls := by rw [kilnUnits_eq, Nat.min_eq_left (by omega)]
  have hexec : exec .kilnDraw s = if !f.drawDue then .next s else
      .next ((s.updMe fun k => k.both fun t => t.updFir fun f => { f with draws := f.draws + 1 }).draw s.cur f.part f.serial
        (kilnUnits f.cls)) := by
    change execKilnDraw s = _
    rw [execKilnDraw, hf]
    rfl
  refine ⟨fun h => ?_, fun h => ?_⟩
  · rw [hexec, Firing.drawDue, decide_eq_false (by omega)]
    rfl
  · let q : State := s.updMe fun k => k.both fun t => t.updFir fun f => { f with draws := f.draws + 1 }
    have hq : q.t.fir = some { f with draws := f.draws + 1 } := by
      change (State.updMe _ _).t.fir = _
      rw [State.updMe_t]
      change (s.t.updFir _).fir = _
      rw [CoreT.updFir_fir, hf]
      rfl
    refine ⟨q.draw q.cur f.part f.serial (kilnUnits f.cls), _, ?_, ?_, State.draw_fir (s := q) (f := { f with draws := f.draws + 1 }) f.part
      (kilnUnits f.cls) hq, ?_, rfl⟩
    · rw [hexec, Firing.drawDue, decide_eq_true h]
      rfl
    · refine (q.draw_kiln s.cur f.part f.serial (kilnUnits f.cls)).trans ?_
      rw [hunits]
      rfl
    · rw [hunits]

theorem thermalLimit_heats (h : (s.die (s.arg 0)).hot = false) :
    ∃ t, exec .thermalLimit s = .next t ∧ (t.die (s.arg 0)).hot = true ∧
      t.net.length = s.net.length + (s.partsOn (s.arg 0)).length := by
  have told (l : List Nat) (t : State) : (l.foldl (fun (s : State) p => s.tellSup 0 p [Cause.thermalLimit.code]) t).dies = t.dies ∧
      (l.foldl (fun (s : State) p => s.tellSup 0 p [Cause.thermalLimit.code]) t).net.length = t.net.length + l.length := by
    induction l generalizing t with
    | nil => exact ⟨rfl, rfl⟩
    | cons p l ih =>
      obtain ⟨h1, h2⟩ := ih (t.tellSup 0 p [Cause.thermalLimit.code])
      refine ⟨h1, h2.trans ?_⟩
      rw [List.length_cons, State.tellSup, State.sendPkt, List.length_append, List.length_singleton]
      change t.net.length + 1 + l.length = _
      omega
  obtain ⟨h1, h2⟩ := told (s.partsOn (s.arg 0)) (s.updDie (s.arg 0) fun d => { d with hot := true })
  refine ⟨_, ?_, ?_, h2⟩
  · change execThermalLimit s = _
    rw [execThermalLimit, h, if_neg Bool.false_ne_true]
  · rw [State.die, h1]
    exact congrArg Die.hot (State.updDie_die_self s (s.arg 0) fun d => { d with hot := true })

end Steps

/-- Settles O45: budgets, draws and the thermal limit, each by its step. -/
theorem kilnSteps : Obligations.KilnSteps := by
  unfold Obligations.KilnSteps
  intro s dies clusters kiln
  refine ⟨kilnReplenishment_refused, fun d x hd hx => kilnReplenishment_refused (kilnPlanOk_reserve hd hx),
    fun h => kilnReplenishment_refused (kilnPlanOk_cap h), fun c k h => freeRate_le_freeDraws h,
    fun c h0 h1 hq hp => freeRate_idle h0 h1 hq hp, fun c f hf h => le_freeRate hf h, fun hok => ?plan,
    fun f hf hcls => kilnDraw_draws hf hcls, fun x r hx => ?macs, thermalLimit_heats, ?clear⟩
  case plan =>
    obtain ⟨t, hexec, hbudget, hclusters⟩ := kilnReplenishment_replenishes hok
    refine ⟨t, hexec, hbudget, fun cl hcl => ?_⟩
    have hcl' := hclusters cl hcl
    refine ⟨by rw [hcl']; exact State.replenished_scale _, fun hsw => ⟨fun p w hw hsum => ?_, fun p hp => ?_⟩, fun hsw p k hk => ?_⟩
    · obtain ⟨h1, h2⟩ := State.splitAllot_share (a := s.given clusters cl) hw hsum
      have h : FMap.get Kiln.none (t.cluster cl).kilns p = (FMap.get Kiln.none (s.cluster cl).kilns p).replenish
          (s.given clusters cl * w / (s.sharers cl).foldl (fun n p => n + p.2) 0) := by
        rw [hcl', State.replenished_eq, if_neg (by rw [hsw]; decide)]
        exact Cluster.replenish_kiln p _ h1 h2
      exact h
    · have h : FMap.get Kiln.none (t.cluster cl).kilns p = Kiln.none := by
        rw [hcl', State.replenished_eq, if_neg (by rw [hsw]; decide)]
        refine Cluster.replenish_none p fun q hq hqp => ?_
        obtain ⟨w, hw⟩ := State.splitAllot_fst hq
        exact hp w (hqp ▸ hw)
      change (FMap.get Kiln.none (t.cluster cl).kilns p).budget = 0 ∧ (FMap.get Kiln.none (t.cluster cl).kilns p).allot = 0
      rw [h]
      exact ⟨rfl, rfl⟩
    · change FMap.get Kiln.none (t.cluster cl).kilns p = _
      rw [hcl', State.replenished_eq, if_pos hsw]
      exact Cluster.holdAllot_kiln hk
  case macs =>
    refine ⟨(s.updEng s.cur fun g => { g with due := r }).draw s.cur x.part x.fir x.units, ?_, ?_, State.draw_kiln _ _ _ _⟩
    · change execMacCountDraw s = _
      rw [execMacCountDraw, hx]
    · refine (congrArg (fun k : Core => k.eng.due) (State.updCore_core_self _ s.cur _)).trans ?_
      exact congrArg (fun k : Core => k.eng.due) (State.updEng_core_self (s := s) (c := s.cur) (f := fun g => { g with due := r }))
  case clear => exact ⟨_, rfl, congrArg Die.hot (State.updDie_die_self s (s.arg 0) fun d => { d with hot := false }), rfl⟩

end Sys2Proof.Machine
end

section
/-! Proof of the statement on message delivery, the overflow rings and the message window (R14, R16, R91, R92, R110). -/
namespace Sys2Proof.Machine

-- One proof after another: the threads of many proofs at once do not fit the memory of the check.
set_option Elab.async false

section
variable {s t u : State} {c : Nat}

/-! ### What waking an `Inst` leaves alone -/

/-- No record of a rack, no byte of memory, no packet and no die's table is changed. -/
structure State.RacksStay (s t : State) : Prop where
  mem : t.mem = s.mem
  net : t.net = s.net
  dies : t.dies = s.dies
  rack : ∀ d b, (t.core d).rack? b = (s.core d).rack? b

theorem State.RacksStay.refl (s : State) : s.RacksStay s := ⟨rfl, rfl, rfl, fun _ _ => rfl⟩

theorem State.RacksStay.trans (a : s.RacksStay t) (b : t.RacksStay u) : s.RacksStay u :=
  ⟨b.mem.trans a.mem, b.net.trans a.net, b.dies.trans a.dies, fun d x => (b.rack d x).trans (a.rack d x)⟩

theorem State.racksStay_foldl {α : Type} {f : State → α → State} (h : ∀ (s : State) a, s.RacksStay (f s a)) (l : List α) (s : State) :
    s.RacksStay (l.foldl f s) := by
  induction l generalizing s with
  | nil => exact .refl s
  | cons a l ih => exact (h s a).trans (ih _)

theorem State.racksStay_updCore {f : Core → Core} (h : ∀ b, (f (s.core c)).rack? b = (s.core c).rack? b) : s.RacksStay (s.updCore c f) := by
  refine ⟨rfl, rfl, rfl, fun d b => ?_⟩
  by_cases hd : d = c
  · rw [hd, State.updCore_core_self]
    exact h b
  · rw [State.updCore_core_other _ _ _ _ hd]

theorem State.racksStay_runq (s : State) (c : Nat) (f : List Entry → List Entry) : s.RacksStay (s.updCore c fun k => { k with runq := f k.runq }) :=
  State.racksStay_updCore fun _ => rfl

theorem State.racksStay_updInst (n : Nat) (f : Inst → Inst) : s.RacksStay (s.updInst n f) :=
  ⟨State.updInst_mem _ _ _, State.updInst_net _ _ _, State.updInst_dies _ _ _, fun d b => by rw [State.updInst_core]⟩

theorem State.racksStay_wake (key : Nat) : s.RacksStay (s.wake key) := by
  unfold State.wake
  split
  · exact .refl s
  · split
    · exact .refl s
    · split
      · exact .refl s
      · split
        · exact (State.racksStay_runq s _ fun l => l ++ _).trans (State.racksStay_updInst _ _)
        · exact .refl s

theorem State.racksStay_wakeCore (s : State) (c : Nat) : s.RacksStay (s.wakeCore c) :=
  State.racksStay_foldl (f := fun (s : State) (p : Nat × Inst) => s.wake p.1) (fun _ p => State.racksStay_wake p.1) _ s

theorem Core.watchLand_rack (k : Core) (kind src : Nat) (addrs : List Nat) (b : Nat) : (k.watchLand kind src addrs).rack? b = k.rack? b := by
  have one (k : Core) (b' : Bool) (o : Option Nat) (fir : Option Firing) : (match fir with
      | none => k
      | some f => if b' = true then k else match o with
        | none => k
        | some a => (k.both fun t => { t with watchRec := word (kind <<< 61 + src <<< 48 + a) }).pendImprecise .watchLanding
            (word (kind <<< 61 + src <<< 48 + a)) f.serial).rack? b = k.rack? b := by
    split
    · rfl
    · split
      · rfl
      · split
        · rfl
        · unfold Core.pendImprecise
          split <;> rfl
  exact (one _ _ _ _).trans (one k _ _ _)

theorem State.racksStay_watchAll (kind src : Nat) (skip : Option Nat) (addrs : List Nat) : s.RacksStay (s.watchAll kind src skip addrs) := by
  unfold State.watchAll
  exact State.racksStay_foldl (fun s c => State.racksStay_updCore fun b => Core.watchLand_rack _ _ _ _ b) _ s

/-! ### A packet enters its slot (R14, R16) -/

/-- The record of a port after a packet has entered its next slot. -/
def Rack.received (r : Rack) (p : Pkt) : Rack := { r.filled 1 with senders := r.senders ++ [(p.sender.1, p.sender.2, 0, p.ts)] }

theorem getElem_span (a n i : Nat) (h : i < (span a n).length) : (span a n)[i] = a + i := by
  have hi : i < n := by simpa using h
  have := getElem?_span a n i
  rw [if_pos hi, List.getElem?_eq_getElem h] at this
  exact Option.some.inj this

variable (s c) in
/-- The bytes with which a packet fills its slot. -/
def State.slotFill (base : Nat) (r : Rack) (p : Pkt) : List (Nat × Byte × Byte) :=
  maskedBytes (padOfCore c + r.slotOff base r.fill)
    (p.bytes ++ (span 0 (r.slotSize - p.bytes.length)).map fun i => Config.freeByte (s.fresh * 256 + i))

variable (s c) in
/-- The state once they have landed. -/
def State.slotLanded (base : Nat) (r : Rack) (p : Pkt) : State :=
  (s.next.replace (s.slotFill c base r p)).watchAll 6 0 none ((s.slotFill c base r p).map (·.1))

variable (s c) in
/-- The state with the token in the record. -/
def State.slotTaken (base : Nat) (r : Rack) (p : Pkt) : State :=
  (s.slotLanded c base r p).updCore c fun k => (k.updRack base fun r => r.received p).wfiEvent 1

theorem State.enterSlot_eq {base : Nat} {r : Rack} (hr : (s.core c).rack? base = some r) (p : Pkt) :
    s.enterSlot c base p 0 = (s.slotTaken c base r p).wakeCore c := by
  unfold State.enterSlot
  rw [hr]
  rfl

theorem State.slotFill_byte {base : Nat} {r : Rack} (p : Pkt) (n : Nat) (h : n < p.bytes.length) :
    (s.next.poke (s.slotFill c base r p)).byte (padOfCore c + r.slotOff base r.fill + n) = p.bytes[n] := by
  let bytes := p.bytes ++ (span 0 (r.slotSize - p.bytes.length)).map fun i => Config.freeByte (s.fresh * 256 + i)
  have hlen : n < bytes.length := by
    rw [List.length_append]
    omega
  have hread := congrArg (·[n]?) (s.next.bytesAt_poke_self bytes (padOfCore c + r.slotOff base r.fill))
  have hbyte : (s.next.poke (maskedBytes (padOfCore c + r.slotOff base r.fill) bytes)).byte (padOfCore c + r.slotOff base r.fill + n) = bytes[n] := by
    simpa [State.bytesAt, getElem_span, hlen] using hread
  exact hbyte.trans (List.getElem_append_left h)

/-- A slot that takes a packet shows its bytes, and its rack one more token. -/
theorem State.enterSlot_spec {base : Nat} {r : Rack} (hr : (s.core c).rack? base = some r) (p : Pkt) :
    (s.enterSlot c base p 0).net = s.net ∧ (s.enterSlot c base p 0).dies = s.dies ∧
    ((s.enterSlot c base p 0).core c).rack? base = some (r.received p) ∧
    ∀ n (h : n < p.bytes.length), (s.enterSlot c base p 0).byte (padOfCore c + r.slotOff base r.fill + n) = p.bytes[n] := by
  have hland : (s.next.replace (s.slotFill c base r p)).RacksStay (s.slotLanded c base r p) := State.racksStay_watchAll _ _ _ _
  have hwake := (s.slotTaken c base r p).racksStay_wakeCore c
  have hrack : ((s.slotLanded c base r p).core c).rack? base = some r := (hland.rack c base).trans hr
  have hmem : ((s.slotTaken c base r p).wakeCore c).mem = (s.next.poke (s.slotFill c base r p)).mem := hwake.mem.trans hland.mem
  rw [State.enterSlot_eq hr]
  refine ⟨hwake.net.trans hland.net, hwake.dies.trans hland.dies, ?_, fun n h => ?_⟩
  · rw [hwake.rack, State.slotTaken, State.updCore_core_self]
    exact Core.updRack_rack _ hrack
  · rw [State.byte, hmem]
    exact State.slotFill_byte p n h

end

section
variable {s : State}

/-! ### Delivery -/

/-- A dropped packet counts as a dead letter with its cause (R110). -/
theorem State.drop_spec (n : Nat) (p : Pkt) (c : Cause) : (s.drop n p c).mem = s.mem ∧
    ((s.drop n p c).part p.part).dlCount = ((s.part p.part).dlCount + 1) % 2 ^ 32 ∧ ((s.drop n p c).part p.part).dlCause = c.code := by
  have h : (s.drop n p c).mem = s.mem ∧ (s.drop n p c).parts = (s.deadLetter p.part c).parts := by
    unfold State.drop
    dsimp only
    split <;> exact ⟨rfl, rfl⟩
  obtain ⟨hmem, hparts⟩ := h
  refine ⟨hmem, ?_, ?_⟩ <;> rw [State.part, hparts, State.deadLetter, State.updPart, FMap.get_put_self]

section
variable {p : Pkt} {rest : List Pkt} (h0 : s.arg 0 = 0) (hp : pick s.net (s.arg 1) = some (p, rest))
  (hturn : inTurn p (s.net.take (s.arg 1)) = true) (ha : hdrActor p.hdr ≠ 0xFFF000000000)
include h0 hp hturn ha

/-- A packet of the network whose turn it is arrives at its core. -/
theorem messageDelivery_arrives {t : State} (h : ({ s with net := rest } : State).arrive p = (t, true)) :
    exec .messageDelivery s = .next t := by
  change execMessageDelivery s = _
  unfold execMessageDelivery
  dsimp only
  rw [h0, hp]
  simp only [hturn, Bool.not_true, Bool.false_eq_true, if_false]
  rw [State.deliver, if_neg ha, h]
  rfl

theorem messageDelivery_dropped {c : Cause} (he : s.addressee p = .error c) : ∃ t, exec .messageDelivery s = .next t ∧ t.mem = s.mem ∧
    (t.part p.part).dlCount = ((s.part p.part).dlCount + 1) % 2 ^ 32 ∧ (t.part p.part).dlCause = c.code := by
  have he' : ({ s with net := rest } : State).addressee p = .error c := he
  obtain ⟨hmem, hcount, hcause⟩ := State.drop_spec (s := { s with net := rest }) (({ s with net := rest } : State).strayCore p + 1) p c
  refine ⟨_, messageDelivery_arrives h0 hp hturn ha ?_, hmem, hcount, hcause⟩
  rw [State.arrive, he']

theorem messageDelivery_enters {key port c : Nat} {i : Inst} {r : Rack} (hi : s.addressee p = .ok (key, i, port)) (hc : i.core = some c)
    (htk : (s.core c).takeover = false) (hst : i.st = .home) (hring : ∀ d, d < 4 → s.ring d p.part = [])
    (hr : (s.core c).rack? (s.portBase i port) = some r) (hn : r.nfill < r.n) :
    exec .messageDelivery s = .next (({ s with net := rest } : State).enterSlot c (s.portBase i port) p 0) := by
  let s' : State := { s with net := rest }
  have hi' : s'.addressee p = .ok (key, i, port) := hi
  have htk' : (s'.core c).takeover = false := htk
  have hring' : ∀ d ∈ span 0 4, ¬ s'.ringHas d p.part key port = true := fun d hd => by
    have : s'.ring d p.part = [] := hring d (by simpa using (mem_span.mp hd).2)
    simp [State.ringHas, this]
  have hleft : s'.slotLeft c (s'.portBase i port) = true := by
    have : (s'.core c).rack? (s'.portBase i port) = some r := hr
    simp [State.slotLeft, this, hn]
  have hany : ((span 0 4).any fun d => s'.ringHas d p.part key port) = false := List.any_eq_false.mpr hring'
  refine messageDelivery_arrives h0 hp hturn ha ?_
  rw [State.arrive, hi']
  dsimp only
  rw [hc]
  dsimp only
  rw [htk', hany, hleft]
  simp [State.awaitsMarker, Inst.moving, hst]
  rfl

end

/-- The launch actor takes what the message window holds (R92). -/
theorem messageDelivery_window {b : List Byte} {rest : List (List Byte)} (h0 : s.arg 0 = 3) (hw : (s.part (s.arg 1)).window = b :: rest)
    (ha : hdrActor (pktHeader b) = 0xFFF000000000) (hport : hdrPort (pktHeader b) = 0) (hlen : b.length ≤ 64) :
    ∃ t, exec .messageDelivery s = .next t ∧ (t.part (s.arg 1)).window = rest ∧
      (t.part (s.arg 1)).reqs.map (·.bytes) = (s.part (s.arg 1)).reqs.map (·.bytes) ++ [b] := by
  let s' := s.updPart (s.arg 1) fun p => { p with window := rest }
  let p := s'.stampCount (Pkt.fromHub (s.arg 1) b)
  have hbytes : p.bytes = b ∧ p.part = s.arg 1 := by
    change (s'.stampCount (Pkt.fromHub (s.arg 1) b)).bytes = b ∧ (s'.stampCount (Pkt.fromHub (s.arg 1) b)).part = _
    unfold State.stampCount
    dsimp only
    split
    · split <;> exact ⟨rfl, rfl⟩
    · exact ⟨rfl, rfl⟩
  have heq : exec .messageDelivery s = .next (s'.updPart p.part fun x => { x with reqs := x.reqs ++ [⟨p.bytes, none, p.count, none, 0, []⟩] }) := by
    have ha' : hdrActor (Pkt.fromHub (s.arg 1) b).hdr = 0xFFF000000000 := ha
    have hport' : ¬ hdrPort (Pkt.fromHub (s.arg 1) b).hdr ≠ 0 := fun h => h hport
    have hlen' : ¬ (Pkt.fromHub (s.arg 1) b).bytes.length > 64 := Nat.not_lt.mpr hlen
    change execMessageDelivery s = _
    unfold execMessageDelivery
    dsimp only
    rw [h0, hw]
    dsimp only
    rw [State.deliver, if_pos ha', State.toLaunchActor, if_neg hport', if_neg hlen']
    rfl
  obtain ⟨hb, hpart⟩ := hbytes
  refine ⟨_, heq, ?_, ?_⟩
  · rw [hpart, State.part, State.updPart, FMap.get_put_self]
    exact congrArg Part.window (FMap.get_put_self _ _ _ _)
  · rw [hpart, hb, State.part, State.updPart, FMap.get_put_self]
    rw [show s'.part (s.arg 1) = { s.part (s.arg 1) with window := rest } from FMap.get_put_self _ _ _ _]
    simp

/-! ### The overflow ring (R110) -/

theorem overflowRingRetry_forgets (h : s.ringMapped (s.arg 0) (s.arg 1) = true) : ∃ t, exec .overflowRingRetry s = .next t ∧ t.mem = s.mem ∧
    (t.die (s.arg 0)).ringPages = (s.die (s.arg 0)).ringPages.erase (ringPageKey (s.arg 1) (s.ringNext (s.arg 0) (s.arg 1))) ∧
    t.ring (s.arg 0) (s.arg 1) = s.ring (s.arg 0) (s.arg 1) := by
  let f (d : Die) : Die := { d with ringPages := d.ringPages.erase (ringPageKey (s.arg 1) (s.ringNext (s.arg 0) (s.arg 1))) }
  have hdie : (s.updDie (s.arg 0) f).die (s.arg 0) = f (s.die (s.arg 0)) := FMap.get_put_self _ _ _ _
  refine ⟨s.updDie (s.arg 0) f, ?_, rfl, ?_, ?_⟩
  · change execOverflowRingRetry s = _
    unfold execOverflowRingRetry
    dsimp only
    rw [if_pos h]
  · rw [hdie]
  · unfold State.ring
    rw [hdie]
    rfl

/-- The oldest packet of a port enters its slot once one is free. -/
theorem overflowRingDelivery_enters {e : RingEntry} {rest : List RingEntry} {key port c : Nat} {i : Inst} {r : Rack} (h2 : s.arg 2 = 0)
    (hq : s.ring (s.arg 0) (s.arg 1) = e :: rest) (hi : s.addressee e.pkt = .ok (key, i, port)) (hc : i.core = some c)
    (htk : (s.core c).takeover = false) (hst : i.st = .home) (hbad : s.ringBad (s.arg 0) (s.arg 1) e = false)
    (hold : ∀ x ∈ s.ringsFor (s.arg 1) key port, e.ord ≤ x.ord) (hr : (s.core c).rack? (s.portBase i port) = some r) (hn : r.nfill < r.n) :
    exec .overflowRingDelivery s =
      .next ((s.ringTake (s.arg 0) (s.arg 1) ((FMap.get [] (s.die (s.arg 0)).ring (s.arg 1)).drop 1)).enterSlot c (s.portBase i port) e.pkt 0) := by
  have hany : ((s.ringsFor (s.arg 1) key port).any fun x => decide (x.ord < e.ord)) = false := List.any_eq_false.mpr fun x hx => by
    simpa using hold x hx
  have hleft : s.slotLeft c (s.portBase i port) = true := by simp [State.slotLeft, hr, hn]
  have hdrop (l : List RingEntry) : l.eraseIdx 0 = l.drop 1 := by cases l <;> rfl
  change execOverflowRingDelivery s = _
  unfold execOverflowRingDelivery
  dsimp only
  rw [hq, h2, pick]
  dsimp only
  rw [hbad, hi]
  dsimp only
  rw [hc]
  dsimp only
  rw [htk, hany, hleft, hst, hdrop]
  simp [State.awaitsMarker, Inst.moving, hst]

/-! ### The message window's registers (R91) -/

theorem State.hostReads_part (n off : Nat) : ((s.hostReads n off).part n) = { s.part n with hostRead := s.windowWord n off } :=
  FMap.get_put_self _ _ _ _

theorem pkt_reads (hup : s.pcieUp = true) (h3 : s.arg 3 ≠ 0) : exec .pkt s = .next (s.hostReads (s.arg 0) (s.arg 1 % 0x100)) := by
  change execPkt s = _
  unfold execPkt
  dsimp only
  rw [hup, if_pos h3]
  rfl

theorem pkt_writes (hup : s.pcieUp = true) (h3 : s.arg 3 = 0) : exec .pkt s = match pktFault (s.arg 1) (s.arg 2 ≠ 0) s.payload with
    | some c => .next (s.updPart (s.arg 0) fun p =>
        { p with errstat := word ((min 65535 (wbits p.errstat 31 16 + 1)) <<< 16 + 256 + c.code) })
    | none => if (s.part (s.arg 0)).window.length ≥ 64 then .next s else
        .next (s.updPart (s.arg 0) fun p => { p with window := p.window ++ [s.payload], accepted := p.accepted + 1 }) := by
  change execPkt s = _
  unfold execPkt
  dsimp only
  rw [hup]
  exact (if_neg Bool.false_ne_true).trans (if_neg fun h => h h3)

theorem errstat_reads (hup : s.pcieUp = true) (h2 : s.arg 2 ≠ 0) : exec .errstat s = .next (s.hostReads (s.arg 0) (s.arg 2)) := by
  change execErrstat s = _
  unfold execErrstat
  rw [hup, if_pos h2]
  rfl

theorem errstat_clears (hup : s.pcieUp = true) (h2 : s.arg 2 = 0) (h8 : (s.arg 1).testBit 8 = true) :
    exec .errstat s = .next (s.updPart (s.arg 0) fun p => { p with errstat := p.errstat &&& ~~~0x100#64 }) := by
  change execErrstat s = _
  unfold execErrstat
  rw [hup]
  exact (if_neg Bool.false_ne_true).trans ((if_neg fun h => h h2).trans (if_pos h8))

section
variable (s : State)

theorem messageDelivery_steps {p : Pkt} {rest : List Pkt} (h0 : s.arg 0 = 0) (hp : pick s.net (s.arg 1) = some (p, rest))
    (hturn : inTurn p (s.net.take (s.arg 1)) = true) (ha : hdrActor p.hdr ≠ 0xFFF000000000) {key port c : Nat} {i : Inst} {r : Rack}
    (hi : s.addressee p = .ok (key, i, port)) (hc : i.core = some c) (htk : (s.core c).takeover = false) (hst : i.st = .home)
    (hring : ∀ d, d < 4 → s.ring d p.part = []) (hr : (s.core c).rack? (s.portBase i port) = some r) (hn : r.nfill < r.n) :
    ∃ t, exec .messageDelivery s = .next t ∧ t.net = rest ∧ (t.core c).rack? (s.portBase i port) = some (r.received p) ∧
      ∀ n (h : n < p.bytes.length), t.byte (padOfCore c + r.slotOff (s.portBase i port) r.fill + n) = p.bytes[n] := by
  have hr' : (({ s with net := rest } : State).core c).rack? (s.portBase i port) = some r := hr
  obtain ⟨hnet, -, hrack, hbyte⟩ := State.enterSlot_spec hr' p
  exact ⟨_, messageDelivery_enters h0 hp hturn ha hi hc htk hst hring hr hn, hnet, hrack, hbyte⟩

theorem overflowRingDelivery_steps {e : RingEntry} {rest : List RingEntry} {key port c : Nat} {i : Inst} {r : Rack} (h2 : s.arg 2 = 0)
    (hq : s.ring (s.arg 0) (s.arg 1) = e :: rest) (hi : s.addressee e.pkt = .ok (key, i, port)) (hc : i.core = some c)
    (htk : (s.core c).takeover = false) (hst : i.st = .home) (hbad : s.ringBad (s.arg 0) (s.arg 1) e = false)
    (hold : ∀ x ∈ s.ringsFor (s.arg 1) key port, e.ord ≤ x.ord) (hr : (s.core c).rack? (s.portBase i port) = some r) (hn : r.nfill < r.n) :
    ∃ t, exec .overflowRingDelivery s = .next t ∧
      FMap.get [] (t.die (s.arg 0)).ring (s.arg 1) = (FMap.get [] (s.die (s.arg 0)).ring (s.arg 1)).drop 1 ∧
      (t.core c).rack? (s.portBase i port) = some (r.received e.pkt) ∧
      ∀ n (h : n < e.pkt.bytes.length), t.byte (padOfCore c + r.slotOff (s.portBase i port) r.fill + n) = e.pkt.bytes[n] := by
  let left := (FMap.get [] (s.die (s.arg 0)).ring (s.arg 1)).drop 1
  have hr' : ((s.ringTake (s.arg 0) (s.arg 1) left).core c).rack? (s.portBase i port) = some r := hr
  obtain ⟨-, hdies, hrack, hbyte⟩ := State.enterSlot_spec hr' e.pkt
  refine ⟨_, overflowRingDelivery_enters h2 hq hi hc htk hst hbad hold hr hn, ?_, hrack, hbyte⟩
  rw [State.die, hdies, State.ringTake, State.updDie, FMap.get_put_self]
  exact FMap.get_put_self _ _ _ _

theorem pkt_steps (hup : s.pcieUp = true) : (s.arg 3 ≠ 0 → ∃ t, exec .pkt s = .next t ∧ (t.part (s.arg 0)).hostRead = 0 ∧
      (t.part (s.arg 0)).window = (s.part (s.arg 0)).window) ∧
    (∀ c, s.arg 3 = 0 → pktFault (s.arg 1) (s.arg 2 ≠ 0) s.payload = some c → ∃ t, exec .pkt s = .next t ∧
      (t.part (s.arg 0)).window = (s.part (s.arg 0)).window ∧
      (t.part (s.arg 0)).errstat = word ((min 65535 (wbits (s.part (s.arg 0)).errstat 31 16 + 1)) * 2 ^ 16 + 2 ^ 8 + c.code)) ∧
    (s.arg 3 = 0 → pktFault (s.arg 1) (s.arg 2 ≠ 0) s.payload = none → (s.part (s.arg 0)).window.length < 64 → ∃ t, exec .pkt s = .next t ∧
      (t.part (s.arg 0)).window = (s.part (s.arg 0)).window ++ [s.payload] ∧
      (t.part (s.arg 0)).accepted = (s.part (s.arg 0)).accepted + 1) := by
  refine ⟨fun h3 => ⟨_, pkt_reads hup h3, ?_⟩, fun c h3 hf => ?_, fun h3 hf hlen => ?_⟩
  · rw [State.hostReads_part]
    have hoff : s.arg 1 % 0x100 < 0x100 := Nat.mod_lt _ (by decide)
    refine ⟨?_, rfl⟩
    change s.windowWord (s.arg 0) (s.arg 1 % 0x100) = 0
    rw [State.windowWord, if_neg (by omega), if_neg (by omega)]
  · have heq := pkt_writes hup h3
    rw [hf] at heq
    refine ⟨_, heq, ?_⟩
    rw [State.part, State.updPart, FMap.get_put_self]
    exact ⟨rfl, by rw [Nat.shiftLeft_eq]; rfl⟩
  · have heq := pkt_writes hup h3
    rw [hf] at heq
    refine ⟨_, heq.trans (if_neg (Nat.not_le.mpr hlen)), ?_⟩
    rw [State.part, State.updPart, FMap.get_put_self]
    exact ⟨rfl, rfl⟩

theorem errstat_steps (hup : s.pcieUp = true) : (s.arg 2 ≠ 0 → ∃ t, exec .errstat s = .next t ∧
      (t.part (s.arg 0)).errstat = (s.part (s.arg 0)).errstat ∧
      (t.part (s.arg 0)).hostRead = (if s.arg 2 = 0x100 then (s.part (s.arg 0)).errstat
        else if s.arg 2 = 0x108 then (s.part (s.arg 0)).accepted else 0)) ∧
    (s.arg 2 = 0 → (s.arg 1).testBit 8 = true → ∃ t, exec .errstat s = .next t ∧ (t.part (s.arg 0)).errstat.getLsbD 8 = false ∧
      ∀ n, n ≠ 8 → (t.part (s.arg 0)).errstat.getLsbD n = (s.part (s.arg 0)).errstat.getLsbD n) := by
  refine ⟨fun h2 => ⟨_, errstat_reads hup h2, ?_⟩, fun h2 h8 => ⟨_, errstat_clears hup h2 h8, ?_⟩⟩
  · rw [State.hostReads_part]
    exact ⟨rfl, rfl⟩
  · rw [State.part, State.updPart, FMap.get_put_self]
    have hbit (n : Nat) : (0x100#64).getLsbD n = decide (n = 8) := by
      rw [show (0x100#64) = BitVec.twoPow 64 8 from rfl, BitVec.getLsbD_twoPow]
      by_cases h : n = 8 <;> simp [h, eq_comm]
    refine ⟨by simp [hbit], fun n hn => ?_⟩
    rw [BitVec.getLsbD_and, BitVec.getLsbD_not, hbit, decide_eq_false hn]
    by_cases hlt : n < 64
    · simp [hlt]
    · simp [hlt, BitVec.getLsbD_of_ge _ n (Nat.not_lt.mp hlt)]

end

end

/-- Settles O46: each step by its own lemma; a slot that takes a packet is read back byte for byte. -/
theorem messageSteps : Obligations.MessageSteps := by
  intro s
  refine ⟨fun p rest h0 hp hturn ha => ⟨fun c he => messageDelivery_dropped h0 hp hturn ha he, ?_⟩, fun b rest h0 hw ha hport hlen =>
    messageDelivery_window h0 hw ha hport hlen, overflowRingRetry_forgets, ?_, ?_, fun hup => (pkt_steps s hup).1,
    fun hup => (errstat_steps s hup).1, fun c hup => (pkt_steps s hup).2.1 c, fun hup => (pkt_steps s hup).2.2,
    fun hup => (errstat_steps s hup).2⟩
  · intro key i port c r hi hc htk hst hring hr hn
    exact messageDelivery_steps s h0 hp hturn ha hi hc htk hst hring hr hn
  · intro e rest key i port c r h2 hq hi hc _ htk hst hbad hold hr hn
    exact overflowRingDelivery_steps s h2 hq hi hc htk hst hbad hold hr hn
  · intro hup
    refine ⟨?_, ?_⟩
    · change execPkt s = _
      rw [execPkt, hup]
      rfl
    · change execErrstat s = _
      rw [execErrstat, hup]
      rfl

end Sys2Proof.Machine
end

section
/-! Proof of the statement on launch requests, indirect launches and placement (R84, R86, R89). -/
namespace Sys2Proof.Machine

-- One proof after another: the threads of many proofs at once do not fit the memory of the check.
set_option Elab.async false

section
variable {s t u : State}

/-! ### Waking an `Inst` changes only since when it waits -/

/-- An `Inst` without the time since which it waits. -/
def Inst.rested (i : Inst) : Inst := { i with since := none }

theorem Inst.rested_fields {i j : Inst} (h : i.rested = j.rested) : i.st = j.st ∧ i.core = j.core :=
  ⟨(congrArg Inst.st h :), (congrArg Inst.core h :)⟩

/-- Every `Inst` keeps its state but for that time, and every partition its own. -/
structure State.InstsStay (s t : State) : Prop where
  inst : ∀ k, (FMap.find? t.insts k).map Inst.rested = (FMap.find? s.insts k).map Inst.rested
  parts : t.parts = s.parts
  mem : t.mem = s.mem

theorem State.InstsStay.refl (s : State) : s.InstsStay s := ⟨fun _ => rfl, rfl, rfl⟩

theorem State.InstsStay.trans (a : s.InstsStay t) (b : t.InstsStay u) : s.InstsStay u :=
  ⟨fun k => (b.inst k).trans (a.inst k), b.parts.trans a.parts, b.mem.trans a.mem⟩

theorem State.InstsStay.find (h : s.InstsStay t) {k : Nat} {j : Inst} (hj : FMap.find? t.insts k = some j) :
    ∃ i, FMap.find? s.insts k = some i ∧ j.rested = i.rested := by
  have := h.inst k
  rw [hj] at this
  obtain ⟨i, hi, he⟩ := Option.map_eq_some_iff.mp this.symm
  exact ⟨i, hi, he.symm⟩

theorem State.InstsStay.find_some (h : s.InstsStay t) {k : Nat} {i : Inst} (hi : FMap.find? s.insts k = some i) :
    ∃ j, FMap.find? t.insts k = some j ∧ j.rested = i.rested := by
  have := h.inst k
  rw [hi] at this
  exact Option.map_eq_some_iff.mp this

theorem State.instsStay_wake (key : Nat) : s.InstsStay (s.wake key) := by
  have keeps (t : State) (hi : t.insts = s.insts) (hp : t.parts = s.parts) (hm : t.mem = s.mem) :
      s.InstsStay (t.updInst key fun x => { x with since := none }) := by
    refine ⟨fun k => ?_, (State.updInst_parts _ _ _).trans hp, (State.updInst_mem _ _ _).trans hm⟩
    by_cases hk : k = key
    · rw [hk, State.updInst_find_self, hi, Option.map_map]
      rfl
    · rw [State.updInst_find_other _ _ _ _ hk, hi]
  unfold State.wake
  split
  · exact .refl s
  · split
    · exact .refl s
    · split
      · exact .refl s
      · split
        · exact keeps _ rfl rfl rfl
        · exact .refl s

/-! ### An `Inst` that is placed (R86) -/

/-- A core that takes an `Inst` holds it. -/
theorem State.tryPlace_places {key c : Nat} (h : s.tryPlace key c = some t) :
    ∃ j, FMap.find? t.insts key = some j ∧ j.st = .home ∧ j.core.isSome = true := by
  unfold State.tryPlace at h
  split at h
  · cases h
  · rename_i i hi
    split at h
    · cases h
    · rename_i f hf
      dsimp only at h
      split at h
      · cases h
      · rename_i v hv
        have hvi : FMap.find? v.insts key = some i := by
          have : v.insts = s.insts := by
            unfold State.loadCode at hv
            split at hv
            · exact congrArg State.insts (Option.some.inj hv).symm
            · split at hv
              · cases hv
              · split at hv
                · cases hv
                · rw [← Option.some.inj hv]
                  rfl
          rw [this, hi]
        have hput : ∃ j, FMap.find? (v.putInst key c f.1 f.2).insts key = some j ∧ j.core = some c := by
          unfold State.putInst
          rw [hvi]
          dsimp only
          rw [State.updInst_find_self]
          exact ⟨_, congrArg _ hvi, rfl⟩
        obtain ⟨j, hj, hjc⟩ := hput
        obtain rfl := Option.some.inj h
        rw [State.updInst_find_self]
        refine ⟨_, congrArg _ hj, rfl, ?_⟩
        rw [hjc]
        rfl

theorem State.placeOn_places {key : Nat} (l : List Nat) (h : s.placeOn key l = some t) :
    ∃ j, FMap.find? t.insts key = some j ∧ j.st = .home ∧ j.core.isSome = true := by
  induction l with
  | nil => cases h
  | cons c r ih =>
    rw [State.placeOn] at h
    split at h
    · rename_i v hv
      obtain rfl := Option.some.inj h
      exact State.tryPlace_places hv
    · exact ih h

theorem State.placeOne_places {key : Nat} (h : s.placeOne key = some t) :
    ∃ j, FMap.find? t.insts key = some j ∧ j.st = .home ∧ j.core.isSome = true := by
  unfold State.placeOne at h
  split at h
  · cases h
  · split at h
    · cases h
    · exact State.placeOn_places _ h

end

section
variable {s : State} {part : Nat} {q : Req} {rest : List Req}

/-! ### Requests -/

/-- Without a core that a spare takes over no reply waits. -/
theorem State.replyAway_of_no_takeover (h : ∀ c, (s.core c).takeover = false) (p : Nat) : s.replyAway part p = false := by
  have away (l : List Nat) : s.away l = false := by
    unfold State.away
    have : (l.any fun a => match s.coreOfPad a with | some c => (s.core c).takeover | none => false) = false :=
      List.any_eq_false.mpr fun a _ => by
        split
        · rw [h]
          decide
        · decide
    exact (congrArg _ this).trans (Bool.and_false _)
  unfold State.replyAway
  split
  · rw [away, Bool.and_false]
  · exact Bool.and_false _

theorem State.takeReq_away (hq : (s.part part).reqs = q :: rest) (ha : s.replyAway part (reqRep q.bytes) = true) : s.takeReq part = none := by
  unfold State.takeReq
  rw [hq]
  exact if_pos ha

theorem State.takeReq_taken (hq : (s.part part).reqs = q :: rest) (ha : s.replyAway part (reqRep q.bytes) = false) :
    s.takeReq part = some (s.updPart part fun p => { p with reqs := rest }, { q with repc := s.replyCounter part (reqRep q.bytes) }) := by
  unfold State.takeReq
  rw [hq]
  exact if_neg (by simp [ha])

/-- Each of the three steps that read the oldest request, once it is taken. -/
theorem execLaunchRequest_taken {u : State} (h : s.takeReq (s.arg 0) = some (u, q)) : exec .launchRequest s =
    if reqBad q.bytes = true then
      .next (if reqRep q.bytes % 16 = 0 then u.reply (s.arg 0) (reqRep q.bytes) q.repc Cause.launchShape.code else u)
    else if reqOp q.bytes = 0 then .next (u.launchOrWait (s.arg 0) q none (s.args.drop 1)) else .next s := by
  change execLaunchRequest s = _
  unfold execLaunchRequest
  dsimp only
  rw [h]
  rfl

/-- The group count of an indirect launch without a wait. -/
def State.groupsOf (s : State) (part : Nat) (q : Req) : Except Cause Nat :=
  match q.count with
  | .known n => .ok n
  | .unread c => .error c
  | .none => s.hubWord part (reqCount q.bytes) 4

theorem execIndirectLaunch_taken {u : State} (h : s.takeReq (s.arg 0) = some (u, q)) (hbad : reqBad q.bytes = false) (hop : reqOp q.bytes = 1) :
    exec .indirectLaunch s =
      if reqWait q.bytes ≠ 0 then .next (u.updPart (s.arg 0) fun p => { p with indirect := p.indirect ++ [q] })
      else .next (u.countKnown (s.arg 0) q (s.groupsOf (s.arg 0) q) (s.args.drop 1)) := by
  change execIndirectLaunch s = _
  unfold execIndirectLaunch
  dsimp only
  rw [h]
  dsimp only
  rw [if_neg (by simp [hbad, hop])]
  rfl

/-- A launch that an end request ends. -/
def Launch.endsFor (l : Launch) (q : Req) : Launch := { l with ending := true, endRep := l.endRep ++ [(reqRep q.bytes, q.repc)] }

theorem execEndRequest_taken {u : State} (h : s.takeReq (s.arg 0) = some (u, q)) (hbad : reqBad q.bytes = false) (hop : reqOp q.bytes = 2) :
    exec .endRequest s = match u.liveLaunch (s.arg 0) (bits (reqRec q.bytes) 11 0) (bits (reqRec q.bytes) 23 12) with
      | none => .next (u.reply (s.arg 0) (reqRep q.bytes) q.repc Cause.actorExited.code)
      | some l =>
        .next (((u.updPart (s.arg 0) fun p => { p with slots := FMap.put p.slots (bits (reqRec q.bytes) 11 0) (l.endsFor q) }).downDry
          (s.arg 0) (bits (reqRec q.bytes) 11 0)).exitIdle (s.arg 0) (bits (reqRec q.bytes) 11 0)) := by
  change execEndRequest s = _
  unfold execEndRequest
  dsimp only
  rw [h]
  dsimp only
  rw [if_neg (by simp [hbad, hop])]
  rfl

/-! ### A launch that is tried (R86) -/

/-- A record that fails its checks refuses the launch. -/
theorem State.launch_refused {groups : Option Nat} {bad : List Nat} {c : Cause} (ht : q.tokens = [])
    (hc : s.checkedRecord part q groups = .error c) : s.launch part q groups bad = (s.refuse part q c, none) := by
  unfold State.launch
  rw [if_neg (by simp [ht]), hc]

theorem State.launchOrWait_done {groups : Option Nat} {bad : List Nat} {t : State} (h : s.launch part q groups bad = (t, none)) :
    s.launchOrWait part q groups bad = t := by
  unfold State.launchOrWait
  rw [h]

theorem State.launchOrWait_waits {groups : Option Nat} {bad : List Nat} {t : State} {k : Req} (h : s.launch part q groups bad = (t, some k)) :
    s.launchOrWait part q groups bad = t.updPart part fun p => { p with waiting := p.waiting ++ [k] } := by
  unfold State.launchOrWait
  rw [h]

/-- A launch of no groups takes its slot, is complete at once, and is answered (R89). -/
theorem State.launch_nothing {bad : List Nat} {r : Record} {lslot : Nat} (ht : q.tokens = []) (hr : s.checkedRecord part q (some 0) = .ok r)
    (h0 : q.slot = 0) (hs : s.freeSlot part = some lslot) :
    let w := s.takeSlot part lslot { newLaunch r 0 (s.memoryImage part r.head) [] (reqRep q.bytes) q.repc with st := 5 }
    s.launch part q (some 0) bad = ((w.hubInc part r.compl).reply part (reqRep q.bytes) q.repc (w.runWord part lslot 0), none) := by
  unfold State.launch
  rw [if_neg (by simp [ht]), hr]
  dsimp only
  rw [if_pos h0, hs]
  dsimp only
  rw [if_pos h0]
  rfl

/-- A launch of some groups, off a rectangle, takes its slot and the first die set that serves (R86). -/
theorem State.launch_placed {bad : List Nat} {r : Record} {lslot : Nat} {v : State} (ht : q.tokens = []) (hr : s.checkedRecord part q none = .ok r)
    (h0 : q.slot = 0) (hs : s.freeSlot part = some lslot) (hn : fieldAt r.head 0x18 4 ≠ 0) (hrect : bit (fieldAt r.head 0x12 1) 1 = false)
    (hf : (s.takeSlot part lslot { newLaunch r (fieldAt r.head 0x18 4) (s.memoryImage part r.head) [] (reqRep q.bytes) q.repc with st := 1 }).imageFault
      part r.head ((s.takeSlot part lslot { newLaunch r (fieldAt r.head 0x18 4) (s.memoryImage part r.head) [] (reqRep q.bytes) q.repc with st := 1 }).dieSets
        part r.head (s.memoryImage part r.head)) = none)
    (hv : (s.takeSlot part lslot { newLaunch r (fieldAt r.head 0x18 4) (s.memoryImage part r.head) [] (reqRep q.bytes) q.repc with st := 1 }).trySets
      part lslot (newLaunch r (fieldAt r.head 0x18 4) (s.memoryImage part r.head) [] (reqRep q.bytes) q.repc)
      ((s.takeSlot part lslot { newLaunch r (fieldAt r.head 0x18 4) (s.memoryImage part r.head) [] (reqRep q.bytes) q.repc with st := 1 }).dieSets
        part r.head (s.memoryImage part r.head)) = some v) :
    s.launch part q none bad = v.launched part lslot { q with kept := some r }
      (newLaunch r (fieldAt r.head 0x18 4) (s.memoryImage part r.head) [] (reqRep q.bytes) q.repc) r.tokens := by
  have hl : ∀ l : Launch, l.head = r.head → l.rect = false := fun l h => by rw [Launch.rect, h, hrect]
  unfold State.launch
  rw [if_neg (by simp [ht]), hr]
  dsimp only
  rw [if_pos h0, hs]
  dsimp only
  rw [if_pos h0, Option.getD_none, if_neg hn, if_neg hn, hf]
  dsimp only
  rw [hl _ rfl, Bool.false_and, if_neg Bool.false_ne_true, hv]
  rfl

/-! ### The steps -/

theorem indirectLaunchEligible_turn (hp : pick (s.part (s.arg 0)).indirect (s.arg 1) = some (q, rest)) : exec .indirectLaunchEligible s =
    if s.replyAway (s.arg 0) (reqRep q.bytes) = true then .next s
    else match s.waitCounter (s.arg 0) (reqWait q.bytes) with
      | .error c => .next ((s.updPart (s.arg 0) fun p => { p with indirect := rest }).refuse (s.arg 0) q c)
      | .ok k => if (!reached32 (s.counterVal k) (reqVal q.bytes)) = true then .next s
        else .next ((s.updPart (s.arg 0) fun p => { p with indirect := rest }).countKnown (s.arg 0) q (s.hubWord (s.arg 0) (reqCount q.bytes) 4)
          (s.args.drop 2)) := by
  change execIndirectLaunchEligible s = _
  unfold execIndirectLaunchEligible
  dsimp only
  rw [hp]
  rfl

theorem waitingLaunchProceeds_turn (hp : pick (s.part (s.arg 0)).waiting (s.arg 1) = some (q, rest)) : exec .waitingLaunchProceeds s =
    if s.replyAway (s.arg 0) (reqRep q.bytes) = true then .next s
    else match (s.updPart (s.arg 0) fun p => { p with waiting := rest }).launch (s.arg 0) q
        (match q.count with | .known n => some n | _ => none) (s.args.drop 2) with
      | (s', none) => .next s'
      | (s', some q) => .next (s'.updPart (s.arg 0) fun p => { p with waiting := replaceAt (s.part (s.arg 0)).waiting (s.arg 1) q }) := by
  change execWaitingLaunchProceeds s = _
  unfold execWaitingLaunchProceeds
  dsimp only
  rw [hp]
  rfl

section
variable {u : State} (htake : s.takeReq (s.arg 0) = some (u, q)) (hbad : reqBad q.bytes = false) (ht : q.tokens = [])
include htake hbad ht

/-- The oldest request of a direct launch is answered by the launch's own branches. -/
theorem launchRequest_direct (hop : reqOp q.bytes = 0) : (∀ c, u.checkedRecord (s.arg 0) q none = .error c →
      exec .launchRequest s = .next (u.refuse (s.arg 0) q c)) ∧
    ∀ y : State × Option Req, u.launch (s.arg 0) q none (s.args.drop 1) = y → (y.2 = none → exec .launchRequest s = .next y.1) ∧
      ∀ k, y.2 = some k → exec .launchRequest s = .next (y.1.updPart (s.arg 0) fun p => { p with waiting := p.waiting ++ [k] }) := by
  have heq : exec .launchRequest s = .next (u.launchOrWait (s.arg 0) q none (s.args.drop 1)) := by
    rw [execLaunchRequest_taken htake, if_neg (by simp [hbad]), if_pos hop]
  rw [heq]
  refine ⟨fun c hc => ?_, fun y hy => ⟨fun h => ?_, fun k h => ?_⟩⟩
  · rw [State.launchOrWait_done (State.launch_refused ht hc)]
  · rw [State.launchOrWait_done (hy.trans (Prod.ext rfl h))]
  · rw [State.launchOrWait_waits (hy.trans (Prod.ext rfl h))]

omit ht in
/-- That of an indirect launch without a wait by its count. -/
theorem indirectLaunch_counted (hop : reqOp q.bytes = 1) (hw : reqWait q.bytes = 0) :
    (∀ n, q.count = .known n → exec .indirectLaunch s = .next (u.launchOrWait (s.arg 0) q (some n) (s.args.drop 1))) ∧
    (∀ c, q.count = .unread c → exec .indirectLaunch s = .next (u.refuse (s.arg 0) q c)) := by
  rw [execIndirectLaunch_taken htake hbad hop, if_neg fun h => h hw]
  refine ⟨fun n hn => ?_, fun c hc => ?_⟩
  · rw [State.groupsOf, hn]
    rfl
  · rw [State.groupsOf, hc]
    rfl

end

theorem placementRun_places {key : Nat} {i : Inst} {u : State}
    (hf : (s.insts.filter fun p => p.2.part = s.arg 0 && p.2.st = .unplaced) = [(key, i)]) (hu : s.placeOne key = some u) :
    ∃ t j, exec .placementRun s = .next t ∧ FMap.find? t.insts key = some j ∧ j.st = .home ∧ j.core.isSome = true := by
  obtain ⟨j, hj, hst, hcore⟩ := State.placeOne_places hu
  obtain ⟨k, hk, he⟩ := (State.instsStay_wake (s := u) key).find_some hj
  have hfields : k.st = j.st ∧ k.core = j.core := Inst.rested_fields he
  refine ⟨u.wake key, k, ?_, hk, hfields.1.trans hst, by rw [hfields.2, hcore]⟩
  change execPlacementRun s = _
  unfold execPlacementRun
  dsimp only
  rw [hf, List.foldl_cons, List.foldl_nil, hu]
  rfl

end

/-- Settles O47: each step by the equation of its oldest request, the launch by its branches. -/
theorem launchSteps : Obligations.LaunchSteps := by
  intro s part hpart
  subst hpart
  refine ⟨fun q rest hq ha => ?_, fun q rest hp ha => ?_, fun q rest hp ha => ?_, fun p h => State.replyAway_of_no_takeover h p,
    fun q rest hq ha hbad hrep => ?_, fun q rest hq ha hbad ht => ?_, fun q rest c hp ha hc => ?_, fun q rest k hp ha hk => ?_,
    fun q rest t hp ha ht => ?_, fun key i u hf hu => placementRun_places hf hu⟩
  · have h := State.takeReq_away hq ha
    refine ⟨?_, ?_, ?_⟩
    · change execLaunchRequest s = _
      unfold execLaunchRequest
      dsimp only
      rw [h]
      rfl
    · change execIndirectLaunch s = _
      unfold execIndirectLaunch
      dsimp only
      rw [h]
      rfl
    · change execEndRequest s = _
      unfold execEndRequest
      dsimp only
      rw [h]
      rfl
  · rw [indirectLaunchEligible_turn hp, if_pos ha]
  · rw [waitingLaunchProceeds_turn hp, if_pos ha]
  · rw [execLaunchRequest_taken (State.takeReq_taken hq ha), if_pos hbad, if_pos hrep]
  · have htake := State.takeReq_taken hq ha
    refine ⟨fun hop => (launchRequest_direct htake hbad ht hop).1, fun hop r lslot v hr hn h0 hs hrect hf hv =>
      (launchRequest_direct htake hbad ht hop).2 _ (State.launch_placed ht hr h0 hs hn hrect hf hv), ?_, fun hop hw => ?_,
      indirectLaunch_counted htake hbad⟩
    · intro hop hw r lslot hr hcount h0 hs
      rw [(indirectLaunch_counted htake hbad hop hw).1 0 hcount]
      exact congrArg _ (State.launchOrWait_done (State.launch_nothing ht hr h0 hs))
    · rw [execIndirectLaunch_taken htake hbad hop, if_pos hw]
      refine ⟨_, rfl, ?_, ?_, rfl⟩ <;> simp
  · rw [indirectLaunchEligible_turn hp, if_neg (by simp [ha]), hc]
  · rw [indirectLaunchEligible_turn hp, if_neg (by simp [ha]), hk]
    refine ⟨fun h => ?_, fun h => ?_⟩ <;> dsimp only
    · rw [if_neg (by simp [h])]
    · rw [if_pos (by simp [h])]
  · rw [waitingLaunchProceeds_turn hp, if_neg (by simp [ha])]
    cases hc : q.count <;> simp_all

end Sys2Proof.Machine
end

section
/-! Proof of the statement on end requests, launch ends, step advances and die-set changes (R87, R90). -/
namespace Sys2Proof.Machine

-- One proof after another: the threads of many proofs at once do not fit the memory of the check.
set_option Elab.async false

section
variable {s t u : State}

/-! ### What an exit and a load leave of launches and memory -/

/-- Every partition keeps its launch slots, and memory its bytes. -/
structure State.SlotsStay (s t : State) : Prop where
  slots : ∀ n, (t.part n).slots = (s.part n).slots
  mem : t.mem = s.mem

theorem State.SlotsStay.refl (s : State) : s.SlotsStay s := ⟨fun _ => rfl, rfl⟩

theorem State.SlotsStay.trans (a : s.SlotsStay t) (b : t.SlotsStay u) : s.SlotsStay u :=
  ⟨fun n => (b.slots n).trans (a.slots n), b.mem.trans a.mem⟩

theorem State.SlotsStay.of_parts (hp : t.parts = s.parts) (hm : t.mem = s.mem) : s.SlotsStay t :=
  ⟨fun n => by rw [State.part, State.part, hp], hm⟩

theorem State.slotsStay_foldl {α : Type} {f : State → α → State} (h : ∀ (s : State) a, s.SlotsStay (f s a)) (l : List α) (s : State) :
    s.SlotsStay (l.foldl f s) := by
  induction l generalizing s with
  | nil => exact .refl s
  | cons a l ih => exact (h s a).trans (ih _)

theorem State.slotsStay_deadLetter (part : Nat) (c : Cause) : s.SlotsStay (s.deadLetter part c) := by
  refine ⟨fun n => ?_, rfl⟩
  by_cases hn : n = part
  · rw [hn, State.deadLetter, State.updPart_part_self]
  · rw [State.deadLetter, State.updPart_part_other _ _ _ _ hn]

theorem State.slotsStay_updInst (k : Nat) (f : Inst → Inst) : s.SlotsStay (s.updInst k f) :=
  .of_parts (State.updInst_parts _ _ _) (State.updInst_mem _ _ _)

theorem State.slotsStay_updCluster (c : Nat) (f : Cluster → Cluster) : s.SlotsStay (s.updCluster c f) := .of_parts rfl rfl

theorem State.slotsStay_putCore (c : Nat) (k : Core) : s.SlotsStay (s.putCore c k) := .of_parts rfl rfl

theorem State.slotsStay_exitInst (key : Nat) : s.SlotsStay (s.exitInst key) := by
  unfold State.exitInst
  split
  · exact .refl s
  · refine .trans ?_ (State.slotsStay_updInst _ _)
    have tokens (i : Inst) (c n : Nat) (k : Core) : s.SlotsStay ((span 0 n).foldl (fun s _ => s.deadLetter i.part .actorExited) (s.putCore c k)) :=
      (State.slotsStay_putCore c k).trans (State.slotsStay_foldl (fun s _ => State.slotsStay_deadLetter _ _) _ _)
    split
    · refine .trans ?_ (State.slotsStay_updCluster _ _)
      split
      · exact .refl s
      · exact tokens _ _ _ _
    · split
      · exact .refl s
      · exact tokens _ _ _ _

theorem State.slotsStay_exitIdle (part lslot : Nat) : s.SlotsStay (s.exitIdle part lslot) := by
  unfold State.exitIdle
  refine State.slotsStay_foldl (fun s key => ?_) _ s
  split
  · split
    · exact .refl s
    · exact State.slotsStay_exitInst key
  · exact .refl s

theorem State.loadCode_parts {d part image len : Nat} (h : s.loadCode d part image len = some t) : t.parts = s.parts := by
  unfold State.loadCode at h
  split at h
  · rw [← Option.some.inj h]
  · split at h
    · cases h
    · split at h
      · cases h
      · rw [← Option.some.inj h]
        rfl

theorem State.loadAll_parts {part image len : Nat} (l : List Nat) (h : s.loadAll part image len l = some t) : t.parts = s.parts := by
  induction l generalizing s with
  | nil => rw [← Option.some.inj h]
  | cons d r ih =>
    rw [State.loadAll] at h
    split at h
    · rename_i u hu
      exact (ih h).trans (State.loadCode_parts hu)
    · cases h

theorem State.quiesceAll_parts {cores : State → Inst → List Nat} (l : List (Nat × Inst)) (h : s.quiesceAll cores l = some t) :
    t.parts = s.parts := by
  induction l generalizing s with
  | nil => rw [← Option.some.inj h]
  | cons p r ih =>
    rw [State.quiesceAll] at h
    split at h
    · rename_i u hu
      have hparts : u.parts = s.parts := by
        unfold State.quiesce at hu
        split at hu
        · cases hu
        · split at hu
          · cases hu
          · rw [← Option.some.inj hu]
            exact State.updInst_parts _ _ _
      exact (ih h).trans hparts
    · cases h

/-! ### An end request (R90) -/

theorem State.calm_downDry (part lslot : Nat) : s.Calm (s.downDry part lslot) := by
  unfold State.downDry
  refine State.calm_foldl _ (fun s p => ?_) _ s
  split
  · split
    · split
      · exact State.calm_knockDown _ _ _ _
      · exact .refl s
    · exact .refl s
  · exact .refl s

theorem MemIs.congr {m : FMap Byte} (a : MemIs s m t) (h : u.mem = t.mem) : MemIs s m u :=
  ⟨fun x hx => by rw [← a.1 x hx, State.byte, h, State.byte], fun hs => h.trans (a.2 hs)⟩

theorem State.thin_of_cores (h : t.cores = s.cores) : s.Thin t := fun c => by
  rw [State.core, State.core, h]
  exact racksThin.refl _

/-- An end that has been noted in the launch's slot keeps it there; of memory only tokens behind speculative ones move. -/
theorem State.endLaunch_spec {part lslot : Nat} {l : Launch} (ht : t = s.updPart part fun p => { p with slots := FMap.put p.slots lslot l }) :
    FMap.find? (((t.downDry part lslot).exitIdle part lslot).part part).slots lslot = some l ∧
      MemIs s s.mem ((t.downDry part lslot).exitIdle part lslot) := by
  have hcalm := t.calm_downDry part lslot
  have hstay := (t.downDry part lslot).slotsStay_exitIdle part lslot
  have hcores : t.cores = s.cores := by rw [ht]; rfl
  have hmem : t.mem = s.mem := by rw [ht]; rfl
  refine ⟨?_, ?_⟩
  · rw [hstay.slots, State.part, hcalm.parts, ← State.part, ht, State.updPart_part_self]
    exact FMap.find_put_self _ _ _
  · exact ((MemIs.of_mem hmem).trans (State.thin_of_cores hcores) hcalm.mem).congr hstay.mem

end

section
variable {s : State} {part : Nat}

section
variable {u : State} {q : Req} (htake : s.takeReq (s.arg 0) = some (u, q)) (hbad : reqBad q.bytes = false) (hop : reqOp q.bytes = 2)
include htake hbad hop

theorem endRequest_refused (hl : u.liveLaunch (s.arg 0) (bits (reqRec q.bytes) 11 0) (bits (reqRec q.bytes) 23 12) = none) :
    exec .endRequest s = .next (u.reply (s.arg 0) (reqRep q.bytes) q.repc Cause.actorExited.code) := by
  rw [execEndRequest_taken htake hbad hop, hl]

theorem endRequest_marks {l : Launch} (hl : u.liveLaunch (s.arg 0) (bits (reqRec q.bytes) 11 0) (bits (reqRec q.bytes) 23 12) = some l)
    (hcores : u.cores = s.cores) (hmem : u.mem = s.mem) : ∃ t, exec .endRequest s = .next t ∧
      FMap.find? (t.part (s.arg 0)).slots (bits (reqRec q.bytes) 11 0) = some (l.endsFor q) ∧ MemIs s s.mem t := by
  rw [execEndRequest_taken htake hbad hop, hl]
  obtain ⟨hslot, hm⟩ := State.endLaunch_spec (s := u) (part := s.arg 0) (lslot := bits (reqRec q.bytes) 11 0) (l := l.endsFor q) rfl
  exact ⟨_, rfl, hslot, (MemIs.of_mem hmem).trans (State.thin_of_cores hcores) hm⟩

end

theorem lslot_eq (n : Nat) : bits n 11 0 = n % 2 ^ 12 := by simp [bits_eq]

/-- The state after a launch's end (R90). -/
def State.launchEnded (s : State) (part lslot : Nat) (l : Launch) (keys : List Nat) : State :=
  let s := s.hubInc part l.compl
  let s := l.endRep.foldl (fun s r => s.reply part r.1 r.2 (s.runWord part lslot l.mask)) s
  let s := s.updPart part fun p => { p with slots := FMap.put p.slots lslot { l with st := 5 } }
  let s := { s with insts := s.insts.filter fun p => !keys.contains p.1, credits := s.credits.filter fun x => !keys.contains x.1 }
  s.freeCode part

theorem State.launchEnded_slot (l : Launch) (lslot : Nat) (keys : List Nat) :
    FMap.find? ((s.launchEnded part lslot l keys).part part).slots lslot = some { l with st := 5 } := by
  have h (t : State) : FMap.find? ((t.updPart part fun p => { p with slots := FMap.put p.slots lslot { l with st := 5 } }).part part).slots lslot
      = some { l with st := 5 } := by
    rw [State.updPart_part_self]
    exact FMap.find_put_self _ _ _
  exact h _

/-- A launch whose instances have exited and whose commands have completed ends (R90). -/
theorem launchEnd_ends {l : Launch} {u : State} (hu : u = if l.ending then s.exitIdle (s.arg 0) (s.arg 1) else s)
    (hl : FMap.find? (s.part (s.arg 0)).slots (s.arg 1) = some l) (hlive : l.isLive = true) (hun : s.unreplied (s.arg 0) (s.arg 1) = false)
    (h0 : u.live (s.arg 0) (s.arg 1) = 0) (hidle : ∀ k ∈ u.instsOf (s.arg 0) (s.arg 1), u.engineIdle k = true)
    (hrep : ∀ r ∈ l.endRep, s.replyAway (s.arg 0) r.1 = false) :
    exec .launchEnd s = .next (u.launchEnded (s.arg 0) (s.arg 1) l (u.instsOf (s.arg 0) (s.arg 1))) := by
  have hall : (u.instsOf (s.arg 0) (s.arg 1)).all u.engineIdle = true := List.all_eq_true.mpr hidle
  have hany : (l.endRep.any fun r => s.replyAway (s.arg 0) r.1) = false := List.any_eq_false.mpr fun r hr => by simp [hrep r hr]
  change execLaunchEnd s = _
  unfold execLaunchEnd
  dsimp only
  rw [hl]
  dsimp only
  rw [if_neg (by simp [hlive, hun]), ← hu, if_neg (by simp [h0, hany, hall])]
  rfl

/-! ### A step advances (R87) -/

/-- Every `Inst` that a list names goes on from its step. -/
def State.advance (s : State) (l : List (Nat × Inst)) : State :=
  l.foldl (fun s p => (s.updInst p.1 fun i => { i with atStep := false }).wake p.1) s

theorem State.advance_parts (l : List (Nat × Inst)) : (s.advance l).parts = s.parts := by
  unfold State.advance
  induction l generalizing s with
  | nil => rfl
  | cons p r ih => exact ih.trans ((State.instsStay_wake p.1).parts.trans (State.updInst_parts _ _ _))

theorem State.advance_atStep (l : List (Nat × Inst)) {k : Nat} (h : (∃ p ∈ l, p.1 = k) ∨ ∀ j, FMap.find? s.insts k = some j → j.atStep = false) :
    ∀ j, FMap.find? (s.advance l).insts k = some j → j.atStep = false := by
  unfold State.advance
  induction l generalizing s with
  | nil =>
    obtain ⟨p, hp, -⟩ | h := h
    · cases hp
    · exact h
  | cons p r ih =>
    refine ih ?_
    by_cases hr : ∃ q ∈ r, q.1 = k
    · exact .inl hr
    refine .inr fun j hj => ?_
    obtain ⟨i, hi, he⟩ := (State.instsStay_wake p.1).find hj
    have hat : j.atStep = i.atStep := (congrArg Inst.atStep he :)
    rw [hat]
    by_cases hk : k = p.1
    · rw [hk, State.updInst_find_self] at hi
      obtain ⟨x, -, hx⟩ := Option.map_eq_some_iff.mp hi
      rw [← hx]
    · rw [State.updInst_find_other _ _ _ _ hk] at hi
      obtain ⟨q, hq, hqk⟩ | h := h
      · obtain rfl | hq := List.mem_cons.mp hq
        · exact absurd hqk.symm hk
        · exact absurd ⟨q, hq, hqk⟩ hr
      · exact h i hi

theorem stepAdvance_advances {l : Launch} (hl : FMap.find? (s.part (s.arg 0)).slots (s.arg 1) = some l) (hlive : l.isLive = true)
    (hall : s.allStepped (s.arg 0) (s.arg 1) = true)
    (hmove : ∀ p ∈ s.steppers (s.arg 0) (s.arg 1), p.2.st ≠ .quiesce ∧ p.2.st ≠ .stream ∧ p.2.st ≠ .switching) :
    ∃ t, exec .stepAdvance s = .next t ∧
      FMap.find? (t.part (s.arg 0)).slots (s.arg 1) = some { l with st := 3, step := (l.step + 1) % 65536 } ∧
      ∀ p ∈ s.steppers (s.arg 0) (s.arg 1), ∀ j, FMap.find? t.insts p.1 = some j → j.atStep = false := by
  have hany : ((s.steppers (s.arg 0) (s.arg 1)).any fun (p : Nat × Inst) => p.2.st = .quiesce || p.2.st = .stream || p.2.st = .switching) = false :=
    List.any_eq_false.mpr fun p hp => by simpa [and_assoc] using hmove p hp
  let u := s.updPart (s.arg 0) fun p => { p with slots := FMap.put p.slots (s.arg 1) { l with st := 3, step := (l.step + 1) % 65536 } }
  refine ⟨u.advance (s.steppers (s.arg 0) (s.arg 1)), ?_, ?_, fun p hp => State.advance_atStep _ (.inl ⟨p, hp, rfl⟩)⟩
  · change execStepAdvance s = _
    unfold execStepAdvance
    dsimp only
    rw [hl]
    dsimp only
    rw [if_neg (by simp [hlive, hall, hany])]
    rfl
  · rw [State.part, State.advance_parts, ← State.part, State.updPart_part_self]
    exact FMap.find_put_self _ _ _

/-! ### The die set changes (R87) -/

/-- The launch with its new die set. -/
def Launch.onDies (l : Launch) (dies : List Nat) : Launch := { l with dies := dies, st := 4 }

/-- The instances at their step boundary that stand off a set of dies. -/
def State.offDies (s : State) (part lslot : Nat) (dies : List Nat) : List (Nat × Inst) :=
  (s.steppers part lslot).filter fun p => p.2.st = .home && (match p.2.core with | some c => !dies.contains (dieOf c) | none => false)

theorem dieSetChange_turn {l : Launch} {dies : List Nat} (hl : FMap.find? (s.part (s.arg 0)).slots (s.arg 1) = some l)
    (hlive : l.isLive = true) (hrect : l.rect = false) (hall : s.allStepped (s.arg 0) (s.arg 1) = true)
    (hdies : dies = (span 0 4).filter (bit (s.arg 2))) (hmin : fieldAt l.head 0x10 1 ≤ dies.length) (hmax : dies.length ≤ fieldAt l.head 0x11 1)
    (hin : ∀ d ∈ dies, d ∈ s.allotDies (s.arg 0) l.memory) : exec .dieSetChange s =
    match (s.updPart (s.arg 0) fun p => { p with slots := FMap.put p.slots (s.arg 1) (l.onDies dies) }).loadAll (s.arg 0)
      (fieldAt l.head 0 8) (fieldAt l.head 8 4) dies with
    | none => .next s
    | some w => match w.quiesceAll (fun t i => t.coolest i (t.tries (l.onDies dies) i)) (s.offDies (s.arg 0) (s.arg 1) dies) with
      | some u => .next u
      | none => .next s := by
  subst hdies
  have hsub : ∀ d ∈ span 0 4, bit (s.arg 2) d = true → d ∈ s.allotDies (s.arg 0) l.memory := fun d hd hb =>
    hin d (List.mem_filter.mpr ⟨hd, hb⟩)
  change execDieSetChange s = _
  unfold execDieSetChange
  dsimp only
  rw [hl]
  dsimp only
  rw [if_neg (by simpa [hlive, hrect, hall, Nat.not_lt.mpr hmin, Nat.not_lt.mpr hmax] using hsub)]
  rfl

theorem dieSetChange_slot {l : Launch} {dies : List Nat} {w u : State} {cores : State → Inst → List Nat} {off : List (Nat × Inst)}
    (hw : (s.updPart (s.arg 0) fun p => { p with slots := FMap.put p.slots (s.arg 1) (l.onDies dies) }).loadAll (s.arg 0)
      (fieldAt l.head 0 8) (fieldAt l.head 8 4) dies = some w) (hu : w.quiesceAll cores off = some u) :
    FMap.find? (u.part (s.arg 0)).slots (s.arg 1) = some (l.onDies dies) := by
  rw [State.part, State.quiesceAll_parts _ hu, State.loadAll_parts _ hw, ← State.part, State.updPart_part_self]
  exact FMap.find_put_self _ _ _

end

/-- Settles O48: each step by its own lemma; a knock-down moves only tokens behind speculative ones, an exit no byte. -/
theorem launchEndSteps : Obligations.LaunchEndSteps := by
  intro s part hpart
  subst hpart
  refine ⟨fun q rest hq ha hbad hop => ?_, fun l hl hlive hun h0 hidle hrep => ?_, fun l hl hlive hall hmove =>
    stepAdvance_advances hl hlive hall hmove, fun l dies u hl hlive hrect hall hdies hmin hmax hin w hw hu =>
    ⟨u, ?_, dieSetChange_slot hw hu⟩⟩
  · have htake := State.takeReq_taken hq ha
    rw [← lslot_eq]
    refine ⟨fun l hl => ?_, endRequest_refused htake hbad hop⟩
    obtain ⟨t, ht, hslot, hm⟩ := endRequest_marks htake hbad hop hl rfl rfl
    exact ⟨t, _, ht, hslot, rfl, rfl, hm⟩
  · exact ⟨_, launchEnd_ends rfl hl hlive hun h0 hidle hrep, State.launchEnded_slot _ _ _⟩
  · have hw' : (s.updPart (s.arg 0) fun p => { p with slots := FMap.put p.slots (s.arg 1) (l.onDies dies) }).loadAll (s.arg 0)
        (fieldAt l.head 0 8) (fieldAt l.head 8 4) dies = some w := hw
    have hu' : w.quiesceAll (fun t i => t.coolest i (t.tries (l.onDies dies) i)) (s.offDies (s.arg 0) (s.arg 1) dies) = some u := hu
    rw [dieSetChange_turn hl hlive hrect hall hdies hmin hmax hin, hw']
    dsimp only
    rw [hu']

end Sys2Proof.Machine
end

section
/-! Proof of the statement on the states of a migration (R108, R109, R381). -/
namespace Sys2Proof.Machine

-- One proof after another: the threads of many proofs at once do not fit the memory of the check.
set_option Elab.async false

/-! ### The heat of clusters (R108) -/

/-- Cores listed by the heat of their clusters stand in its order. -/
theorem heatOrder (heat : Nat → Nat) (l : List Nat) (m k : Nat) {d : Nat} {e : List Nat}
    (h : (span k m).flatMap (fun n => l.filter fun x => heat x = n) = d :: e) : ∀ x ∈ l, k ≤ heat x → heat x < k + m → heat d ≤ heat x := by
  induction m generalizing k with
  | zero => exact fun x _ h1 h2 => absurd h2 (Nat.not_lt.mpr h1)
  | succ m ih =>
    intro x hx h1 h2
    rw [span, List.flatMap_cons] at h
    cases hf : l.filter fun x => heat x = k with
    | nil =>
      have hne : heat x ≠ k := fun hk => by simpa [hk] using List.filter_eq_nil_iff.mp hf x hx
      rw [hf, List.nil_append] at h
      exact ih (k + 1) h x hx (by omega) (by omega)
    | cons y r =>
      rw [hf, List.cons_append] at h
      obtain ⟨rfl, -⟩ := List.cons.inj h
      have hy : y ∈ l.filter fun x => heat x = k := by rw [hf]; exact List.mem_cons_self
      have : heat y = k := by simpa using (List.mem_filter.mp hy).2
      omega

section
variable {s : State} {i : Inst} {c : Nat} (hi : FMap.find? s.insts (s.arg 0) = some i)

theorem State.byHeat_least {l e : List Nat} {d x : Nat} (h : s.byHeat l = d :: e) (hx : x ∈ l) (hheat : s.heat (clusterOf x) ≤ 16) :
    s.heat (clusterOf d) ≤ s.heat (clusterOf x) := heatOrder (fun x => s.heat (clusterOf x)) l 17 0 h x hx (Nat.zero_le _) (by omega)

/-- A core of the coolest clusters has room. -/
theorem State.coolest_roomy {l : List Nat} {d : Nat} (h : d ∈ s.coolest i l) : d ∈ s.roomy i l := by
  have hd : d ∈ s.byHeat (s.roomy i l) := (List.mem_filter.mp h).1
  obtain ⟨n, -, hn⟩ := List.mem_flatMap.mp hd
  exact (List.mem_filter.mp hn).1

include hi

/-! ### The states of a move -/

/-- An `Inst` that is chosen for a move to a core with room. -/
theorem State.quiesce_chosen {l : List Nat} {d : Nat} (h : d ∈ s.coolest i l) :
    s.quiesce (s.arg 0) [d] = some (s.updInst (s.arg 0) fun i => { i with st := .quiesce, dest := some d }) := by
  have hroom : s.roomy i [d] = [d] := List.filter_eq_self.mpr fun x hx => by
    rw [List.mem_singleton.mp hx]
    exact (List.mem_filter.mp (State.coolest_roomy h)).2
  unfold State.quiesce
  rw [hi]
  dsimp only
  rw [hroom]
  rfl

theorem migrationQuiesce_turn (hc : i.core = some c) (hst : i.st = .home) (hb : i.busy = false) : exec .migrationQuiesce s =
    if ((s.core c).draining = true ∨ i.atStep = true ∧ 8 ≤ s.heat (clusterOf c)) ∧ s.arg 1 ∈ s.coolCores i c (s.core c).draining then
      .next ((s.updInst (s.arg 0) fun i => { i with st := .quiesce, dest := some (s.arg 1) }).updInst (s.arg 0)
        fun x => { x with forced := (s.core c).draining })
    else .next s := by
  change execMigrationQuiesce s = _
  unfold execMigrationQuiesce
  dsimp only
  rw [hi]
  dsimp only
  have hleave : (i.core.isSome && (s.core (i.core.getD 0)).draining) = (s.core c).draining := by rw [hc]; rfl
  rw [hleave, hc, hst, hb]
  by_cases hgo : ((s.core c).draining = true ∨ i.atStep = true ∧ 8 ≤ s.heat (clusterOf c)) ∧ s.arg 1 ∈ s.coolCores i c (s.core c).draining
  · rw [if_pos hgo, if_neg (by simpa [or_iff_not_imp_left] using hgo), State.quiesce_chosen hi hgo.2]
  · rw [if_neg hgo, if_pos (by simpa [or_iff_not_imp_left] using hgo)]
    rfl

theorem migrationStream_swaps (hc : i.core = some c) (hst : i.st = .quiesce) (hb : i.busy = false) (he : s.engineIdle (s.arg 0) = true) :
    exec .migrationStream s = .next ((s.updInst (s.arg 0) fun x => { x with st := .stream }).updCore c
      fun k => { k with runq := k.runq.filter (·.inst ≠ s.arg 0) }) := by
  change execMigrationStream s = _
  unfold execMigrationStream
  dsimp only
  rw [hi]
  dsimp only
  rw [hc]
  dsimp only
  rw [if_neg (by simp [hst, hb, he])]

theorem migrationSwitch_moves {u : State} (hc : i.core = some c) (hst : i.st = .stream)
    (hu : s.moveTo (s.arg 0) ((i.dest.toList ++ s.byHeat (s.roomy i (s.targets i c i.forced))).filter fun d => s.allotted i.part d) = some u) :
    exec .migrationSwitch s = .next (u.switchFrom (s.arg 0) c) := by
  change execMigrationSwitch s = _
  unfold execMigrationSwitch
  dsimp only
  rw [hi]
  dsimp only
  rw [hc]
  dsimp only
  rw [if_neg (by simp [hst]), hu]

theorem placementTableRewrite_rewrites (hc : i.core = some c) (hst : i.st = .switching) (hn : s.arg 1 ≤ 5) :
    exec .placementTableRewrite s = .next ((s.updInst (s.arg 0) fun x => { x with
      tables := FMap.put i.tables (s.arg 1) c,
      st := if (span 0 6).all fun n => FMap.find? (FMap.put i.tables (s.arg 1) c) n = some c then .drain else .switching }).wake (s.arg 0)) := by
  change execPlacementTableRewrite s = _
  unfold execPlacementTableRewrite
  dsimp only
  rw [hi]
  dsimp only
  rw [hc]
  dsimp only
  rw [if_neg (by simp [hst, Nat.not_lt.mpr hn])]

theorem drainMarker_arrives (hm : i.moving = true) (hn : s.arg 1 ∉ i.markers) (hc : i.core.isSome = true)
    (ht : FMap.find? i.tables (s.arg 1) = i.core) :
    exec .drainMarker s = .next (s.updInst (s.arg 0) fun x => { x with markers := s.arg 1 :: x.markers }) := by
  change execDrainMarker s = _
  unfold execDrainMarker
  dsimp only
  rw [hi]
  dsimp only
  have hsome : i.core ≠ none := Option.isSome_iff_ne_none.mp hc
  rw [if_neg (by simp [hm, hn, hsome, ht])]

theorem drainMessage_ends (hst : i.st = .drain) (hm : ∀ n, n < 6 → n ∈ i.markers) :
    exec .drainMessage s = .next (((s.ringFree i.part (s.arg 0)).updInst (s.arg 0) fun x =>
      { x with st := .home, fwd := none, dest := none, markers := [], forced := false }).wake (s.arg 0)) := by
  have hall : ((span 0 6).all i.markers.contains) = true := List.all_eq_true.mpr fun n hn => by
    simpa using hm n (by simpa using (mem_span.mp hn).2)
  change execDrainMessage s = _
  unfold execDrainMessage
  dsimp only
  rw [hi]
  dsimp only
  rw [if_neg (by simp [hst, hall])]

end

/-! ### What an `Inst` shows after a step of its move -/

section
variable {s t : State} {i : Inst} {key : Nat}

theorem State.updInst_shows (hi : FMap.find? s.insts key = some i) (f : Inst → Inst) : FMap.find? (s.updInst key f).insts key = some (f i) := by
  rw [State.updInst_find_self, hi]
  rfl

/-- A record that is written before an `Inst` wakes still stands, but for the time since which it waits. -/
theorem State.woken_shows (hi : FMap.find? s.insts key = some i) (f : Inst → Inst) :
    ∃ j, FMap.find? ((s.updInst key f).wake key).insts key = some j ∧ j.rested = (f i).rested :=
  (State.instsStay_wake (s := s.updInst key f) key).find_some (State.updInst_shows hi f)

theorem State.ringFree_insts (part : Nat) : (s.ringFree part key).insts = s.insts := by
  have fold (l : List Nat) (f : State → Nat → State) (h : ∀ s d, (f s d).insts = s.insts) (s : State) : (l.foldl f s).insts = s.insts := by
    induction l generalizing s with
    | nil => rfl
    | cons d r ih => exact (ih _).trans (h s d)
  exact fold _ _ (fun s d => by split <;> rfl) s

theorem State.switchFrom_shows {j : Inst} {old : Nat} (hj : FMap.find? s.insts key = some j) :
    ∃ k, FMap.find? (s.switchFrom key old).insts key = some k ∧ k.st = .switching ∧ k.fwd = some old ∧ k.core = j.core ∧
      k.tables = (span 0 6).map fun t => (t, old) := by
  unfold State.switchFrom
  rw [hj]
  dsimp only
  rw [State.updInst_find_self]
  exact ⟨_, congrArg _ hj, rfl, rfl, rfl, rfl⟩

end

/-- Settles O49: each state of a move by its own lemma, the order of heat by induction over the seventeen values it takes. -/
theorem migrationSteps : Obligations.MigrationSteps := by
  intro s key i hkey hi
  subst hkey
  refine ⟨fun c hc hst hb => ?_, fun c hc hst hb he => ?_, fun c u hc hst hu => ?_, fun c d u hc hst hd ha hu => ?_, fun l d e h x hx hheat =>
    State.byHeat_least h hx hheat, fun c hc hst hn => ?_, fun hm hn hc ht => ?_, fun hst hm => ?_⟩
  · have hturn := migrationQuiesce_turn hi hc hst hb
    refine ⟨fun hgo => ⟨fun hmem => ?_, fun hmem => ?_⟩, fun hleave hcool => ?_⟩
    · rw [if_pos ⟨hgo, hmem⟩] at hturn
      refine ⟨_, _, hturn, State.updInst_shows (State.updInst_shows hi _) _, rfl, rfl, rfl, ?_⟩
      rw [State.updInst_mem, State.updInst_mem]
    · rw [hturn, if_neg fun h => hmem h.2]
    · rw [hturn, if_neg]
      rintro ⟨h | ⟨-, h⟩, -⟩
      · exact absurd (h.symm.trans hleave) (by decide)
      · omega
  · refine ⟨_, _, migrationStream_swaps hi hc hst hb he, State.updInst_shows hi _, rfl, fun e he => ?_⟩
    rw [State.updCore_core_self] at he
    simpa using (List.mem_filter.mp he).2
  · exact ⟨migrationSwitch_moves hi hc hst hu, fun j hj => State.switchFrom_shows hj⟩
  · refine migrationSwitch_moves hi hc hst ?_
    have ha' : s.allotted i.part d = true := ha
    rw [hd, Option.toList_some, List.singleton_append, List.filter_cons_of_pos ha', State.moveTo, hu]
  · obtain ⟨j, hj, he⟩ := State.woken_shows hi fun x => { x with
      tables := FMap.put i.tables (s.arg 1) c,
      st := if (span 0 6).all fun n => FMap.find? (FMap.put i.tables (s.arg 1) c) n = some c then .drain else .switching }
    have htables : j.tables = FMap.put i.tables (s.arg 1) c := (congrArg Inst.tables he :)
    refine ⟨_, j, placementTableRewrite_rewrites hi hc hst hn, hj, ?_, (congrArg Inst.st he :)⟩
    rw [htables, FMap.find_put_self]
  · exact ⟨_, _, drainMarker_arrives hi hm hn hc ht, State.updInst_shows hi _, rfl⟩
  · have hfree : FMap.find? (s.ringFree i.part (s.arg 0)).insts (s.arg 0) = some i := by rw [State.ringFree_insts, hi]
    obtain ⟨j, hj, he⟩ := State.woken_shows hfree fun x => { x with st := .home, fwd := none, dest := none, markers := [], forced := false }
    exact ⟨_, j, drainMessage_ends hi hst hm, hj, (congrArg Inst.st he :), (congrArg Inst.fwd he :), (congrArg Inst.dest he :)⟩

end Sys2Proof.Machine
end

section
/-! Proof of the statement on the Dovetail tree (R326, R331-R333). -/
namespace Sys2Proof.Machine

-- One proof after another: the threads of many proofs at once do not fit the memory of the check.
set_option Elab.async false

/-! ### Combining (R331) -/

/-- A running value is combined element by element. -/
theorem dvCombine_zip (d : List Byte) (a b : List Nat) : (dvCombine d a b).1 = List.zipWith (fun x y => (dvOne d x y).1) a b := by
  induction a generalizing b with
  | nil => rw [dvCombine]; rfl; simp
  | cons x r ih =>
    cases b with
    | nil => rw [dvCombine]; rfl; simp
    | cons y q => rw [dvCombine, List.zipWith_cons_cons, ← ih]

theorem dvOne_sum {d : List Byte} (ht : gType d = 0) (ho : gOp d = 0) (x y : Nat) : dvOne d x y = ((x + y) % 2 ^ 32, 0) := by
  rw [dvOne, if_pos ht, ho]
  rfl

section
variable {s : State} {c : Nat}

/-! ### The injection queue (R333) -/

theorem State.dvAdmit_idle (h : s.dvWaiting c = [] ∨ 64 ≤ s.dvHeld c) : s.dvAdmit c = s := by
  unfold State.dvAdmit
  obtain h | h := h
  · rw [h]
  · split
    · rfl
    · exact if_pos h

theorem State.dvAdmit_last {y : Nat} (hw : s.dvWaiting c = [y]) (hh : s.dvHeld c < 64) : (s.dvAdmit c).dvWaiting c = [] := by
  have hborn : ∀ v ∈ s.dvs, ∀ x ∈ v.inj, x.core = c → x.waits = true → x.born = y := fun v hv x hx hc hwait => by
    have : x.born ∈ s.dvWaiting c :=
      List.mem_flatMap.mpr ⟨v, hv, List.mem_map.mpr ⟨x, List.mem_filter.mpr ⟨hx, by simp [hc, hwait]⟩, rfl⟩⟩
    rw [hw] at this
    exact List.mem_singleton.mp this
  unfold State.dvAdmit
  rw [hw]
  dsimp only
  rw [if_neg (Nat.not_le.mpr hh)]
  refine List.flatMap_eq_nil_iff.mpr fun w hw' => ?_
  obtain ⟨v, hv, rfl⟩ := List.mem_map.mp hw'
  refine List.map_eq_nil_iff.mpr (List.filter_eq_nil_iff.mpr fun x hx => ?_)
  obtain ⟨z, hz, rfl⟩ := List.mem_map.mp hx
  by_cases hgo : z.core = c ∧ z.waits = true
  · have := hborn v hv z hz hgo.1 hgo.2
    simp [hgo, this]
  · have hno : (decide (z.core = c) && z.waits && decide (z.born = [].foldl min y)) = false := by
      simp only [not_and_or, Bool.not_eq_true] at hgo
      obtain h | h := hgo <;> simp [h]
    rw [if_neg (by rw [hno]; decide)]
    simpa using hgo

end

section
variable {s : State} {v : Dv} {d : List Byte} (hv : s.dvs[s.arg 0]? = some v) (hd : (s.group v.part v.grp).desc = d) (ha : v.alone = false)
include hv hd ha

/-! ### Partials arrive (R331) -/

theorem dovetailCombine_contributes (hn : s.arg 1 < 0x10000) :
    exec .dovetailCombine s = s.dvContribute (s.arg 0) v d (s.arg 1) (s.arg 2) := by
  change execDovetailCombine s = _
  unfold execDovetailCombine
  dsimp only
  rw [hv]
  dsimp only
  rw [hd, ha, if_neg Bool.false_ne_true, if_pos hn]

section
variable {k : Nat} {x : DvInj} (hn : s.arg 1 < 0x10000) (hf : v.inj.findIdx? (fun x => x.core = s.arg 2 && !x.read && !x.done) = some k)
  (hk : v.inj[k]? = some x)
include hn hf hk

/-- An injection in the issue queue is not read. -/
theorem dovetailCombine_waits (hw : x.waits = true) : exec .dovetailCombine s = .next s := by
  rw [dovetailCombine_contributes hv hd ha hn, State.dvContribute, hf]
  dsimp only
  rw [hk]
  dsimp only
  rw [if_pos (by simp [hw])]
  rfl

/-- An entry whose contribution is not read, or whose piece has failed, only leaves the queue. -/
theorem dovetailCombine_leaves (hc : clusterOf (s.arg 2) = s.arg 1) (hw : x.waits = false)
    (hbad : v.bad.isSome = true ∨ eReads d x.entry (gRank d (s.arg 2)) = false) : exec .dovetailCombine s =
      .next ((s.putDv (s.arg 0) { v with inj := replaceAt v.inj k { x with read := true } }).dvAdmit (s.arg 2)) := by
  rw [dovetailCombine_contributes hv hd ha hn, State.dvContribute, hf]
  dsimp only
  rw [hk]
  dsimp only
  rw [if_neg (by simp [hc, hw]), if_pos (by simpa using hbad)]

/-- A member's contribution arrives at its cluster node, as memory holds it. -/
theorem dovetailCombine_arrives {b : List Byte} (hc : clusterOf (s.arg 2) = s.arg 1) (hw : x.waits = false) (hbad : v.bad = none)
    (hr : eReads d x.entry (gRank d (s.arg 2)) = true) (hb : s.dvRead v.part x = some b) : exec .dovetailCombine s =
      .next ((s.putDv (s.arg 0) (({ v with inj := replaceAt v.inj k { x with read := true } } : Dv).arrive d (s.arg 1) (s.arg 2)
        (dvElems d b))).dvAdmit (s.arg 2)) := by
  rw [dovetailCombine_contributes hv hd ha hn, State.dvContribute, hf]
  dsimp only
  rw [hk]
  dsimp only
  rw [if_neg (by simp [hc, hw]), if_neg (by simp [hbad, hr]), hb]

end

/-- A node's value arrives at the node above. -/
theorem dovetailCombine_climbs {l : List Nat} (hbad : v.bad = none) (hn : ¬ s.arg 1 < 0x10000)
    (hfull : v.full d (if s.arg 1 = rootNode then dieNode (s.arg 2) else s.arg 2) = some l)
    (hfits : (if s.arg 1 = rootNode then decide (s.arg 2 < 4) && gTop d = rootNode
      else decide (s.arg 2 < 0x10000) && s.arg 1 = dieNode (s.arg 2 / 128)) = true)
    (hhas : v.has (s.arg 1) (s.arg 2) = false) : exec .dovetailCombine s = .next (s.putDv (s.arg 0) (v.arrive d (s.arg 1) (s.arg 2) l)) := by
  change execDovetailCombine s = _
  unfold execDovetailCombine
  dsimp only
  rw [hv]
  dsimp only
  rw [hd, ha, if_neg Bool.false_ne_true, if_neg hn, hbad, hfull, hfits, hhas]
  rfl

omit hd ha in
theorem State.putDv_get (w : Dv) : (s.putDv (s.arg 0) w).dvs[s.arg 0]? = some w := by
  have (l : List Dv) (n : Nat) (h : l[n]? = some v) : (replaceAt l n w)[n]? = some w := by
    induction l generalizing n with
    | nil => simp at h
    | cons y r ih =>
      cases n with
      | zero => rfl
      | succ n => exact ih n (by simpa using h)
  exact this _ _ hv

end

/-! ### A member's completion (R332) -/

section
variable {s t u : State}

/-- No counter changes. -/
def State.CountersStay (s t : State) : Prop := ∀ k, t.counterVal k = s.counterVal k

theorem State.CountersStay.trans (a : s.CountersStay t) (b : t.CountersStay u) : s.CountersStay u := fun k => (b k).trans (a k)

theorem State.countersStay_of_cores (h : t.cores = s.cores) : s.CountersStay t := fun k => by rw [State.counterVal, State.counterVal, State.core, State.core, h]

theorem State.countersStay_foldl {α : Type} {f : State → α → State} (h : ∀ (s : State) a, s.CountersStay (f s a)) (l : List α) (s : State) :
    s.CountersStay (l.foldl f s) := by
  induction l generalizing s with
  | nil => exact fun _ => rfl
  | cons a l ih => exact (h s a).trans (ih _)

theorem State.countersStay_land (c scope kind src : Nat) (w : List (Nat × Byte × Byte)) : s.CountersStay (s.land c scope kind src w) := fun k => by
  rw [State.counterVal, (State.land_core s c scope kind src w k.1).mb]
  rfl

theorem State.countersStay_dvDeliver (v : Dv) (d b : List Byte) (x : DvInj) : s.CountersStay (s.dvDeliver v d b x) := by
  unfold State.dvDeliver
  split
  · exact fun _ => rfl
  · refine State.countersStay_foldl (fun s i => ?_) _ s
    split
    · exact State.countersStay_land _ _ _ _ _
    · exact fun _ => rfl

theorem State.dvAdmit_cores (c : Nat) : (s.dvAdmit c).cores = s.cores := by
  unfold State.dvAdmit
  split
  · rfl
  · split <;> rfl

/-- What the first completion of an `Inst` does once leaves every counter. -/
theorem State.countersStay_dvFirst (n : Nat) (v : Dv) (d : List Byte) : s.CountersStay (s.dvFirst n v d) := by
  unfold State.dvFirst
  split
  · exact fun _ => rfl
  · have lead : s.CountersStay (match v.result d with
        | some b => (v.inj.filter (v.leads d)).foldl (fun (s : State) x => s.dvDeliver v d b x) s
        | none => s) := by
      split
      · exact State.countersStay_foldl (fun s x => State.countersStay_dvDeliver _ _ _ _) _ s
      · exact fun _ => rfl
    refine lead.trans (State.countersStay_of_cores ?_)
    dsimp only
    split <;> rfl

/-- A member's post adds INC. -/
theorem State.dvMember_counter {v : Dv} {d : List Byte} {x : DvInj} {c m : Nat} (hx : gXq d = false) (hc : x.cnt = some (c, m)) (hp : x.peng = false) :
    (s.dvMember v d x).counterVal (c, m) = (s.counterVal (c, m) + eInc x.entry) % 2 ^ 32 := by
  have own : s.CountersStay (match v.result d with
      | some b => if v.leads d x then s else s.dvDeliver v d b x
      | none => s) := by
    split
    · split
      · exact fun _ => rfl
      · exact State.countersStay_dvDeliver _ _ _ _
    · exact fun _ => rfl
  unfold State.dvMember
  dsimp only
  rw [hx, Bool.and_false, if_neg Bool.false_ne_true, hp, if_neg Bool.false_ne_true, hc]
  dsimp only
  refine (State.applyPost_counter _ _).trans ((congrArg (fun n => (n + eInc x.entry % 2 ^ 32) % 2 ^ 32) (own (c, m))).trans ?_)
  rw [Nat.add_mod_mod]

theorem State.away_of_all (h : (s.cores.all fun p => !p.2.takeover) = true) (l : List Nat) : s.away l = false := by
  have : (s.cores.any fun (p : Nat × Core) => p.2.takeover) = false := List.any_eq_false.mpr fun p hp => by
    simpa using List.all_eq_true.mp h p hp
  rw [State.away, this, Bool.false_and]

theorem dovetailCompletion_posts {v : Dv} {d : List Byte} (hv : s.dvs[s.arg 0]? = some v) (hd : (s.group v.part v.grp).desc = d)
    (ha : v.alone = false) {k c m : Nat} {x : DvInj} (hf : v.inj.findIdx? (fun x => x.core = s.arg 1 && !x.done && !x.waits) = some k)
    (hk : v.inj[k]? = some x) (htk : (s.core (s.arg 1)).takeover = false) (haway : s.cntAway x.cnt = false)
    (hall : (s.cores.all fun p => !p.2.takeover) = true) (hn : gCount d ≤ v.inj.length)
    (hres : v.bad.isSome = true ∨ (v.result d).isSome = true) (hx : gXq d = false) (hc : x.cnt = some (c, m)) (hp : x.peng = false) :
    ∃ t, exec .dovetailCompletion s = .next t ∧ t.counterVal (c, m) = (s.counterVal (c, m) + eInc x.entry) % 2 ^ 32 := by
  let w : Dv := { v with inj := replaceAt v.inj k { x with done := true, read := true }, noticed := true }
  let u := s.dvFirst (s.arg 0) v d
  let u' := if w.inj.all (·.done) then { u with dvs := u.dvs.eraseIdx (s.arg 0) } else u.putDv (s.arg 0) w
  have hcores : u'.cores = u.cores := by
    change (if w.inj.all (·.done) then _ else _ : State).cores = _
    split <;> rfl
  have hnone : (v.bad.isNone && (v.result d).isNone) = false := by
    rw [← Option.not_isSome, ← Option.not_isSome]
    obtain h | h := hres <;> simp [h]
  have hd' : (if v.alone = true then [] else (s.group v.part v.grp).desc) = d := (if_neg (by simp [ha])).trans hd
  refine ⟨(u'.dvMember w d x).dvAdmit (s.arg 1), ?_, ?_⟩
  · change execDovetailCompletion s = _
    unfold execDovetailCompletion
    dsimp only
    rw [hv]
    dsimp only
    rw [hf]
    dsimp only
    rw [hk]
    dsimp only
    rw [if_neg (by simp [htk, haway, State.away_of_all hall]), hd', if_neg (by simp [hn, hnone, hx])]
  · rw [State.countersStay_of_cores (State.dvAdmit_cores _), State.dvMember_counter hx hc hp, State.countersStay_of_cores hcores,
      State.countersStay_dvFirst]

end

/-- Settles O50: the branches of a partial's arrival one by one, and a completion's post after results that leave every counter. -/
theorem collectiveSteps : Obligations.CollectiveSteps := by
  intro s v hv d
  refine ⟨fun k x ha hn hf hk hw => dovetailCombine_waits hv rfl ha hn hf hk hw, fun k x ha hbad hn hc hf hk hw =>
    dovetailCombine_leaves hv rfl ha hn hf hk hc hw hbad, fun c h => State.dvAdmit_idle h, fun c y hw hh => State.dvAdmit_last hw hh,
    fun k x b ha hbad hn hc hf hk hw hr hb => dovetailCombine_arrives hv rfl ha hn hf hk hc hw hbad hr hb, fun l ha hbad h1 h2 hroot hfull hhas => ?_,
    fun l ha hbad h1 h2 htop hfull hhas => ?_, fun a b => ⟨dvCombine_zip d a b, dvOne_sum⟩,
    fun k x c m ha hf hk htk haway hall hn hres hx hc hp => dovetailCompletion_posts hv rfl ha hf hk htk haway hall hn hres hx hc hp⟩
  · refine ⟨_, dovetailCombine_climbs hv rfl ha hbad (by rw [h1, dieNode]; omega) (by rw [if_neg hroot, hfull]) ?_ hhas, rfl, State.putDv_get hv _⟩
    rw [if_neg hroot]
    simp [h2, h1]
  · refine ⟨_, dovetailCombine_climbs hv rfl ha hbad (by rw [h1, rootNode]; omega) (by rw [if_pos h1, hfull]) ?_ (by rw [h1, hhas]), rfl, ?_⟩
    · rw [if_pos h1]
      rw [htop, decide_eq_true h2]
      rfl
    · rw [h1]
      exact State.putDv_get hv _

end Sys2Proof.Machine
end

section
/-! Proof of the statement on the transport engine (R337-R340). -/
namespace Sys2Proof.Machine

-- One proof after another: the threads of many proofs at once do not fit the memory of the check.
set_option Elab.async false

/-- What a table reads as is the default, or stands in it. -/
theorem FMap.get_default_or_mem {V : Type} (d : V) (m : FMap V) (k : Nat) : FMap.get d m k = d ∨ (k, FMap.get d m k) ∈ m := by
  induction m with
  | nil => exact .inl rfl
  | cons p r ih =>
    obtain ⟨j, v⟩ := p
    rw [FMap.get]
    split
    · rename_i hk
      exact .inr (hk ▸ List.mem_cons_self)
    · split
      · exact .inl rfl
      · exact ih.imp id (List.mem_cons_of_mem _)

section
variable {s : State} {x : Xmsg}

theorem State.onNode_get (n : Nat) (f : Node → Node) :
    FMap.get Node.reset (s.onNode n f).hub.nodes n = f (FMap.get Node.reset s.hub.nodes n) := FMap.get_upd_self _ _ _ _

/-! ### Messages by their numbers -/

theorem State.xmsg?_num {n : Nat} (h : s.xmsg? n = some x) : x.num = n := by simpa using List.find?_some h

theorem State.putXmsg_get {y : Xmsg} {n : Nat} (h : s.xmsg? n = some x) (hn : y.num = x.num) : (s.putXmsg y).xmsg? n = some y := by
  have hx := State.xmsg?_num h
  have (l : List Xmsg) (h : l.find? (fun (x : Xmsg) => x.num = n) = some x) :
      (l.map fun (z : Xmsg) => if z.num = y.num then y else z).find? (fun (x : Xmsg) => x.num = n) = some y := by
    induction l with
    | nil => simp at h
    | cons z r ih =>
      by_cases hz : z.num = n
      · simp [hz, hn, hx]
      · simp only [List.find?_cons, hz, decide_false] at h
        have hzy : z.num ≠ y.num := by rwa [hn, hx]
        simp [hzy, hz, ih h]
  exact this s.xmsgs h

theorem State.xmsg?_gone {n : Nat} (h : s.xmsg? n = some x) {t : State} (ht : t.xmsgs = s.xmsgs.filter fun y => y.num ≠ x.num) :
    t.xmsg? n = none := by
  rw [State.xmsg?, ht, State.xmsg?_num h]
  refine List.find?_eq_none.mpr fun y hy => ?_
  simpa using (List.mem_filter.mp hy).2

/-! ### A message completes locally (R339) -/

/-- The state in which a completed message is no more, before its post. -/
def State.xGone (s : State) (x : Xmsg) : State :=
  let s := { s with xmsgs := s.xmsgs.filter fun (y : Xmsg) => y.num ≠ x.num }
  if x.uud || x.sent.isEmpty then s else s.onNode x.node fun n => { n with queue := n.queue - (x.sent.length - x.acked.length) }

theorem State.xGone_spec : (s.xGone x).xmsgs = (s.xmsgs.filter fun y => y.num ≠ x.num) ∧ (s.xGone x).cores = s.cores ∧ (s.xGone x).mem = s.mem := by
  unfold State.xGone
  dsimp only
  split <;> exact ⟨rfl, rfl, rfl⟩

/-- Its post. -/
def Xmsg.post (x : Xmsg) (c m : Nat) (bad : Option Cause) : Post :=
  ⟨agentOf x.core 5, c, m, fieldAt x.desc 0x28 4, bad.map fun e => (e.code, 5, x.bytesOf (if x.uud then x.sent.map (·.off) else x.acked))⟩

section
variable {c m : Nat} {bad : Option Cause} (hc : x.cnt = some (c, m)) (hp : x.peng = false)
include hc hp

theorem State.xDone_eq : s.xDone x bad = (s.xGone x).applyPost (x.post c m bad) := by
  unfold State.xDone
  dsimp only
  rw [hp, if_neg Bool.false_ne_true, if_neg Bool.false_ne_true, hc]
  rfl

theorem State.xDone_counter : (s.xDone x bad).counterVal (c, m) = (s.counterVal (c, m) + fieldAt x.desc 0x28 4) % 2 ^ 32 := by
  obtain ⟨-, hcores, -⟩ := State.xGone_spec (s := s) (x := x)
  have hold : (s.xGone x).counterVal (c, m) = s.counterVal (c, m) := State.countersStay_of_cores hcores _
  rw [State.xDone_eq hc hp, ← hold]
  exact State.applyPost_counter (x.post c m bad) (s.xGone x)

theorem State.xDone_gone {n : Nat} (h : s.xmsg? n = some x) : (s.xDone x bad).xmsg? n = none := by
  obtain ⟨hmsgs, -, -⟩ := State.xGone_spec (s := s) (x := x)
  refine State.xmsg?_gone h ?_
  rw [State.xDone_eq hc hp, ← hmsgs]
  exact ((s.xGone x).applyPost_calm (x.post c m bad)).xmsgs

theorem State.xDone_mem : (s.xDone x none).mem = s.mem := by
  obtain ⟨-, -, hmem⟩ := State.xGone_spec (s := s) (x := x)
  rw [State.xDone_eq hc hp, State.applyPost_good (x.post c m none) (s.xGone x) rfl, ← hmem]
  rfl

theorem State.xDone_latch {e : Cause} (hep : (FMap.get Latch.clear (s.core c).mbLatch m).ep = false) :
    (FMap.get Latch.clear ((s.xDone x (some e)).core c).mbLatch m).code = e.code := by
  obtain ⟨-, hcores, -⟩ := State.xGone_spec (s := s) (x := x)
  have hold : (s.xGone x).core c = s.core c := by rw [State.core, hcores, State.core]
  have hlatch := (s.xGone x).applyPost_latch (x.post c m (some e))
  have hcode : ((FMap.get Latch.clear (s.core c).mbLatch m).noted (x.post c m (some e)).bad).code = e.code := by
    change (if (FMap.get Latch.clear (s.core c).mbLatch m).ep = true then _ else _ : Latch).code = _
    rw [hep]
    rfl
  rw [State.xDone_eq hc hp, ← hcode, ← hold]
  exact congrArg Latch.code hlatch

end

/-! ### Packets leave (R339) -/

section
variable (hx : s.xmsg? (s.arg 0) = some x) (hb : x.bad = none)
include hx hb

theorem packetSend_leaves {tlb : List Tlb} {b : List Byte} (hp : x.packet (s.arg 1) = true) (hs : x.sentAt (s.arg 1) = false)
    (hleft : (x.uud && decide (x.sent.length ≥ xPackets x.len)) = false) (hr : s.xRead x x.tlb (x.pieces (s.arg 1)) = .ok (tlb, b)) :
    exec .transportPacketSend s =
      let y := { x with sent := x.sent ++ [⟨s.arg 1, b, 0⟩], tlb := tlb }
      if !x.uud then .next ((s.putXmsg y).onNode x.node fun n => { n with queue := n.queue + 1 }) else .next (s.putXmsg y) := by
  change execTransportPacketSend s = _
  unfold execTransportPacketSend
  dsimp only
  rw [hx]
  dsimp only
  rw [hb]
  dsimp only
  rw [if_neg (by rw [hleft]; decide), if_neg (by simp [hp, hs]), hr]
  rfl

theorem packetSend_completes (hu : x.uud = true) (hn : xPackets x.len ≤ x.sent.length) (ha : s.cntAway x.cnt = false) :
    exec .transportPacketSend s = .next (s.xDone x none) := by
  change execTransportPacketSend s = _
  unfold execTransportPacketSend
  dsimp only
  rw [hx]
  dsimp only
  rw [hb]
  dsimp only
  rw [if_pos (by simp [hu, hn]), State.xEnd, if_neg (by simp [ha])]

/-! ### Acknowledgements and resends (R339, R340) -/

theorem transportAck_refused (h2 : s.arg 2 ≠ 0) (ha : s.cntAway x.cnt = false) :
    exec .transportAck s = .next (s.xDone x (some .transportRemote)) := by
  change execTransportAck s = _
  unfold execTransportAck
  dsimp only
  rw [hx]
  dsimp only
  rw [if_neg (by simp [hb]), if_pos h2, State.xEnd, if_neg (by simp [ha])]

/-- A message with one more packet acknowledged. -/
def Xmsg.ackedAt (x : Xmsg) (off : Nat) : Xmsg := { x with acked := x.acked ++ [off] }

omit hx hb in
/-- The state in which a packet is acknowledged. -/
def State.ackTaken (s : State) (x : Xmsg) : State :=
  (s.next.putXmsg (x.ackedAt (s.arg 1))).onNode x.node fun n => n.acked (s.arg 3 ≠ 0) (Config.congestion x.node s.fresh).toNat

section
variable (hu : x.uud = false) (hs : x.sentAt (s.arg 1) = true) (hn : s.arg 1 ∉ x.acked)
include hu hs hn

theorem transportAck_takes (h2 : s.arg 2 = 0) : exec .transportAck s =
    if x.acked.length + 1 < xPackets x.len then .next (s.ackTaken x)
    else if s.cntAway x.cnt = true then .next s else .next ((s.ackTaken x).xDone (x.ackedAt (s.arg 1)) none) := by
  change execTransportAck s = _
  unfold execTransportAck
  dsimp only
  rw [hx]
  dsimp only
  rw [if_neg (by simp [hb]), if_neg (fun h => h h2), if_neg (by simp [hu, hs, hn]), List.length_append, List.length_singleton]
  rfl

theorem transportRetransmit_lost (h2 : s.arg 2 = 0) (ha : s.cntAway x.cnt = false) :
    exec .transportRetransmit s = .next (s.xDone x (some .linkDown)) := by
  change execTransportRetransmit s = _
  unfold execTransportRetransmit
  dsimp only
  rw [hx]
  dsimp only
  rw [if_neg (by simp [hu, hs, hn]), if_neg (by simp [hb]), if_pos h2, State.xEnd, if_neg (by simp [ha])]

theorem transportRetransmit_resends {tlb : List Tlb} {b : List Byte} (h2 : s.arg 2 ≠ 0)
    (hr : s.xRead x x.tlb (x.pieces (s.arg 1)) = .ok (tlb, b)) : exec .transportRetransmit s = .next (s.putXmsg { x with
      tlb := tlb, sent := x.sent.map fun p => if p.off = s.arg 1 then { p with bytes := b, resent := p.resent + 1 } else p }) := by
  change execTransportRetransmit s = _
  unfold execTransportRetransmit
  dsimp only
  rw [hx]
  dsimp only
  rw [if_neg (by simp [hu, hs, hn]), if_neg (by simp [hb]), if_neg h2, hr]

end

end

/-! ### Arrival (R337, R339) -/

theorem State.countersStay_xPlace (core part : Nat) (tlb : List Tlb) (l : List (Nat × Nat)) (b : List Byte) :
    s.CountersStay (s.xPlace core part tlb l b).1 := by
  induction l generalizing s tlb b with
  | nil => exact fun _ => rfl
  | cons q r ih =>
    rw [State.xPlace]
    split
    · exact fun _ => rfl
    · exact (State.countersStay_land _ _ _ _ _).trans (ih _ _)

theorem State.xLanded_spec {part core mb rhnd roff len rinc ract : Nat} (hr : rinc % 2 ^ 32 ≠ 0) :
    (s.xLanded part core mb rhnd roff len rinc ract).mem = s.mem ∧
    (s.xLanded part core mb rhnd roff len rinc ract).counterVal (core, mb) = (s.counterVal (core, mb) + rinc) % 2 ^ 32 := by
  let p : Post := ⟨agentOf core 5, core, mb, rinc % 2 ^ 32, none⟩
  have hcount : (s.applyPost p).counterVal (core, mb) = (s.counterVal (core, mb) + rinc) % 2 ^ 32 :=
    (State.applyPost_counter p s).trans (Nat.add_mod_mod _ _ _)
  have hmem : (s.applyPost p).mem = s.mem := by
    rw [State.applyPost_good p s rfl]
    rfl
  unfold State.xLanded
  dsimp only
  rw [if_neg hr]
  split
  · exact ⟨hmem, hcount⟩
  · exact ⟨hmem, hcount⟩

section
variable {part msg rhnd roff len rinc ract : Nat} (hargs : s.args = [part, msg, rhnd, roff, 0, len, rinc, ract])
  (hnew : (s.xins.find? fun y => y.part = part && y.msg = msg) = none) (h0 : 0 < len) (hl : len ≤ 4096) (hb : s.payload.length = len)
include hargs hnew h0 hl hb

/-- The one packet of a message, by the registration that admits it. -/
theorem packetArrival_turn : exec .transportPacketArrival s =
    match s.xAdmit part rhnd roff len with
    | none => .next (s.putXin ⟨part, msg, rhnd, [], true, []⟩)
    | some (core, mb, r) =>
      let ps := linePieces (r.base + roff + 0) (xSize len 0) 66
      if (s.core core).takeover || s.away (ps.filterMap fun q => ((s.xPiece part false true [] q.1 q.2).toOption.map (·.1))) then .next s
      else
        let p := s.xPlace core part [] ps s.payload
        if !p.2.2 then .next (p.1.putXin ⟨part, msg, rhnd, [], true, p.2.1⟩)
        else .next ((p.1.putXin ⟨part, msg, rhnd, [0], true, p.2.1⟩).xLanded part core mb rhnd roff len rinc ract) := by
  have hp : xPackets len = 1 := by
    rw [xPackets, cdiv]
    omega
  have hsize : s.payload.length = xSize len 0 := by
    rw [hb, xSize]
    omega
  have harg (n : Nat) : s.arg n = at' 0 [part, msg, rhnd, roff, 0, len, rinc, ract] n := by rw [State.arg, hargs]
  change execTransportPacketArrival s = _
  unfold execTransportPacketArrival
  rw [harg, harg, harg, harg, harg, harg, harg, harg]
  dsimp only [at']
  rw [hnew]
  dsimp only
  rw [if_neg (by simp [hsize, Nat.pos_iff_ne_zero.mp h0]), hp]
  rfl

theorem packetArrival_refused (ha : s.xAdmit part rhnd roff len = none) :
    ∃ t, exec .transportPacketArrival s = .next t ∧ t.mem = s.mem ∧ ⟨part, msg, rhnd, [], true, []⟩ ∈ t.xins := by
  refine ⟨s.putXin ⟨part, msg, rhnd, [], true, []⟩, ?_, rfl, List.mem_append_right _ (List.mem_singleton_self _)⟩
  rw [packetArrival_turn hargs hnew h0 hl hb, ha]

theorem packetArrival_lands {c m : Nat} {r : Region} {u : State} {tlb : List Tlb} (ha : s.xAdmit part rhnd roff len = some (c, m, r))
    (hall : (s.cores.all fun p => !p.2.takeover) = true) (hr : rinc % 2 ^ 32 ≠ 0)
    (hu : s.xPlace c part [] (linePieces (r.base + roff + 0) (xSize len 0) 66) s.payload = (u, tlb, true)) :
    ∃ t, exec .transportPacketArrival s = .next t ∧ t.mem = u.mem ∧ t.counterVal (c, m) = (s.counterVal (c, m) + rinc) % 2 ^ 32 := by
  have htk : (s.core c).takeover = false := by
    obtain h | h := FMap.get_default_or_mem Core.reset s.cores c
    · rw [State.core, h]
      rfl
    · simpa [State.core] using List.all_eq_true.mp hall _ h
  have hcount : u.counterVal (c, m) = s.counterVal (c, m) := by
    have := State.countersStay_xPlace (s := s) c part [] (linePieces (r.base + roff + 0) (xSize len 0) 66) s.payload (c, m)
    rwa [hu] at this
  obtain ⟨hmem, hpost⟩ := State.xLanded_spec (s := u.putXin ⟨part, msg, rhnd, [0], true, tlb⟩) (part := part) (core := c) (mb := m)
    (rhnd := rhnd) (roff := roff) (len := len) (ract := ract) hr
  refine ⟨_, ?_, hmem, hpost.trans ?_⟩
  · rw [packetArrival_turn hargs hnew h0 hl hb, ha]
    dsimp only
    rw [htk, State.away_of_all hall, if_neg (by decide), hu]
    rfl
  · exact congrArg (fun n => (n + rinc) % 2 ^ 32) hcount

end

end

/-- Settles O51: each step by its branches; a completion leaves its message off the list and posts once. -/
theorem transportSteps : Obligations.TransportSteps := by
  intro s node
  refine ⟨fun x hx hb => ⟨fun tlb b hp hs hu hr => ?_, fun tlb b hp hs hu hn hr => ?_, fun c m hu hn hc hpe ha => ?_,
    fun c m hc hpe ha h2 hu hs hn hlast => ?_, fun h2 hu hs hn hleft => ?_, fun c m hc hpe ha h2 hep => ?_,
    fun c m hc hpe ha h2 hu hs hn hep => ?_, fun tlb b h2 hu hs hn hr => ?_⟩,
    fun part msg rhnd roff len rinc ract hargs hnew h0 hl hb => ⟨packetArrival_refused hargs hnew h0 hl hb,
      fun c m r u tlb ha hall hr hu => packetArrival_lands hargs hnew h0 hl hb ha hall hr hu⟩⟩
  · have heq := packetSend_leaves hx hb hp hs (by simp [hu]) hr
    rw [hu] at heq
    exact ⟨_, heq, rfl, State.putXmsg_get hx rfl, congrArg Node.queue (State.onNode_get _ _)⟩
  · have heq := packetSend_leaves hx hb hp hs (by simp [hn]) hr
    rw [hu] at heq
    exact ⟨_, heq, rfl, rfl, State.putXmsg_get hx rfl⟩
  · exact ⟨_, packetSend_completes hx hb hu hn ha, State.xDone_gone hc hpe hx, State.xDone_mem hc hpe, State.xDone_counter hc hpe⟩
  · have heq := transportAck_takes hx hb hu hs hn h2
    rw [if_neg (Nat.not_lt.mpr hlast), if_neg (by simp [ha])] at heq
    have hget : (s.ackTaken x).xmsg? (s.arg 0) = some (x.ackedAt (s.arg 1)) := State.putXmsg_get (s := s.next) hx rfl
    have hc' : (x.ackedAt (s.arg 1)).cnt = some (c, m) := hc
    have hp' : (x.ackedAt (s.arg 1)).peng = false := hpe
    exact ⟨_, heq, State.xDone_gone hc' hp' hget, State.xDone_mem hc' hp', State.xDone_counter hc' hp'⟩
  · have heq := transportAck_takes hx hb hu hs hn h2
    rw [if_pos hleft] at heq
    refine ⟨_, heq, State.putXmsg_get (s := s.next) hx rfl, ?_, ?_⟩
    · exact congrArg Node.queue (State.onNode_get _ _)
    · exact congrArg Node.marks (State.onNode_get _ _)
  · exact ⟨_, transportAck_refused hx hb h2 ha, State.xDone_gone hc hpe hx, State.xDone_latch hc hpe hep⟩
  · exact ⟨_, transportRetransmit_lost hx hb hu hs hn h2 ha, State.xDone_gone hc hpe hx, State.xDone_latch hc hpe hep⟩
  · exact ⟨_, transportRetransmit_resends hx hb hu hs hn h2 hr, rfl, State.putXmsg_get hx rfl⟩

end Sys2Proof.Machine
end

section
/-! Refutation of the statement on repair and retirement: of the repair of a pipeline error it says that the core is back at
its chunk's checkpoint, where the squash also lets go of the slots that MFREE has left to no command (R238, R291, R379). -/
namespace Sys2Proof.Machine

-- One proof after another: the threads of many proofs at once do not fit the memory of the check.
set_option Elab.async false

/-- A slot that MFREE has let go (R238). -/
def freedSlot : Slot := { Slot.free with freeing := true }

/-- Core 0 with an open chunk, at whose start slot 0 had been let go and no command on it was left. -/
def freedBefore : State :=
  { State.reset with cores := [(0, { Core.reset with chunk := some { Core.reset.newChunk with ckpt := { CoreT.reset with slots := [(0, freedSlot)] } } })] }

/-- The number of accumulator slots that core 0 has after an outcome. -/
def slotsAfter (o : Host.Outcome State Fault Refusal) : Nat :=
  match o with
  | .next t => (t.core 0).t.slots.length
  | _ => 0

/-- The repair lets the slot go. -/
theorem freedBefore_repaired : slotsAfter (exec .softErrorRepair freedBefore) = 0 := by decide +kernel

/-- Refutes O52: in `freedBefore` the repair of a pipeline error leaves core 0 without the slot that its checkpoint shows. -/
theorem not_serviceSteps : ¬ Obligations.ServiceSteps := by
  intro h
  obtain ⟨hrepair, -⟩ := h freedBefore
  obtain ⟨t, hexec, -, ht, -⟩ := hrepair _ (by decide +kernel) (by decide +kernel) rfl
  have hslots : slotsAfter (exec .softErrorRepair freedBefore) = 1 := by
    rw [hexec, slotsAfter]
    exact congrArg (fun t : CoreT => t.slots.length) ht
  rw [freedBefore_repaired] at hslots
  exact absurd hslots (by decide)

end Sys2Proof.Machine
end

section
/-! Proof of the statement on the hub dies: failover, firmware, attestation and bring-up (R2, R387, R390, R391, R393). -/
namespace Sys2Proof.Machine

-- One proof after another: the threads of many proofs at once do not fit the memory of the check.
set_option Elab.async false

section
variable {s : State} {h : Hub} {n : Nat}

/-! ### Which hub dies carry functions (R2) -/

theorem Hub.settle_alive (hn : n < 2) : h.settle.isAlive n = h.carries n := by
  obtain rfl | rfl : n = 0 ∨ n = 1 := by omega
  · rfl
  · rfl

theorem Hub.sound_of (hu : h.units.contains (6, n) = false) : h.sound n = h.linksUp n := by
  rw [Hub.sound, hu]
  rfl

theorem Hub.setLinks_linksUp (b : Bool) : (h.setLinks n b).linksUp n = b := by
  unfold Hub.setLinks Hub.linksUp
  split <;> rfl

theorem Hub.setLinks_sound_other {b : Bool} (hn : n < 2) : (h.setLinks n b).sound (1 - n) = h.sound (1 - n) := by
  obtain rfl | rfl : n = 0 ∨ n = 1 := by omega
  · rfl
  · rfl

/-- A hub die that is not sound hands everything to a sound other one. -/
theorem Hub.settle_takes (hn : n < 2) (hlost : h.sound n = false) (hother : h.sound (1 - n) = true) :
    h.settle.isAlive n = false ∧ h.settle.isAlive (1 - n) = true := by
  refine ⟨?_, ?_⟩
  · rw [Hub.settle_alive hn, Hub.carries, hlost, Bool.false_and]
  · have hback : 1 - (1 - n) = n := by omega
    rw [Hub.settle_alive (by omega), Hub.carries, hother, hback, hlost]
    simp

/-- The hub die without the unit that it loses. -/
def Hub.without (h : Hub) (n : Nat) (gone : Bool) : Hub := if gone then { h with units := (6, n) :: h.units } else h.setLinks n false

theorem Hub.without_sound (hn : n < 2) (gone : Bool) : (h.without n gone).sound n = false ∧ (h.without n gone).sound (1 - n) = h.sound (1 - n) := by
  cases gone
  · refine ⟨?_, Hub.setLinks_sound_other hn⟩
    rw [Hub.sound, Bool.and_eq_false_iff]
    exact .inr (Hub.setLinks_linksUp (h := h) (n := n) false)
  · have hne : ¬ ((6, 1 - n) : Nat × Nat) = (6, n) := by
      rw [Prod.mk.injEq]
      omega
    refine ⟨?_, ?_⟩
    · rw [Hub.sound, Hub.without, if_pos rfl]
      simp
    · rw [Hub.sound, Hub.sound, Hub.without, if_pos rfl, List.contains_cons, beq_eq_false_iff_ne.mpr hne, Bool.false_or]

theorem hubFailover_turn (hu : s.hub.units.contains (6, s.arg 0 % 2) = false) (hgone : s.arg 1 ≠ 0 ∨ s.hub.linksUp (s.arg 0 % 2) = true) :
    exec .hubFailover s = if s.hub.sound (1 - s.arg 0 % 2) = false then .fault .noHub
      else .next (s.loseHub (if s.arg 1 ≠ 0 then 6 else 5) (s.arg 0 % 2) (s.arg 1 ≠ 0)) := by
  change execHubFailover s = _
  unfold execHubFailover
  dsimp only
  rw [if_neg (by rw [hu]; simpa [or_iff_not_imp_left] using hgone)]
  cases s.hub.sound (1 - s.arg 0 % 2) <;> simp

theorem State.loseHub_hub (p : Prop) [Decidable p] : (s.loseHub (if p then 6 else 5) n p).hub = (s.hub.without n p).settle := by
  by_cases hp : p
  · rw [if_pos hp, decide_eq_true hp]
    rfl
  · rw [if_neg hp, decide_eq_false hp]
    rfl

/-- A hub die that is lost while the other one is sound. -/
theorem hubFailover_takes (hu : s.hub.units.contains (6, s.arg 0 % 2) = false) (hgone : s.arg 1 ≠ 0 ∨ s.hub.linksUp (s.arg 0 % 2) = true)
    (hs : s.hub.sound (1 - s.arg 0 % 2) = true) : ∃ t, exec .hubFailover s = .next t ∧ t.hub.isAlive (s.arg 0 % 2) = false ∧
      t.hub.isAlive (1 - s.arg 0 % 2) = true ∧ t.hub = (s.hub.without (s.arg 0 % 2) (s.arg 1 ≠ 0)).settle ∧ t.cores = s.cores ∧ t.mem = s.mem := by
  have hturn := hubFailover_turn hu hgone
  rw [hs, if_neg (by decide)] at hturn
  have hn : s.arg 0 % 2 < 2 := Nat.mod_lt _ (by decide)
  have hhub : (s.loseHub (if s.arg 1 ≠ 0 then 6 else 5) (s.arg 0 % 2) (s.arg 1 ≠ 0)).hub = (s.hub.without (s.arg 0 % 2) (s.arg 1 ≠ 0)).settle :=
    State.loseHub_hub _
  obtain ⟨hlost, hother⟩ := Hub.without_sound (h := s.hub) hn (s.arg 1 ≠ 0)
  obtain ⟨hdead, hlive⟩ := Hub.settle_takes hn hlost (hother.trans hs)
  exact ⟨_, hturn, by rw [hhub, hdead], by rw [hhub, hlive], hhub, rfl, rfl⟩

theorem hubLinksRestored_shares (hu : s.hub.units.contains (6, s.arg 0 % 2) = false) (hl : s.hub.units.contains (5, s.arg 0 % 2) = false)
    (hd : s.hub.linksUp (s.arg 0 % 2) = false) : ∃ t, exec .hubLinksRestored s = .next t ∧ t.hub.linksUp (s.arg 0 % 2) = true ∧ t.mem = s.mem ∧
      (s.hub.updating = [] → t.hub.isAlive (s.arg 0 % 2) = true) := by
  refine ⟨{ s with hub := (s.hub.setLinks (s.arg 0 % 2) true).settle }, ?_, Hub.setLinks_linksUp (h := s.hub) true, rfl, fun hup => ?_⟩
  · change execHubLinksRestored s = _
    unfold execHubLinksRestored
    dsimp only
    rw [if_neg (by rw [hu, hl, hd]; decide)]
  · change (s.hub.setLinks (s.arg 0 % 2) true).settle.isAlive _ = true
    have hsound : (s.hub.setLinks (s.arg 0 % 2) true).sound (s.arg 0 % 2) = true := (Hub.sound_of (h := s.hub.setLinks (s.arg 0 % 2) true) hu).trans (Hub.setLinks_linksUp true)
    rw [Hub.settle_alive (Nat.mod_lt _ (by decide)), Hub.carries, hsound, Hub.setLinks, hup]
    rfl

/-! ### Firmware (R391) -/

/-- The hub with the status of a posted image that it has refused. -/
def Hub.refused (h : Hub) (code : Nat) : Hub := { h with posted := false, mailbox := (h.mailbox.1, code) }

section
variable (hp : s.hub.posted = true) (hu : s.hub.updating = []) (hs : s.hub.switching = [])
include hp hu hs

theorem firmwareUpdate_turn : exec .firmwareUpdate s =
    if (s.poison.any fun x => s.hub.mailbox.1 ≤ x && x < 0xC000000000) = true then
      .next { s with hub := s.hub.refused Cause.spadUncorrectable.code }
    else if Config.imageVerdict (s.imageAt s.hub.mailbox.1) ≠ 0 then
      .next { s with hub := s.hub.refused (Config.imageVerdict (s.imageAt s.hub.mailbox.1)) }
    else if Config.imageVersion (s.imageAt s.hub.mailbox.1) < s.hub.secver then
      .next { s.next with hub := s.hub.refused (1 + (Config.freeXval s.fresh).toNat % (2 ^ 64 - 1)) }
    else if (!s.hub.sound 0 || !s.hub.sound 1) = true then .next s
    else .next { s with hub :=
      ({ s.hub with posted := false, image := s.imageAt s.hub.mailbox.1, updating := [0, 1] } : Hub).settle } := by
  change execFirmwareUpdate s = _
  unfold execFirmwareUpdate
  dsimp only
  rw [if_neg (by simp [hp, hu, hs])]
  rfl

theorem firmwareUpdate_spoiled (hx : ∃ x ∈ s.poison, s.hub.mailbox.1 ≤ x ∧ x < 0xC000000000) :
    exec .firmwareUpdate s = .next { s with hub := s.hub.refused Cause.spadUncorrectable.code } := by
  rw [firmwareUpdate_turn hp hu hs, if_pos (List.any_eq_true.mpr (by simpa using hx))]

section
variable (hx : ∀ x ∈ s.poison, x < s.hub.mailbox.1 ∨ 0xC000000000 ≤ x)
include hx

omit hp hu hs in
theorem State.image_readable : ¬ (s.poison.any fun x => s.hub.mailbox.1 ≤ x && x < 0xC000000000) = true := by
  rw [Bool.not_eq_true, List.any_eq_false]
  intro x hxs
  have := hx x hxs
  simp only [Bool.and_eq_true, decide_eq_true_eq]
  omega

theorem firmwareUpdate_rejected (hv : Config.imageVerdict (s.imageAt s.hub.mailbox.1) ≠ 0) :
    exec .firmwareUpdate s = .next { s with hub := s.hub.refused (Config.imageVerdict (s.imageAt s.hub.mailbox.1)) } := by
  rw [firmwareUpdate_turn hp hu hs, if_neg (State.image_readable hx), if_pos hv]

theorem firmwareUpdate_old (hv : Config.imageVerdict (s.imageAt s.hub.mailbox.1) = 0)
    (hver : Config.imageVersion (s.imageAt s.hub.mailbox.1) < s.hub.secver) :
    exec .firmwareUpdate s = .next { s.next with hub := s.hub.refused (1 + (Config.freeXval s.fresh).toNat % (2 ^ 64 - 1)) } := by
  rw [firmwareUpdate_turn hp hu hs, if_neg (State.image_readable hx), if_neg (fun h => h hv), if_pos hver]

theorem firmwareUpdate_taken (hv : Config.imageVerdict (s.imageAt s.hub.mailbox.1) = 0)
    (hver : s.hub.secver ≤ Config.imageVersion (s.imageAt s.hub.mailbox.1)) (h0 : s.hub.sound 0 = true) (h1 : s.hub.sound 1 = true) :
    ∃ t, exec .firmwareUpdate s = .next t ∧ t.hub.updating = [0, 1] ∧ t.hub.image = s.imageAt s.hub.mailbox.1 ∧ t.hub.alive = (false, true) := by
  refine ⟨{ s with hub := ({ s.hub with posted := false, image := s.imageAt s.hub.mailbox.1, updating := [0, 1] } : Hub).settle }, ?_, rfl, rfl, ?_⟩
  · rw [firmwareUpdate_turn hp hu hs, if_neg (State.image_readable hx), if_neg (fun h => h hv), if_neg (Nat.not_lt.mpr hver),
      if_neg (by simp [h0, h1])]
  · change ((s.hub.sound 0 && (_ || !s.hub.sound 1)), (s.hub.sound 1 && (_ || !s.hub.sound 0))) = (false, true)
    rw [h0, h1]
    rfl

end

end

theorem hubDieHandback_first (hu : s.hub.updating = [0, 1]) (h0 : s.arg 0 = 0) (hs : s.hub.sound 0 = true) :
    ∃ t, exec .hubDieHandback s = .next t ∧ t.hub.alive = (true, false) ∧ t.hub.updating = [1] := by
  refine ⟨{ s with hub := ({ s.hub with updating := [1] } : Hub).settle }, ?_, ?_, rfl⟩
  · change execHubDieHandback s = _
    unfold execHubDieHandback
    dsimp only
    rw [h0, hu, if_neg (by decide)]
    dsimp only
    rw [if_neg (by decide), if_neg (by simp [hs])]
  · change ((s.hub.sound 0 && (_ || !s.hub.sound 1)), (s.hub.sound 1 && (_ || !s.hub.sound 0))) = (true, false)
    rw [hs]
    cases s.hub.sound 1 <;> rfl

theorem hubDieHandback_second (hu : s.hub.updating = [1]) (h1 : s.arg 0 = 1) : ∃ t, exec .hubDieHandback s = .next t ∧ t.hub.updating = [] ∧
    t.hub.switching = [0, 1, 2, 3] ∧ t.hub.alive = (s.hub.sound 0, s.hub.sound 1) := by
  refine ⟨{ s with hub := ({ s.hub with updating := [], switching := [0, 1, 2, 3] } : Hub).settle }, ?_, rfl, rfl, ?_⟩
  · change execHubDieHandback s = _
    unfold execHubDieHandback
    dsimp only
    rw [h1, hu, if_neg (by decide)]
    dsimp only
    rw [if_neg (by decide)]
  · change ((s.hub.sound 0 && (true || !s.hub.sound 1)), (s.hub.sound 1 && (true || !s.hub.sound 0))) = _
    simp

/-- The hub once a compute die has switched. -/
def Hub.switched (h : Hub) (d : Nat) : Hub :=
  if (h.switching.erase d).isEmpty then { h with switching := [], firmware := h.image, image := [], mailbox := (h.mailbox.1, 0) }
  else { h with switching := h.switching.erase d }

theorem hubDieHandback_die {d : Nat} (h0 : s.arg 0 = 2 + d) (hd : d ∈ s.hub.switching) :
    exec .hubDieHandback s = .next { s with hub := s.hub.switched d } := by
  have hsub : s.arg 0 - 2 = d := by omega
  change execHubDieHandback s = _
  unfold execHubDieHandback
  dsimp only
  rw [if_pos (by omega), hsub, if_neg (by simp [hd])]
  rfl

theorem Hub.switched_spec {d : Nat} (hd : d ∈ h.switching) : (h.switched d).switching = h.switching.erase d ∧
    (h.switching = [d] → (h.switched d).firmware = h.image ∧ (h.switched d).mailbox = (h.mailbox.1, 0)) ∧
    (h.switching ≠ [d] → (h.switched d).firmware = h.firmware ∧ (h.switched d).mailbox = h.mailbox) := by
  by_cases he : h.switching = [d]
  · have hrest : h.switching.erase d = [] := by rw [he]; simp
    have heq : h.switched d = { h with switching := [], firmware := h.image, image := [], mailbox := (h.mailbox.1, 0) } := by
      rw [Hub.switched, hrest]
      rfl
    rw [heq]
    exact ⟨hrest.symm, fun _ => ⟨rfl, rfl⟩, fun h => absurd he h⟩
  · have hrest : ¬ (h.switching.erase d).isEmpty = true := by
      rw [List.isEmpty_iff]
      intro hnil
      have hlen := List.length_erase_of_mem hd
      rw [hnil, List.length_nil] at hlen
      obtain ⟨x, hx⟩ := List.length_eq_one_iff.mp (show h.switching.length = 1 by have := List.length_pos_of_mem hd; omega)
      rw [hx] at hd
      exact he (hx.trans (by rw [List.mem_singleton.mp hd]))
    have heq : h.switched d = { h with switching := h.switching.erase d } := by rw [Hub.switched, if_neg hrest]
    rw [heq]
    exact ⟨rfl, fun h => absurd h he, fun _ => ⟨rfl, rfl⟩⟩

/-! ### Bring-up (R393) -/

/-- Bring-up stands where it stood, and memory holds what it held. -/
def State.SameStep (s t : State) : Prop := t.hub.bringup = s.hub.bringup ∧ t.mem = s.mem

theorem State.SameStep.trans {t u : State} (a : s.SameStep t) (b : t.SameStep u) : s.SameStep u := ⟨b.1.trans a.1, b.2.trans a.2⟩

theorem State.sameStep_foldl {α : Type} {f : State → α → State} (hf : ∀ (s : State) a, s.SameStep (f s a)) (l : List α) (s : State) :
    s.SameStep (l.foldl f s) := by
  induction l generalizing s with
  | nil => exact ⟨rfl, rfl⟩
  | cons a l ih => exact (hf s a).trans (ih _)

theorem State.sameStep_retireChannel (stack pch : Nat) : s.SameStep (s.retireChannel stack pch) := by
  unfold State.retireChannel
  dsimp only
  split
  · exact ⟨rfl, rfl⟩
  · split
    · refine State.SameStep.trans (t := s.logRetired (stack / 2) 3 (pchUnit stack pch) 0) ⟨rfl, rfl⟩ (State.sameStep_foldl (fun s p => ?_) _ _)
      exact ⟨rfl, rfl⟩
    · exact ⟨rfl, rfl⟩

theorem State.sameStep_pairGone (unit : Nat) : s.SameStep (s.pairGone unit) := by
  unfold State.pairGone
  split
  · exact State.SameStep.trans (State.sameStep_retireChannel _ _) (State.sameStep_retireChannel _ _)
  · exact ⟨rfl, rfl⟩

theorem State.sameStep_failAtStart (kind n : Nat) : s.SameStep (s.failAtStart kind n) := by
  have spare (s : State) (kind unit : Nat) : s.SameStep (s.useSpare kind unit) := by
    unfold State.useSpare
    split <;> exact ⟨rfl, rfl⟩
  unfold State.failAtStart
  dsimp only
  generalize (if kind = 2 then n / 16 * 16 else n) = unit
  have logged : s.SameStep (s.logRetired (dieOf unit) kind unit 0) := ⟨rfl, rfl⟩
  split
  · exact logged.trans (spare _ _ _)
  · refine logged.trans (State.SameStep.trans (t := State.goneUnit _ kind unit) ⟨rfl, rfl⟩ ?_)
    split
    · exact State.sameStep_pairGone _
    · exact ⟨rfl, rfl⟩

theorem powerGood_passes (hb : s.hub.bringup < 6) (h0 : s.arg 0 ≠ 0) :
    ∃ t, exec .powerGood s = .next t ∧ t.hub.bringup = s.hub.bringup + 1 ∧ t.mem = s.mem := by
  let u := if s.hub.bringup ≠ 3 then s else
      (pairsOf (s.args.drop 1)).foldl (fun (s : State) p => if s.testable p.1 p.2 then s.failAtStart p.1 p.2 else s) s
  have tests : s.SameStep u := by
    change s.SameStep (if _ then _ else _)
    split
    · exact ⟨rfl, rfl⟩
    · refine State.sameStep_foldl (fun s p => ?_) _ s
      split
      · exact State.sameStep_failAtStart _ _
      · exact ⟨rfl, rfl⟩
  refine ⟨{ u with hub := { u.hub with bringup := u.hub.bringup + 1 } }, ?_, congrArg (· + 1) tests.1, tests.2⟩
  change execPowerGood s = _
  unfold execPowerGood
  rw [if_neg (by simpa [Nat.not_le.mpr hb] using h0)]

/-! ### Attestation (R390) -/

section
variable {stage request code : Nat} {data resp : List Nat} {ok : Bool}

theorem State.spdm_down (hd : s.pcieUp = false) : s.spdm ok stage request code data resp = s := by
  unfold State.spdm
  rw [hd]
  rfl

theorem State.spdm_answers (hup : s.pcieUp = true) : (s.spdm ok stage request code data resp).hub.spdm = (if ok then stage else s.hub.spdm) ∧
    (s.spdm ok stage request code data resp).hub.response = if ok then code :: resp else [0x7F] := by
  unfold State.spdm
  rw [hup]
  exact ⟨rfl, rfl⟩

end

end

/-- Settles O53: each step by its branches; which hub dies carry functions follows from `Hub.settle` alone. -/
theorem hubSteps : Obligations.HubSteps := by
  intro s
  refine ⟨?_, ?_, fun hp hu hs => ⟨fun hx => ?_, fun hx => ⟨fun hv => ?_, fun hv hver => ?_, fun hv hver h0 h1 => ?_⟩⟩, hubDieHandback_first,
    hubDieHandback_second, fun d h0 hd => ?_, fun hb => ⟨fun h0 => ?_, powerGood_passes hb⟩, fun hd => ?_, fun hup => ?_⟩
  · rintro n rfl hu
    refine ⟨fun hs h1 => ?_, fun hs h1 hl => ?_, fun hs hgone => ?_⟩
    · obtain ⟨t, ht, hdead, hlive, hhub, -, hmem⟩ := hubFailover_takes hu (.inl h1) hs
      refine ⟨t, ht, hdead, hlive, ?_, hmem⟩
      rw [hhub, decide_eq_true h1]
      exact List.contains_iff_mem.mpr List.mem_cons_self
    · obtain ⟨t, ht, hdead, hlive, -, hcores, hmem⟩ := hubFailover_takes hu (.inr hl) hs
      exact ⟨t, ht, hdead, hlive, hcores, hmem⟩
    · rw [hubFailover_turn hu hgone, if_pos hs]
  · rintro n rfl hu hl hd
    exact hubLinksRestored_shares hu hl hd
  · exact ⟨_, firmwareUpdate_spoiled hp hu hs hx, rfl, rfl, hu, rfl⟩
  · exact ⟨_, firmwareUpdate_rejected hp hu hs hx hv, rfl, rfl, hu⟩
  · refine ⟨_, firmwareUpdate_old hp hu hs hx hv hver, rfl, hu, ?_⟩
    change 1 + _ ≠ 0
    omega
  · exact firmwareUpdate_taken hp hu hs hx hv hver h0 h1
  · obtain ⟨hrest, hlast, hmore⟩ := Hub.switched_spec hd
    exact ⟨_, hubDieHandback_die h0 hd, hrest, hlast, hmore⟩
  · change execPowerGood s = _
    unfold execPowerGood
    rw [if_pos (by simp [h0])]
    rfl
  · have down {ok : Bool} {stage request code : Nat} {data resp : List Nat} :
        (Host.Outcome.next (s.spdm ok stage request code data resp) : Out) = .next s := congrArg _ (State.spdm_down hd)
    have anew : ({ s with hub := if s.pcieUp then { s.hub with transcript := 0, spdm := 0 } else s.hub } : State) = s := by
      rw [hd]
      rfl
    refine ⟨?_, down, down, down, down, down, down⟩
    change Host.Outcome.next (State.spdm { s with hub := if s.pcieUp then { s.hub with transcript := 0, spdm := 0 } else s.hub }
      true 1 0x84 0x04 [] [0x13]) = _
    rw [anew]
    exact down
  · have sound {ok : Bool} {stage request code : Nat} {data resp : List Nat} (h : ok = true) :
        (s.spdm ok stage request code data resp).hub.spdm = stage ∧ (s.spdm ok stage request code data resp).hub.response = code :: resp := by
      obtain ⟨h1, h2⟩ := State.spdm_answers (s := s) (ok := ok) (stage := stage) (request := request) (code := code) (data := data) (resp := resp) hup
      exact ⟨h1.trans (if_pos h), h2.trans (if_pos h)⟩
    have odd {ok : Bool} {stage request code : Nat} {data resp : List Nat} (h : ok = false) :
        (s.spdm ok stage request code data resp).hub.spdm = s.hub.spdm ∧ (s.spdm ok stage request code data resp).hub.response = [0x7F] := by
      obtain ⟨h1, h2⟩ := State.spdm_answers (s := s) (ok := ok) (stage := stage) (request := request) (code := code) (data := data) (resp := resp) hup
      exact ⟨h1.trans (if_neg (by simp [h])), h2.trans (if_neg (by simp [h]))⟩
    refine ⟨?_, fun h => ⟨_, rfl, sound (decide_eq_true h)⟩, fun h => ?_, fun h ha hb => ⟨_, rfl, sound (by simp [h, ha, hb])⟩,
      fun h => ⟨⟨_, rfl, sound (decide_eq_true h)⟩, fun ha => ⟨_, rfl, (sound (by simp [h, ha])).2⟩, ⟨_, rfl, (sound (decide_eq_true h)).2⟩,
        fun h1 h5 => ⟨_, rfl, (sound (by simp [h, h5])).2.trans (congrArg _ (if_neg (by omega)))⟩⟩,
      fun h => ⟨⟨_, rfl, (odd (decide_eq_false h)).2⟩, ⟨_, rfl, (odd (by simp [h])).2⟩⟩⟩
    · have hup' : ({ s with hub := { s.hub with transcript := 0, spdm := 0 } } : State).pcieUp = true := hup
      have anew : ({ s with hub := if s.pcieUp then { s.hub with transcript := 0, spdm := 0 } else s.hub } : State) =
          { s with hub := { s.hub with transcript := 0, spdm := 0 } } := by rw [hup]; rfl
      refine ⟨_, ?_, State.spdm_answers (ok := true) (stage := 1) (request := 0x84) (code := 0x04) (data := []) (resp := [0x13]) hup'⟩
      rw [← anew]
      rfl
    · obtain ⟨h1, h2⟩ := odd (ok := decide (s.hub.spdm ≥ 1)) (stage := max 2 s.hub.spdm) (request := 0xE1) (code := 0x61) (data := []) (resp := [])
        (by simp [h])
      exact ⟨_, rfl, h1.trans h, h2⟩

end Sys2Proof.Machine
end

section
/-! Proof of the statement on configuration records (R388, R182, R392). -/
namespace Sys2Proof.Machine

-- One proof after another: the threads of many proofs at once do not fit the memory of the check.
set_option Elab.async false

/-! ### Fields of a record -/

/-- Bytes stored one after another in a sparse table. -/
theorem FMap.get_foldl_set (b : List Byte) (fo : Nat) (m : FMap Byte) (i : Nat) :
    FMap.get 0#8 ((b.zip (span fo b.length)).foldl (fun (m : FMap Byte) q => FMap.set 0#8 m q.2 q.1) m) i =
      if fo ≤ i then (b[i - fo]?).getD (FMap.get 0#8 m i) else FMap.get 0#8 m i := by
  induction b generalizing fo m with
  | nil => simp
  | cons x b ih =>
    rw [List.length_cons, span, List.zip_cons_cons, List.foldl_cons, ih]
    obtain h | h | h := Nat.lt_trichotomy i fo
    · rw [if_neg (by omega), if_neg (by omega), FMap.get_set_other _ _ _ _ _ (by omega)]
    · rw [if_neg (by omega), if_pos (by omega), h, FMap.get_set_self, Nat.sub_self]
      rfl
    · have hi : i - fo = (i - (fo + 1)) + 1 := by omega
      rw [if_pos (by omega), if_pos (by omega), FMap.get_set_other _ _ _ _ _ (by omega), hi]
      rfl

section
variable {s t : State} {part : Nat}

theorem State.cfg_congr {off n : Nat} (h : ∀ i, off ≤ i → i < off + n → FMap.get 0#8 (t.part part).cfg i = FMap.get 0#8 (s.part part).cfg i) :
    t.cfg part off n = s.cfg part off n := by
  unfold State.cfg
  refine congrArg leVal (List.map_congr_left fun i hi => ?_)
  obtain ⟨h1, h2⟩ := mem_span.mp hi
  exact h i h1 h2

theorem State.putCfg_get (fo : Nat) (b : List Byte) (i : Nat) : FMap.get 0#8 ((s.putCfg part fo b).part part).cfg i =
    if fo ≤ i then (b[i - fo]?).getD (FMap.get 0#8 (s.part part).cfg i) else FMap.get 0#8 (s.part part).cfg i := by
  rw [State.putCfg, State.updPart_part_self]
  exact FMap.get_foldl_set b fo _ i

/-- A field reads back as it was stored. -/
theorem State.putCfg_self (fo : Nat) (b : List Byte) : (s.putCfg part fo b).cfg part fo b.length = leVal b := by
  unfold State.cfg
  congr 1
  refine List.ext_getElem (by simp) fun i h1 h2 => ?_
  rw [List.getElem_map, getElem_span, State.putCfg_get, if_pos (Nat.le_add_right _ _), Nat.add_sub_cancel_left, List.getElem?_eq_getElem h2]
  rfl

/-- Another field stands as it stood, in the record of any partition. -/
theorem State.putCfg_other {q fo off n : Nat} {b : List Byte} (h : off + n ≤ fo ∨ fo + b.length ≤ off) :
    (s.putCfg part fo b).cfg q off n = s.cfg q off n := by
  by_cases hq : q = part
  · subst hq
    refine State.cfg_congr fun i h1 h2 => ?_
    rw [State.putCfg_get]
    split
    · rw [List.getElem?_eq_none (by omega)]
      rfl
    · rfl
  · exact State.cfg_congr fun i _ _ => by rw [State.putCfg, State.updPart_part_other _ _ _ _ hq]

theorem overlayField_whole {old b : List Byte} {fo : Nat} (h : old.length = b.length) : overlayField old fo b fo = b := by
  unfold overlayField
  refine List.ext_getElem (by simp [h]) fun i h1 h2 => ?_
  have hlt : i < (old.zip (span 0 old.length)).length := by simpa using h1
  rw [List.getElem_map, List.getElem_zip, getElem_span]
  dsimp only
  rw [if_pos (by simp; omega), Nat.zero_add, Nat.add_sub_cancel_left, at'_eq_getD, List.getD_eq_getElem _ _ h2]

theorem State.cfgBytes_length (fo n : Nat) : (s.cfgBytes part fo n).length = n := by simp [State.cfgBytes]

/-! ### A write of one field -/

/-- A field that a write does not reach. -/
def fieldMissed (b : List Byte) (off : Nat) (f : Nat × Nat) : Prop := off + b.length ≤ f.1 ∨ f.1 + f.2 ≤ off

theorem State.writeField_missed {b : List Byte} {off : Nat} {f : Nat × Nat} (h : fieldMissed b off f) : s.writeField part b off f = s := by
  unfold State.writeField
  exact if_pos (by simpa [fieldMissed] using h)

theorem State.writeFields_missed {b : List Byte} {off : Nat} (l : List (Nat × Nat)) (h : ∀ f ∈ l, fieldMissed b off f) :
    l.foldl (fun (s : State) f => s.writeField part b off f) s = s := by
  induction l with
  | nil => rfl
  | cons f r ih =>
    rw [List.foldl_cons, State.writeField_missed (h f List.mem_cons_self)]
    exact ih fun g hg => h g (List.mem_cons_of_mem _ hg)

/-- A write that reaches one field alone. -/
theorem State.writeFields_one {b : List Byte} {off : Nat} {f : Nat × Nat} {l r : List (Nat × Nat)} (he : recordFields = l ++ f :: r)
    (hl : ∀ g ∈ l, fieldMissed b off g) (hr : ∀ g ∈ r, fieldMissed b off g) :
    recordFields.foldl (fun (s : State) f => s.writeField part b off f) s = s.writeField part b off f := by
  rw [he, List.foldl_append, State.writeFields_missed l hl, List.foldl_cons, State.writeFields_missed r hr]

/-! ### The supervisor actor stays as it is (R77) -/

/-- The fields on which the supervisor actor that a record asks for depends. -/
def supFields : List (Nat × Nat) := [(0x170, 8), (0x178, 4), (0x17C, 4), (0x180, 4), (8, 40), (0x30, 96)]

theorem State.supDue_congr (hcfg : ∀ f ∈ supFields, t.cfg part f.1 f.2 = s.cfg part f.1 f.2) (hsup : (t.part part).sup = (s.part part).sup)
    (hex : ∀ c, t.exists' c = s.exists' c) : t.supDue part = s.supDue part := by
  have himg : t.cfg part 0x170 8 = s.cfg part 0x170 8 := hcfg (0x170, 8) (by decide)
  have hlen : t.cfg part 0x178 4 = s.cfg part 0x178 4 := hcfg (0x178, 4) (by decide)
  have hentry : t.cfg part 0x17C 4 = s.cfg part 0x17C 4 := hcfg (0x17C, 4) (by decide)
  have hcore : t.cfg part 0x180 4 = s.cfg part 0x180 4 := hcfg (0x180, 4) (by decide)
  have hcl : t.cfg part 8 40 = s.cfg part 8 40 := hcfg (8, 40) (by decide)
  have hmem : t.cfg part 0x30 96 = s.cfg part 0x30 96 := hcfg (0x30, 96) (by decide)
  have hallot (c : Nat) : t.allotted part c = s.allotted part c := by
    rw [State.allotted, State.allotted, hex, State.hasMemCore, State.hasMemCore, State.hasCluster, State.hasCluster, hcl, hmem]
  rw [State.supDue, State.supDue, State.supOk, State.supOk, State.wantedSup, State.wantedSup, himg, hlen, hentry, hcore, hsup, hallot]

theorem State.settleSup_idle (h : s.supDue part = false) : s.settleSup part false = s := by
  unfold State.settleSup
  dsimp only
  rw [if_neg Bool.false_ne_true, h]
  split
  · split <;> rfl
  · rename_i hd
    exact absurd rfl hd

/-- A stored field that the supervisor actor does not depend on. -/
theorem State.putCfg_supDue {fo : Nat} {b : List Byte} (h : ∀ f ∈ supFields, f.1 + f.2 ≤ fo ∨ fo + b.length ≤ f.1) :
    (s.putCfg part fo b).supDue part = s.supDue part := by
  refine State.supDue_congr (fun f hf => State.putCfg_other (h f hf)) ?_ fun _ => rfl
  rw [State.putCfg, State.updPart_part_self]

/-! ### Writes to the I/O region (R182) -/

theorem State.writeIo_denied {writer a : Nat} {b : List Byte} (h : 1 < writer) : s.writeIo writer a b = s := by
  unfold State.writeIo
  exact if_pos (by simp [h])

theorem State.writeIo_record {writer o : Nat} {b : List Byte} (hw : writer ≤ 1) (hp : part ≤ 385) (ho : o < 0x400) :
    s.writeIo writer (part * 0x100000 + o) b = s.writeRecord part o b := by
  have hdiv : (part * 0x100000 + o) / 0x100000 = part := by omega
  have hmod : (part * 0x100000 + o) % 0x100000 = o := by omega
  unfold State.writeIo
  dsimp only
  rw [hdiv, hmod, if_neg (by simp [Nat.not_lt.mpr hw, Nat.not_lt.mpr hp]), if_pos ho]

/-- A write below the last word that reaches no field of the supervisor actor. -/
theorem State.writeRecord_below {o : Nat} {b : List Byte} (ho : o + b.length ≤ 0x170) :
    s.writeRecord part o b = (recordFields.foldl (fun (s : State) f => s.writeField part b o f) s).settleSup part false := by
  have h3 : ¬ 0x3F8 < o + b.length := by omega
  have h1 : ¬ 0x170 < o + b.length := by omega
  unfold State.writeRecord
  dsimp only
  rw [if_neg (by simp [h3]), decide_eq_false h1]
  simp

/-- The limit of a partition's firings at once is stored, whatever runs (R103, R388). -/
theorem State.writeRecord_limit (v : Nat) :
    s.writeRecord part 0x94 (leBytes 4 v) = (s.putCfg part 0x94 (leBytes 4 v)).settleSup part false := by
  have hlen : (leBytes 4 v).length = 4 := length_leBytes 4 v
  have missed (l : List (Nat × Nat)) (h : (l.all fun f => decide (0x94 + 4 ≤ f.1) || decide (f.1 + f.2 ≤ 0x94)) = true) :
      ∀ f ∈ l, fieldMissed (leBytes 4 v) 0x94 f := fun f hf => by
    simpa [fieldMissed, hlen] using List.all_eq_true.mp h f hf
  rw [State.writeRecord_below (by rw [hlen]; decide), State.writeFields_one (f := (0x94, 4)) (l := recordFields.take 4) (r := recordFields.drop 5)
    rfl (missed _ (by decide)) (missed _ (by decide))]
  refine congrArg (fun t : State => t.settleSup part false) ?_
  unfold State.writeField
  rw [if_neg (by simp [hlen])]
  dsimp only
  rw [overlayField_whole (by rw [State.cfgBytes_length, hlen]), if_neg (by decide), if_neg (by simp), if_neg (by decide), if_neg (by decide)]

/-- The state after a limit's write. -/
theorem State.limit_spec (v : Nat) : (s.putCfg part 0x94 (leBytes 4 v)).cfg part 0x94 4 = v % 2 ^ 32 ∧
    (s.supDue part = false → (s.putCfg part 0x94 (leBytes 4 v)).settleSup part false = s.putCfg part 0x94 (leBytes 4 v)) := by
  have hlen : (leBytes 4 v).length = 4 := length_leBytes 4 v
  refine ⟨?_, fun h => State.settleSup_idle ((State.putCfg_supDue ?_).trans h)⟩
  · have := State.putCfg_self (s := s) (part := part) 0x94 (leBytes 4 v)
    rwa [hlen, leVal_leBytes] at this
  · rw [hlen]
    decide

/-! ### Retirement requests (R388) -/

section
variable (w : Nat)

/-- KIND and UNIT of a request. -/
def reqKind : Nat := w / 2 ^ 52 % 16
def reqUnit : Nat := w / 2 ^ 32 % 2 ^ 13

/-- The record's field after a request: its reserved bits read zero. -/
def reqField : List Byte := leBytes 8 (reqKind w <<< 52 + reqUnit w <<< 32)

theorem State.writeRecord_request : s.writeRecord part 0x168 (leBytes 8 w) =
    (if s.mayRetire part (reqKind w) (reqUnit w) then (s.putCfg part 0x168 (reqField w)).requestRetire (reqKind w) (reqUnit w)
      else s.recordError part).settleSup part false := by
  have hlen : (leBytes 8 w).length = 8 := length_leBytes 8 w
  have missed (l : List (Nat × Nat)) (h : (l.all fun f => decide (0x168 + 8 ≤ f.1) || decide (f.1 + f.2 ≤ 0x168)) = true) :
      ∀ f ∈ l, fieldMissed (leBytes 8 w) 0x168 f := fun f hf => by
    simpa [fieldMissed, hlen] using List.all_eq_true.mp h f hf
  have hval : leVal (leBytes 8 w) = w % 2 ^ 64 := leVal_leBytes 8 w
  have hkind : bits (w % 2 ^ 64) 55 52 = reqKind w := by
    rw [bits_eq, reqKind]
    omega
  have hunit : bits (w % 2 ^ 64) 44 32 = reqUnit w := by
    rw [bits_eq, reqUnit]
    omega
  rw [State.writeRecord_below (by rw [hlen]), State.writeFields_one (f := (0x168, 8)) (l := recordFields.take 9) (r := recordFields.drop 10)
    rfl (missed _ (by decide)) (missed _ (by decide))]
  refine congrArg (fun t : State => t.settleSup part false) ?_
  unfold State.writeField
  rw [if_neg (by simp [hlen])]
  dsimp only
  rw [overlayField_whole (by rw [State.cfgBytes_length, hlen]), if_pos rfl, hval, hkind, hunit, hlen, if_neg (by decide)]
  rfl

theorem reqField_length : (reqField w).length = 8 := length_leBytes 8 _

/-- A core that a request names drains, and the field shows the request. -/
theorem State.requestCore_spec (hk : reqKind w = 0) (hm : s.mayRetire part 0 (reqUnit w) = true) (hd : s.supDue part = false) :
    let t := (s.putCfg part 0x168 (reqField w)).requestRetire 0 (reqUnit w)
    t.settleSup part false = t ∧ (t.core (reqUnit w)).draining = true ∧ t.cfg part 0x168 8 = reqUnit w * 2 ^ 32 ∧ t.mem = s.mem := by
  have hex : s.exists' (reqUnit w) = true := by
    have hup : s.unitUp 0 (reqUnit w) = true := (Bool.and_eq_true_iff.mp hm).1
    simp only [State.unitUp, unitCores, Bool.and_eq_true] at hup
    simpa using hup.1.2
  have heq : (s.putCfg part 0x168 (reqField w)).requestRetire 0 (reqUnit w) =
      (s.putCfg part 0x168 (reqField w)).updCore (reqUnit w) fun k => { k with draining := true } := by
    change (if State.exists' _ _ then _ else _ : State) = _
    exact if_pos hex
  intro t
  have ht : t = (s.putCfg part 0x168 (reqField w)).updCore (reqUnit w) fun k => { k with draining := true } := heq
  have hcfg : t.cfg part 0x168 8 = reqUnit w * 2 ^ 32 := by
    have hself := State.putCfg_self (s := s) (part := part) 0x168 (reqField w)
    rw [reqField_length] at hself
    rw [ht]
    refine hself.trans ?_
    rw [reqField, leVal_leBytes, hk, Nat.shiftLeft_eq, Nat.shiftLeft_eq]
    have : reqUnit w < 2 ^ 13 := Nat.mod_lt _ (by decide)
    omega
  refine ⟨State.settleSup_idle ?_, ?_, hcfg, by rw [ht]; rfl⟩
  · have hput : (s.putCfg part 0x168 (reqField w)).supDue part = s.supDue part := State.putCfg_supDue (by rw [reqField_length]; decide)
    rw [ht]
    exact hput.trans hd
  · rw [ht, State.updCore_core_self]

end

/-- A record whose error bit is set. -/
theorem State.recordError_spec (hd : s.supDue part = false) : (s.recordError part).settleSup part false = s.recordError part ∧
    (s.recordError part).cfg part 0x3F8 1 % 2 = 1 := by
  refine ⟨State.settleSup_idle ((State.putCfg_supDue ?_).trans hd), ?_⟩
  · rw [List.length_singleton]
    decide
  · have hself := State.putCfg_self (s := s) (part := part) 0x3F8 [BitVec.ofNat 8 (s.cfg part 0x3F8 1 ||| 1)]
    rw [List.length_singleton] at hself
    have hodd (x : Nat) : (x ||| 1) % 2 ^ 8 % 2 = 1 := by
      rw [Nat.mod_mod_of_dvd _ (by decide), Nat.or_mod_two_pow (n := 1)]
      obtain h | h := Nat.mod_two_eq_zero_or_one x <;> simp [h]
    rw [State.recordError, hself]
    exact hodd _

/-- The error bit is cleared by writing it. -/
theorem State.writeRecord_clear (hd : s.supDue part = false) : s.writeRecord part 0x3F8 [1#8] = s.putCfg part 0x3F8 [0#8] ∧
    (s.putCfg part 0x3F8 [0#8]).cfg part 0x3F8 1 = 0 := by
  have hdue : (s.putCfg part 0x3F8 [0#8]).supDue part = false := (State.putCfg_supDue (by rw [List.length_singleton]; decide)).trans hd
  refine ⟨?_, State.putCfg_self (s := s) (part := part) 0x3F8 [0#8]⟩
  have missed : ∀ f ∈ recordFields, fieldMissed [1#8] 0x3F8 f := by
    unfold fieldMissed
    decide
  unfold State.writeRecord
  dsimp only
  rw [State.writeFields_missed _ missed, if_pos (by decide)]
  exact State.settleSup_idle hdue

end

section
variable {s : State} {part : Nat}

/-! ### The steps -/

theorem configRecordWrite_pcie {writer off : Nat} (hup : s.pcieUp = true) (ha : s.args = [writer, part, off]) :
    exec .configRecordWrite s = .next (s.writeIo writer (part * 0x100000 + off % 0x100000) s.payload) := by
  change execConfigRecordWrite s = _
  unfold execConfigRecordWrite
  rw [ha]
  dsimp only
  rw [hup, State.arg, State.arg, State.arg, ha]
  rfl

theorem configRecordWrite_down {writer off : Nat} (hd : s.pcieUp = false) (ha : s.args = [writer, part, off]) :
    exec .configRecordWrite s = .next s := by
  change execConfigRecordWrite s = _
  unfold execConfigRecordWrite
  rw [ha]
  dsimp only
  rw [hd]
  rfl

theorem configRecordWrite_cap {writer watts : Nat} (hup : s.pcieUp = true) (hw : writer ≤ 1) (ha : s.args = [writer, watts]) :
    ∃ t, exec .configRecordWrite s = .next t ∧ t.hub.cap = (if 600 ≤ watts ∧ watts ≤ 1800 then watts else s.hub.cap) ∧ t.mem = s.mem ∧
      t.cores = s.cores := by
  refine ⟨s.setCap writer watts, ?_, ?_⟩
  · change execConfigRecordWrite s = _
    unfold execConfigRecordWrite
    rw [ha]
    dsimp only
    rw [hup]
    rfl
  · unfold State.setCap
    by_cases h : 600 ≤ watts ∧ watts ≤ 1800
    · rw [if_pos (by simp [hw, h]), if_pos h]
      exact ⟨rfl, rfl, rfl⟩
    · rw [if_neg (by simpa [hw] using h), if_neg h]
      exact ⟨rfl, rfl, rfl⟩

theorem unitRetirementRequest_writes {writer w : Nat} (hup : s.pcieUp = true) (ha : s.args = [writer, part, w]) (hw : writer ≤ 1) (hp : part ≤ 385) :
    exec .unitRetirementRequest s = .next (s.writeRecord part 0x168 (leBytes 8 w)) := by
  change execUnitRetirementRequest s = _
  unfold execUnitRetirementRequest
  rw [hup, State.arg, State.arg, State.arg, ha, ← State.writeIo_record hw hp (by decide)]
  rfl

theorem configErrorClear_writes {writer : Nat} (hup : s.pcieUp = true) (ha : s.args = [writer, part]) (hw : writer ≤ 1) (hp : part ≤ 385) :
    exec .configErrorClear s = .next (s.writeRecord part 0x3F8 [1#8]) := by
  change execConfigErrorClear s = _
  unfold execConfigErrorClear
  rw [hup, State.arg, State.arg, ha, ← State.writeIo_record hw hp (by decide)]
  rfl

theorem configRecordWrite_store {w : IoWrite} {rest : List IoWrite} (ha : s.args = []) (hw : s.iow = w :: rest) :
    exec .configRecordWrite s = .next (({ s with iow := rest } : State).writeIo w.part (w.addr - 0x500000000000) w.bytes) := by
  change execConfigRecordWrite s = _
  unfold execConfigRecordWrite
  rw [ha]
  dsimp only
  rw [hw]

end

/-- Settles O54: each write by the one field that it reaches, which reads back; the supervisor actor depends on other fields. -/
theorem recordSteps : Obligations.RecordSteps := by
  intro s part hp
  refine ⟨fun hup v writer hw ha hb => ?_, fun hd writer off ha => configRecordWrite_down hd ha, fun writer off hw ha => ?_,
    fun hup writer watts hw ha => configRecordWrite_cap hup hw ha, ?_, fun hup writer w hw ha => ⟨fun hk hm hd => ?_, fun hm hd => ?_⟩,
    fun hup writer hw ha hd => ?_⟩
  · refine ⟨?_, (State.limit_spec v).1, rfl, rfl, (State.limit_spec v).2⟩
    rw [configRecordWrite_pcie hup ha, hb, State.writeIo_record hw hp (by decide), State.writeRecord_limit]
  · obtain hup | hup := Bool.eq_false_or_eq_true s.pcieUp
    · rw [configRecordWrite_pcie hup ha, State.writeIo_denied hw]
    · exact configRecordWrite_down hup ha
  · rintro w rest ha hio hw haddr ⟨v, hv⟩ hd
    have hoff : w.addr - 0x500000000000 = part * 0x100000 + 0x94 := by omega
    have hd' : ({ s with iow := rest } : State).supDue part = false := hd
    refine ⟨_, configRecordWrite_store ha hio, ?_⟩
    rw [hoff, State.writeIo_record hw hp (by decide), hv, State.writeRecord_limit, (State.limit_spec v).2 hd', (State.limit_spec v).1, leVal_leBytes]
    exact ⟨rfl, rfl⟩
  · have hm' : s.mayRetire part 0 (reqUnit w) = true := hm
    obtain ⟨hsettle, hdrain, hcfg, hmem⟩ := State.requestCore_spec w hk hm' hd
    refine ⟨_, unitRetirementRequest_writes hup ha hw hp, ?_⟩
    rw [State.writeRecord_request, show reqKind w = 0 from hk, if_pos hm', hsettle]
    exact ⟨hdrain, hcfg, hmem⟩
  · obtain ⟨hsettle, hbit⟩ := State.recordError_spec hd
    refine ⟨_, unitRetirementRequest_writes hup ha hw hp, ?_⟩
    have hm' : s.mayRetire part (reqKind w) (reqUnit w) = false := hm
    rw [State.writeRecord_request, if_neg (by simp [hm']), hsettle]
    exact ⟨hbit, rfl, rfl, rfl⟩
  · obtain ⟨hwrite, hcfg⟩ := State.writeRecord_clear hd
    refine ⟨_, configErrorClear_writes hup ha hw hp, ?_⟩
    rw [hwrite]
    exact ⟨hcfg, rfl⟩

end Sys2Proof.Machine
end

section
section
/-! Rules of a turn: what the fetch of a line leaves, how a turn ends, and what a unit's trap saves. -/
namespace Sys2Proof.Machine

-- One proof after another: the threads of many proofs at once do not fit the memory of the check.
set_option Elab.async false

/-! ### The start of a turn and the fetch of a line -/

theorem CoreT.updFir_gp (t : CoreT) (g : Firing → Firing) : (t.updFir g).gp = t.gp := (t.sameRegs_updFir g).gp

theorem Core.elapse_gp (k : Core) (dt : Nat) : (k.elapse dt).t.gp = k.t.gp := k.t.updFir_gp _

theorem State.beginTurn_mem (s : State) (a : Turn) : (s.beginTurn a).mem = s.mem := by
  unfold State.beginTurn State.elapse
  split <;> rfl

/-- Time that passes changes no register. -/
theorem State.beginTurn_gp (s : State) (dt : Nat) (act : Option Instr) (args : List Nat) (payload : List Byte) :
    (s.beginTurn ⟨dt, s.cur, act, args, payload⟩).t.gp = s.t.gp := by
  unfold State.beginTurn State.elapse
  split
  · rfl
  · exact (FMap.get_map_rel (fun k l : Core => l.t.gp = k.t.gp) Core.reset (fun k => k.elapse dt) rfl (fun k => k.elapse_gp dt)
      s.cores s.cur)

/-- Two cores that differ in their instruction caches alone. -/
def Core.SameButCache (k l : Core) : Prop := l = { k with icache := l.icache }

/-- Two states that differ in the cores' instruction caches alone. -/
def State.SameButCaches (s t : State) : Prop :=
  t = { s with cores := t.cores } ∧ ∀ c, (s.core c).SameButCache (t.core c)

section Fetch
variable {s t u : State} {f : Firing}

theorem Core.SameButCache.trans {k l m : Core} (a : k.SameButCache l) (b : l.SameButCache m) : k.SameButCache m := by
  unfold Core.SameButCache at *
  rw [b, a]

theorem Core.sameButCache_icFill (k : Core) (x : CodeId) (line : Nat) : k.SameButCache (k.icFill x line) := by
  unfold Core.icFill
  split <;> rfl

theorem State.SameButCaches.refl (s : State) : s.SameButCaches s := ⟨rfl, fun _ => rfl⟩

theorem State.SameButCaches.trans (a : s.SameButCaches t) (b : t.SameButCaches u) : s.SameButCaches u := by
  refine ⟨?_, fun c => (a.2 c).trans (b.2 c)⟩
  rw [b.1, a.1]

theorem State.sameButCaches_updCore (s : State) (c : Nat) {g : Core → Core} (hg : ∀ k : Core, k.SameButCache (g k)) :
    s.SameButCaches (s.updCore c g) := by
  refine ⟨rfl, fun d => ?_⟩
  by_cases hd : d = c
  · subst hd
    rw [State.updCore_core_self]
    exact hg _
  · rw [State.updCore_core_other _ _ _ _ hd]
    rfl

theorem State.sameButCaches_icFillAll (s : State) (die : Nat) (x : CodeId) (line : Nat) :
    s.SameButCaches (s.icFillAll die x line) := by
  unfold State.icFillAll
  induction s.codeUsers die x generalizing s with
  | nil => exact State.SameButCaches.refl s
  | cons c l ih => exact (s.sameButCaches_updCore c fun k => k.sameButCache_icFill x line).trans (ih _)

/-- The fetch of a line changes instruction caches alone (R120, R121). -/
theorem State.sameButCaches_fetchLine (s : State) (f : Firing) (line : Nat) : s.SameButCaches (s.fetchLine f line) := by
  have hfill : s.SameButCaches (if s.me.icHas f.code line then s else s.icFillAll (dieOf s.cur) f.code line) := by
    split
    · exact State.SameButCaches.refl s
    · exact s.sameButCaches_icFillAll _ _ _
  have huse (k : Core) : k.SameButCache
      (if k.icHas f.code line then k.icTouch f.code line else (k.icFill f.code line).icTouch f.code line) := by
    split
    · rfl
    · exact (k.sameButCache_icFill _ _).trans rfl
  exact hfill.trans (State.sameButCaches_updCore _ _ huse)

theorem State.SameButCaches.cur (h : s.SameButCaches t) : t.cur = s.cur := by rw [h.1]

theorem State.SameButCaches.mem (h : s.SameButCaches t) : t.mem = s.mem := by rw [h.1]

theorem State.SameButCaches.me (h : s.SameButCaches t) : t.me = { s.me with icache := t.me.icache } := by
  have hk := h.2 s.cur
  unfold State.me
  rw [h.cur]
  exact hk

theorem State.SameButCaches.same_t (h : s.SameButCaches t) : t.t = s.t := by rw [State.t, h.me]; rfl

theorem State.SameButCaches.windowFull (h : s.SameButCaches t) (n : Nat) : t.windowFull n = s.windowFull n := by
  unfold State.windowFull
  rw [h.same_t]

theorem State.SameButCaches.chunkFull (h : s.SameButCaches t) (n : Nat) : t.chunkFull n = s.chunkFull n := by
  unfold State.chunkFull
  rw [h.me]

end Fetch

/-! ### Before an instruction -/

/-- The tentative part of a unit of so many bytes that is about to run (R45). -/
def CoreT.at' (t : CoreT) (bytes : Nat) : CoreT := { t with npc := t.pc + word bytes }

theorem State.openFor_t (s : State) (bytes : Nat) : (s.openFor bytes).t = s.t.at' bytes := by
  rw [State.openFor, State.updT_t, State.withChunk_t]
  rfl

theorem State.openFor_mem (s : State) (bytes : Nat) : (s.openFor bytes).mem = s.mem := rfl

/-! ### The end of a turn -/

/-- A core after an instruction: the chunk counts what has executed. -/
def Core.counted (k : Core) (n : Nat) : Core :=
  { k with second := false, chunk := k.chunk.map fun ch => { ch with cnt := ch.cnt + n } }

/-- The tentative part after an instruction: the program counter goes where control was sent. -/
def CoreT.advanced (t : CoreT) (n : Nat) (open' keepSkip : Bool) : CoreT :=
  let u := t.updFir fun f => { f with pc := t.npc, ran := f.ran + n }
  { u with maskCnt := if open' && u.maskOpen then u.maskCnt + n else u.maskCnt }.setSkips (keepSkip && u.skips)

section Finish
variable {t : State} {n : Nat} {o k : Bool} {g : Firing}

theorem CoreT.setSkips_fir (t : CoreT) (b : Bool) : (t.setSkips b).fir = t.fir := by
  unfold CoreT.setSkips
  split <;> rfl

theorem CoreT.setSkips_gp (t : CoreT) (b : Bool) : (t.setSkips b).gp = t.gp := by
  unfold CoreT.setSkips
  split <;> rfl

theorem CoreT.advanced_fir (t : CoreT) (n : Nat) (o k : Bool) :
    (t.advanced n o k).fir = t.fir.map fun f => { f with pc := t.npc, ran := f.ran + n } :=
  (CoreT.setSkips_fir _ _).trans (CoreT.updFir_fir (t := t) _)

theorem CoreT.advanced_tr (t : CoreT) (n : Nat) (o k : Bool) : (t.advanced n o k).tr = t.tr :=
  (CoreT.setSkips_tr _ _).trans (CoreT.updFir_tr (t := t) _)

theorem CoreT.advanced_gp (t : CoreT) (n : Nat) (o k : Bool) : (t.advanced n o k).gp = t.gp :=
  (CoreT.setSkips_gp _ _).trans (CoreT.updFir_gp t _)

theorem CoreT.advanced_pc {t : CoreT} (hg : t.fir = some g) : (t.advanced n o k).pc = t.npc := by
  rw [CoreT.pc, CoreT.advanced_fir, hg]
  rfl

theorem CoreT.advanced_heldNow (t : CoreT) (n : Nat) (o k : Bool) : (t.advanced n o k).heldNow = t.heldNow := by
  unfold CoreT.heldNow CoreT.inTrap
  rw [CoreT.advanced_fir, CoreT.advanced_tr]
  cases t.fir <;> rfl

/-- The state in which an instruction that has executed leaves its chunk to `settle`. -/
def State.executed (t : State) (n : Nat) (o k : Bool) : State :=
  ((t.updMe fun c => c.counted n).updT fun u => u.advanced n o k).updMe Core.passAfter

theorem State.executed_t : (t.executed n o k).t = t.t.advanced n o k := by
  change (State.updMe _ Core.passAfter).t = _
  rw [State.updMe_t]
  change (((t.updMe fun c => c.counted n).updT fun u => u.advanced n o k)).t = _
  rw [State.updT_t, State.updMe_t]
  rfl

theorem Core.passAfter_now (k : Core) : k.passAfter.chunk.any (·.now) = k.chunk.any (·.now) := by
  cases h : k.chunk with
  | none => simp [Core.passAfter, h]
  | some ch => by_cases ha : ch.after = true <;> simp [Core.passAfter, h, ha]

theorem State.executed_now : (t.executed n o k).me.chunk.any (·.now) = t.me.chunk.any (·.now) := by
  rw [State.executed, State.updMe_me, Core.passAfter_now, State.updT_me, State.updMe_me]
  change (t.me.chunk.map _).any _ = _
  cases t.me.chunk <;> rfl

theorem State.executed_solo : (t.executed n o k).me.solo = t.me.solo := by
  rw [State.executed, State.updMe_me]
  change ((t.updMe fun c => c.counted n).updT fun u => u.advanced n o k).me.solo = _
  rw [State.updT_me, State.updMe_me]
  rfl

/-- A chunk is held with its firing alone. -/
theorem State.settle_of_free {s : State} (h : s.t.heldNow = false) : s.settle = s := by
  unfold State.settle
  split
  · rw [h, Bool.and_false]
    rfl
  · rfl

/-- The turn of an instruction that neither waits nor traps ends with the count. -/
theorem State.finishTurn_executed (hst : t.me.stayed = false) (hheld : t.t.heldNow = false) (hnow : t.me.chunk.any (·.now) = false)
    (hsolo : t.me.solo = none) : t.finishTurn n o k = t.executed n o k := by
  have hset : (t.executed n o k).settle = t.executed n o k :=
    State.settle_of_free (by rw [State.executed_t, CoreT.advanced_heldNow, hheld])
  have hio : (t.executed n o k).commitIo = t.executed n o k := by
    rw [State.commitIo, State.executed_now, hnow]
    rfl
  have heq : t.finishTurn n o k =
      match (t.executed n o k).settle.commitIo.me.solo, (t.executed n o k).settle.commitIo.me.chunk with
      | some so, some ch => (t.executed n o k).settle.commitIo.updMe fun c =>
          { c with solo := some { so with last := ch.sealed }, chunk := some { ch with sealed := true } }
      | some _, none => (t.executed n o k).settle.commitIo.leaveSolo (t.executed n o k).settle.commitIo.cur
      | none, _ => (t.executed n o k).settle.commitIo := by
    rw [State.finishTurn, if_neg (by rw [hst]; decide)]
    rfl
  rw [heq, hset, hio, State.executed_solo, hsolo]

/-- An instruction that stays leaves the tentative part and memory as they are. -/
theorem State.finishTurn_stayed (hst : t.me.stayed = true) : (t.finishTurn n o k).t = t.t ∧ (t.finishTurn n o k).mem = t.mem := by
  have hleave (s : State) : (if s.me.solo.isSome then s.leaveSolo s.cur else s).t = s.t ∧
      (if s.me.solo.isSome then s.leaveSolo s.cur else s).mem = s.mem := by
    split
    · unfold State.leaveSolo
      split
      · exact ⟨rfl, rfl⟩
      · exact ⟨State.updMe_t s fun k => { k with solo := none }, rfl⟩
    · exact ⟨rfl, rfl⟩
  rw [State.finishTurn, if_pos hst]
  obtain ⟨ht, hm⟩ := hleave (t.updMe fun k => { k with stayed := false, second := false })
  exact ⟨ht.trans (State.updMe_t _ _), hm⟩

/-- How a turn ends, whatever its instruction has left. -/
theorem turnEnds_finishTurn (t : State) (n : Nat) (o k : Bool) : TurnEnds (.next (t.finishTurn n o k)) t := by
  intro g hsolo hg
  constructor
  · intro hst hheld hnow
    refine ⟨_, rfl, ?_⟩
    rw [State.finishTurn_executed hst hheld hnow hsolo, State.executed_t]
    exact ⟨CoreT.advanced_pc hg, rfl, CoreT.advanced_gp _ _ _ _⟩
  · intro hst
    exact ⟨_, rfl, State.finishTurn_stayed hst⟩

end Finish

/-! ### A trap at the unit -/

/-- What a trap at the unit being issued leaves, with no chunk open and a handler to enter (R37, R43, R51, R357). -/
theorem unitTrap_enters {v : State} {f : Firing} (c : Cause) (x : Nat) (second : Bool) (hk : v.me.chunk = none) (hf : v.t.fir = some f)
    (hp : f.pri ≤ 1) (hin : v.t.inTrap = false) (hvec : v.t.tr.xvec ≠ 0) : ∃ t, v.unitTrap c x second = .next t ∧
      t.t.tr.xcause = word (c.code + 2 ^ 8 * b2n (v.t.pc.getLsbD 2 || v.me.second || second)) ∧ t.t.tr.xval = word x ∧
      t.t.tr.xpc = f.pc ∧ t.t.pc = v.t.tr.xvec ∧ t.t.sup = true ∧ t.t.inTrap = true ∧ t.t.gp = v.t.gp ∧ t.mem = v.mem := by
  have hempty : ∀ ch, v.me.chunk = some ch → ch.cnt = 0 := by
    rw [hk]
    exact fun _ h => nomatch h
  obtain ⟨hcause, hxval, hxpc, hsup, -, -, -, hintrap, -, -, -, -, -, hpc, -, -, hstayed, hgp, -, -, hbyte, -⟩ :=
    trapEntry v c (word x) v.t.pc false (v.secw || second) f hempty hf hin hvec hp
  have hmem : (v.takeTrap c (word x) v.t.pc false (v.secw || second)).mem = v.mem := by
    obtain ⟨q, hqt, hqm, htrap⟩ := State.takeTrap_at_once (c := c) (xval := word x) (xpc := v.t.pc) (imp := false)
      (secw := v.secw || second) hempty
    rw [← hqt] at hf hin hvec
    rw [htrap, ← hqm]
    exact State.enterTrap_mem hf hin hvec
  obtain ⟨ht, hm⟩ := State.finishTurn_stayed (n := 0) (o := false) (k := false) hstayed
  refine ⟨_, rfl, ?_⟩
  rw [ht, hm]
  exact ⟨hcause, hxval, hxpc.trans (CoreT.pc_of_fir hf), hpc, hsup, hintrap, hgp, hmem⟩

end Sys2Proof.Machine
end
end

section
section
/-! Proof of the statement that a step runs what it decodes: a turn without an agenda issues the unit at the program counter, by
R51's checks in their order. -/
namespace Sys2Proof.Machine

-- One proof after another: the threads of many proofs at once do not fit the memory of the check.
set_option Elab.async false

/-! ### R51's checks of a word -/

section Words
variable (s : State) (x w : BitVec 32)

theorem State.illegalWord_iff :
    s.illegalWord x = true ↔ decodeWord x = .error .illegalOp ∨ isMemCore s.cur = true ∧ memIllegal x = true := by
  simp [State.illegalWord]

theorem isReserved_iff (r : Except Reject Instr) : isReserved r = true ↔ ∃ i, r = .error (.reservedBits i) := by
  match r with
  | .ok i => simp [isReserved]
  | .error .illegalOp => simp [isReserved]
  | .error (.reservedBits i) => simp [isReserved]

theorem reservedWord_iff (second : Bool) :
    reservedWord x second = true ↔ (∃ i, decodeWord x = .error (.reservedBits i)) ∨ second = true ∧ x.msb = true := by
  rw [reservedWord, Bool.or_eq_true, isReserved_iff, Bool.and_eq_true, BitVec.msb_eq_getLsbD_last]

theorem State.illegalWord_of_ok {i : Instr} (hd : decodeWord w = .ok i) (hm : isMemCore s.cur = true → memIllegal w = false) :
    s.illegalWord w = false := by
  refine Bool.eq_false_iff.mpr fun h => ?_
  rcases (s.illegalWord_iff w).mp h with hx | ⟨hc, hi⟩
  · rw [hd] at hx
    exact nomatch hx
  · rw [hm hc] at hi
    exact nomatch hi

theorem reservedWord_of_ok {i : Instr} (second : Bool) (hd : decodeWord w = .ok i) (hm : w.msb = false) : reservedWord w second = false := by
  refine Bool.eq_false_iff.mpr fun h => ?_
  rcases (reservedWord_iff w second).mp h with ⟨j, hj⟩ | ⟨-, hx⟩
  · rw [hd] at hj
    exact nomatch hj
  · rw [hm] at hx
    exact nomatch hx

/-- The words of the majors that a memory core lacks (R170). -/
theorem memIllegal_of_major (h : x.toNat / 2 ^ 25 % 2 ^ 6 ∈ [0x0F, 0x10, 0x11, 0x14]) : memIllegal x = true := by
  have hmaj : (fMaj x).toNat = x.toNat / 2 ^ 25 % 2 ^ 6 := by
    rw [fMaj, BitVec.extractLsb'_toNat, Nat.shiftRight_eq_div_pow]
  rw [memIllegal, hmaj, List.contains_iff_mem.mpr h, Bool.true_or]

/-- So are those of an instruction that names a link, whatever its reserved fields hold. -/
theorem memIllegal_of_link {i : Instr} (hd : decodeWord x = .ok i ∨ decodeWord x = .error (.reservedBits i))
    (h : ∃ r ∈ (useOf i).rv ++ (useOf i).wv ++ (useOf i).late, r = 16#5 ∨ r = 17#5) : memIllegal x = true := by
  have hlink : usesLink i = true := by
    obtain ⟨r, hr, hv⟩ := h
    exact List.any_eq_true.mpr ⟨r, hr, by simpa using hv⟩
  rcases hd with hd | hd <;> rw [memIllegal, hd, Bool.or_eq_true] <;> exact .inr hlink

end Words

/-! ### The unit that a turn issues -/

section Units
variable {b : State} {f : Firing} {w w2 : BitVec 32} {c a i : Instr}

theorem State.coreTurn_issues (hex : b.exists' b.cur = true) (htake : b.me.takeover = false) (hpre : b.preemptor = none)
    (hf : b.t.fir = some f) (hopen : ∀ ch, b.me.chunk = some ch → ch.sealed = false) (hblk : b.blocked = false)
    (hdue : b.dueTrap = none) (himp : b.dueImprecise = none) : b.coreTurn = b.fetchIssue f := by
  cases hch : b.me.chunk with
  | none => simp [State.coreTurn, hex, htake, hpre, hf, hch, hblk, hdue, himp]
  | some ch => simp [State.coreTurn, hex, htake, hpre, hf, hch, hopen ch hch, hblk, hdue, himp]

theorem State.issue_runs {n : Nat} {run : State → Out} (hw : b.windowFull n = false) (hc : b.chunkFull n = false) :
    b.issue n run = run b := by
  rw [State.issue, hw, hc]
  rfl

theorem State.fetchIssue_outside (hw : b.codeWord f.pc.toNat = none) : b.fetchIssue f = b.unitTrap .protExec f.pc.toNat false := by
  simp only [State.fetchIssue, hw]

/-- A lone unit: no second word stands behind the word at the program counter. -/
theorem State.not_paired (h : w.msb = false ∨ f.pc.toNat % 8 ≠ 0) : (f.pc.toNat % 8 = 0 && w.getLsbD 31) = false := by
  rcases h with h | h
  · rw [BitVec.msb_eq_getLsbD_last] at h
    rw [show w.getLsbD 31 = false from h, Bool.and_false]
  · rw [decide_eq_false h, Bool.false_and]

theorem State.paired (hm : w.msb = true) (h8 : f.pc.toNat % 8 = 0) : (f.pc.toNat % 8 = 0 && w.getLsbD 31) = true := by
  rw [BitVec.msb_eq_getLsbD_last] at hm
  rw [decide_eq_true h8, show w.getLsbD 31 = true from hm, Bool.and_true]

section Lone
variable (hw : b.codeWord f.pc.toNat = some w) (hl : w.msb = false ∨ f.pc.toNat % 8 ≠ 0)
include hw hl

theorem State.fetchIssue_lone_illegal (hi : (b.fetchLine f (f.pc.toNat / 64)).illegalWord w = true) :
    b.fetchIssue f = (b.fetchLine f (f.pc.toNat / 64)).unitTrap .illegalOp w.toNat false := by
  simp only [State.fetchIssue, hw, State.not_paired hl, hi, if_true, Bool.false_eq_true, if_false]

theorem State.fetchIssue_lone_reserved (hi : (b.fetchLine f (f.pc.toNat / 64)).illegalWord w = false)
    (hr : reservedWord w (decide (f.pc.toNat % 8 ≠ 0)) = true) :
    b.fetchIssue f = (b.fetchLine f (f.pc.toNat / 64)).unitTrap .reservedBits w.toNat false := by
  simp only [State.fetchIssue, hw, State.not_paired hl, hi, hr, if_true, Bool.false_eq_true, if_false]

theorem State.fetchIssue_lone (hi : (b.fetchLine f (f.pc.toNat / 64)).illegalWord w = false)
    (hr : reservedWord w (decide (f.pc.toNat % 8 ≠ 0)) = false) (hd : decodeWord w = .ok i) :
    b.fetchIssue f = (b.fetchLine f (f.pc.toNat / 64)).issue 1 fun s => s.runLone i := by
  simp only [State.fetchIssue, hw, State.not_paired hl, hi, hr, hd, Bool.false_eq_true, if_false]

end Lone

section Pair
variable (hw : b.codeWord f.pc.toNat = some w) (hm : w.msb = true) (h8 : f.pc.toNat % 8 = 0)
include hw hm h8

theorem State.fetchIssue_pair_outside (hw2 : (b.fetchLine f (f.pc.toNat / 64)).codeWord (f.pc.toNat + 4) = none) :
    b.fetchIssue f = (b.fetchLine f (f.pc.toNat / 64)).unitTrap .protExec (f.pc.toNat + 4) true := by
  simp only [State.fetchIssue, hw, State.paired hm h8, hw2, if_true]

variable (hw2 : (b.fetchLine f (f.pc.toNat / 64)).codeWord (f.pc.toNat + 4) = some w2)
include hw2

theorem State.fetchIssue_pair_illegal (hi : (b.fetchLine f (f.pc.toNat / 64)).illegalWord w = true) :
    b.fetchIssue f = (b.fetchLine f (f.pc.toNat / 64)).unitTrap .illegalOp w.toNat false := by
  simp only [State.fetchIssue, hw, State.paired hm h8, hw2, hi, if_true]

variable (hi : (b.fetchLine f (f.pc.toNat / 64)).illegalWord w = false)
include hi

theorem State.fetchIssue_pair_illegal_second (hi2 : (b.fetchLine f (f.pc.toNat / 64)).illegalWord w2 = true) :
    b.fetchIssue f = (b.fetchLine f (f.pc.toNat / 64)).unitTrap .illegalOp w2.toNat true := by
  simp only [State.fetchIssue, hw, State.paired hm h8, hw2, hi, hi2, if_true, Bool.false_eq_true, if_false]

variable (hi2 : (b.fetchLine f (f.pc.toNat / 64)).illegalWord w2 = false)
include hi2

theorem State.fetchIssue_pair_reserved (hr : reservedWord w false = true) :
    b.fetchIssue f = (b.fetchLine f (f.pc.toNat / 64)).unitTrap .reservedBits w.toNat false := by
  simp only [State.fetchIssue, hw, State.paired hm h8, hw2, hi, hi2, hr, if_true, Bool.false_eq_true, if_false]

variable (hr : reservedWord w false = false)
include hr

theorem State.fetchIssue_pair_reserved_second (hr2 : reservedWord w2 true = true) :
    b.fetchIssue f = (b.fetchLine f (f.pc.toNat / 64)).unitTrap .reservedBits w2.toNat true := by
  simp only [State.fetchIssue, hw, State.paired hm h8, hw2, hi, hi2, hr, hr2, if_true, Bool.false_eq_true, if_false]

variable (hr2 : reservedWord w2 true = false)
include hr2

theorem State.fetchIssue_pair_bad (hb : (b.fetchLine f (f.pc.toNat / 64)).badPair w w2 = true) :
    b.fetchIssue f = (b.fetchLine f (f.pc.toNat / 64)).unitTrap .illegalPair (w2.toNat * 2 ^ 32 + w.toNat) false := by
  simp only [State.fetchIssue, hw, State.paired hm h8, hw2, hi, hi2, hr, hr2, hb, if_true, Bool.false_eq_true, if_false]

theorem State.fetchIssue_pair (hb : (b.fetchLine f (f.pc.toNat / 64)).badPair w w2 = false) (hd : decodeWord w = .ok c)
    (hd2 : decodeWord w2 = .ok a) :
    b.fetchIssue f = (b.fetchLine f (f.pc.toNat / 64)).issue 2 fun s => s.runPair c a := by
  simp only [State.fetchIssue, hw, State.paired hm h8, hw2, hi, hi2, hr, hr2, hb, hd, hd2, if_true, Bool.false_eq_true, if_false]

end Pair

/-- The pairs that R44 refuses. -/
theorem State.badPair_iff (v : State) (hd : decodeWord w = .ok c) (hd2 : decodeWord w2 = .ok a) : v.badPair w w2 = true ↔
    classA w = true ∨ classA w2 = false ∨ alwaysLone c = true ∨ ∃ k ∈ v.pairWrites c, k ∈ v.pairWrites a := by
  simp [State.badPair, hd, hd2, or_assoc]

end Units

/-! ### A pair -/

section Pairs
variable {u sc sa sb : State} {c a : Instr}

/-- The second member reads every register as it stood before the pair (R43). -/
theorem State.forSecond_reads (sc : State) (old : CoreT) : (sc.forSecond old).t.gp = old.gp ∧ (sc.forSecond old).t.gs = old.gs ∧
    (sc.forSecond old).t.v = old.v ∧ (sc.forSecond old).mem = sc.mem := by
  rw [State.forSecond, State.updMe_t]
  change (sc.updT _).t.gp = _ ∧ (sc.updT _).t.gs = _ ∧ (sc.updT _).t.v = _ ∧ sc.mem = sc.mem
  rw [State.updT_t]
  exact ⟨rfl, rfl, rfl, rfl⟩

theorem mergeRegs_get {n m : Nat} (old c a : Vector (BitVec m) n) (q : Fin n) :
    (mergeRegs old c a).get q = if c.get q = old.get q then a.get q else c.get q := by
  simp [mergeRegs, Vector.get, ite_not]
  rfl

theorem mergeVecs_get (old c a : Vector VReg 16) (q : Fin 16) :
    (mergeVecs old c a).get q = if c.get q = old.get q then a.get q else c.get q := by
  simp [mergeVecs, Vector.get, ite_not]
  rfl

/-- A push that reaches a neighbour changes no register. -/
theorem State.landPush_regs (s : State) (n : Nat) (p : Bool × VReg) : s.t.SameRegs (s.landPush n p).t := by
  unfold State.landPush
  split
  · exact CoreT.SameRegs.refl _
  · rename_i m _
    change s.t.SameRegs (State.core _ s.cur).t
    by_cases hm : s.cur = m
    · subst hm
      rw [State.updCore_core_self, Core.both_t]
      split <;> exact ⟨rfl, rfl, rfl, rfl, rfl⟩
    · rw [State.updCore_core_other _ _ _ _ hm]
      exact CoreT.SameRegs.refl _

theorem State.foldl_landPush_regs (l : List (Bool × VReg)) (s : State) :
    s.t.SameRegs (l.foldl (fun (s : State) p => s.landPush s.cur p) s).t := by
  induction l generalizing s with
  | nil => exact CoreT.SameRegs.refl _
  | cons p l ih => exact (s.landPush_regs s.cur p).trans (ih _)

/-- Where no reply is awaited, the registers after a pair are the two members' (R43). -/
theorem State.joinPair_regs (old : CoreT) (h : ∀ d p q, (sa.me.waiting old.level).await ≠ .reply d p q) :
    ((sa.joinPair sc old).t.gp = mergeRegs old.gp sc.t.gp sa.t.gp) ∧ (sa.joinPair sc old).t.v = mergeVecs old.v sc.t.v sa.t.v := by
  have hjoin : (sa.updT fun t => t.joinPair sc.t old).t = sa.t.joinPair sc.t old := State.updT_t _ _
  unfold State.joinPair
  dsimp only
  split
  · rename_i hr
    exact absurd hr (h _ _ _)
  · split
    · rename_i ch _ _
      obtain ⟨hgp, -, hv, -, -⟩ := State.foldl_landPush_regs ch.push (sa.updT fun t => t.joinPair sc.t old).noChunk
      rw [hgp, hv, State.noChunk, State.updMe_t]
      change (sa.updT fun t => t.joinPair sc.t old).t.gp = _ ∧ (sa.updT fun t => t.joinPair sc.t old).t.v = _
      rw [hjoin]
      exact ⟨rfl, rfl⟩
    · rw [hjoin]
      exact ⟨rfl, rfl⟩

section Runs
variable {v : State} (hc : exec c (v.openFor 8) = .next sc)
include hc

/-- The first member waits: the pair stays, but for HREV's first turn. -/
theorem State.runPair_first_stays (hst : sc.me.stayed = true) (hrev : sc.revoking = false ∨ (v.openFor 8).revoking = true) :
    v.runPair c a = (v.openFor 8).endTurn 2 (setsSkip c) (.next sc) := by
  have hgo : (!sc.revoking || (v.openFor 8).revoking) = true := by
    rcases hrev with h | h
    · rw [h]
      rfl
    · rw [h, Bool.or_true]
  simp only [State.runPair, hc, hst, hgo, if_true]

variable (hst : sc.me.stayed = false)
include hst

theorem State.runPair_both (ha : exec a (sc.forSecond (v.openFor 8).t) = .next sa) (hst2 : sa.me.stayed = false) :
    v.runPair c a = (v.openFor 8).endTurn 2 (setsSkip c) (.next (sa.joinPair sc (v.openFor 8).t)) := by
  simp only [State.runPair, hc, hst, ha, hst2, Bool.false_eq_true, if_false, Bool.not_false, if_true]

/-- The second member waits: neither takes effect. -/
theorem State.runPair_second_stays (ha : exec a (sc.forSecond (v.openFor 8).t) = .next sa) (hst2 : sa.me.stayed = true)
    (hb : exec a ((v.openFor 8).updMe fun k => { k with second := true }) = .next sb) :
    v.runPair c a = (v.openFor 8).endTurn 2 (setsSkip c) (.next (if sb.me.stayed then sb else (v.openFor 8).stall)) := by
  simp only [State.runPair, hc, hst, ha, hst2, hb, Bool.false_eq_true, if_false, Bool.not_true]
  split <;> rfl

end Runs

theorem turnEnds_endTurn (u t : State) (n : Nat) (k : Bool) : TurnEnds (u.endTurn n k (.next t)) t := turnEnds_finishTurn t n _ k

end Pairs

/-! ### A turn of the agenda -/

theorem step_of_no_agenda {s : State} (h : s.agenda = []) : step s = (s.beginTurn ⟨1, s.cur, none, [], []⟩).coreTurn := by
  rw [step, h]
  rfl

theorem step_of_deviceStep {s : State} {a : Turn} {r : List Turn} {i : Instr} (h : s.agenda = a :: r) (ha : a.act = some i)
    (hi : deviceStep i = true) : step s = exec i (({ s with agenda := r } : State).beginTurn a) := by
  rw [step, h]
  change State.runTurn _ a.act = _
  rw [ha]
  exact if_pos hi

/-- Settles O57: R51's checks of the unit word by word, then the run of the lone instruction or of the pair. -/
theorem stepRunsDecoded : Obligations.StepRunsDecoded := by
  unfold Obligations.StepRunsDecoded
  refine ⟨?issue, fun x => ⟨memIllegal_of_major x, fun i hd h => memIllegal_of_link x hd h⟩,
    fun v c x second f hk hf hp hin hvec => unitTrap_enters c x second hk hf hp hin hvec, fun s a r i h ha hi => step_of_deviceStep h ha hi⟩
  intro s f b pc hag hex htake hpre hf hopen hblk hdue himp
  have hstep : step s = b.fetchIssue f :=
    (step_of_no_agenda hag).trans (State.coreTurn_issues hex htake hpre hf hopen hblk hdue himp)
  refine ⟨fun hw => hstep.trans (State.fetchIssue_outside hw), fun w hw => ?_⟩
  intro v denied odd
  have hv : b.SameButCaches v := b.sameButCaches_fetchLine f _
  have hill (x : BitVec 32) : v.illegalWord x = true ↔ denied x := by rw [State.illegalWord_iff, hv.cur]
  have hlegal (x : BitVec 32) (h : ¬denied x) : v.illegalWord x = false := Bool.eq_false_iff.mpr fun hx => h ((hill x).mp hx)
  have hfree (x : BitVec 32) (second : Bool) (h : ¬odd x second) : reservedWord x second = false :=
    Bool.eq_false_iff.mpr fun hx => h ((reservedWord_iff x second).mp hx)
  have hopened (n : Nat) : (v.openFor n).t.npc = f.pc + word n ∧ (v.openFor n).mem = s.mem ∧ (v.openFor n).t.gp = s.t.gp := by
    rw [State.openFor_t, State.openFor_mem, hv.mem, hv.same_t]
    refine ⟨?_, s.beginTurn_mem _, s.beginTurn_gp 1 none [] []⟩
    change b.t.pc + word n = _
    rw [CoreT.pc_of_fir hf]
  refine ⟨?lone, ?loneTraps, ?pair⟩
  case lone =>
    intro i hm hd hmem hwin hchk u
    have hrun : step s = u.endTurn 1 (setsSkip i) (exec i u) := by
      rw [hstep, State.fetchIssue_lone hw (.inl hm) (v.illegalWord_of_ok w hd (by rw [hv.cur]; exact hmem))
        (reservedWord_of_ok w _ hd hm) hd, State.issue_runs ((hv.windowFull 1).trans hwin) ((hv.chunkFull 1).trans hchk)]
      rfl
    obtain ⟨hnpc, hmem', hgp⟩ := hopened 4
    refine ⟨hrun, hnpc, hmem', hgp, fun t ht => ?_⟩
    rw [hrun, ht]
    exact turnEnds_endTurn u t 1 _
  case loneTraps =>
    intro hl
    exact ⟨fun hden => hstep.trans (State.fetchIssue_lone_illegal hw hl ((hill w).mpr hden)),
      fun hden hodd => hstep.trans (State.fetchIssue_lone_reserved hw hl (hlegal w hden) ((reservedWord_iff w _).mpr hodd))⟩
  case pair =>
    intro hm h8
    refine ⟨fun hw2 => hstep.trans (State.fetchIssue_pair_outside hw hm h8 hw2), fun w2 hw2 =>
      ⟨fun hden => hstep.trans (State.fetchIssue_pair_illegal hw hm h8 hw2 ((hill w).mpr hden)),
       fun hden hden2 => hstep.trans (State.fetchIssue_pair_illegal_second hw hm h8 hw2 (hlegal w hden) ((hill w2).mpr hden2)),
       fun hden hden2 hodd => hstep.trans (State.fetchIssue_pair_reserved hw hm h8 hw2 (hlegal w hden) (hlegal w2 hden2)
         ((reservedWord_iff w _).mpr hodd)),
       fun hden hden2 hodd hodd2 => hstep.trans (State.fetchIssue_pair_reserved_second hw hm h8 hw2 (hlegal w hden) (hlegal w2 hden2)
         (hfree w false hodd) ((reservedWord_iff w2 _).mpr hodd2)), ?_⟩⟩
    intro c a hd hd2 hden hden2 hm2
    have hr : reservedWord w false = false := hfree w false fun h => by
      rcases h with ⟨j, hj⟩ | ⟨h, -⟩
      · rw [hd] at hj
        exact nomatch hj
      · exact nomatch h
    have hr2 : reservedWord w2 true = false := reservedWord_of_ok w2 true hd2 hm2
    refine ⟨fun hbad => hstep.trans (State.fetchIssue_pair_bad hw hm h8 hw2 (hlegal w hden) (hlegal w2 hden2) hr hr2
      ((v.badPair_iff hd hd2).mpr hbad)), ?_⟩
    intro hcls hcls2 hlone hdisj hwin hchk u
    have hgood : v.badPair w w2 = false := Bool.eq_false_iff.mpr fun h => by
      rcases (v.badPair_iff hd hd2).mp h with h | h | h | ⟨k, hk, hk'⟩
      · exact absurd h (by rw [hcls]; decide)
      · exact absurd h (by rw [hcls2]; decide)
      · exact absurd h (by rw [hlone]; decide)
      · exact hdisj k hk hk'
    have hrun : step s = v.runPair c a := by
      rw [hstep, State.fetchIssue_pair hw hm h8 hw2 (hlegal w hden) (hlegal w2 hden2) hr hr2 hgood hd hd2, State.issue_runs hwin hchk]
    have hends {n : Nat} {k : Bool} {t : State} (h : step s = u.endTurn n k (.next t)) :
        step s = u.endTurn n k (.next t) ∧ TurnEnds (step s) t := ⟨h, by rw [h]; exact turnEnds_endTurn u t n k⟩
    obtain ⟨hnpc, hmem, hgp⟩ := hopened 8
    refine ⟨hnpc, hmem, hgp, fun sc hc hst hrev => hends (hrun.trans (State.runPair_first_stays hc hst hrev)), ?_⟩
    intro sc sa hc hst sd
    obtain ⟨hgp', hgs', hv', hmem'⟩ := sc.forSecond_reads u.t
    refine ⟨hgp', hgs', hv', hmem', fun ha hst2 => ?_, fun sb ha hst2 hb =>
      hends (hrun.trans (State.runPair_second_stays hc hst ha hst2 hb))⟩
    obtain ⟨hturn, hend⟩ := hends (hrun.trans (State.runPair_both hc hst ha hst2))
    refine ⟨hturn, hend, fun hreply => ?_⟩
    obtain ⟨hjgp, hjv⟩ := State.joinPair_regs (sc := sc) u.t hreply
    rw [hjgp, hjv]
    exact ⟨fun q => mergeRegs_get _ _ _ q, fun q => mergeVecs_get _ _ _ q⟩

end Sys2Proof.Machine
end
end

section
section
/-! The canonical form of memory under the shared operations: bytes change by `State.poke` alone there, so each operation
keeps the form that `State.poke` keeps. -/
namespace Sys2Proof.Machine

-- One proof after another: the threads of many proofs at once do not fit the memory of the check.
set_option Elab.async false

/-- Memory has its canonical form. -/
def State.Wf (s : State) : Prop := Memory.wf s.mem = true

/-! ### Compositions -/

/-- What a step yields when it yields a state that goes on. -/
def OutWf (o : Out) : Prop := ∀ t, o = .next t → t.Wf

/-- What a fallible computation yields when it succeeds. -/
def Ends {α : Type} (p : α → Prop) (r : Res α) : Prop := ∀ a, r = .ok a → p a

section Compositions
variable {s : State} {α β : Type} {p : α → Prop}

@[simp] theorem outWf_next : OutWf (.next s) ↔ s.Wf := ⟨fun h => h s rfl, fun h t ht => by cases ht; exact h⟩

@[simp] theorem outWf_idle : OutWf (.idle s) ↔ s.Wf := outWf_next

@[simp] theorem outWf_fault (f : Fault) : OutWf (.fault f) := fun _ h => nomatch h

@[simp] theorem outWf_refused (r : Refusal) : OutWf (.refused r) := fun _ h => nomatch h

@[simp] theorem outWf_ite (c : Prop) [Decidable c] (a b : Out) : OutWf (if c then a else b) ↔ (c → OutWf a) ∧ (¬c → OutWf b) := by
  split <;> simp [*]

@[simp] theorem ends_ok (a : α) : Ends p (.ok a) ↔ p a := ⟨fun h => h a rfl, fun h b hb => by cases hb; exact h⟩

@[simp] theorem ends_error (e : Stop) : Ends p (.error e) := fun _ h => nomatch h

/-- A computation in two parts, what the first one yields known. -/
theorem Ends.bind {q : β → Prop} {m : Res β} {f : β → Res α} (hm : Ends q m) (hf : ∀ b, q b → Ends p (f b)) : Ends p (m >>= f) := by
  intro a ha
  obtain ⟨b, hb, hfb⟩ := bind_eq_ok.mp ha
  exact hf b (hm b hb) a hfb

/-- A check before a computation. -/
theorem Ends.check {m : Res β} {f : β → Res α} (hf : ∀ b, Ends p (f b)) : Ends p (m >>= f) :=
  Ends.bind (q := fun _ => True) (fun _ _ => trivial) fun b _ => hf b

theorem State.wf_ite (c : Prop) [Decidable c] {a b : State} (ha : a.Wf) (hb : b.Wf) : (if c then a else b).Wf := by
  split
  · exact ha
  · exact hb

theorem State.wf_foldl {f : State → β → State} (hf : ∀ (s : State) b, s.Wf → (f s b).Wf) (l : List β) {s : State} (hs : s.Wf) :
    (l.foldl f s).Wf := by
  induction l generalizing s with
  | nil => exact hs
  | cons b l ih => exact ih (hf s b hs)

end Compositions

/-! ### Writes, squashes and racks -/

section Shared
variable {s : State} (hs : s.Wf)
include hs

theorem State.Wf.of_mem {t : State} (h : t.mem = s.mem) : t.Wf := by rw [State.Wf, h]; exact hs

theorem State.wf_updInst (i : Nat) (f : Inst → Inst) : (s.updInst i f).Wf := hs.of_mem (State.updInst_mem _ _ _)

theorem State.wf_updCore (c : Nat) (f : Core → Core) : (s.updCore c f).Wf := hs

theorem State.wf_updMe (f : Core → Core) : (s.updMe f).Wf := hs

theorem State.wf_putCore (c : Nat) (k : Core) : (s.putCore c k).Wf := hs

theorem State.wf_putMe (k : Core) : (s.putMe k).Wf := hs

theorem State.wf_updCluster (c : Nat) (f : Cluster → Cluster) : (s.updCluster c f).Wf := hs

theorem State.wf_updPart (n : Nat) (f : Part → Part) : (s.updPart n f).Wf := hs

theorem State.wf_next : s.next.Wf := hs

theorem State.wf_withChunk (f : Chunk → Chunk) : (s.withChunk f).Wf := hs

theorem State.wf_updT (f : CoreT → CoreT) : (s.updT f).Wf := hs

theorem State.wf_fresh (n : Nat) : ({ s with fresh := n } : State).Wf := hs

theorem State.wf_mapRacks (f : Rack → Rack) : (s.mapRacks f).Wf := hs

theorem State.wf_tellSup (src part : Nat) (ws : List Nat) : (s.tellSup src part ws).Wf := hs

theorem State.wf_freeRack (c b n : Nat) : (s.freeRack c b n).Wf := hs

theorem State.wf_poke (w : List (Nat × Byte × Byte)) : (s.poke w).Wf := Memory.wf_writes w _ hs

theorem State.wf_replace (w : List (Nat × Byte × Byte)) : (s.replace w).Wf := (s.shut_replace w).wf hs

theorem State.wf_carry (l : List (Nat × Nat × Nat)) : (s.carry l).Wf := (s.shut_carry l).wf hs

theorem State.wf_watchAll (kind src : Nat) (skip : Option Nat) (l : List Nat) : (s.watchAll kind src skip l).Wf :=
  (s.shut_watchAll kind src skip l).wf hs

theorem State.wf_wake (key : Nat) : (s.wake key).Wf := (s.shut_wake key).wf hs

theorem State.wf_wakeCore (c : Nat) : (s.wakeCore c).Wf := (s.shut_wakeCore c).wf hs

theorem State.wf_addCredit (i p n : Nat) : (s.addCredit i p n).Wf := (s.shut_addCredit i p n).wf hs

theorem State.wf_returnRoom (f : Firing) : (s.returnRoom f).Wf := (s.shut_returnRoom f).wf hs

theorem State.wf_leaveSolo (c : Nat) : (s.leaveSolo c).Wf := (s.shut_leaveSolo c).wf hs

theorem State.wf_fillRack (c b n : Nat) : (s.fillRack c b n).Wf := (s.shut_fillRack c b n).wf hs

theorem State.wf_fillWaiting (c b : Nat) : (s.fillWaiting c b).Wf := (s.shut_fillWaiting c b).wf hs

theorem State.wf_resolved (i : Nat) : (s.resolved i).Wf := (s.shut_resolved i).wf hs

theorem State.wf_squash (c : Nat) (n : Bool) : (s.squash c n).Wf := (s.shut_squash c n).wf hs

theorem State.wf_discard (c l : Nat) : (s.discard c l).Wf := (s.shut_discard c l).wf hs

theorem State.wf_knockDown (n c : Nat) (b : Bool) : (State.knockDown n s c b).Wf := (State.shut_knockDown n s c b).wf hs

theorem State.wf_signal (a u : Nat) (l : List Nat) : (s.signal a u l).Wf := (s.shut_signal a u l).wf hs

theorem State.wf_latchChanged (c n : Nat) : (s.latchChanged c n).Wf := (s.shut_latchChanged c n).wf hs

theorem State.wf_applyPost (p : Post) : (s.applyPost p).Wf := (s.shut_applyPost p).wf hs

theorem State.wf_completePost (cnt : Option (Nat × Nat)) (a i : Nat) (bad : Option (Nat × Nat × Nat)) : (s.completePost cnt a i bad).Wf :=
  (s.shut_completePost cnt a i bad).wf hs

theorem State.wf_land (u a kind src : Nat) (w : List (Nat × Byte × Byte)) : (s.land u a kind src w).Wf :=
  (s.shut_land u a kind src w).wf hs

theorem State.wf_payCredits (c b : Nat) : (s.payCredits c b).Wf := by
  unfold State.payCredits
  split <;> exact hs

theorem State.wf_landPush (c : Nat) (p : Bool × VReg) : (s.landPush c p).Wf := by
  unfold State.landPush
  split <;> exact hs

theorem State.wf_dvJoin (part : Nat) (x : DvInj) : (s.dvJoin part x).Wf := by
  have hadd (d : List Dv) : ({ s with dvs := d } : State).Wf := hs
  unfold State.dvJoin
  refine State.wf_ite _ (hadd _) (State.wf_ite _ (hadd _) ?_)
  dsimp only
  generalize List.findIdx _ s.dvs = i
  cases s.dvs[i]? with
  | none => exact hadd _
  | some v => exact hadd _

theorem State.wf_dvAdmit (c : Nat) : (s.dvAdmit c).Wf := by
  unfold State.dvAdmit
  split
  · exact hs
  · exact State.wf_ite _ hs hs

theorem State.wf_noteFull : s.noteFull.Wf := by
  unfold State.noteFull
  split
  · exact hs
  · exact State.wf_ite _ hs hs

theorem State.wf_noteDepth : s.noteDepth.Wf := by
  unfold State.noteDepth
  split
  · exact hs
  · dsimp only
    split <;> exact hs

theorem State.wf_soloStep (c : Nat) (ch : Chunk) : (s.soloStep c ch).Wf := by
  unfold State.soloStep
  split
  · exact State.wf_ite _ (State.wf_leaveSolo hs c) hs
  · exact hs

/-! ### The end of a firing, a commit, glue-up -/

theorem State.wf_exitInst (key : Nat) : (s.exitInst key).Wf := hs.of_mem (State.slotsStay_exitInst key).mem

theorem State.wf_endFiring (c : Nat) (f : Firing) (kind : Nat) : (s.endFiring c f kind).Wf := by
  have hexit (b : Prop) [Decidable b] {s : State} (h : s.Wf) : State.Wf (if b then s.exitInst f.inst else s) :=
    State.wf_ite _ (State.wf_exitInst h _) h
  have hfreed (g r : State → Nat → Nat) (l : List Nat) : State.Wf (l.foldl (fun (s : State) p => (s.freeRack c (g s p) (r s p)).payCredits c (g s p))
      (s.updCore c fun k => k.dueClaims f.serial)) :=
    State.wf_foldl (fun s p h => State.wf_payCredits (State.wf_freeRack h _ _ _) _ _) l (State.wf_updCore hs _ _)
  unfold State.endFiring
  split
  · exact State.wf_updCore hs _ _
  · refine State.wf_wakeCore ?_ c
    refine hexit _ ?_
    split
    · refine State.wf_updCluster ?_ _ _
      refine State.wf_updInst ?_ _ _
      refine State.wf_updCore ?_ _ _
      exact State.wf_returnRoom (hfreed _ _ _) f
    · refine State.wf_updInst ?_ _ _
      refine State.wf_updCore ?_ _ _
      exact State.wf_returnRoom (hfreed _ _ _) f

theorem State.wf_applyEffect (c : Nat) (f : Option Firing) (e : Effect) : (s.applyEffect c f e).Wf := by
  unfold State.applyEffect
  cases e with
  | mbset i v => exact State.wf_latchChanged (State.wf_updCore hs _ _) c i
  | mberrClear i dest => exact State.wf_latchChanged (State.wf_updCore hs _ _) c i
  | winset key w => exact State.wf_signal (s := { s with wins := FMap.put s.wins key w }) hs _ _ _
  | dvcfg g d => exact State.wf_signal (State.wf_updPart hs _ _) _ _ _
  | xpost h mb => exact State.wf_signal (State.wf_updPart hs _ _) _ _ _
  | dvinj d => exact State.wf_signal (State.wf_dvJoin (State.wf_next hs) _ _) _ _ _
  | actnew l a =>
    have hput (m : FMap Inst) {s : State} (h : s.Wf) : ({ s with insts := m } : State).Wf := h
    refine hput _ ?_
    refine State.wf_signal ?_ _ _ _
    exact State.wf_updPart hs _ _
  | ends kind =>
    cases f with
    | none => exact hs
    | some f => exact State.wf_endFiring hs c f kind
  | mat m =>
    have hpend (x : Src) {s : State} (h : s.Wf) : State.Wf (match x with
        | .rack b _ _ true => s.updCore c fun k => k.updRack b fun r => { r with pend := r.pend + 1 }
        | _ => s) := by
      split <;> exact h
    dsimp only
    split
    · refine hpend _ ?_
      refine hpend _ ?_
      exact hs
    all_goals exact hs
  | _ => exact hs

theorem State.wf_applyChunk (c : Nat) (f : Option Firing) (ch : Chunk) : (s.applyChunk c f ch).Wf := by
  have hmove (m : Nat × Nat × Nat) {s : State} (h : s.Wf) :
      State.Wf (let s := if m.2.1 = 0 then s else s.fillRack c m.1 m.2.1
        if m.2.2 = 0 then s else s.freeRack c m.1 m.2.2) := by
    have hfill := State.wf_ite (m.2.1 = 0) h (State.wf_fillRack h c m.1 m.2.1)
    exact State.wf_ite _ hfill (State.wf_freeRack hfill _ _ _)
  have hwatch (w : List (Nat × Byte × Byte)) : State.Wf (if w.isEmpty then s.replace w else (s.replace w).watchAll 2 c (some c) (w.map (·.1))) :=
    State.wf_ite _ (State.wf_replace hs _) (State.wf_watchAll (State.wf_replace hs _) _ _ _ _)
  have hwake (b : Prop) [Decidable b] {s : State} (h : s.Wf) : State.Wf (if b then s else s.wakeCore c) :=
    State.wf_ite _ h (State.wf_wakeCore h c)
  unfold State.applyChunk
  dsimp only
  refine hwake _ ?_
  refine State.wf_foldl (fun s e h => State.wf_applyEffect h c f e) _ ?_
  refine State.wf_foldl (fun s p h => State.wf_landPush h c p) _ ?_
  refine State.wf_foldl (fun s m h => hmove m h) _ ?_
  exact State.wf_signal (hwatch _) _ _ _

theorem State.wf_commit (c : Nat) : (s.commit c).Wf := by
  have hwake (b : Prop) [Decidable b] {s : State} (h : s.Wf) : State.Wf (if b then s else s.wakeCore c) :=
    State.wf_ite _ h (State.wf_wakeCore h c)
  unfold State.commit
  dsimp only
  split
  · exact hs
  · refine State.wf_ite _ hs ?_
    refine State.wf_ite _ (State.wf_squash hs c _) ?_
    refine hwake _ ?_
    refine State.wf_soloStep ?_ c _
    exact State.wf_applyChunk (State.wf_putCore hs _ _) c _ _

theorem State.wf_holdChunk : s.holdChunk.Wf := by
  unfold State.holdChunk
  dsimp only
  split
  · refine State.wf_ite _ (State.wf_noteFull hs) ?_
    refine State.wf_foldl (fun s _ h => State.wf_noteDepth h) _ ?_
    exact State.wf_soloStep (State.wf_putMe (State.wf_next hs) _) _ _
  · exact hs

theorem State.wf_settle : s.settle.Wf := by
  unfold State.settle
  split
  · exact State.wf_ite _ (State.wf_holdChunk hs) hs
  · exact hs

theorem State.wf_glueUp (c : Nat) : (s.glueUp c).Wf := by
  unfold State.glueUp
  dsimp only
  split
  · exact hs
  · refine State.wf_ite _ hs ?_
    refine State.wf_ite _ (State.wf_knockDown hs _ _ _) ?_
    refine State.wf_wakeCore ?_ c
    refine State.wf_updCluster ?_ _ _
    refine State.wf_resolved ?_ _
    refine State.wf_mapRacks ?_ _
    refine State.wf_updCore ?_ _ _
    refine State.wf_fresh ?_ _
    refine State.wf_updCore ?_ _ _
    refine State.wf_foldl (fun s ch h => State.wf_applyChunk h c _ ch) _ ?_
    refine State.wf_updCore ?_ _ _
    refine State.wf_foldl (fun s p h => State.wf_freeRack h c _ _) _ ?_
    exact State.wf_putCore hs _ _

/-! ### Traps and the end of a meaning -/

theorem State.wf_stopFiring (xcause xpc xval : Word) (first : Option (Word × Word)) : (s.stopFiring xcause xpc xval first).Wf := by
  have hknock (b : Prop) [Decidable b] : State.Wf (if b then State.knockDown 8 s s.cur false else s) :=
    State.wf_ite _ (State.wf_knockDown hs _ _ _) hs
  unfold State.stopFiring
  dsimp only
  split
  · exact hs
  · refine State.wf_tellSup ?_ _ _ _
    refine State.wf_updMe ?_ _
    refine State.wf_updInst ?_ _ _
    exact State.wf_discard (hknock _) _ _

theorem State.wf_enterTrap (c : Cause) (xval xpc : Word) (imp secw : Bool) : (s.enterTrap c xval xpc imp secw).Wf := by
  unfold State.enterTrap
  dsimp only
  split
  · exact State.wf_next hs
  · refine State.wf_ite _ ?_ (State.wf_ite _ ?_ ?_)
    · exact State.wf_stopFiring (State.wf_updMe (State.wf_next hs) _) _ _ _ _
    · exact State.wf_stopFiring (State.wf_updMe (State.wf_next hs) _) _ _ _ _
    · exact State.wf_updMe (State.wf_updMe (State.wf_next hs) _) _

theorem State.wf_takeTrap (c : Cause) (xval xpc : Word) (imp secw : Bool) : (s.takeTrap c xval xpc imp secw).Wf := by
  have henter {s : State} (h : s.Wf) : (s.enterTrap c xval xpc imp secw).stay.Wf :=
    State.wf_updMe (State.wf_enterTrap h c xval xpc imp secw) _
  unfold State.takeTrap
  split
  · exact henter hs
  · refine State.wf_ite _ (henter (State.wf_updMe hs _)) (State.wf_ite _ ?_ ?_)
    · have hheld := State.wf_holdChunk (State.wf_updMe hs fun k => { k with chunk := some { k.open' with sealed := true } })
      exact State.wf_ite _ (State.wf_updMe (State.wf_updMe hs _) _) (henter hheld)
    · have hdone := State.wf_commit (State.wf_updMe hs fun k => { k with chunk := some { k.open' with sealed := true } }) s.cur
      exact State.wf_ite _ (State.wf_updMe hdone _) (henter hdone)

theorem State.wf_stall : s.stall.Wf := hs

theorem outWf_finish {r : Res State} (hr : Ends State.Wf r) : OutWf (finish s r) := by
  unfold finish
  split
  · exact outWf_next.mpr (hr _ rfl)
  · refine (outWf_ite _ _ _).mpr ⟨fun _ => outWf_next.mpr ?_, fun _ => outWf_next.mpr ?_⟩
    · exact State.wf_takeTrap (State.wf_noteFull hs) _ _ _ _ _
    · exact State.wf_stall (State.wf_noteFull hs)
  · exact outWf_next.mpr (State.wf_takeTrap hs _ _ _ _ _)
  · exact (outWf_ite _ _ _).mpr ⟨fun _ => outWf_next.mpr (State.wf_takeTrap hs _ _ _ _ _), fun _ => outWf_next.mpr (State.wf_stall hs)⟩

theorem State.wf_cutChunk (c : Nat) : (s.cutChunk c).Wf := by
  have hcur (n : Nat) {s : State} (h : s.Wf) : ({ s with cur := n } : State).Wf := h
  unfold State.cutChunk
  refine hcur _ ?_
  dsimp only
  split
  · exact hcur c hs
  · refine State.wf_ite _ (State.wf_updMe (hcur c hs) _) (State.wf_ite _ ?_ (State.wf_commit (State.wf_updMe (hcur c hs) _) c))
    have hheld := State.wf_holdChunk (State.wf_updMe (hcur c hs) fun k => { k with chunk := some { k.open' with sealed := true } })
    exact State.wf_ite _ (State.wf_squash hheld c false) hheld

theorem State.wf_endStay : s.endStay.Wf := State.wf_ite _ (State.wf_leaveSolo (State.wf_updMe hs _) _) (State.wf_updMe hs _)

end Shared

end Sys2Proof.Machine
end
end

section
section
/-! The canonical form of memory under the instruction words: a meaning buffers its stores, so that memory changes at the
commit of a chunk alone; the rules of the operand forms, then the instructions. -/
namespace Sys2Proof.Machine

-- One proof after another: the threads of many proofs at once do not fit the memory of the check.
set_option Elab.async false

/-! ### Operand forms -/

section Operands
variable {s : State} {α β : Type} {p : α → Prop}

theorem Ends.ok {a : α} (h : p a) : Ends p (.ok a) := (ends_ok a).mpr h

theorem Ends.err (e : Stop) : Ends p (.error e) := ends_error e

theorem Ends.ite {c : Prop} [Decidable c] {a b : Res α} (ha : Ends p a) (hb : Ends p b) : Ends p (if c then a else b) := by
  split
  · exact ha
  · exact hb

variable (hs : s.Wf)
include hs

theorem State.wf_setG (d : Reg) (w : Word) : (s.setG d w).Wf := hs

theorem State.wf_effect (e : Effect) : (s.effect e).Wf := hs

theorem State.wf_endAfter : s.endAfter.Wf := hs

theorem State.wf_fillTlb (c part va : Nat) (l : Leaf) : (s.fillTlb c part va l).Wf := hs

theorem State.wf_noteLines (l : List Nat) : (s.noteLines l).Wf := hs

theorem State.wf_noteRead (x : Acc) : (s.noteRead x).Wf := hs

theorem State.wf_bufStore (w : List (Nat × Byte × Byte)) (n : Nat) : (s.bufStore w n).Wf := hs

theorem State.wf_ioSeal (x : Acc) : (s.ioSeal x).Wf := State.wf_ite _ hs hs

theorem State.wf_noteSlots (xs : List Acc) : (s.noteSlots xs).Wf :=
  State.wf_foldl (fun s x h => State.wf_ioSeal (s := s.noteRead x) h x) xs hs

theorem State.wf_notePops (u : Use) : (s.notePops u).Wf := State.wf_ite _ hs hs

theorem State.wf_take (u : Use) : (s.take u).Wf := by
  have hpop (f : CoreT → CoreT) : ((s.notePops u).updT f).Wf := State.wf_notePops hs u
  exact State.wf_ite _ (State.wf_withChunk (State.wf_ite _ (State.wf_withChunk (hpop _) _) (hpop _)) _)
    (State.wf_ite _ (State.wf_withChunk (hpop _) _) (hpop _))

theorem State.wf_putV (r : Reg) (x : VReg) : (s.putV r x).Wf := State.wf_ite _ hs (State.wf_ite _ hs hs)

theorem State.wf_putSlot (q : Acc × Moved) : (s.putSlot q).Wf := by
  unfold State.putSlot
  dsimp only
  split
  · exact State.wf_ioSeal (State.wf_effect hs _) _
  · exact State.wf_ioSeal (State.wf_bufStore (State.wf_noteLines (State.wf_fillTlb hs _ _ _ _) _) _ _) _

theorem State.wf_pengWait : s.pengWait.Wf := State.wf_ite _ hs hs

theorem ends_doing {u : Use} {f : State → Res α} (hf : ∀ t : State, t.Wf → Ends p (f t)) :
    Ends p (do s.ready u; f (s.take u)) := Ends.check fun _ => hf _ (State.wf_take hs u)

/-- An instruction keeps memory's form when what it does after its pops keeps it. -/
theorem outWf_doing {u : Use} {f : State → Res State} (hf : ∀ t : State, t.Wf → Ends State.Wf (f t)) :
    OutWf (finish s (s.doing u f)) := outWf_finish hs (ends_doing hs hf)

theorem outWf_setsG (i : Instr) (d : Reg) (w : Word) : OutWf (setsG i d w s) := outWf_doing hs fun _ h => .ok h

theorem outWf_setsV (i : Instr) (d : Reg) (x : VReg) : OutWf (setsV i d x s) := outWf_doing hs fun _ h => .ok (State.wf_putV h d x)

theorem ends_roomFor (w : List (Nat × Byte × Byte)) : Ends State.Wf (s.roomFor w) :=
  .ite (.ite (.err _) (.ok hs)) (.ite (.ok hs) (.ite (.err _) (.ite (.ok hs) (.ite (.ok hs) (.err _)))))

theorem ends_store (x : Acc) (w : List (Nat × Byte × Byte)) : Ends State.Wf (s.store x w) :=
  (ends_roomFor hs w).bind fun _ h => .ok h

theorem ends_putSlots (ps : List (Acc × Moved)) : Ends State.Wf (s.putSlots ps) :=
  (ends_roomFor hs _).bind fun _ h => .ok (State.wf_foldl (fun _ q h => State.wf_putSlot h q) ps h)

theorem ends_readBlock (ea n : Nat) : Ends (fun r => r.1.Wf) (s.readBlock ea n) :=
  .check fun _ => .check fun _ => .check fun _ => .ok (State.wf_ioSeal (State.wf_noteRead hs _) _)

end Operands

/-! ### Control transfer, loads and stores -/

section LoadsStores
variable {s : State} (hs : s.Wf)
include hs

theorem outWf_branch (i : Instr) (taken : Bool) (off : BitVec 12) : OutWf (branch i taken off s) :=
  outWf_doing hs fun _ h => .ite (.check fun _ => .ok h) (.ok h)

theorem outWf_jal (l : Reg) (off : BitVec 20) : OutWf (execJal l off s) := outWf_doing hs fun _ h => .check fun _ => .ok h

theorem outWf_j (off : BitVec 20) : OutWf (execJ off s) := outWf_doing hs fun _ h => .check fun _ => .ok h

theorem outWf_jalr (d a : Reg) (off : BitVec 13) : OutWf (execJalr d a off s) :=
  outWf_doing hs fun _ h => .check fun _ => .check fun _ => .ok h

theorem outWf_jr (a : Reg) (off : BitVec 13) : OutWf (execJr a off s) :=
  outWf_doing hs fun _ h => .check fun _ => .check fun _ => .ok h

theorem outWf_loop (d a : Reg) (off : BitVec 13) : OutWf (execLoop d a off s) :=
  outWf_doing hs fun _ h => .ite (.ok h) (.check fun _ => .ok h)

theorem outWf_loadG (i : Instr) (d : Reg) (ea : Word) (size : Nat) (sg : Bool) : OutWf (loadG i d ea size sg s) :=
  outWf_doing hs fun _ h => .check fun _ => .check fun _ => .ok (State.wf_ioSeal (State.wf_setG (State.wf_noteRead h _) _ _) _)

theorem ends_storeWord (x : Acc) (w : Word) : Ends State.Wf (s.storeWord x w) := by
  unfold State.storeWord
  split
  · exact .ok hs
  · exact .ok hs
  · exact .ite (ends_store hs _ _) (ends_store hs _ _)
  · exact ends_store hs _ _

theorem outWf_storeG (i : Instr) (ea : Word) (size : Nat) (w : Word) : OutWf (storeG i ea size w s) :=
  outWf_doing hs fun _ h => .check fun _ => .check fun _ => (ends_storeWord h _ _).bind fun _ h => .ok (State.wf_ioSeal h _)

theorem outWf_loadV (i : Instr) (d : Reg) (ea align step : Nat) : OutWf (loadV i d ea align step s) :=
  outWf_doing hs fun _ h => .check fun _ => .check fun _ => .ok (State.wf_putV (State.wf_noteSlots h _) _ _)

theorem outWf_vst (d a : Reg) (imm : BitVec 12) : OutWf (execVst d a imm s) :=
  outWf_doing hs fun _ h => .check fun _ => .check fun _ => ends_putSlots h _

theorem outWf_tmov (d a b : Reg) : OutWf (execTmov d a b s) :=
  outWf_doing hs fun _ h => .check fun _ => .check fun _ => .check fun _ => .check fun _ => .check fun _ =>
    ends_putSlots (State.wf_noteSlots h _) _

end LoadsStores

/-! ### Atomics, counters, barriers, copies, collectives -/

section Requests
variable {s : State} (hs : s.Wf)
include hs

theorem ends_amoNear (x : Acc) (op b c : Nat) (d : Reg) : Ends State.Wf (amoNear s x op b c d) :=
  (ends_store (s := s.noteRead x) hs _ _).bind fun _ h => .ok h

theorem ends_request (back : CoreT) (d : Reg) (e : Effect) : Ends State.Wf (s.request back d e) :=
  .ite (.err _) (.check fun _ => .ok hs)

theorem ends_amoFar (back : CoreT) (x : Acc) (op b c : Nat) (d : Reg) : Ends State.Wf (amoFar s back x op b c d) :=
  .ite (.ite (.err _) (.ok hs)) (ends_request (s := s.fillTlb s.cur s.myPart x.ea x.leaf) hs _ _ _)

theorem outWf_amo (i : Instr) (op : Nat) (d a b c : Reg) (far w64 : Bool) : OutWf (amo i op d a b c far w64 s) :=
  outWf_doing hs fun _ h => .check fun _ => .ite (ends_amoFar h _ _ _ _ _ _) (ends_amoNear h _ _ _ _ _)

theorem outWf_fence (cls : BitVec 7) : OutWf (execFence cls s) := by
  have hrest : Ends State.Wf (if s.fenced cls then .ok (s.updMe fun k => k.unarm s.t.level).endAfter
      else if s.t.maskOpen then .error (.wait true)
      else .ok ((s.updMe fun k =>
        { k.setWaiting s.t.level { Waiting.idle with await := .fence s.fenceBounds.1 s.fenceBounds.2.1 s.fenceBounds.2.2 } with
          chunk := none }).stay)) := .ite (.ok hs) (.ite (.err _) (.ok hs))
  exact outWf_finish hs (.ite (.check fun _ => hrest) hrest)

theorem ends_globalInc (ea v : Nat) : Ends State.Wf (s.globalInc ea v) := by
  refine .check fun x => ?_
  split
  · exact .ok hs
  · exact .err _

theorem outWf_mbinc (b : Reg) (n : BitVec 6) : OutWf (execMbinc b n s) := outWf_doing hs fun _ h => .ok h

theorem outWf_mbincImm (imm : BitVec 5) (n : BitVec 6) : OutWf (execMbincImm imm n s) := outWf_finish hs (.ok hs)

theorem outWf_mbincGlobal (a b : Reg) : OutWf (execMbincGlobal a b s) := outWf_doing hs fun _ h => ends_globalInc h _ _

theorem outWf_mbincGlobalImm (a : Reg) (imm : BitVec 5) : OutWf (execMbincGlobalImm a imm s) :=
  outWf_doing hs fun _ h => ends_globalInc h _ _

theorem outWf_mbwait (d a : Reg) (n : BitVec 6) : OutWf (execMbwait d a n s) :=
  outWf_doing hs fun _ h => .ite (.err _) (.ite (.ok h) (.ite (.err _) (.ok h)))

theorem outWf_mbset (a : Reg) (n : BitVec 6) : OutWf (execMbset a n s) := outWf_doing hs fun _ h => .ok h

theorem outWf_mberrC (d : Reg) (n : BitVec 6) : OutWf (execMberrC d n s) := outWf_doing hs fun t h => by
  have hnote : State.Wf (if s.t.heldNow then t.noteLines [latchLine s.cur n.toNat] else t) := State.wf_ite _ h h
  exact .ok (hnote.of_mem rfl)

theorem outWf_barrier (i : Instr) (op : Nat) (d a b : Reg) : OutWf (barrier i op d a b s) :=
  outWf_doing hs fun _ h => .check fun _ => ends_request (s := State.fillTlb _ _ _ _ _) h _ _ _

theorem outWf_copyIssue (i : Instr) (three : Bool) (d a : Reg) (ch : Nat) : OutWf (copyIssue i three d a ch s) :=
  outWf_doing hs fun _ h => .check fun _ => (ends_readBlock h _ _).bind fun _ hr => .check fun _ => .check fun _ =>
    .ite (.err _) (.ok (State.wf_pengWait (hr.of_mem rfl)))

theorem outWf_cwait (d a : Reg) (ch : BitVec 2) : OutWf (execCwait d a ch s) :=
  outWf_doing hs fun _ h => .ite (.err _) (.ite (.ok h) (.ite (.err _) (.ok h)))

theorem outWf_cstatC (d : Reg) (ch : BitVec 2) : OutWf (execCstatC d ch s) := outWf_doing hs fun _ h => .ok h

theorem outWf_perm (d a : Reg) : OutWf (execPerm d a s) := outWf_doing hs fun _ h => .ite (.err _) (.ok h)

theorem outWf_dvcfg (d a : Reg) (grp : BitVec 6) : OutWf (execDvcfg d a grp s) := outWf_doing hs fun t h => by
  have hread : Ends (fun r => r.1.Wf) (if (s.gIn a).toNat = 0 then .ok (t, []) else t.readBlock (s.gIn a).toNat 64) :=
    .ite (.ok h) (ends_readBlock h _ _)
  exact .check fun _ => hread.bind fun _ hr => .ite (.err _) (.ite (.err _) (.ok (hr.of_mem rfl)))

theorem outWf_dvinj (d a : Reg) : OutWf (execDvinj d a s) :=
  outWf_doing hs fun _ h => .check fun _ => (ends_readBlock h _ _).bind fun _ hr => .ite (.err _) (.ok (State.wf_pengWait (hr.of_mem rfl)))

theorem outWf_dvext (d : Reg) : OutWf (execDvext d s) := outWf_doing hs fun t h => .check fun _ => by
  split
  · exact .err _
  · exact .ok (State.wf_putV (State.wf_updT h _) _ _)

theorem outWf_dvstat (d : Reg) (grp : BitVec 6) : OutWf (execDvstat d grp s) := outWf_doing hs fun _ h => .check fun _ => .ok h

theorem outWf_dvstatC (d : Reg) (grp : BitVec 6) : OutWf (execDvstatC d grp s) := outWf_doing hs fun _ h => .check fun _ => .ok h

theorem outWf_xpost (d a : Reg) (n : BitVec 6) : OutWf (execXpost d a n s) := outWf_doing hs fun t h => .check fun _ => by
  dsimp only
  split
  · exact .err _
  · exact .ite (.err _) (.ite (.err _) (.ok h))

theorem outWf_xsend (d a : Reg) : OutWf (execXsend d a s) :=
  outWf_doing hs fun _ h => .check fun _ => (ends_readBlock h _ _).bind fun _ hr => .check fun _ => .ok (State.wf_pengWait (hr.of_mem rfl))

theorem outWf_xcc (d a : Reg) : OutWf (execXcc d a s) := outWf_doing hs fun _ h => .check fun _ => .ok h

end Requests

/-! ### Racks, streams and parking -/

section Racks
variable {s : State} (hs : s.Wf)
include hs

theorem outWf_rkset (k a : Reg) : OutWf (execRkset k a s) := outWf_doing hs fun t h => by
  refine .ite (.err _) (.ite (.ok h) (.ite (.err _) ?_))
  dsimp only
  split
  · exact .ite (.ok h) (.err _)
  · exact .ite (.err _) (.ite (.err _) (.ok h))

theorem outWf_rackWait (i : Instr) (k : Reg) (n : Nat) (f : Rack → Nat) : OutWf (rackWait i k n f s) :=
  outWf_doing hs fun _ h => .check fun _ => .check fun _ => .check fun _ => .ite (.ok h) (.err _)

theorem ends_countFree (b n : Nat) : Ends State.Wf (s.countFree b n) := by
  unfold State.countFree
  split
  · exact .ok hs
  · exact .ite (.err _) (.ok hs)

theorem ends_countSent (q n : Nat) : Ends State.Wf (s.countSent q n) := by
  unfold State.countSent
  split
  · exact .ok hs
  · exact .ite (.err _) (.ok hs)

theorem outWf_rkadv (k : Reg) (n : BitVec 7) (w : BitVec 1) : OutWf (execRkadv k n w s) := outWf_doing hs fun t h => by
  have hsent (b m : Nat) : Ends State.Wf (match s.myOut b with | some q => t.countSent q m | none => .ok t) := by
    split
    · exact ends_countSent h _ _
    · exact .ok h
  exact .check fun b => .check fun _ => .ite (.check fun _ => (hsent b _).bind fun _ h => .ok h)
    (.check fun _ => (ends_countFree h _ _).bind fun _ h => .ok h)

theorem outWf_rkrd (d k : Reg) (sel : BitVec 2) : OutWf (execRkrd d k sel s) :=
  outWf_doing hs fun _ h => .check fun _ => .check fun _ => .ok h

theorem outWf_stbind (t a : Reg) (vec : BitVec 1) : OutWf (execStbind t a vec s) :=
  outWf_doing hs fun _ h => (ends_readBlock h _ _).bind fun r hr => by
    dsimp only
    split
    · exact .err _
    · exact .ok hr

theorem outWf_stunb (t : Reg) (vec : BitVec 1) : OutWf (execStunb t vec s) := outWf_finish hs (.ok hs)

theorem outWf_park (a : Reg) : OutWf (execPark a s) := outWf_doing hs fun _ h => .ite (.ok h) (.ok h)

theorem outWf_unpark (a : Reg) : OutWf (execUnpark a s) := outWf_doing hs fun _ h => .ite (.ok h) (.ok h)

end Racks

/-! ### Matrix, Kerf and Marquetry instructions -/

section Matrix
variable {s : State} (hs : s.Wf)
include hs

theorem ends_slotFor (n : Nat) : Ends (fun r => r.1.Wf) (s.slotFor n) := by
  refine .ite (.ok hs) ?_
  split
  · exact .ok hs
  · split
    · exact .ok hs
    · refine .ite (.err _) ?_
      split
      · exact .err _
      · exact .ok hs

theorem ends_slotsFor (l : List Nat) : Ends State.Wf (s.slotsFor l) := by
  induction l generalizing s with
  | nil => exact .ok hs
  | cons n l ih => exact (ends_slotFor hs n).bind fun _ h => ih h

theorem ends_matPut (op : MatOp) (slot : Nat) (ends : Bool) : Ends State.Wf (s.matPut op slot ends) :=
  have hput := State.wf_pengWait (State.wf_effect hs (.mat (s.matCmd op slot)))
  .ite (.err _) (.ok (State.wf_ite _ (State.wf_endAfter hput) hput))

theorem ends_claim (k : Reg) (fr : Bool) : Ends (fun r => r.1.Wf) (s.claim k fr) := by
  have hfree (t : State) (h : t.Wf) (b : Nat) : Ends State.Wf (if fr then t.countFree b 1 else .ok t) := .ite (ends_countFree h _ _) (.ok h)
  refine .check fun b => .check fun _ => .ite (.err _) ?_
  refine (hfree _ (State.wf_updT hs _) b).bind fun _ h => ?_
  exact .ok h

theorem ends_srcOf (f : Reg) (fr : Bool) : Ends (fun r => r.1.Wf) (s.srcOf f fr) := .ite (ends_claim hs f fr) (.ok hs)

theorem outWf_mzero (d : Reg) : OutWf (execMzero d s) :=
  outWf_finish hs (.check fun _ => (ends_slotFor hs _).bind fun _ h => ends_matPut h _ _ _)

theorem outWf_mown (d a : Reg) : OutWf (execMown d a s) := outWf_doing hs fun _ h => .ite (.ok h) (.ok h)

theorem outWf_mfree (a : Reg) : OutWf (execMfree a s) := outWf_doing hs fun _ h => .check fun _ => .ok (State.wf_ite _ h h)

theorem outWf_mma (d a b : Reg) : OutWf (execMma d a b s) :=
  outWf_doing hs fun _ h => .check fun _ => (ends_slotFor h _).bind fun _ h => ends_matPut h _ _ _

theorem outWf_mmar (d a b : Reg) : OutWf (execMmar d a b s) :=
  outWf_doing hs fun _ h => .check fun _ => (ends_slotFor h _).bind fun _ h => (ends_srcOf h _ _).bind fun _ h => ends_matPut h _ _ _

theorem outWf_mmarAk (d a b : Reg) : OutWf (execMmarAk d a b s) :=
  outWf_doing hs fun _ h => .check fun _ => (ends_slotFor h _).bind fun _ h => .check fun _ => .check fun _ =>
    (ends_srcOf h _ _).bind fun _ h => (ends_srcOf h _ _).bind fun _ h => ends_matPut h _ _ _

theorem outWf_mmag (d a b c : Reg) : OutWf (execMmag d a b c s) :=
  outWf_doing hs fun _ h => .check fun _ => (ends_slotFor h _).bind fun _ h => ends_matPut h _ _ _

theorem outWf_mldc (d a : Reg) : OutWf (execMldc d a s) :=
  outWf_doing hs fun _ h => .check fun _ => (ends_slotFor h _).bind fun _ h => ends_matPut h _ _ _

theorem outWf_mdrain (sl a : Reg) : OutWf (execMdrain sl a s) :=
  outWf_doing hs fun _ h => .check fun _ => .check fun _ => ends_matPut h _ _ _

theorem outWf_mdrainReg (sl d : Reg) (n : BitVec 4) : OutWf (execMdrainReg sl d n s) :=
  outWf_doing hs fun _ h => .check fun _ => (ends_slotFor h _).bind fun _ h => .ite (.err _) (.check fun _ =>
    .ok (State.wf_putV (State.wf_updT h _) _ _))

theorem outWf_mpar (d a : Reg) : OutWf (execMpar d a s) :=
  outWf_doing hs fun _ h => .check fun _ => (ends_slotFor h _).bind fun _ h => (ends_readBlock h _ _).bind fun _ h => .ok h

theorem outWf_msave (sl a : Reg) : OutWf (execMsave sl a s) :=
  outWf_doing hs fun _ h => .check fun _ => .check fun _ => ends_matPut h _ _ _

theorem outWf_mrest (d a : Reg) : OutWf (execMrest d a s) :=
  outWf_doing hs fun _ h => .check fun _ => .check fun _ => ends_matPut h _ _ _

theorem outWf_mstat (d sl : Reg) : OutWf (execMstat d sl s) := outWf_doing hs fun _ h => .check fun _ => .ok h

theorem outWf_mstatC (d sl : Reg) : OutWf (execMstatC d sl s) := outWf_doing hs fun _ h => .check fun _ => .ok (State.wf_ite _ h h)

theorem outWf_mwait (d a : Reg) : OutWf (execMwait d a s) :=
  outWf_doing hs fun _ h => .check fun _ => (ends_slotsFor h _).bind fun _ h => .ite (.err _) (.ite (.err _) (.ok h))

theorem ends_kerfBlock (ea : Nat) : Ends (fun r => r.1.Wf) (s.kerfBlock ea) :=
  (ends_readBlock hs _ _).bind fun _ h => .check fun _ => .check fun _ => .ok h

theorem outWf_gauge (a : Reg) (n : BitVec 6) (sel : BitVec 2) : OutWf (execGauge a n sel s) :=
  outWf_doing hs fun _ h => .check fun _ => (ends_kerfBlock h _).bind fun _ h => ends_matPut h _ _ _

theorem outWf_kmma (d a : Reg) (m : BitVec 8) : OutWf (execKmma d a m s) :=
  outWf_doing hs fun _ h => .check fun _ => .check fun _ => (ends_kerfBlock h _).bind fun r h =>
    ends_matPut (s := r.1.updT _) h _ _ _

theorem outWf_slotRead (i : Instr) (d sl : Reg) (f : Slot → Word) : OutWf (slotRead i d sl f s) :=
  outWf_doing hs fun _ h => .check fun _ => (ends_slotFor h _).bind fun _ h => .ite (.err _) (.ok h)

theorem outWf_seedw (n a : Reg) : OutWf (execSeedw n a s) := outWf_doing hs fun _ h => .ok h

theorem outWf_mqdef (d a : Reg) : OutWf (execMqdef d a s) :=
  outWf_doing hs fun _ h => (ends_readBlock h _ _).bind fun _ h => .check fun _ => .check fun _ => .check fun _ => .check fun _ => .ok h

theorem outWf_mqld (d a c b : Reg) : OutWf (execMqld d a c b s) := outWf_doing hs fun t h => .check fun desc => by
  dsimp only
  split
  · exact .err _
  · exact .check fun _ => .check fun _ => .check fun _ =>
      .ok (State.wf_foldl (fun _ _ h => State.wf_putV h _ _) _ (State.wf_noteSlots h _))

theorem ends_mqQueue (m : MqCmd) : Ends State.Wf (s.mqQueue m) := .ite (.err _) (.ok (State.wf_pengWait (State.wf_endAfter (State.wf_effect hs _))))

theorem ends_mqCommand (zero : Bool) (d g w : Nat) (pt grad : List Lane) (s' : State) : Ends State.Wf (mqCommand zero d g w pt grad s' s) :=
  .check fun _ => .check fun _ => .check fun _ => ends_mqQueue hs _

theorem outWf_mqsc (d a c b : Reg) : OutWf (execMqsc d a c b s) := outWf_doing hs fun _ h => ends_mqCommand h _ _ _ _ _ _ _

theorem outWf_mqz (a b : Reg) : OutWf (execMqz a b s) := outWf_doing hs fun _ h => ends_mqCommand h _ _ _ _ _ _ _

end Matrix

/-! ### Messages, launches, dry fits and order -/

section Messages
variable {s : State} (hs : s.Wf)
include hs

theorem ends_sendOut (p : Pkt) : Ends State.Wf (s.sendOut p) := .ite (.ok hs) (.err _)

theorem ends_aim (b : List Byte) (oport : Nat) (eret : Nat × Nat) : Ends (fun r => r.1.Wf) (s.aim b oport eret) := by
  refine .ite (.ok hs) ?_
  split
  · exact .check fun _ => .check fun _ => .ok hs
  · exact .ok hs

theorem ends_readWords (ea n : Nat) : Ends (fun r => r.1.Wf) (s.readWords ea n) := by
  induction n generalizing s ea with
  | zero => exact .ok hs
  | succ n ih => exact .check fun x => .check fun _ => (ih (State.wf_ioSeal (s := s.noteRead x) hs x) _).bind fun _ h => .ok h

theorem ends_readPacket (ea : Nat) : Ends (fun r => r.1.Wf) (s.readPacket ea) :=
  .check fun _ => .check fun _ => .check fun _ => ends_readWords hs _ _

theorem ends_endHere (kind : Nat) : Ends State.Wf (s.endHere kind) := .ite (.err _) (.ok hs)

theorem outWf_send (a : Reg) (oport : BitVec 4) (eret : BitVec 1) (eport : BitVec 3) : OutWf (execSend a oport eret eport s) :=
  outWf_doing hs fun _ h => (ends_readPacket h _).bind fun _ h => (ends_aim h _ _ _).bind fun _ h => ends_sendOut h _

theorem outWf_sendp (a b c : Reg) (oport : BitVec 4) : OutWf (execSendp a b c oport s) :=
  outWf_doing hs fun _ h => .check fun _ => .check fun _ => (ends_aim h _ _ _).bind fun _ h => ends_sendOut h _

theorem outWf_hop (a b : Reg) : OutWf (execHop a b s) :=
  outWf_finish hs (.ite (.err _) (ends_doing hs fun _ h => .check fun _ => (ends_sendOut h _).bind fun _ h => ends_endHere h _))

theorem outWf_endHere (kind : Nat) : OutWf (finish s (s.endHere kind)) := outWf_finish hs (ends_endHere hs kind)

theorem outWf_maskon : OutWf (execMaskon s) := outWf_finish hs (.ok (State.wf_ite _ hs hs))

theorem outWf_maskoff : OutWf (execMaskoff s) := outWf_finish hs (.ok (State.wf_ite _ hs hs))

theorem outWf_actend : OutWf (execActend s) := outWf_finish hs (.ok hs)

theorem outWf_chend : OutWf (execChend s) := outWf_finish hs (.ok hs)

theorem outWf_launch (a b : Reg) : OutWf (execLaunch a b s) :=
  outWf_doing hs fun _ h => .check fun _ => .check fun _ => .check fun _ => ends_sendOut h _

theorem outWf_launchi (a b c : Reg) : OutWf (execLaunchi a b c s) :=
  outWf_doing hs fun _ h => .check fun _ => .check fun _ => .check fun _ => .check fun _ => (ends_readWords h _ _).bind fun _ h =>
    .check fun _ => .check fun _ => ends_sendOut (State.wf_ioSeal (State.wf_noteRead h _) _) _

theorem outWf_actnew (d a : Reg) : OutWf (execActnew d a s) := outWf_doing hs fun _ h => by
  dsimp only
  split
  · exact .err _
  · split
    · exact .err _
    · exact .check fun _ => .check fun _ => .check fun _ => .ok h

theorem outWf_rkpred (k a : Reg) : OutWf (execRkpred k a s) :=
  outWf_doing hs fun _ h => .check fun _ => .check fun _ => .check fun _ => .ite (.ok h) (.check fun _ => .check fun _ => .check fun _ => .ok h)

theorem outWf_dfit (k a : Reg) : OutWf (execDfit k a s) :=
  outWf_doing hs fun _ h => .check fun _ => .check fun _ => .check fun _ => .ite (.ok h) (.check fun _ => .ok h)

theorem outWf_dftol (k a : Reg) : OutWf (execDftol k a s) := outWf_doing hs fun _ h => .check fun _ => .check fun _ => .ok h

theorem outWf_dfstat (d k : Reg) : OutWf (execDfstat d k s) := outWf_doing hs fun _ h => .check fun _ => .ok h

theorem outWf_ordt (a : Reg) : OutWf (execOrdt a s) := outWf_doing hs fun _ h => by
  dsimp only
  split
  · exact .ok h
  · exact .ite (.err _) (.ite (.ok h) (.ite (.ok h) (.ite (.err _) (.ok h))))

theorem outWf_ordtSetNext (a : Reg) : OutWf (execOrdtSetNext a s) := outWf_doing hs fun _ h => .ite (.err _) (.ok h)

theorem outWf_ordsend (a b : Reg) (oport : BitVec 4) : OutWf (execOrdsend a b oport s) :=
  outWf_doing hs fun _ h => (ends_readPacket h _).bind fun _ h => (ends_aim h _ _ _).bind fun _ h => ends_sendOut h _

end Messages

end Sys2Proof.Machine
end
end

section
section
/-! The canonical form of memory under the placing of instances and under the system instructions. -/
namespace Sys2Proof.Machine

-- One proof after another: the threads of many proofs at once do not fit the memory of the check.
set_option Elab.async false

/-! ### Placing instances -/

/-- What an optional step yields when it yields a state. -/
def MaybeWf (o : Option State) : Prop := ∀ t, o = some t → t.Wf

section Placing
variable {s : State}

@[simp] theorem maybeWf_none : MaybeWf none := fun _ h => nomatch h

@[simp] theorem maybeWf_some : MaybeWf (some s) ↔ s.Wf := ⟨fun h => h s rfl, fun h t ht => by cases ht; exact h⟩

theorem MaybeWf.ite {c : Prop} [Decidable c] {a b : Option State} (ha : MaybeWf a) (hb : MaybeWf b) : MaybeWf (if c then a else b) := by
  split
  · exact ha
  · exact hb

variable (hs : s.Wf)
include hs

theorem State.wf_updDie (d : Nat) (f : Die → Die) : (s.updDie d f).Wf := hs

theorem State.wf_revoke (part h : Nat) : (s.revoke part h).Wf := hs

theorem State.wf_revokeHandle (part h : Nat) : (s.revokeHandle part h).Wf := State.wf_signal (State.wf_updPart (State.wf_revoke hs _ _) _ _) _ _ _

theorem State.wf_tlbDropAll (part : Nat) (va : Option Nat) : (s.tlbDropAll part va).Wf := hs

theorem State.maybeWf_loadCode (die part image len : Nat) : MaybeWf (s.loadCode die part image len) := by
  unfold State.loadCode
  refine .ite (maybeWf_some.mpr hs) (.ite maybeWf_none ?_)
  split
  · exact maybeWf_none
  · exact maybeWf_some.mpr (State.wf_updDie hs _ _)

theorem State.wf_putInst (key c : Nat) (mail : FMap Nat) (block : Nat) : (s.putInst key c mail block).Wf := by
  unfold State.putInst
  split
  · exact hs
  · exact State.wf_updInst (State.wf_updCore hs _ _) _ _

theorem State.maybeWf_tryPlace (key c : Nat) : MaybeWf (s.tryPlace key c) := by
  unfold State.tryPlace
  split
  · exact maybeWf_none
  · split
    · exact maybeWf_none
    · dsimp only
      split
      · exact maybeWf_none
      case _ hload => exact maybeWf_some.mpr (State.wf_updInst (State.wf_replace (State.wf_putInst (State.maybeWf_loadCode hs _ _ _ _ _ hload) _ _ _ _) _) _ _)

theorem State.maybeWf_placeOn (key : Nat) (l : List Nat) : MaybeWf (s.placeOn key l) := by
  induction l with
  | nil => exact maybeWf_none
  | cons c l ih =>
    unfold State.placeOn
    split
    case _ htry => exact maybeWf_some.mpr (State.maybeWf_tryPlace hs _ _ _ htry)
    · exact ih

theorem State.maybeWf_placeOne (key : Nat) : MaybeWf (s.placeOne key) := by
  unfold State.placeOne
  split
  · exact maybeWf_none
  · split
    · exact maybeWf_none
    · exact State.maybeWf_placeOn hs _ _

theorem State.maybeWf_moveInst (key dest : Nat) : MaybeWf (s.moveInst key dest) := by
  unfold State.moveInst
  split
  · exact maybeWf_none
  · split
    · exact maybeWf_none
    · refine .ite maybeWf_none ?_
      split
      · exact maybeWf_none
      · dsimp only
        split
        · exact maybeWf_none
        case _ hload =>
          exact maybeWf_some.mpr (State.wf_carry (State.wf_updCore (State.wf_putInst
            (State.wf_updCore (State.maybeWf_loadCode hs _ _ _ _ _ hload) _ _) _ _ _ _) _ _) _)

theorem State.wf_liftInst (key : Nat) : (s.liftInst key).Wf := by
  unfold State.liftInst
  split
  · exact hs
  · split
    · exact hs
    · exact State.wf_updInst (State.wf_updCore hs _ _) _ _

theorem State.wf_fillFrom (key c : Nat) (img : Image) : (s.fillFrom key c img).Wf := by
  unfold State.fillFrom
  split
  · exact hs
  · exact State.wf_replace (State.wf_updCore hs _ _) _

theorem State.wf_switchFrom (key old : Nat) : (s.switchFrom key old).Wf := by
  unfold State.switchFrom
  refine State.wf_updInst ?_ _ _
  split
  · exact State.wf_updPart hs _ _
  · exact hs

theorem State.maybeWf_restore (key c : Nat) (old : Option Nat) (img : Image) : MaybeWf (s.restore key c old img) := by
  unfold State.restore
  dsimp only
  split
  · exact maybeWf_none
  · split
    case _ hload =>
      have hput (t : State) (f : FMap Nat × Nat) (ht : t.Wf) (g : Inst → Inst) : (((t.putInst key c f.1 f.2).fillFrom key c img).updInst key g).Wf :=
        State.wf_updInst (State.wf_fillFrom (State.wf_putInst ht _ _ _ _) _ _ _) _ _
      have hloaded := hput _ ‹_› (State.maybeWf_loadCode (State.wf_liftInst hs key) _ _ _ _ _ hload)
      refine maybeWf_some.mpr ?_
      split
      · exact State.wf_ite _ (hloaded _) (State.wf_switchFrom (hloaded _) _ _)
      · exact hloaded _
    · exact maybeWf_none

end Placing

theorem State.maybeWf_placeAll (l : List Nat) {s : State} (hs : s.Wf) : MaybeWf (s.placeAll l) := by
  induction l generalizing s with
  | nil => exact maybeWf_some.mpr hs
  | cons k l ih =>
    unfold State.placeAll
    split
    case _ hone => exact ih (State.maybeWf_placeOne hs _ _ hone)
    · exact maybeWf_none

/-! ### The system instructions -/

section System
variable {s : State} (hs : s.Wf)
include hs

theorem State.wf_noChunk : s.noChunk.Wf := hs

theorem State.wf_afterThis : s.afterThis.Wf := hs

theorem State.wf_stay : s.stay.Wf := hs

theorem State.wf_resume (f : Firing) : (s.resume f).Wf := hs

theorem State.wf_csrPut (n : Nat) (w : Word) : (s.csrPut n w).Wf := hs

theorem ends_doingAll {u : Use} {f : State → Res State} (hf : ∀ t : State, t.Wf → Ends State.Wf (f t)) : Ends State.Wf (s.doing u f) :=
  ends_doing hs hf

theorem outWf_trapOp (c : Cause) (imm : BitVec 16) : OutWf (trapOp c imm s) := outWf_next.mpr (State.wf_takeTrap hs _ _ _ _ _)

theorem outWf_xret (kill : Bool) : OutWf (xret kill s) := by
  unfold xret
  refine outWf_finish hs (.check fun _ => .check fun _ => .check fun _ => ?_)
  dsimp only
  split
  · exact .ok hs
  · refine .ite (.ok (State.wf_stay (State.wf_stopFiring (State.wf_noChunk hs) _ _ _ _))) (.ite (.ok ?_) (.check fun _ => .check fun _ => .ok ?_))
    · exact State.wf_stay (State.wf_wake (State.wf_discard (State.wf_noChunk hs) _ _) _)
    · exact State.wf_afterThis (State.wf_resume (State.wf_noChunk hs) _)

theorem outWf_wfi (d a : Reg) : OutWf (execWfi d a s) := by
  unfold execWfi
  dsimp only
  split
  · exact (outWf_ite _ _ _).mpr ⟨fun _ => outWf_next.mpr hs, fun _ => outWf_doing hs fun _ h => .ok h⟩
  · exact outWf_finish hs (.check fun _ => .check fun _ => .ite (.ok (State.wf_afterThis (State.wf_setG (State.wf_take hs _) _ _)))
      (.ite (.err _) (.ok (State.wf_stay (State.wf_updMe hs _)))))

theorem outWf_csrwr (g : Reg) (csr : BitVec 12) : OutWf (execCsrwr g csr s) :=
  outWf_finish hs (.check fun _ => ends_doingAll hs fun _ h => .ok (State.wf_csrPut h _ _))

theorem outWf_csrsw (g : Reg) (csr : BitVec 12) : OutWf (execCsrsw g csr s) :=
  outWf_finish hs (.check fun _ => ends_doingAll hs fun _ h => .ok (State.wf_csrPut (State.wf_setG h _ _) _ _))

theorem outWf_watch (d a b : Reg) : OutWf (execWatch d a b s) := outWf_doing hs fun _ h => .ok h

theorem outWf_winset (d a b : Reg) : OutWf (execWinset d a b s) :=
  outWf_doing hs fun _ h => .check fun _ => .check fun _ => .check fun _ => .ok h

theorem outWf_winsetRead (d a : Reg) : OutWf (execWinsetRead d a s) := outWf_doing hs fun _ h => .check fun _ => .ok h

theorem outWf_probe (d a : Reg) : OutWf (execProbe d a s) := outWf_doing hs fun _ h => by
  split
  · exact .ok h
  · exact .ite (.ok h) (.ok h)

theorem outWf_tlbi (a : Reg) (sel : BitVec 2) : OutWf (execTlbi a sel s) :=
  outWf_finish hs <| .check fun _ => ends_doingAll hs fun t h => .check fun _ => .ok (by
    split
    · exact State.wf_tlbDropAll (State.wf_noChunk h) _ _
    · exact State.wf_tlbDropAll (State.wf_noChunk h) _ _
    · exact State.wf_updMe (State.wf_noChunk h) _)

theorem outWf_hnew (d a b : Reg) : OutWf (execHnew d a b s) := outWf_doing hs fun _ h => .check fun _ => .check fun _ => by
  split
  · exact .err _
  · exact .ok h

theorem outWf_hrev (d a : Reg) : OutWf (execHrev d a s) := by
  unfold execHrev
  dsimp only
  split
  · exact (outWf_ite _ _ _).mpr ⟨fun _ => outWf_next.mpr hs, fun _ => outWf_doing hs fun _ h => .ok h⟩
  · have hrev (h : Nat) : (s.noChunk.revokeHandle s.myPart h).Wf := State.wf_revokeHandle (State.wf_noChunk hs) _ _
    exact outWf_finish hs (.check fun _ => .check fun _ => .check fun _ => .check fun _ => .ite (.err _)
      (.ite (.ok (State.wf_noChunk (State.wf_setG (State.wf_take (hrev _) _) _ _))) (.ok (State.wf_stay (State.wf_updMe (hrev _) _)))))

theorem outWf_ctxsave (d a b : Reg) : OutWf (execCtxsave d a b s) :=
  outWf_finish hs <| .check fun _ => .check fun _ => ends_doingAll hs fun t h => .check fun _ => by
    split
    · exact .err _
    · split
      · exact .err _
      · refine .ite (.err _) (.check fun _ => .check fun xs => .ite (.err _) (.ite (.err _) (.ite (.err _) (.ok ?_))))
        have hfill : (xs.foldl (fun s x => s.fillTlb s.cur s.myPart x.ea x.leaf) t).Wf :=
          State.wf_foldl (fun _ _ h => State.wf_fillTlb h _ _ _ _) xs h
        exact State.wf_afterThis (State.wf_applyChunk (State.wf_noChunk (State.wf_setG hfill _ _)) _ _ _)

theorem ends_imageBytes (va n : Nat) : Ends (fun r => r.1.Wf) (s.imageBytes va n) := by
  induction n generalizing s va with
  | zero => exact .ok hs
  | succ n ih => exact (ends_readBlock hs va 64).bind fun r hr => (ih hr (va + 64)).bind fun q hq => .ok hq

theorem outWf_ctxrest (i : Instr) (any : Bool) (d a b : Reg) : OutWf (ctxrest i any d a b s) :=
  outWf_finish hs <| .check fun _ => .check fun _ => ends_doingAll hs fun t h => .check fun _ => by
    split
    · exact .err _
    · refine .check fun _ => .check fun _ => .ite (.err _) ((ends_imageBytes h _ _).bind fun q hq => ?_)
      split
      · exact .err _
      · refine .ite (.err _) (.ite (.err _) ?_)
        split
        · exact .err _
        · split
          · exact .err _
          case _ hrest =>
            exact .ok (State.wf_afterThis (State.wf_wake (State.maybeWf_restore (State.wf_setG (State.wf_noChunk hq) _ _) _ _ _ _ _ hrest) _))

theorem outWf_gcomp (d a b : Reg) : OutWf (execGcomp d a b s) :=
  outWf_doing hs fun _ h => .ok (State.wf_putV (State.wf_putV (State.wf_putV h _ _) _ _) _ _)

end System

end Sys2Proof.Machine
end
end

section
section
/-! The canonical form of memory under the steps of the device: delivery of packets, the copy engines and the caches, the
issue choice and the kiln. -/
namespace Sys2Proof.Machine

-- One proof after another: the threads of many proofs at once do not fit the memory of the check.
set_option Elab.async false

section Steps
variable {s : State}

theorem OutWf.next (hs : s.Wf) : OutWf (.next s) := outWf_next.mpr hs

theorem OutWf.idle (hs : s.Wf) : OutWf (.idle s) := outWf_idle.mpr hs

theorem OutWf.ite {c : Prop} [Decidable c] {a b : Out} (ha : OutWf a) (hb : OutWf b) : OutWf (if c then a else b) := by
  split
  · exact ha
  · exact hb

end Steps

/-! ### Delivery of packets -/

section Delivery
variable {s : State} (hs : s.Wf)
include hs

theorem State.wf_logEvent (d : Nat) (c : Cause) (kind unit info : Nat) : (s.logEvent d c kind unit info).Wf := hs

theorem State.wf_sendPkt (p : Pkt) : (s.sendPkt p).Wf := hs

theorem State.wf_deadLetter (part : Nat) (c : Cause) : (s.deadLetter part c).Wf := hs

theorem State.wf_updEng (c : Nat) (f : Engines → Engines) : (s.updEng c f).Wf := hs

theorem State.wf_net (n : List Pkt) : ({ s with net := n } : State).Wf := hs

theorem State.wf_ringIsFull (die part c : Nat) : (s.ringIsFull die part c).Wf :=
  State.wf_ite _ hs (State.wf_logEvent (State.wf_updDie hs _ _) _ _ _ _ _)

theorem State.wf_ringUnmapped (die part c : Nat) : (s.ringUnmapped die part c).Wf :=
  State.wf_ite _ hs (State.wf_tellSup (State.wf_updDie hs _ _) _ _ _)

theorem State.wf_ringShift (part key port ord : Nat) : (s.ringShift part key port ord).Wf :=
  State.wf_foldl (fun _ _ h => State.wf_ite _ h (State.wf_updDie h _ _)) _ hs

theorem State.wf_ringFree (part key : Nat) : (s.ringFree part key).Wf :=
  State.wf_foldl (fun _ _ h => State.wf_ite _ h (State.wf_updDie h _ _)) _ hs

theorem State.wf_ringAdd (die c : Nat) (p : Pkt) (holds : Bool) (before : RingEntry → Bool) : (s.ringAdd die c p holds before).1.Wf := by
  unfold State.ringAdd
  dsimp only
  split
  · exact State.wf_ringIsFull hs _ _ _
  · split
    · exact hs
    · split
      · exact State.wf_ringUnmapped hs _ _ _
      · dsimp only
        refine State.wf_updDie ?_ _ _
        exact State.wf_ringShift (State.wf_land hs _ _ _ _ _) _ _ _ _

theorem State.wf_drop (at' : Nat) (p : Pkt) (c : Cause) : (s.drop at' p c).Wf :=
  State.wf_ite _ (State.wf_deadLetter hs _ _) (State.wf_sendPkt (State.wf_next (State.wf_deadLetter hs _ _)) _)

theorem State.wf_enterSlot (c base : Nat) (p : Pkt) (spec : Nat) : (s.enterSlot c base p spec).Wf := by
  unfold State.enterSlot
  split
  · exact hs
  · exact State.wf_wakeCore (State.wf_updCore (State.wf_watchAll (State.wf_replace (State.wf_next hs) _) _ _ _ _) _ _) _

theorem State.wf_arrive (p : Pkt) : (s.arrive p).1.Wf := by
  unfold State.arrive
  split
  · exact State.wf_drop hs _ _ _
  · split
    · exact State.wf_ringAdd hs _ _ _ _ _
    · split
      · exact hs
      · split
        · exact State.wf_ringAdd hs _ _ _ _ _
        · dsimp only
          split
          · exact State.wf_ringAdd hs _ _ _ _ _
          · split
            · exact State.wf_ringAdd hs _ _ _ _ _
            · exact State.wf_enterSlot hs _ _ _ _

theorem State.wf_toLaunchActor (p : Pkt) : (s.toLaunchActor p).Wf :=
  State.wf_ite _ (State.wf_drop hs _ _ _) (State.wf_ite _ (State.wf_drop hs _ _ _) (State.wf_updPart hs _ _))

theorem State.wf_deliver (p : Pkt) : (s.deliver p).1.Wf := by
  unfold State.deliver
  split
  · exact State.wf_toLaunchActor hs p
  · exact State.wf_arrive hs p

theorem outWf_messageDelivery : OutWf (execMessageDelivery s) := by
  unfold execMessageDelivery
  dsimp only
  split
  · split
    · exact .idle hs
    · exact .ite (.idle hs) (.ite (.next (State.wf_deliver (State.wf_net hs _) _)) (.next (State.wf_net (State.wf_deliver (State.wf_net hs _) _) _)))
  · split
    · exact .idle hs
    · exact .ite (.next (State.wf_deliver (State.wf_updPart hs _ _) _)) (.next (State.wf_updPart (State.wf_deliver (State.wf_updPart hs _ _) _) _ _))
  · split
    · exact .idle hs
    · refine .ite ?_ (.ite (.idle hs) (.ite (.next (State.wf_deliver (State.wf_updMe hs _) _))
        (.next (State.wf_updCore (State.wf_deliver (State.wf_updMe hs _) _) _ _))))
      split
      · exact .idle hs
      · exact .ite (.idle hs) (.next (State.wf_enterSlot (State.wf_updMe hs _) _ _ _ _))

theorem outWf_overflowRingRetry : OutWf (execOverflowRingRetry s) := .ite (.next (State.wf_updDie hs _ _)) (.idle hs)

theorem State.wf_ringTake (die part : Nat) (rest : List RingEntry) : (s.ringTake die part rest).Wf := hs

theorem outWf_overflowRingDelivery : OutWf (execOverflowRingDelivery s) := by
  unfold execOverflowRingDelivery
  dsimp only
  split
  · exact .idle hs
  · refine .ite (.next (State.wf_drop (State.wf_ringTake hs _ _ _) _ _ _)) ?_
    split
    · exact .next (State.wf_drop (State.wf_ringTake hs _ _ _) _ _ _)
    · split
      · exact .idle hs
      · exact .ite (.idle hs) (.next (State.wf_enterSlot (State.wf_ringTake hs _ _ _) _ _ _ _))

theorem State.wf_credits (l : List (Nat × Nat × Nat)) : ({ s with credits := l } : State).Wf := hs

theorem outWf_creditReturn : OutWf (execCreditReturn s) := by
  unfold execCreditReturn
  split
  · exact .idle hs
  · exact .next (State.wf_wake (State.wf_addCredit (State.wf_credits hs _) _ _ _) _)

end Delivery

/-! ### Counters, caches, refills and copies -/

section CopyEngine
variable {s : State} (hs : s.Wf)
include hs

theorem State.wf_posts (l : List Post) : ({ s with posts := l } : State).Wf := hs

theorem outWf_counterIncrement : OutWf (execCounterIncrement s) := by
  unfold execCounterIncrement
  split
  · exact .idle hs
  · exact .ite (.idle hs) (.ite (.idle hs) (.next (State.wf_applyPost (State.wf_posts hs _) _)))

theorem State.wf_engFills (c : Nat) (l : List Tlb) : (s.engFills c l).Wf := State.wf_foldl (fun _ _ h => State.wf_updCluster h _ _) l hs

theorem outWf_pageWalk : OutWf (execPageWalk s) := by
  unfold execPageWalk
  split
  · exact .next (State.wf_fillTlb hs _ _ _ _)
  · exact .idle hs

theorem State.wf_icFillAll (die : Nat) (x : CodeId) (line : Nat) : (s.icFillAll die x line).Wf :=
  State.wf_foldl (fun _ _ h => State.wf_updCore h _ _) _ hs

theorem outWf_icacheFill : OutWf (execIcacheFill s) := by
  unfold execIcacheFill
  dsimp only
  split
  · exact .ite (.next (State.wf_icFillAll hs _ _ _)) (.idle hs)
  · exact .idle hs

theorem outWf_streamRefill : OutWf (execStreamRefill s) := by
  unfold execStreamRefill
  dsimp only
  split
  · exact .idle hs
  · exact .ite (.idle hs) (.next (State.wf_updMe (State.wf_engFills hs _ _) _))

theorem outWf_copyStart : OutWf (execCopyStart s) := by
  unfold execCopyStart
  refine .ite (.idle hs) ?_
  split
  · exact .idle hs
  · exact .next (State.wf_updEng hs _ _)

theorem outWf_copyRackReserve : OutWf (execCopyRackReserve s) := by
  unfold execCopyRackReserve
  dsimp only
  split
  · exact .idle hs
  · refine .ite (.idle hs) ?_
    split
    · exact .next (State.wf_updEng hs _ _)
    · exact .ite (.idle hs) (.next (State.wf_updCore (State.wf_updEng hs _ _) _ _))

theorem outWf_copyBeat : OutWf (execCopyBeat s) := by
  unfold execCopyBeat
  dsimp only
  split
  · exact .idle hs
  · refine .ite (.idle hs) ?_
    split
    · exact .next (State.wf_updEng hs _ _)
    · exact .ite (.idle hs) (.next (State.wf_land (State.wf_engFills (State.wf_updEng hs _ _) _ _) _ _ _ _ _))

theorem State.wf_spoil (x : Copy) : (s.spoil x).Wf := by
  unfold State.spoil
  split
  · exact State.wf_replace (State.wf_next hs) _
  · exact hs

theorem State.wf_copyFill (c : Nat) (x : Copy) : (s.copyFill c x).Wf := by
  unfold State.copyFill
  split
  · exact State.wf_fillRack (State.wf_updCore (State.wf_ite _ (State.wf_spoil hs _) hs) _ _) _ _ _
  · exact hs

theorem outWf_copyCompletion : OutWf (execCopyCompletion s) := by
  have hlatch (err : Option Cause) (f : Cause → Core → Core) {t : State} (h : t.Wf) :
      State.Wf (match err with | none => t | some e => t.updCore s.cur (f e)) := by
    split
    · exact h
    · exact State.wf_updCore h _ _
  unfold execCopyCompletion
  dsimp only
  split
  · exact .idle hs
  · refine .ite (.idle hs) (.next (State.wf_updCore (hlatch _ _ ?_) _ _))
    exact State.wf_completePost (State.wf_copyFill hs _ _) _ _ _ _

end CopyEngine

/-! ### The issue choice, commits and the kiln -/

section Scheduling
variable {s : State} (hs : s.Wf)
include hs

theorem State.wf_stage (c part va : Nat) (tile : List Byte) : (s.stage c part va tile).Wf := by
  unfold State.stage
  split
  · exact hs
  · exact State.wf_signal (State.wf_replace hs _) _ _ _

theorem State.wf_startFiring (c : Nat) (e : Entry) (aged : Bool) : (s.startFiring c e aged).Wf := by
  unfold State.startFiring
  split
  · exact hs
  · exact State.wf_ite _ (State.wf_stage (State.wf_updInst (State.wf_putCore (State.wf_next hs) _ _) _ _) _ _ _ _)
      (State.wf_updInst (State.wf_putCore (State.wf_next hs) _ _) _ _)

theorem outWf_issueChoice : OutWf (execIssueChoice s) := by
  unfold execIssueChoice
  refine .ite (.idle hs) ?_
  split
  · exact .next (State.wf_startFiring hs _ _ _)
  · exact .idle hs

theorem outWf_preEmption : OutWf (execPreEmption s) := by
  unfold execPreEmption
  split
  · exact .idle hs
  · exact .ite (.next (State.wf_cutChunk hs _)) (.next (State.wf_startFiring (State.wf_leaveSolo (State.wf_cutChunk hs _) _) _ _ _))

theorem outWf_chunkCommit : OutWf (execChunkCommit s) := by
  unfold execChunkCommit
  split
  · exact .ite (.next (State.wf_commit hs _)) (.idle hs)
  · exact .idle hs

theorem outWf_arbiterTokenGrant : OutWf (execArbiterTokenGrant s) := by
  unfold execArbiterTokenGrant
  split
  · exact .idle hs
  · exact .ite (.next (State.wf_updMe hs _)) (.idle hs)

theorem State.wf_clusters (m : FMap Cluster) : ({ s with clusters := m } : State).Wf := hs

theorem outWf_kilnReplenishment : OutWf (execKilnReplenishment s) :=
  .ite (.idle hs) (.next (State.wf_foldl (fun _ _ h => State.wf_updDie h _ _) _ (State.wf_clusters (State.wf_next hs) _)))

theorem State.wf_draw (c part fir units : Nat) : (s.draw c part fir units).Wf := State.wf_updCore (State.wf_updCluster hs _ _) _ _

theorem outWf_kilnDraw : OutWf (execKilnDraw s) := by
  unfold execKilnDraw
  split
  · exact .ite (.idle hs) (.next (State.wf_draw (State.wf_updMe hs _) _ _ _ _))
  · exact .idle hs

theorem outWf_macCountDraw : OutWf (execMacCountDraw s) := by
  unfold execMacCountDraw
  split
  · exact .idle hs
  · exact .next (State.wf_draw (State.wf_updEng hs _ _) _ _ _ _)

theorem outWf_agingLimit : OutWf (execAgingLimit s) := .next (State.wf_updMe hs _)

theorem outWf_thermalLimit : OutWf (execThermalLimit s) :=
  .ite (.idle hs) (.next (State.wf_foldl (fun _ _ h => State.wf_tellSup h _ _ _) _ (State.wf_updDie hs _ _)))

theorem outWf_thermalLimitClear : OutWf (execThermalLimitClear s) := .next (State.wf_updDie hs _ _)

end Scheduling

end Sys2Proof.Machine
end
end

section
section
/-! The canonical form of memory under the steps of the launch actor and of a move. -/
namespace Sys2Proof.Machine

-- One proof after another: the threads of many proofs at once do not fit the memory of the check.
set_option Elab.async false

/-! ### The launch actor -/

section Replies
variable {s : State} (hs : s.Wf)
include hs

theorem State.wf_hostReads (part off : Nat) : (s.hostReads part off).Wf := hs

theorem outWf_pkt : OutWf (execPkt s) := by
  unfold execPkt
  refine .ite (.idle hs) (.ite (.next (State.wf_hostReads hs _ _)) ?_)
  split
  · exact .next (State.wf_updPart hs _ _)
  · exact .ite (.idle hs) (.next (State.wf_updPart hs _ _))

theorem outWf_errstat : OutWf (execErrstat s) :=
  .ite (.idle hs) (.ite (.next (State.wf_hostReads hs _ _)) (.ite (.next (State.wf_updPart hs _ _)) (.idle hs)))

theorem State.wf_hubInc (part : Nat) (cnt : Option (Nat × Nat)) : (s.hubInc part cnt).Wf := by
  unfold State.hubInc
  split <;> exact hs

theorem State.wf_hubWrite (part va : Nat) (b : List Byte) : (s.hubWrite part va b).Wf := by
  have hgo (w : List (Nat × Byte × Byte)) (l : List Nat) : ((s.replace w).signal 3 0 l).Wf := State.wf_signal (State.wf_replace hs w) _ _ _
  unfold State.hubWrite
  split
  · exact hs
  · refine State.wf_ite _ hs ?_
    dsimp only
    split
    · exact hgo _ _
    · exact State.wf_ite _ hs (hgo _ _)
    · exact hs

theorem State.wf_reply (part repa : Nat) (repc : Option (Nat × Nat)) (w : Nat) : (s.reply part repa repc w).Wf :=
  State.wf_ite _ hs (State.wf_hubInc (State.wf_hubWrite hs _ _ _) _ _)

theorem State.wf_takeSlot (part lslot : Nat) (l : Launch) : (s.takeSlot part lslot l).Wf := hs

theorem State.wf_loadRoutes (w : Nat) : (s.loadRoutes w).Wf := hs

theorem State.wf_insts (m : FMap Inst) : ({ s with insts := m } : State).Wf := hs

theorem State.wf_refuse (part : Nat) (q : Req) (c : Cause) : (s.refuse part q c).Wf :=
  State.wf_ite _ (State.wf_reply hs _ _ _ _) (State.wf_updPart (State.wf_reply hs _ _ _ _) _ _)

end Replies

theorem State.maybeWf_loadAll (part image len : Nat) (l : List Nat) {s : State} (hs : s.Wf) : MaybeWf (s.loadAll part image len l) := by
  induction l generalizing s with
  | nil => exact maybeWf_some.mpr hs
  | cons d l ih =>
    unfold State.loadAll
    split
    case _ hload => exact ih (State.maybeWf_loadCode hs _ _ _ _ _ hload)
    · exact maybeWf_none

theorem State.wf_sendTokens (l : List Pkt) {s : State} (hs : s.Wf) : (s.sendTokens l).1.Wf := by
  induction l generalizing s with
  | nil => exact hs
  | cons p l ih =>
    unfold State.sendTokens
    dsimp only
    split
    · exact ih (State.wf_deliver hs p)
    · exact State.wf_deliver hs p

section Launches
variable {s : State} (hs : s.Wf)
include hs

theorem State.maybeWf_tryDies (part lslot : Nat) (l : Launch) : MaybeWf (s.tryDies part lslot l) := by
  unfold State.tryDies
  dsimp only
  split
  case _ hload => exact State.maybeWf_placeAll _ (State.maybeWf_loadAll _ _ _ _ (State.wf_insts (State.wf_updPart hs _ _) _) _ hload)
  · exact maybeWf_none

theorem State.maybeWf_trySets (part lslot : Nat) (l : Launch) (sets : List (List Nat)) : MaybeWf (s.trySets part lslot l sets) := by
  induction sets with
  | nil => exact maybeWf_none
  | cons d sets ih =>
    unfold State.trySets
    split
    case _ htry => exact maybeWf_some.mpr (State.maybeWf_tryDies hs _ _ _ _ htry)
    · exact ih

theorem State.wf_finishLaunch (part : Nat) (q : Req) : (s.finishLaunch part q).1.Wf := by
  unfold State.finishLaunch
  dsimp only
  split
  · exact State.wf_sendTokens _ hs
  · split
    · exact State.wf_sendTokens _ hs
    · exact State.wf_reply (State.wf_updPart (State.wf_sendTokens _ hs) _ _) _ _ _ _

theorem State.wf_launched (part lslot : Nat) (q : Req) (l : Launch) (tokens : List (List Byte)) : (s.launched part lslot q l tokens).1.Wf := by
  unfold State.launched
  refine State.wf_finishLaunch ?_ _ _
  exact State.wf_foldl (fun _ _ h => State.wf_wake h _) _ (State.wf_updPart hs _ _)

theorem State.wf_launch (part : Nat) (q : Req) (groups : Option Nat) (bad : List Nat) : (s.launch part q groups bad).1.Wf := by
  have htaken (b : Prop) [Decidable b] (lslot : Nat) (l : Launch) : State.Wf (if b then s.takeSlot part lslot l else s) :=
    State.wf_ite _ (State.wf_takeSlot hs _ _ _) hs
  unfold State.launch
  split
  · exact State.wf_finishLaunch hs _ _
  · split
    · exact State.wf_refuse hs _ _ _
    · dsimp only
      split
      · exact hs
      · split
        · exact State.wf_reply (State.wf_hubInc (htaken _ _ _) _ _) _ _ _ _
        · split
          · exact State.wf_refuse hs _ _ _
          · split
            · exact htaken _ _ _
            case _ hset =>
              have hplaced := MaybeWf.ite maybeWf_none (State.maybeWf_trySets (htaken _ _ _) _ _ _ _) _ hset
              split
              · exact State.wf_launched hplaced _ _ _ _ _
              · split
                · exact State.wf_refuse (State.wf_loadRoutes hs _) _ _ _
                · exact State.wf_launched (State.wf_loadRoutes hplaced _) _ _ _ _ _

theorem State.wf_of_launch {part : Nat} {q : Req} {groups : Option Nat} {bad : List Nat} {t : State} {o : Option Req}
    (h : s.launch part q groups bad = (t, o)) : t.Wf := by
  have hlaunch := State.wf_launch hs part q groups bad
  rwa [h] at hlaunch

theorem State.wf_launchOrWait (part : Nat) (q : Req) (groups : Option Nat) (bad : List Nat) : (s.launchOrWait part q groups bad).Wf := by
  unfold State.launchOrWait
  split
  case _ heq => exact State.wf_of_launch hs heq
  case _ heq => exact State.wf_updPart (State.wf_of_launch hs heq) _ _

theorem State.wf_takeReq {part : Nat} {t : State} {q : Req} (h : s.takeReq part = some (t, q)) : t.Wf := by
  unfold State.takeReq at h
  split at h
  · cases h
  · split at h
    · cases h
    · cases h
      exact State.wf_updPart hs _ _

theorem outWf_launchRequest : OutWf (execLaunchRequest s) := by
  unfold execLaunchRequest
  dsimp only
  split
  · exact .idle hs
  case _ hreq =>
    have ht := State.wf_takeReq hs hreq
    exact .ite (.next (State.wf_ite _ (State.wf_reply ht _ _ _ _) ht)) (.ite (.next (State.wf_launchOrWait ht _ _ _ _)) (.idle hs))

theorem State.wf_countKnown (part : Nat) (q : Req) (n : Except Cause Nat) (bad : List Nat) : (s.countKnown part q n bad).Wf := by
  unfold State.countKnown
  split
  · exact State.wf_launchOrWait hs _ _ _ _
  · exact State.wf_refuse hs _ _ _

theorem outWf_indirectLaunch : OutWf (execIndirectLaunch s) := by
  unfold execIndirectLaunch
  dsimp only
  split
  · exact .idle hs
  case _ hreq =>
    have ht := State.wf_takeReq hs hreq
    exact .ite (.idle hs) (.ite (.next (State.wf_updPart ht _ _)) (.next (State.wf_countKnown ht _ _ _ _)))

theorem outWf_indirectLaunchEligible : OutWf (execIndirectLaunchEligible s) := by
  unfold execIndirectLaunchEligible
  dsimp only
  split
  · exact .idle hs
  · refine .ite (.idle hs) ?_
    split
    · exact .next (State.wf_countKnown (State.wf_updPart hs _ _) _ _ _ _)
    · exact .ite (.idle hs) (.next (State.wf_countKnown (State.wf_updPart hs _ _) _ _ _ _))

theorem outWf_waitingLaunchProceeds : OutWf (execWaitingLaunchProceeds s) := by
  unfold execWaitingLaunchProceeds
  dsimp only
  split
  · exact .idle hs
  · refine .ite (.idle hs) ?_
    split
    case _ heq => exact .next (State.wf_of_launch (State.wf_updPart hs _ _) heq)
    case _ heq => exact .next (State.wf_updPart (State.wf_of_launch (State.wf_updPart hs _ _) heq) _ _)

/-! ### Ends, steps and die sets -/

theorem State.wf_exitIdle (part lslot : Nat) : (s.exitIdle part lslot).Wf :=
  State.wf_foldl (fun s key h => by
    split
    · exact State.wf_ite _ h (State.wf_exitInst h _)
    · exact h) _ hs

theorem State.wf_downDry (part lslot : Nat) : (s.downDry part lslot).Wf :=
  State.wf_foldl (fun s p h => by
    split
    · split
      · exact State.wf_ite _ (State.wf_knockDown h _ _ _) h
      · exact h
    · exact h) _ hs

theorem outWf_endRequest : OutWf (execEndRequest s) := by
  unfold execEndRequest
  dsimp only
  split
  · exact .idle hs
  case _ hreq =>
    have ht := State.wf_takeReq hs hreq
    refine .ite (.idle hs) ?_
    split
    · exact .next (State.wf_reply ht _ _ _ _)
    · exact .next (State.wf_exitIdle (State.wf_downDry (State.wf_updPart ht _ _) _ _) _ _)

theorem State.wf_freeCode (part : Nat) : (s.freeCode part).Wf := hs

theorem outWf_launchEnd : OutWf (execLaunchEnd s) := by
  have hidle (b : Bool) (part lslot : Nat) : State.Wf (if b then s.exitIdle part lslot else s) := State.wf_ite _ (State.wf_exitIdle hs _ _) hs
  have hend (i : FMap Inst) (c : List (Nat × Nat × Nat)) {s : State} (h : s.Wf) : ({ s with insts := i, credits := c } : State).Wf := h
  unfold execLaunchEnd
  dsimp only
  split
  · exact .idle hs
  · refine .ite (.idle hs) (.ite (.next (hidle _ _ _)) (.next ?_))
    refine State.wf_freeCode ?_ _
    refine hend _ _ ?_
    refine State.wf_updPart ?_ _ _
    exact State.wf_foldl (fun _ _ h => State.wf_reply h _ _ _ _) _ (State.wf_hubInc (hidle _ _ _) _ _)

theorem outWf_stepAdvance : OutWf (execStepAdvance s) := by
  unfold execStepAdvance
  dsimp only
  split
  · exact .idle hs
  · exact .ite (.idle hs) (.next (State.wf_foldl (fun _ _ h => State.wf_wake (State.wf_updInst h _ _) _) _ (State.wf_updPart hs _ _)))

theorem State.maybeWf_quiesce (key : Nat) (cores : List Nat) : MaybeWf (s.quiesce key cores) := by
  unfold State.quiesce
  split
  · exact maybeWf_none
  · split
    · exact maybeWf_none
    · exact maybeWf_some.mpr (State.wf_updInst hs _ _)

theorem State.maybeWf_quiesceAll (cores : State → Inst → List Nat) (l : List (Nat × Inst)) : MaybeWf (s.quiesceAll cores l) := by
  induction l generalizing s with
  | nil => exact maybeWf_some.mpr hs
  | cons p l ih =>
    unfold State.quiesceAll
    split
    case _ hq => exact ih (State.maybeWf_quiesce hs _ _ _ hq)
    · exact maybeWf_none

theorem outWf_dieSetChange : OutWf (execDieSetChange s) := by
  unfold execDieSetChange
  dsimp only
  split
  · exact .idle hs
  · refine .ite (.idle hs) ?_
    split
    · exact .idle hs
    case _ hload =>
      split
      case _ hq => exact .next (State.maybeWf_quiesceAll (State.maybeWf_loadAll _ _ _ _ (State.wf_updPart hs _ _) _ hload) _ _ _ hq)
      · exact .idle hs

theorem State.wf_getD {o : Option State} (ho : MaybeWf o) : (o.getD s).Wf := by
  cases o with
  | none => exact hs
  | some t => exact ho t rfl

theorem outWf_placementRun : OutWf (execPlacementRun s) :=
  .next (State.wf_foldl (fun _ _ h => State.wf_wake (State.wf_getD h (State.maybeWf_placeOne h _)) _) _ hs)

end Launches

/-! ### Moves -/

section Moves
variable {s : State} (hs : s.Wf)
include hs

theorem outWf_migrationQuiesce : OutWf (execMigrationQuiesce s) := by
  unfold execMigrationQuiesce
  dsimp only
  split
  · exact .idle hs
  · refine .ite (.idle hs) ?_
    split
    case _ hq => exact .next (State.wf_updInst (State.maybeWf_quiesce hs _ _ _ hq) _ _)
    · exact .idle hs

theorem outWf_migrationStream : OutWf (execMigrationStream s) := by
  unfold execMigrationStream
  dsimp only
  split
  · exact .idle hs
  · split
    · exact .idle hs
    · exact .ite (.idle hs) (.next (State.wf_updCore (State.wf_updInst hs _ _) _ _))

theorem State.maybeWf_moveTo (key : Nat) (l : List Nat) : MaybeWf (s.moveTo key l) := by
  induction l with
  | nil => exact maybeWf_none
  | cons c l ih =>
    unfold State.moveTo
    split
    case _ hmove => exact maybeWf_some.mpr (State.maybeWf_moveInst hs _ _ _ hmove)
    · exact ih

theorem outWf_migrationSwitch : OutWf (execMigrationSwitch s) := by
  unfold execMigrationSwitch
  dsimp only
  split
  · exact .idle hs
  · split
    · exact .idle hs
    · refine .ite (.idle hs) ?_
      split
      case _ hmove => exact .next (State.wf_switchFrom (State.maybeWf_moveTo hs _ _ _ hmove) _ _)
      · exact .idle hs

theorem outWf_placementTableRewrite : OutWf (execPlacementTableRewrite s) := by
  unfold execPlacementTableRewrite
  dsimp only
  split
  · exact .idle hs
  · split
    · exact .idle hs
    · exact .ite (.idle hs) (.next (State.wf_wake (State.wf_updInst hs _ _) _))

theorem outWf_drainMarker : OutWf (execDrainMarker s) := by
  unfold execDrainMarker
  dsimp only
  split
  · exact .idle hs
  · exact .ite (.idle hs) (.next (State.wf_updInst hs _ _))

theorem outWf_drainMessage : OutWf (execDrainMessage s) := by
  unfold execDrainMessage
  dsimp only
  split
  · exact .idle hs
  · exact .ite (.idle hs) (.next (State.wf_wake (State.wf_updInst (State.wf_ringFree hs _ _) _ _) _))

end Moves

end Sys2Proof.Machine
end
end

section
section
/-! The canonical form of memory under repairs, retirement, the configuration records and the hub dies. -/
namespace Sys2Proof.Machine

-- One proof after another: the threads of many proofs at once do not fit the memory of the check.
set_option Elab.async false

/-! ### Traps, repairs and retirement -/

section Service
variable {s : State} (hs : s.Wf)
include hs

theorem State.wf_cur (c : Nat) : ({ s with cur := c } : State).Wf := hs

theorem State.wf_hub (h : Hub) : ({ s with hub := h } : State).Wf := hs

theorem State.wf_takeDue (c : Cause) (xval xpc : Word) : (s.takeDue c xval xpc).Wf :=
  State.wf_ite _ (State.wf_takeTrap hs _ _ _ _ _) (State.wf_updMe (State.wf_takeTrap hs _ _ _ _ _) _)

theorem outWf_preciseTrap : OutWf (execPreciseTrap s) := by
  unfold execPreciseTrap
  split
  · exact .next (State.wf_endStay (State.wf_takeDue hs _ _ _))
  · exact .idle hs

theorem outWf_wfiDeadline : OutWf (execWfiDeadline s) := .next (State.wf_updMe hs _)

theorem State.wf_noteRepair (c : Nat) : (s.noteRepair c).Wf := hs

theorem State.wf_spoilBytes (a n : Nat) : (s.spoilBytes a n).Wf := hs

theorem outWf_softErrorRepair : OutWf (execSoftErrorRepair s) := by
  unfold execSoftErrorRepair
  dsimp only
  refine .ite (.idle hs) ?_
  split
  · exact .ite (.idle hs) (.next (State.wf_logEvent (State.wf_noteRepair (State.wf_squash hs _ _) _) _ _ _ _ _))
  · split
    · exact .ite (.next (State.wf_logEvent (State.wf_noteRepair hs _) _ _ _ _ _)) (.idle hs)
    · exact .idle hs
  · exact .ite (.idle hs) (.next (State.wf_logEvent (State.wf_noteRepair hs _) _ _ _ _ _))
  · exact .next (State.wf_logEvent hs _ _ _ _ _)
  · exact .next (State.wf_logEvent (State.wf_noteRepair hs _) _ _ _ _ _)
  · exact .next (State.wf_logEvent (State.wf_spoilBytes (State.wf_noteRepair hs _) _ _) _ _ _ _ _)
  · exact .next (State.wf_logEvent (State.wf_updCore (State.wf_noteRepair hs _) _ _) _ _ _ _ _)
  · exact .next (State.wf_logEvent hs _ _ _ _ _)
  · exact .next (State.wf_logEvent (State.wf_spoilBytes hs _ _) _ _ _ _ _)
  · exact .idle hs

theorem outWf_scrub : OutWf (execScrub s) := .next hs

theorem outWf_unitDraining : OutWf (execUnitDraining s) := .ite (.idle hs) (.next (State.wf_updCore hs _ _))

theorem State.wf_stopLevel : s.stopLevel.Wf := by
  unfold State.stopLevel
  split
  · exact hs
  · exact State.wf_stopFiring hs _ _ _ _

theorem State.wf_failCore (c : Nat) : (s.failCore c).Wf := by
  unfold State.failCore
  refine State.wf_knockDown (State.wf_cur ?_ _) _ _ _
  exact State.wf_stopLevel (State.wf_stopLevel (State.wf_cur (State.wf_leaveSolo (State.wf_squash hs _ _) _) _))

theorem State.wf_loseCore (c : Nat) : (s.loseCore c).Wf := hs

theorem State.wf_rePlace (c key : Nat) : (s.rePlace c key).Wf := by
  unfold State.rePlace
  split
  · exact hs
  · have hlog (n : Nat) : (s.logEvent (dieOf c) .restoreShape (coreKind c) c n).Wf := State.wf_logEvent hs _ _ _ _ _
    dsimp only
    split
    case _ hmove => exact State.wf_updInst (State.wf_switchFrom (State.maybeWf_moveTo (hlog _) _ _ _ hmove) _ _) _ _
    · exact State.wf_updInst (hlog _) _ _

theorem State.wf_logRetired (die kind unit part : Nat) : (s.logRetired die kind unit part).Wf := hs

theorem State.wf_retireChannel (stack pch : Nat) : (s.retireChannel stack pch).Wf :=
  State.wf_ite _ hs (State.wf_ite _ (State.wf_foldl (fun _ _ h => State.wf_tellSup h _ _ _) _ (State.wf_logRetired hs _ _ _ _))
    (State.wf_hub (State.wf_logRetired hs _ _ _ _) _))

theorem State.wf_pairGone (unit : Nat) : (s.pairGone unit).Wf :=
  State.wf_ite _ (State.wf_retireChannel (State.wf_retireChannel hs _ _) _ _) hs

theorem State.wf_useSpare (kind unit : Nat) : (s.useSpare kind unit).Wf := State.wf_ite _ (State.wf_updCluster hs _ _) (State.wf_updDie hs _ _)

theorem State.wf_goneUnit (kind unit : Nat) : (s.goneUnit kind unit).Wf := hs

theorem State.wf_retireBare (kind unit : Nat) : (s.retireBare kind unit).Wf := by
  have hbare (l : List (Nat × Inst)) (cs ps : List Nat) (w : Nat) :
      (ps.foldl (fun (s : State) p => s.tellSup 0 p [w]) (cs.foldl State.loseCore
        (l.foldl (fun (s : State) (p : Nat × Inst) => s.rePlace (p.2.core.getD 0) p.1) (s.goneUnit kind unit)))).Wf := by
    refine State.wf_foldl (fun _ _ h => State.wf_tellSup h _ _ _) _ ?_
    refine State.wf_foldl (fun _ _ h => State.wf_loseCore h _) _ ?_
    exact State.wf_foldl (fun _ _ h => State.wf_rePlace h _ _) _ (State.wf_goneUnit hs _ _)
  exact State.wf_ite _ (State.wf_pairGone (hbare _ _ _ _) _) (hbare _ _ _ _)

theorem State.wf_retire (kind unit : Nat) : (s.retire kind unit).Wf :=
  State.wf_ite _ (State.wf_foldl (fun _ _ h => State.wf_updCore (State.wf_next h) _ _) _ (State.wf_useSpare (State.wf_logRetired hs _ _ _ _) _ _))
    (State.wf_retireBare (State.wf_logRetired hs _ _ _ _) _ _)

theorem outWf_unitRetire : OutWf (execUnitRetire s) :=
  .ite (.idle hs) (.ite (.next (State.wf_retire (State.wf_foldl (fun _ _ h => State.wf_failCore h _) _ hs) _ _))
    (.ite (.next (State.wf_retire hs _ _)) (.idle hs)))

theorem outWf_spareTakeoverComplete : OutWf (execSpareTakeoverComplete s) :=
  .next (State.wf_foldl (fun _ _ h => State.wf_wakeCore (State.wf_updCore h _ _) _) _ hs)

theorem outWf_pseudoChannelRetire : OutWf (execPseudoChannelRetire s) := .next (State.wf_retireChannel hs _ _)

theorem outWf_pseudoChannelRedirect : OutWf (execPseudoChannelRedirect s) := .ite (.idle hs) (.next (State.wf_hub hs _))

theorem State.wf_loseLane (port : Nat) : (s.loseLane port).Wf := hs

theorem State.wf_losePhase (n : Nat) : (s.losePhase n).Wf := hs

theorem State.wf_logHub (kind : Nat) : (s.logHub kind).Wf := hs

theorem State.wf_loseHub (kind n : Nat) (forGood : Bool) : (s.loseHub kind n forGood).Wf := hs

theorem outWf_laneFailure : OutWf (execLaneFailure s) := .ite (.idle hs) (.next (State.wf_logHub (State.wf_loseLane hs _) _))

theorem outWf_regulatorPhaseLoss : OutWf (execRegulatorPhaseLoss s) := .next (State.wf_logHub (State.wf_losePhase hs _) _)

end Service

/-! ### Configuration records -/

section Records
variable {s : State} (hs : s.Wf)
include hs

theorem State.wf_putCfg (part fo : Nat) (b : List Byte) : (s.putCfg part fo b).Wf := hs

theorem State.wf_recordError (part : Nat) : (s.recordError part).Wf := hs

theorem State.wf_clearPad (base size : Nat) : (s.clearPad base size).Wf := Memory.wf_filter _ hs

theorem State.wf_dropContexts (cs : List Nat) (part : Nat) : (s.dropContexts cs part).Wf := hs

theorem State.wf_ageContexts (part : Nat) (gone come : List Nat) : (s.ageContexts part gone come).Wf := hs

theorem State.wf_passUnit (part : Nat) (mem : Bool) (n : Nat) : (s.passUnit part mem n).Wf := by
  have hdrop (cs ps : List Nat) : (ps.foldl (fun (s : State) p => s.dropContexts cs p) s).Wf :=
    State.wf_foldl (fun _ _ h => State.wf_dropContexts h _ _) _ hs
  have hpads (cs ps : List Nat) : (cs.foldl (fun (s : State) c => (s.clearPad (padOfCore c) 0x20000).updCore c fun k => k.clear part)
      (ps.foldl (fun (s : State) p => s.dropContexts cs p) s)).Wf :=
    State.wf_foldl (fun _ _ h => State.wf_updCore (State.wf_clearPad h _ _) _ _) _ (hdrop _ _)
  exact State.wf_ite _ hs (State.wf_ite _ (hpads _ _) (State.wf_updCluster (State.wf_clearPad (hpads _ _) _ _) _ _))

theorem State.wf_removeSup (part : Nat) : (s.removeSup part).Wf := by
  have hgone (b : Prop) [Decidable b] (c : Nat) : State.Wf (if b then s.discard c 1 else s) := State.wf_ite _ (State.wf_discard hs _ _) hs
  unfold State.removeSup
  refine State.wf_updPart (State.wf_insts ?_ _) _ _
  dsimp only
  split
  · exact hs
  · split
    · exact hs
    · refine State.wf_updCore ?_ _ _
      exact State.wf_foldl (fun _ _ h => State.wf_deadLetter h _ _) _ (hgone _ _)

theorem State.wf_settleSup (part : Nat) (own : Bool) : (s.settleSup part own).Wf := by
  have hfail : State.Wf (if own then s.recordError part else s) := State.wf_ite _ (State.wf_recordError hs _) hs
  unfold State.settleSup
  refine State.wf_ite _ (State.wf_ite _ hfail hs) (State.wf_ite _ (State.wf_freeCode (State.wf_removeSup hs _) _) ?_)
  dsimp only
  split
  case _ htry => exact State.wf_freeCode (State.maybeWf_tryPlace (State.wf_insts (State.wf_updPart (State.wf_removeSup hs _) _ _) _) _ _ _ htry) _
  · exact hfail

theorem State.wf_requestRetire (kind unit : Nat) : (s.requestRetire kind unit).Wf := by
  have hdrain : ((unitCores kind unit).foldl (fun (s : State) c =>
      if s.exists' c then s.updCore c fun k => { k with draining := true } else s) s).Wf :=
    State.wf_foldl (fun _ _ h => State.wf_ite _ (State.wf_updCore h _ _) h) _ hs
  unfold State.requestRetire
  split
  · exact hdrain
  · exact hdrain
  · exact hdrain
  · exact State.wf_retireChannel hs _ _
  · exact State.wf_logRetired (State.wf_goneUnit (State.wf_loseLane hs _) _ _) _ _ _ _
  · exact State.wf_loseHub hs _ _ _
  · exact State.wf_loseHub hs _ _ _
  · exact State.wf_logRetired (State.wf_losePhase hs _) _ _ _ _
  · exact State.wf_logRetired (State.wf_goneUnit hs _ _) _ _ _ _

theorem State.wf_writeField (part : Nat) (b : List Byte) (off : Nat) (f : Nat × Nat) : (s.writeField part b off f).Wf := by
  have hput (x : List Byte) : (s.putCfg part f.1 x).Wf := State.wf_putCfg hs _ _ _
  have herr : (s.recordError part).Wf := State.wf_recordError hs _
  unfold State.writeField
  refine State.wf_ite _ hs (State.wf_ite _ (State.wf_ite _ (hput _) (State.wf_ite _ (State.wf_requestRetire (hput _) _ _) herr)) ?_)
  refine State.wf_ite _ herr (State.wf_ite _ (State.wf_ite _ herr ?_) (State.wf_ite _ (State.wf_ite _ herr (hput _)) (hput _)))
  exact State.wf_foldl (fun _ _ h => State.wf_passUnit h _ _ _) _ (State.wf_ageContexts (hput _) _ _ _)

theorem State.wf_writeRecord (part off : Nat) (b : List Byte) : (s.writeRecord part off b).Wf := by
  have hfields : (recordFields.foldl (fun (s : State) f => s.writeField part b off f) s).Wf :=
    State.wf_foldl (fun _ _ h => State.wf_writeField h _ _ _ _) _ hs
  unfold State.writeRecord
  refine State.wf_settleSup ?_ _ _
  refine State.wf_ite _ ?_ hfields
  exact State.wf_putCfg hfields _ _ _

theorem State.wf_writeIo (writer a : Nat) (b : List Byte) : (s.writeIo writer a b).Wf :=
  State.wf_ite _ hs (State.wf_ite _ (State.wf_writeRecord hs _ _ _) (State.wf_ite _ (State.wf_hub hs _) hs))

theorem State.wf_iow (l : List IoWrite) : ({ s with iow := l } : State).Wf := hs

theorem outWf_configRecordWrite : OutWf (execConfigRecordWrite s) := by
  unfold execConfigRecordWrite
  split
  · split
    · exact .idle hs
    · exact .next (State.wf_writeIo (State.wf_iow hs _) _ _ _)
  · exact .ite (.next (State.wf_ite _ (State.wf_hub hs _) hs)) (.idle hs)
  · exact .ite (.idle hs) (.next (State.wf_writeIo hs _ _ _))

theorem outWf_unitRetirementRequest : OutWf (execUnitRetirementRequest s) := .ite (.idle hs) (.next (State.wf_writeIo hs _ _ _))

theorem outWf_configErrorClear : OutWf (execConfigErrorClear s) := .ite (.idle hs) (.next (State.wf_writeIo hs _ _ _))

end Records

/-! ### Hub dies -/

section Hubs
variable {s : State} (hs : s.Wf)
include hs

theorem outWf_hubFailover : OutWf (execHubFailover s) := .ite (.idle hs) (.ite (outWf_fault _) (.next (State.wf_loseHub hs _ _ _)))

theorem outWf_hubLinksRestored : OutWf (execHubLinksRestored s) := .ite (.idle hs) (.next (State.wf_hub hs _))

theorem outWf_firmwareUpdate : OutWf (execFirmwareUpdate s) :=
  .ite (.idle hs) (.ite (.next (State.wf_hub hs _)) (.ite (.next (State.wf_hub hs _)) (.ite (.next (State.wf_hub (State.wf_next hs) _))
    (.ite (.idle hs) (.next (State.wf_hub hs _))))))

theorem outWf_hubDieHandback : OutWf (execHubDieHandback s) := by
  unfold execHubDieHandback
  refine .ite (.ite (.idle hs) (.next (State.wf_hub hs _))) ?_
  split
  · exact .idle hs
  · refine .ite (.idle hs) ?_
    split
    · exact .next (State.wf_hub hs _)
    · exact .ite (.idle hs) (.next (State.wf_hub hs _))

theorem State.wf_spdm (ok : Bool) (stage request code : Nat) (data resp : List Nat) : (s.spdm ok stage request code data resp).Wf :=
  State.wf_ite _ hs (State.wf_hub hs _)

theorem outWf_getVersion : OutWf (execGetVersion s) := .next (State.wf_spdm (State.wf_hub hs _) _ _ _ _ _ _)

theorem outWf_getCapabilities : OutWf (execGetCapabilities s) := .next (State.wf_spdm hs _ _ _ _ _ _)

theorem outWf_negotiateAlgorithms : OutWf (execNegotiateAlgorithms s) := .next (State.wf_spdm hs _ _ _ _ _ _)

theorem outWf_getDigests : OutWf (execGetDigests s) := .next (State.wf_spdm hs _ _ _ _ _ _)

theorem outWf_getCertificate : OutWf (execGetCertificate s) := .next (State.wf_spdm hs _ _ _ _ _ _)

theorem outWf_challenge : OutWf (execChallenge s) := .next (State.wf_spdm hs _ _ _ _ _ _)

theorem outWf_getMeasurements : OutWf (execGetMeasurements s) := .next (State.wf_spdm hs _ _ _ _ _ _)

theorem State.wf_failAtStart (kind n : Nat) : (s.failAtStart kind n).Wf :=
  State.wf_ite _ (State.wf_useSpare (State.wf_logRetired hs _ _ _ _) _ _)
    (State.wf_ite _ (State.wf_pairGone (State.wf_hub (State.wf_logRetired hs _ _ _ _) _) _) (State.wf_hub (State.wf_logRetired hs _ _ _ _) _))

theorem outWf_powerGood : OutWf (execPowerGood s) := by
  unfold execPowerGood
  refine .ite (.idle hs) (.next (State.wf_hub ?_ _))
  exact State.wf_ite _ hs (State.wf_foldl (fun _ _ h => State.wf_ite _ (State.wf_failAtStart h _ _) h) _ hs)

end Hubs

end Sys2Proof.Machine
end
end

section
section
/-! The canonical form of memory under the steps of collectives, far homes, held firings and the Marquetry unit. -/
namespace Sys2Proof.Machine

-- One proof after another: the threads of many proofs at once do not fit the memory of the check.
set_option Elab.async false

/-! ### Collectives -/

section Dovetail
variable {s : State} (hs : s.Wf)
include hs

theorem State.wf_putDv (n : Nat) (v : Dv) : (s.putDv n v).Wf := hs

theorem State.wf_dvs (l : List Dv) : ({ s with dvs := l } : State).Wf := hs

theorem outWf_dvContribute (n : Nat) (v : Dv) (d : List Byte) (node core : Nat) : OutWf (s.dvContribute n v d node core) := by
  unfold State.dvContribute
  split
  · exact .idle hs
  · split
    · exact .idle hs
    · exact .ite (.idle hs) (.next (State.wf_dvAdmit (State.wf_putDv hs _ _) _))

theorem outWf_dovetailCombine : OutWf (execDovetailCombine s) := by
  unfold execDovetailCombine
  dsimp only
  split
  · exact .idle hs
  · refine .ite (.idle hs) (.ite (outWf_dvContribute hs _ _ _ _ _) (.ite (.idle hs) ?_))
    split
    · exact .idle hs
    · exact .ite (.idle hs) (.next (State.wf_putDv hs _ _))

theorem State.wf_dvDeliver (v : Dv) (d data : List Byte) (x : DvInj) : (s.dvDeliver v d data x).Wf := by
  unfold State.dvDeliver
  refine State.wf_ite _ hs (State.wf_foldl (fun s i h => ?_) _ hs)
  split
  · exact State.wf_land h _ _ _ _ _
  · exact h

theorem State.wf_dvFirst (n : Nat) (v : Dv) (d : List Byte) : (s.dvFirst n v d).Wf := by
  have hlead : State.Wf (match v.result d with
      | some b => (v.inj.filter (v.leads d)).foldl (fun (s : State) x => s.dvDeliver v d b x) s
      | none => s) := by
    split
    · exact State.wf_foldl (fun _ _ h => State.wf_dvDeliver h _ _ _ _) _ hs
    · exact hs
  unfold State.dvFirst
  refine State.wf_ite _ hs (State.wf_putDv ?_ _ _)
  exact State.wf_ite _ (State.wf_updPart hlead _ _) (State.wf_sendPkt (State.wf_updPart hlead _ _) _)

theorem State.wf_dvMember (v : Dv) (d : List Byte) (x : DvInj) : (s.dvMember v d x).Wf := by
  unfold State.dvMember
  have hres : State.Wf (match v.result d with
      | some b => if v.leads d x then s else s.dvDeliver v d b x
      | none => s) := by
    split
    · exact State.wf_ite _ hs (State.wf_dvDeliver hs _ _ _ _)
    · exact hs
  have hext (b : Prop) [Decidable b] (f : Core → Core) {s : State} (h : s.Wf) : State.Wf (if b then s.updCore x.core f else s) :=
    State.wf_ite _ (State.wf_updCore h _ _) h
  dsimp only
  refine hext _ _ ?_
  split
  · exact State.wf_applyPost (hext _ _ hres) _
  · exact hext _ _ hres

theorem outWf_dovetailCompletion : OutWf (execDovetailCompletion s) := by
  unfold execDovetailCompletion
  dsimp only
  split
  · exact .idle hs
  · split
    · exact .idle hs
    · split
      · exact .idle hs
      · refine .ite (.idle hs) (.ite (.idle hs) (.next (State.wf_dvAdmit (State.wf_dvMember ?_ _ _ _) _)))
        exact State.wf_ite _ (State.wf_dvs (State.wf_dvFirst hs _ _ _) _) (State.wf_putDv (State.wf_dvFirst hs _ _ _) _ _)

end Dovetail

/-! ### Far atomics and barriers -/

section FarHome
variable {s : State} (hs : s.Wf)
include hs

theorem State.wf_enterHome (a : Nat) : (s.enterHome a).Wf := by
  have hcut (b : Prop) [Decidable b] (h : Nat) : State.Wf (if b then s else (s.cutChunk h).leaveSolo h) :=
    State.wf_ite _ hs (State.wf_leaveSolo (State.wf_cutChunk hs _) _)
  unfold State.enterHome
  split
  · exact State.wf_ite _ (hcut _ _) (State.wf_updCore (hcut _ _) _ _)
  · exact hs

theorem State.wf_reply' (c level fir v : Nat) (bad : Option (Cause × Nat)) : (s.reply' c level fir v bad).Wf := hs

theorem outWf_takeReply (level : Nat) : OutWf (s.takeReply level) := by
  unfold State.takeReply
  dsimp only
  split
  · split
    · exact .next (State.wf_foldl (fun _ _ h => State.wf_landPush h _ _) _ (State.wf_putMe hs _))
    · exact .next (State.wf_putMe hs _)
  · exact .idle hs

theorem State.wf_farAt (f : Far) : (s.farAt f).Wf := by
  unfold State.farAt
  refine State.wf_ite _ (State.wf_ite _ (State.wf_reply' hs _ _ _ _ _) (State.wf_updCore hs _ _)) ?_
  exact State.wf_ite _ (State.wf_reply' (State.wf_land hs _ _ _ _ _) _ _ _ _ _) (State.wf_land hs _ _ _ _ _)

theorem State.wf_far (l : List Far) : ({ s with far := l } : State).Wf := hs

theorem State.wf_farMore (home fuel : Nat) : (s.farMore home fuel).Wf := by
  induction fuel generalizing s with
  | zero => exact hs
  | succ fuel ih =>
    unfold State.farMore
    split
    · exact hs
    · exact ih (State.wf_farAt (State.wf_far hs _) _)

theorem outWf_farAtomic : OutWf (execFarAtomic s) := by
  unfold execFarAtomic
  dsimp only
  split
  · exact .idle hs
  · have hat (l : List Far) (f : Far) : (({ s.enterHome f.addr with far := l } : State).farAt f).Wf :=
      State.wf_farAt (State.wf_far (State.wf_enterHome hs _) _) _
    refine .ite (.idle hs) (.ite (.next (State.wf_enterHome hs _)) (.next ?_))
    split
    · exact State.wf_farMore (hat _ _) _ _
    · exact hat _ _

theorem State.wf_barHeld (l : List BarReq) : ({ s with barHeld := l } : State).Wf := hs

theorem State.wf_bars (l : List BarReq) : ({ s with bars := l } : State).Wf := hs

theorem State.wf_releaseWaits (a : Nat) : (s.releaseWaits a).Wf :=
  State.wf_foldl (fun _ _ h => State.wf_reply' h _ _ _ _ _) _ (State.wf_barHeld hs _)

theorem State.wf_barrierAt (q : BarReq) : (s.barrierAt q).Wf := by
  unfold State.barrierAt
  refine State.wf_ite _ (State.wf_reply' hs _ _ _ _ _) (State.wf_ite _ (State.wf_releaseWaits (State.wf_barHeld hs _) _) ?_)
  split
  · exact State.wf_reply' hs _ _ _ _ _
  · exact State.wf_releaseWaits (State.wf_reply' (State.wf_land hs _ _ _ _ _) _ _ _ _ _) _

theorem outWf_barrierRequest : OutWf (execBarrierRequest s) := by
  unfold execBarrierRequest
  split
  · exact .idle hs
  · exact .ite (.idle hs) (.ite (.next (State.wf_enterHome hs _)) (.next (State.wf_barrierAt (State.wf_bars (State.wf_enterHome hs _) _) _)))

end FarHome

/-! ### Held firings -/

section Held
variable {s : State} (hs : s.Wf)
include hs

theorem outWf_toleranceCompare : OutWf (execToleranceCompare s) := by
  unfold execToleranceCompare
  dsimp only
  split
  · exact .idle hs
  · split
    · exact .idle hs
    · split
      · exact .idle hs
      · refine .ite (.idle hs) (.next ?_)
        exact State.wf_ite _ (State.wf_fillWaiting (State.wf_updMe (State.wf_updMe (State.wf_next hs) _) _) _ _)
          (State.wf_knockDown (State.wf_updMe (State.wf_next hs) _) _ _ _)

theorem outWf_glueUp : OutWf (execGlueUp s) := by
  unfold execGlueUp
  split
  · exact .idle hs
  · exact .ite (.next (State.wf_glueUp hs _)) (.idle hs)

end Held

/-! ### The Marquetry unit -/

section Marquetry
variable {s : State} (hs : s.Wf)
include hs

theorem State.wf_mqRun (c : Nat) (m : MqCmd) : (s.mqRun c m).Wf := hs

theorem outWf_marquetryAdd : OutWf (execMarquetryAdd s) := by
  unfold execMarquetryAdd
  dsimp only
  split
  · exact .idle hs
  · split
    · exact .idle hs
    · split
      · exact .next (State.wf_mqRun hs _ _)
      · exact .next (State.wf_land (State.wf_mqRun (State.wf_updCluster hs _ _) _ _) _ _ _ _ _)

theorem outWf_mqzBeat : OutWf (execMqzBeat s) := by
  unfold execMqzBeat
  dsimp only
  split
  · exact .idle hs
  · split
    · exact .idle hs
    · split
      · exact .next (State.wf_mqRun hs _ _)
      · exact .next (State.wf_land (State.wf_mqRun (State.wf_engFills hs _ _) _ _) _ _ _ _ _)

theorem outWf_marquetryCompletion : OutWf (execMarquetryCompletion s) := by
  unfold execMarquetryCompletion
  dsimp only
  split
  · exact .idle hs
  · have hpost (rest : List MqCmd) (p : Post) : ((s.updEng s.cur fun g => { g with mq := rest }).applyPost p).Wf :=
      State.wf_applyPost (State.wf_updEng hs _ _) _
    exact .ite (.idle hs) (.next (State.wf_ite _ (State.wf_updCore (hpost _ _) _ _) (hpost _ _)))

end Marquetry

end Sys2Proof.Machine
end
end

section
section
/-! The canonical form of memory under the steps of the matrix unit and of the transport engine. -/
namespace Sys2Proof.Machine

-- One proof after another: the threads of many proofs at once do not fit the memory of the check.
set_option Elab.async false

/-! ### The matrix unit -/

/-- What a command has come to keeps memory's form. -/
def Done.Wf (d : Done) : Prop := d.s.Wf

section Matrix
variable {s : State} (hs : s.Wf)
include hs

theorem Done.wf_mk (bytes : Nat) (bad : Option Cause) : (⟨s, bytes, bad⟩ : Done).Wf := hs

theorem State.wf_landRuns (c cap : Nat) (ps : List Put) : (s.landRuns c cap ps).Wf :=
  State.wf_foldl (fun s r h => by
    split
    · exact State.wf_land h _ _ _ _ _
    · exact h) _ hs

theorem State.wf_putAll (c : Nat) (m : MatCmd) (size : Nat) (f : Acc → Nat → List (Nat × Byte × Byte)) (l : List (Nat × Nat)) :
    (s.putAll c m size f l).1.Wf := State.wf_landRuns hs _ _ _

theorem State.wf_slotPut (c n : Nat) (f : Slot → Slot) : (s.slotPut c n f).Wf := hs

theorem State.wf_countDrain (c n : Nat) : (s.countDrain c n).Wf := hs

theorem State.wf_heldLines (c : Nat) (m : MatCmd) (lines : List Nat) : (s.heldLines c m lines).Wf := State.wf_ite _ (State.wf_updCore hs _ _) hs

theorem Done.wf_slot (c : Nat) (m : MatCmd) (r : Except Cause (Rd × Nat × (Slot → Slot))) : (Done.slot s c m r).Wf := by
  unfold Done.slot
  split
  · exact Done.wf_mk hs _ _
  · refine Done.wf_mk ?_ _ _
    exact State.wf_slotPut (State.wf_updEng (State.wf_engFills (State.wf_heldLines hs _ _ _) _ _) _ _) _ _ _

theorem State.wf_runMdrain (c : Nat) (m : MatCmd) (a : Nat) : (s.runMdrain c m a).Wf := by
  unfold State.runMdrain
  refine Done.wf_mk ?_ _ _
  refine State.wf_countDrain ?_ _ _
  split
  · exact hs
  · exact State.wf_putAll hs _ _ _ _ _

theorem State.wf_runMsave (c : Nat) (m : MatCmd) (a : Nat) : (s.runMsave c m a).Wf := by
  unfold State.runMsave
  refine Done.wf_mk ?_ _ _
  exact State.wf_landRuns hs _ _ _

theorem State.wf_runGauge (c : Nat) (m : MatCmd) (b : List Byte) (sel : Nat) : (s.runGauge c m b sel).Wf := by
  have htable (d : Done) (hd : d.Wf) (f : Nat → Acc → Nat → List (Nat × Byte × Byte)) (l : Nat → List (Nat × Nat)) (va : Option Nat) : Done.Wf
      (match d.bad, va with
        | none, some va => ⟨(d.s.putAll c m 4 (f va) (l va)).1, d.bytes + (d.s.putAll c m 4 (f va) (l va)).2.1, (d.s.putAll c m 4 (f va) (l va)).2.2⟩
        | _, _ => d) := by
    split
    · exact State.wf_putAll hd _ _ _ _ _
    · exact hd
  unfold State.runGauge
  split
  · exact Done.wf_mk hs _ _
  · dsimp only
    split
    · exact Done.wf_mk hs _ _
    · have hmacs (l : List Tlb) (f : Engines → Engines) : ((s.engFills c l).updEng c f).Wf := State.wf_updEng (State.wf_engFills hs _ _) _ _
      refine htable _ ?_ _ _ _
      split
      · exact State.wf_putAll (hmacs _ _) _ _ _ _ _
      · exact hmacs _ _

theorem State.wf_runKmma (c : Nat) (m : MatCmd) (b : List Byte) (n : Nat) (seed : Lane) : (s.runKmma c m b n seed).Wf := by
  unfold State.runKmma
  split
  · exact Done.wf_mk hs _ _
  · have hmacs (l : List Tlb) (f : Engines → Engines) : ((s.engFills c l).updEng c f).Wf := State.wf_updEng (State.wf_engFills hs _ _) _ _
    dsimp only
    split
    · exact Done.wf_slot hs _ _ _
    · split
      · exact Done.wf_mk hs _ _
      · have hlog (p : Prop) [Decidable p] (l : List Tlb) (g : Engines → Engines) (f : Acc → Nat → List (Nat × Byte × Byte)) (as : List (Nat × Nat)) :
            (if p then ((s.engFills c l).updEng c g).putAll c m 8 f as else ((s.engFills c l).updEng c g, 0, none)).1.Wf := by
          split
          · exact State.wf_putAll (hmacs _ _) _ _ _ _ _
          · exact hmacs _ _
        split
        · exact Done.wf_mk (hlog _ _ _ _ _) _ _
        · refine Done.wf_mk (s := Done.s _) ?_ _ _
          split
          · exact Done.wf_slot (hlog _ _ _ _ _) _ _ _
          · exact Done.wf_slot (hlog _ _ _ _ _) _ _ _

theorem State.wf_runMat (c : Nat) (m : MatCmd) : (s.runMat c m).Wf := by
  unfold State.runMat
  split
  · refine Done.wf_mk ?_ _ _
    split
    · exact State.wf_countDrain hs _ _
    · exact hs
  · split
    · exact Done.wf_mk (State.wf_slotPut hs _ _ _) _ _
    · exact Done.wf_slot hs _ _ _
    · exact Done.wf_slot hs _ _ _
    · exact Done.wf_slot hs _ _ _
    · exact State.wf_runMdrain hs _ _ _
    · exact State.wf_runMsave hs _ _ _
    · exact Done.wf_slot hs _ _ _
    · exact State.wf_runGauge hs _ _ _ _
    · exact State.wf_runKmma hs _ _ _ _ _

theorem State.wf_freeClaim (c : Nat) (m : MatCmd) (x : Src) : (s.freeClaim c m x).Wf := by
  unfold State.freeClaim
  split
  · refine State.wf_ite _ (State.wf_updCore hs _ _) (State.wf_wakeCore ?_ _)
    dsimp only
    split
    · exact State.wf_updCore (State.wf_updCore hs _ _) _ _
    · exact State.wf_payCredits (State.wf_updCore hs _ _) _ _
  · exact hs

theorem State.wf_completeMat (c : Nat) (m : MatCmd) (rest : List MatCmd) : (s.completeMat c m rest).Wf := by
  have hrun : (s.runMat c m).s.Wf := State.wf_runMat hs c m
  have hfail (f : Slot → Slot) : State.Wf (if (s.runMat c m).bad.isSome then (s.runMat c m).s.next.slotPut c m.slot f else (s.runMat c m).s) :=
    State.wf_ite _ (State.wf_slotPut (State.wf_next hrun) _ _ _) hrun
  have hlatch (err : Option Cause) (f : Cause → Slot → Slot) {s : State} (h : s.Wf) :
      State.Wf (match err with | none => s | some e => s.slotPut c m.slot (f e)) := by
    split
    · exact h
    · exact State.wf_slotPut h _ _ _
  have hpost (o : Option (Nat × Nat)) (f : Nat → Nat → Post) {s : State} (h : s.Wf) :
      State.Wf (match o with | some (o, n) => s.applyPost (f o n) | none => s) := by
    split
    · exact State.wf_applyPost h _
    · exact h
  have hfreed (l : List Src) {s : State} (h : s.Wf) : State.Wf
      (((l.foldl (fun s x => s.freeClaim c m x) s).updEng c fun g => { g with mat := rest }).updCore c Core.settleSlots) :=
    State.wf_updCore (State.wf_updEng (State.wf_foldl (fun _ _ h => State.wf_freeClaim h _ _ _) l h) _ _) _ _
  have hall (f : Slot → Slot) (l : List Src) (err : Option Cause) (g : Cause → Slot → Slot) (o : Option (Nat × Nat)) (p : Nat → Nat → Post) :=
    hpost o p (hfreed l (hlatch err g (hfail f)))
  unfold State.completeMat
  exact State.wf_ite _ (State.wf_updCore (hall _ _ _ _ _ _) _ _) (hall _ _ _ _ _ _)

theorem outWf_matrixCommandStart : OutWf (execMatrixCommandStart s) := by
  unfold execMatrixCommandStart
  dsimp only
  split
  · exact .idle hs
  · exact .ite (.idle hs) (.next (State.wf_updEng hs _ _))

theorem outWf_matrixCommandCompletion : OutWf (execMatrixCommandCompletion s) := by
  unfold execMatrixCommandCompletion
  dsimp only
  split
  · exact .idle hs
  · exact .ite (.idle hs) (.ite (.next (State.wf_putMe hs _)) (.ite (.idle hs) (.next (State.wf_completeMat (State.wf_putMe hs _) _ _ _))))

end Matrix

/-! ### The transport engine -/

section Transport
variable {s : State} (hs : s.Wf)
include hs

theorem State.wf_onNode (node : Nat) (f : Node → Node) : (s.onNode node f).Wf := hs

theorem State.wf_xmsgs (l : List Xmsg) : ({ s with xmsgs := l } : State).Wf := hs

theorem State.wf_xDone (x : Xmsg) (bad : Option Cause) : (s.xDone x bad).Wf := by
  have hnode (b : Prop) [Decidable b] (f : Node → Node) : State.Wf (if b then ({ s with xmsgs := s.xmsgs.filter fun (y : Xmsg) => y.num ≠ x.num } : State)
      else ({ s with xmsgs := s.xmsgs.filter fun (y : Xmsg) => y.num ≠ x.num } : State).onNode x.node f) :=
    State.wf_ite _ (State.wf_xmsgs hs _) (State.wf_onNode (State.wf_xmsgs hs _) _ _)
  have hpost (o : Option (Nat × Nat)) (f : Nat → Nat → Post) {s : State} (h : s.Wf) :
      State.Wf (match o with | some (c, m) => s.applyPost (f c m) | none => s) := by
    split
    · exact State.wf_applyPost h _
    · exact h
  unfold State.xDone
  exact State.wf_ite _ (State.wf_updCore (hpost _ _ (hnode _ _)) _ _) (hpost _ _ (hnode _ _))

theorem outWf_xEnd (x : Xmsg) (bad : Option Cause) : OutWf (s.xEnd x bad) := .ite (.idle hs) (.next (State.wf_xDone hs _ _))

theorem State.wf_putXmsg (x : Xmsg) : (s.putXmsg x).Wf := hs

theorem outWf_transportPacketSend : OutWf (execTransportPacketSend s) := by
  unfold execTransportPacketSend
  dsimp only
  split
  · exact .idle hs
  · split
    · exact outWf_xEnd hs _ _
    · refine .ite (outWf_xEnd hs _ _) (.ite (.idle hs) ?_)
      split
      · exact outWf_xEnd hs _ _
      · exact .ite (.next (State.wf_onNode (State.wf_putXmsg hs _) _ _)) (.next (State.wf_putXmsg hs _))

theorem outWf_transportAck : OutWf (execTransportAck s) := by
  unfold execTransportAck
  dsimp only
  split
  · exact .idle hs
  · have hack (x : Xmsg) (node : Nat) (f : Node → Node) : ((s.next.putXmsg x).onNode node f).Wf :=
      State.wf_onNode (State.wf_putXmsg (State.wf_next hs) _) _ _
    exact .ite (outWf_xEnd hs _ _) (.ite (outWf_xEnd hs _ _) (.ite (.idle hs)
      (.ite (.next (hack _ _ _)) (.ite (.idle hs) (.next (State.wf_xDone (hack _ _ _) _ _))))))

theorem outWf_transportRetransmit : OutWf (execTransportRetransmit s) := by
  unfold execTransportRetransmit
  dsimp only
  split
  · exact .idle hs
  · refine .ite (.idle hs) (.ite (outWf_xEnd hs _ _) (.ite (outWf_xEnd hs _ _) ?_))
    split
    · exact outWf_xEnd hs _ _
    · exact .next (State.wf_putXmsg hs _)

theorem State.wf_xPlace (core part : Nat) (tlb : List Tlb) (l : List (Nat × Nat)) (b : List Byte) : (s.xPlace core part tlb l b).1.Wf := by
  induction l generalizing s tlb b with
  | nil => exact hs
  | cons p l ih =>
    unfold State.xPlace
    split
    · exact hs
    · exact ih (State.wf_land hs _ _ _ _ _) _ _

theorem State.wf_putXin (x : Xin) : (s.putXin x).Wf := hs

theorem State.wf_xLanded (part core mb rhnd roff len rinc ract : Nat) : (s.xLanded part core mb rhnd roff len rinc ract).Wf := by
  have hpost (b : Prop) [Decidable b] (p : Post) : State.Wf (if b then s else s.applyPost p) := State.wf_ite _ hs (State.wf_applyPost hs _)
  exact State.wf_ite _ (hpost _ _) (State.wf_sendPkt (hpost _ _) _)

theorem outWf_transportPacketArrival : OutWf (execTransportPacketArrival s) := by
  unfold execTransportPacketArrival
  dsimp only
  refine .ite (.idle hs) ?_
  split
  · exact .next (State.wf_putXin hs _)
  · have hplace (core : Nat) (tlb : List Tlb) (l : List (Nat × Nat)) := State.wf_xPlace hs core (s.arg 0) tlb l s.payload
    exact .ite (.idle hs) (.ite (.next (State.wf_putXin (hplace _ _ _) _)) (.ite (.next (State.wf_putXin (hplace _ _ _) _))
      (.next (State.wf_xLanded (State.wf_putXin (hplace _ _ _) _) _ _ _ _ _ _ _ _))))

end Transport

end Sys2Proof.Machine
end
end

section
section
/-! The canonical form of memory under every step: the dispatch over the instructions and the steps of the device, the issue of
a unit, and a turn. -/
namespace Sys2Proof.Machine

-- One proof after another: the threads of many proofs at once do not fit the memory of the check.
set_option Elab.async false

section Dispatch
variable {s : State} (hs : s.Wf)
include hs

theorem outWf_kvar (d sl : Reg) : OutWf (execKvar d sl s) := outWf_slotRead hs (.kvar d sl) d sl fun x => zext x.side

theorem outWf_kstat (d sl : Reg) : OutWf (execKstat d sl s) := outWf_slotRead hs (.kstat d sl) d sl (·.kstat)

/-- Every instruction and every step of the device keeps memory's form, by the rule of its meaning's form. -/
theorem outWf_exec (i : Instr) : OutWf (exec i s) :=
  match i with
  | .jal .. => outWf_jal hs _ _
  | .j .. => outWf_j hs _
  | .beq .. | .bne .. | .blt .. | .bge .. | .bltu .. | .bgeu .. => outWf_branch hs _ _ _
  | .jalr .. => outWf_jalr hs _ _ _
  | .jr .. => outWf_jr hs _ _
  | .loop .. => outWf_loop hs _ _ _
  | .ldB .. | .ldBu .. | .ldH .. | .ldHu .. | .ldW .. | .ldWu .. | .ldD .. | .ldxB .. | .ldxBu .. | .ldxH .. | .ldxHu ..
  | .ldxW .. | .ldxWu .. | .ldxD .. => outWf_loadG hs _ _ _ _ _
  | .stB .. | .stH .. | .stW .. | .stD .. | .stxB .. | .stxH .. | .stxW .. | .stxD .. => outWf_storeG hs _ _ _ _
  | .vld .. | .vldt .. => outWf_loadV hs _ _ _ _ _
  | .vst .. => outWf_vst hs _ _ _
  | .tmov .. => outWf_tmov hs _ _ _
  | .amoadd .. | .amofadd .. | .amoswp .. | .amocas .. | .amomin .. | .amomax .. => outWf_amo hs _ _ _ _ _ _ _ _
  | .fence .. => outWf_fence hs _
  | .mbinc .. => outWf_mbinc hs _ _
  | .mbincImm .. => outWf_mbincImm hs _ _
  | .mbincGlobal .. => outWf_mbincGlobal hs _ _
  | .mbincGlobalImm .. => outWf_mbincGlobalImm hs _ _
  | .mbwait .. => outWf_mbwait hs _ _ _
  | .mbrd .. | .mberr .. | .cstat .. | .seedr .. | .mqstat .. | .kilnrd .. | .lchstat .. | .ordtReadNext .. | .ordtReadT ..
  | .csrrd .. | .hchk .. | .add .. | .sub .. | .and .. | .or .. | .xor .. | .sll .. | .srl .. | .sra .. | .slt .. | .sltu ..
  | .mul .. | .mulh .. | .mulhu .. | .div .. | .divu .. | .rem .. | .remu .. | .min .. | .max .. | .minu .. | .maxu ..
  | .clz .. | .ctz .. | .popc .. | .andn .. | .addi .. | .andi .. | .ori .. | .xori .. | .slli .. | .srli .. | .srai ..
  | .slti .. | .sltiu .. | .li .. | .lih .. | .lea .. | .bfx .. | .bfxu .. | .bfi .. | .sel .. | .fadd .. | .fsub ..
  | .fmul .. | .fdiv .. | .fsqrt .. | .fmin .. | .fmax .. | .feq .. | .flt .. | .fle .. | .fabs .. | .fneg .. | .ftoi ..
  | .ftoiu .. | .itof .. | .itofu .. | .fclass .. | .fmadd .. | .fmsub .. | .fnmadd .. | .fnmsub .. | .vrsum .. | .vrmax ..
  | .vrmin .. | .vext .. => outWf_setsG hs _ _ _
  | .mbset .. => outWf_mbset hs _ _
  | .mberrC .. => outWf_mberrC hs _ _
  | .barInit .. | .barArv .. | .barDrop .. | .barWait .. => outWf_barrier hs _ _ _ _ _
  | .cpy .. | .cpy3 .. => outWf_copyIssue hs _ _ _ _ _
  | .cwait .. => outWf_cwait hs _ _ _
  | .cstatC .. => outWf_cstatC hs _ _
  | .perm .. => outWf_perm hs _ _
  | .rkset .. => outWf_rkset hs _ _
  | .rkwf .. | .rkws .. => outWf_rackWait hs _ _ _ _
  | .rkadv .. => outWf_rkadv hs _ _ _
  | .rkrd .. => outWf_rkrd hs _ _ _
  | .stbind .. => outWf_stbind hs _ _ _
  | .stunb .. => outWf_stunb hs _ _
  | .park .. => outWf_park hs _
  | .unpark .. => outWf_unpark hs _
  | .mzero .. => outWf_mzero hs _
  | .mown .. => outWf_mown hs _ _
  | .mfree .. => outWf_mfree hs _
  | .mma .. => outWf_mma hs _ _ _
  | .mmar .. => outWf_mmar hs _ _ _
  | .mmarAk .. => outWf_mmarAk hs _ _ _
  | .mmag .. => outWf_mmag hs _ _ _ _
  | .mldc .. => outWf_mldc hs _ _
  | .mdrain .. => outWf_mdrain hs _ _
  | .mdrainReg .. => outWf_mdrainReg hs _ _ _
  | .mpar .. => outWf_mpar hs _ _
  | .msave .. => outWf_msave hs _ _
  | .mrest .. => outWf_mrest hs _ _
  | .mstat .. => outWf_mstat hs _ _
  | .mstatC .. => outWf_mstatC hs _ _
  | .mwait .. => outWf_mwait hs _ _
  | .gauge .. => outWf_gauge hs _ _ _
  | .kmma .. => outWf_kmma hs _ _ _
  | .kvar .. => outWf_kvar hs _ _
  | .kstat .. => outWf_kstat hs _ _
  | .seedw .. => outWf_seedw hs _ _
  | .mqdef .. => outWf_mqdef hs _ _
  | .mqld .. => outWf_mqld hs _ _ _ _
  | .mqsc .. => outWf_mqsc hs _ _ _ _
  | .mqz .. => outWf_mqz hs _ _
  | .send .. => outWf_send hs _ _ _ _
  | .sendp .. => outWf_sendp hs _ _ _ _
  | .hop .. => outWf_hop hs _ _
  | .launch .. => outWf_launch hs _ _
  | .launchi .. => outWf_launchi hs _ _ _
  | .actnew .. => outWf_actnew hs _ _
  | .rkpred .. => outWf_rkpred hs _ _
  | .dfit .. => outWf_dfit hs _ _
  | .dftol .. => outWf_dftol hs _ _
  | .dfstat .. => outWf_dfstat hs _ _
  | .ordt .. => outWf_ordt hs _
  | .ordtSetNext .. => outWf_ordtSetNext hs _
  | .ordsend .. => outWf_ordsend hs _ _ _
  | .dvcfg .. => outWf_dvcfg hs _ _ _
  | .dvinj .. => outWf_dvinj hs _ _
  | .dvext .. => outWf_dvext hs _
  | .dvstat .. => outWf_dvstat hs _ _
  | .dvstatC .. => outWf_dvstatC hs _ _
  | .xpost .. => outWf_xpost hs _ _ _
  | .xsend .. => outWf_xsend hs _ _
  | .xcc .. => outWf_xcc hs _ _
  | .trap .. | .brk .. => outWf_trapOp hs _ _
  | .wfi .. => outWf_wfi hs _ _
  | .csrwr .. => outWf_csrwr hs _ _
  | .csrsw .. => outWf_csrsw hs _ _
  | .ctxsave .. => outWf_ctxsave hs _ _ _
  | .ctxrest .. | .ctxrestAny .. => outWf_ctxrest hs _ _ _ _ _
  | .watch .. => outWf_watch hs _ _ _
  | .winset .. => outWf_winset hs _ _ _
  | .winsetRead .. => outWf_winsetRead hs _ _
  | .probe .. => outWf_probe hs _ _
  | .tlbi .. => outWf_tlbi hs _ _
  | .hnew .. => outWf_hnew hs _ _ _
  | .hrev .. => outWf_hrev hs _ _
  | .vadd .. | .vsub .. | .vmul .. | .vmin .. | .vmax .. | .vabs .. | .vneg .. | .vand .. | .vor .. | .vxor .. | .viadd ..
  | .visub .. | .vimul .. | .vceq .. | .vclt .. | .vcle .. | .vfma .. | .vfms .. | .vfnma .. | .vfnms .. | .vsel ..
  | .vpack .. | .vunpk .. | .vitof .. | .vftoi .. | .vperm .. | .vrot .. | .vrcpe .. | .vrsqe .. | .vbcast .. | .vins .. =>
    outWf_setsV hs _ _ _
  | .gcomp .. => outWf_gcomp hs _ _ _
  | .chend => outWf_chend hs
  | .done | .step => outWf_endHere hs _
  | .maskon => outWf_maskon hs
  | .maskoff => outWf_maskoff hs
  | .actend => outWf_actend hs
  | .xret | .xretK => outWf_xret hs _
  | .messageDelivery => outWf_messageDelivery hs
  | .overflowRingRetry => outWf_overflowRingRetry hs
  | .overflowRingDelivery => outWf_overflowRingDelivery hs
  | .creditReturn => outWf_creditReturn hs
  | .issueChoice => outWf_issueChoice hs
  | .preEmption => outWf_preEmption hs
  | .chunkCommit => outWf_chunkCommit hs
  | .arbiterTokenGrant => outWf_arbiterTokenGrant hs
  | .pkt => outWf_pkt hs
  | .errstat => outWf_errstat hs
  | .launchRequest => outWf_launchRequest hs
  | .indirectLaunch => outWf_indirectLaunch hs
  | .indirectLaunchEligible => outWf_indirectLaunchEligible hs
  | .endRequest => outWf_endRequest hs
  | .waitingLaunchProceeds => outWf_waitingLaunchProceeds hs
  | .launchEnd => outWf_launchEnd hs
  | .stepAdvance => outWf_stepAdvance hs
  | .dieSetChange => outWf_dieSetChange hs
  | .placementRun => outWf_placementRun hs
  | .kilnReplenishment => outWf_kilnReplenishment hs
  | .kilnDraw => outWf_kilnDraw hs
  | .macCountDraw => outWf_macCountDraw hs
  | .agingLimit => outWf_agingLimit hs
  | .thermalLimit => outWf_thermalLimit hs
  | .thermalLimitClear => outWf_thermalLimitClear hs
  | .migrationQuiesce => outWf_migrationQuiesce hs
  | .migrationStream => outWf_migrationStream hs
  | .migrationSwitch => outWf_migrationSwitch hs
  | .placementTableRewrite => outWf_placementTableRewrite hs
  | .drainMarker => outWf_drainMarker hs
  | .drainMessage => outWf_drainMessage hs
  | .icacheFill => outWf_icacheFill hs
  | .streamRefill => outWf_streamRefill hs
  | .pageWalk => outWf_pageWalk hs
  | .copyStart => outWf_copyStart hs
  | .copyRackReserve => outWf_copyRackReserve hs
  | .copyBeat => outWf_copyBeat hs
  | .copyCompletion => outWf_copyCompletion hs
  | .counterIncrement => outWf_counterIncrement hs
  | .matrixCommandStart => outWf_matrixCommandStart hs
  | .matrixCommandCompletion => outWf_matrixCommandCompletion hs
  | .marquetryAdd => outWf_marquetryAdd hs
  | .mqzBeat => outWf_mqzBeat hs
  | .marquetryCompletion => outWf_marquetryCompletion hs
  | .farAtomic => outWf_farAtomic hs
  | .farAtomicReply | .barrierReply => outWf_takeReply hs _
  | .barrierRequest => outWf_barrierRequest hs
  | .toleranceCompare => outWf_toleranceCompare hs
  | .glueUp => outWf_glueUp hs
  | .dovetailCombine => outWf_dovetailCombine hs
  | .dovetailCompletion => outWf_dovetailCompletion hs
  | .transportPacketSend => outWf_transportPacketSend hs
  | .transportPacketArrival => outWf_transportPacketArrival hs
  | .transportAck => outWf_transportAck hs
  | .transportRetransmit => outWf_transportRetransmit hs
  | .preciseTrap => outWf_preciseTrap hs
  | .wfiDeadline => outWf_wfiDeadline hs
  | .softErrorRepair => outWf_softErrorRepair hs
  | .scrub => outWf_scrub hs
  | .unitDraining => outWf_unitDraining hs
  | .unitRetire => outWf_unitRetire hs
  | .spareTakeoverComplete => outWf_spareTakeoverComplete hs
  | .pseudoChannelRetire => outWf_pseudoChannelRetire hs
  | .pseudoChannelRedirect => outWf_pseudoChannelRedirect hs
  | .laneFailure => outWf_laneFailure hs
  | .hubFailover => outWf_hubFailover hs
  | .regulatorPhaseLoss => outWf_regulatorPhaseLoss hs
  | .configRecordWrite => outWf_configRecordWrite hs
  | .unitRetirementRequest => outWf_unitRetirementRequest hs
  | .configErrorClear => outWf_configErrorClear hs
  | .firmwareUpdate => outWf_firmwareUpdate hs
  | .getVersion => outWf_getVersion hs
  | .getCapabilities => outWf_getCapabilities hs
  | .negotiateAlgorithms => outWf_negotiateAlgorithms hs
  | .getDigests => outWf_getDigests hs
  | .getCertificate => outWf_getCertificate hs
  | .challenge => outWf_challenge hs
  | .getMeasurements => outWf_getMeasurements hs
  | .powerGood => outWf_powerGood hs
  | .hubDieHandback => outWf_hubDieHandback hs
  | .hubLinksRestored => outWf_hubLinksRestored hs

/-! ### The end of a turn -/

theorem State.wf_performIo : s.performIo.Wf := State.wf_foldl (fun _ _ h => State.wf_writeIo h _ _ _) _ (State.wf_iow hs _)

theorem State.wf_commitIo : s.commitIo.Wf := State.wf_ite _ (State.wf_performIo (State.wf_commit hs _)) hs

theorem State.wf_finishTurn (n : Nat) (open' keepSkip : Bool) : (s.finishTurn n open' keepSkip).Wf := by
  have hdone (f : Core → Core) (g : CoreT → CoreT) : (((s.updMe f).updT g).updMe Core.passAfter).settle.commitIo.Wf :=
    State.wf_commitIo (State.wf_settle (State.wf_updMe (State.wf_updT (State.wf_updMe hs _) _) _))
  unfold State.finishTurn
  refine State.wf_ite _ (State.wf_endStay hs) ?_
  dsimp only
  split
  · exact State.wf_updMe (hdone _ _) _
  · exact State.wf_leaveSolo (hdone _ _) _
  · exact hdone _ _

theorem State.wf_openFor (bytes : Nat) : (s.openFor bytes).Wf := hs

theorem State.wf_forSecond (old : CoreT) : (s.forSecond old).Wf := hs

theorem State.wf_joinPair (c : State) (old : CoreT) : (s.joinPair c old).Wf := by
  unfold State.joinPair
  dsimp only
  split
  · exact State.wf_updMe (State.wf_withChunk (State.wf_updT (State.wf_updT hs _) _) _) _
  · split
    · exact State.wf_foldl (fun _ _ h => State.wf_landPush h _ _) _ (State.wf_noChunk (State.wf_updT hs _))
    · exact State.wf_updT hs _

omit hs in
theorem OutWf.endTurn {o : Out} (ho : OutWf o) (n : Nat) (keepSkip : Bool) : OutWf (s.endTurn n keepSkip o) := by
  unfold State.endTurn
  split
  · exact .next (State.wf_finishTurn (ho _ rfl) _ _ _)
  · exact outWf_fault _
  · exact outWf_refused _

end Dispatch

/-! ### The issue of a unit -/

section Issue
variable {s : State} (hs : s.Wf)
include hs

theorem outWf_runLone (i : Instr) : OutWf (s.runLone i) := OutWf.endTurn (outWf_exec (State.wf_openFor hs _) i) _ _

/-- The second member's turn where the first one has not completed: it tells alone whether the pair waits. -/
theorem outWf_secondWaits (a : Instr) {o : State → Out} (ho : ∀ t : State, t.Wf → OutWf (o t)) : OutWf
    (match exec a s with
      | .next sb => o sb
      | r => r) := by
  have hexec := outWf_exec hs a
  split
  case _ heq => exact ho _ (hexec _ heq)
  · exact hexec

theorem outWf_runPair (c a : Instr) : OutWf (s.runPair c a) := by
  have hopen := State.wf_openFor hs 8
  have hfirst := outWf_exec hopen c
  have hstay (t : State) (ht : t.Wf) : OutWf
      (match exec a ((s.openFor 8).updMe fun k => { k with second := true }) with
        | .next sb => if sb.me.stayed then .next sb else .next t
        | r => r) :=
    outWf_secondWaits (o := fun sb => if sb.me.stayed then .next sb else .next t) (State.wf_updMe hopen _) a fun _ h => .ite (.next h) (.next ht)
  unfold State.runPair
  refine OutWf.endTurn ?_ _ _
  split
  case _ heq =>
    have hsc := hfirst _ heq
    refine .ite (.ite (.next hsc) (hstay _ hsc)) ?_
    exact outWf_secondWaits (o := fun sa => if !sa.me.stayed then _ else _) (State.wf_forSecond hsc _) a fun t h =>
      .ite (.next (State.wf_joinPair h _ _)) (hstay _ (State.wf_stall hopen))
  · exact hfirst

theorem State.wf_fetchLine (f : Firing) (line : Nat) : (s.fetchLine f line).Wf := hs.of_mem (s.sameButCaches_fetchLine f line).mem

theorem outWf_unitTrap (c : Cause) (v : Nat) (second : Bool) : OutWf (s.unitTrap c v second) :=
  .next (State.wf_finishTurn (State.wf_takeTrap hs _ _ _ _ _) _ _ _)

theorem outWf_issue (n : Nat) {run : State → Out} (hrun : OutWf (run s)) : OutWf (s.issue n run) :=
  .ite (outWf_unitTrap hs _ _ _) (.ite (.next (State.wf_finishTurn (State.wf_stall hs) _ _ _)) hrun)

theorem outWf_fetchIssue (f : Firing) : OutWf (s.fetchIssue f) := by
  have hline (n : Nat) : (s.fetchLine f n).Wf := State.wf_fetchLine hs f n
  have htrap (n : Nat) (c : Cause) (v : Nat) (b : Bool) : OutWf ((s.fetchLine f n).unitTrap c v b) := outWf_unitTrap (hline n) c v b
  unfold State.fetchIssue
  dsimp only
  split
  · exact outWf_unitTrap hs _ _ _
  · refine .ite ?_ (.ite (htrap _ _ _ _) (.ite (htrap _ _ _ _) ?_))
    · split
      · exact htrap _ _ _ _
      · refine .ite (htrap _ _ _ _) (.ite (htrap _ _ _ _) (.ite (htrap _ _ _ _) (.ite (htrap _ _ _ _) (.ite (htrap _ _ _ _) ?_))))
        split
        · exact outWf_issue (hline _) _ (outWf_runPair (hline _) _ _)
        · exact htrap _ _ _ _
    · split
      · exact outWf_issue (hline _) _ (outWf_runLone (hline _) _)
      · exact htrap _ _ _ _

/-! ### A turn of a core, and a step -/

theorem State.wf_takeImprecise (c : Cause) (v : Word) : (s.takeImprecise c v).Wf := by
  have htrap : (s.takeTrap c v s.t.pc true false).Wf := State.wf_takeTrap hs _ _ _ _ _
  unfold State.takeImprecise
  refine State.wf_finishTurn ?_ _ _ _
  exact State.wf_ite _ (State.wf_updMe htrap _) htrap

/-- What a firing that is not blocked does: its due trap, its pending imprecise trap, or its next unit. -/
theorem outWf_goOn (f : Firing) : OutWf
    (match s.dueTrap, s.dueImprecise with
      | some (c, v, pc), _ => .next ((s.takeDue c v pc).finishTurn 0 false false)
      | none, some (c, v) => .next (s.takeImprecise c v)
      | none, none => s.fetchIssue f) := by
  split
  · exact .next (State.wf_finishTurn (State.wf_takeDue hs _ _ _) _ _ _)
  · exact .next (State.wf_takeImprecise hs _ _)
  · exact outWf_fetchIssue hs f

theorem outWf_coreTurn : OutWf s.coreTurn := by
  unfold State.coreTurn
  refine .ite (.next hs) (.ite (outWf_preEmption hs) ?_)
  split
  · exact .ite (.ite (.next (State.wf_settle hs)) (.next (State.wf_commit hs _))) (.ite (.next hs) (outWf_goOn hs _))
  · exact .next (State.wf_commit hs _)
  · exact outWf_issueChoice hs
  · exact .ite (.next hs) (outWf_goOn hs _)

theorem State.wf_beginTurn (t : Turn) : (s.beginTurn t).Wf := hs.of_mem (s.beginTurn_mem t)

theorem outWf_runTurn (act : Option Instr) : OutWf (s.runTurn act) := by
  unfold State.runTurn
  split
  · exact .ite (outWf_exec hs _) (outWf_coreTurn hs)
  · exact outWf_coreTurn hs

theorem State.wf_agenda (l : List Turn) : ({ s with agenda := l } : State).Wf := hs

theorem outWf_step : OutWf (step s) := by
  unfold step
  split
  · exact outWf_runTurn (State.wf_beginTurn hs _) _
  · exact outWf_runTurn (State.wf_beginTurn (State.wf_agenda hs _) _) _

end Issue

/-- Settles O60: bytes of memory change by `State.poke` and by filtering alone, which keep the canonical form (`State.wf_poke`,
`Memory.wf_filter`); every operation, instruction, step of the device and turn is composed of these. -/
theorem memoryWfStep : Obligations.MemoryWfStep := by
  unfold Obligations.MemoryWfStep
  intro s t hs hstep
  exact outWf_step hs t hstep

end Sys2Proof.Machine
end
end
